-- ==== Sys2Proof/Word.lean ====
section
/-! DEFINITION. The word types of the Adeas architecture (R3, R7, R167, R168) and the type of sparse maps. -/

namespace Sys2Proof

/-- A 64-bit general register's contents. -/
abbrev Word := BitVec 64

/-- A byte. -/
abbrev Byte := BitVec 8

/-- A vector register's contents: 128 bytes (R167). -/
abbrev Vec := BitVec 1024

/-- A mask register's contents: 128 bits (R168). -/
abbrev Mask := BitVec 128

/-- A sparse map from numbers, kept as a list of pairs with keys strictly rising. -/
abbrev AMap (α : Type) := List (Nat × α)

end Sys2Proof
end

