-- ==== Sys2Proof/Machine/Store.lean ====
section
/-! DEFINITION. Sparse maps (lists of pairs, keys strictly rising) and byte memory in canonical form. -/

namespace Sys2Proof

/-- The value at a key, if the map lists it. -/
def AMap.find {α : Type} : AMap α → Nat → Option α
  | [], _ => none
  | (k, v) :: rest, a => if k = a then some v else AMap.find rest a

/-- The map with a key set. -/
def AMap.put {α : Type} : AMap α → Nat → α → AMap α
  | [], a, x => [(a, x)]
  | (k, v) :: rest, a, x =>
    if a < k then (a, x) :: (k, v) :: rest
    else if a = k then (a, x) :: rest
    else (k, v) :: AMap.put rest a x

/-- The map without a key. -/
def AMap.del {α : Type} : AMap α → Nat → AMap α
  | [], _ => []
  | (k, v) :: rest, a => if k = a then AMap.del rest a else (k, v) :: AMap.del rest a

/-- Keys strictly rising, from a lower bound on. -/
def AMap.sortedFrom {α : Type} : Nat → AMap α → Bool
  | _, [] => true
  | lo, (k, _) :: rest => lo ≤ k && AMap.sortedFrom (k + 1) rest

namespace Machine

/-- Byte memory: the cells that do not hold 0, by rising address. -/
abbrev Memory := List Host.Cell

/-- What an address that is not listed reads as (log 3). -/
def Memory.background : Byte := 0

/-- The byte at an address. -/
def Memory.read (m : Memory) (a : Nat) : Byte := (AMap.find m a).getD Memory.background

/-- The memory with one byte written. -/
def Memory.write (m : Memory) (a : Nat) (b : Byte) : Memory :=
  if b = Memory.background then AMap.del m a else AMap.put m a b

/-- Canonical form: addresses strictly rising, and no entry equal to what an unlisted address reads as. -/
def Memory.wf (m : Memory) : Bool := AMap.sortedFrom 0 m && m.all (fun c => c.2 != Memory.background)

/-- n bytes from an address on. -/
def Memory.readN (m : Memory) (a : Nat) : Nat → List Byte
  | 0 => []
  | n + 1 => m.read a :: Memory.readN m (a + 1) n

/-- The bytes of a list written from an address on. -/
def Memory.writeN (m : Memory) (a : Nat) : List Byte → Memory
  | [] => m
  | b :: bs => Memory.writeN (m.write a b) (a + 1) bs

/-- The little-endian number of a byte string (R3). -/
def ofBytes : List Byte → Nat
  | [] => 0
  | b :: bs => b.toNat + 256 * ofBytes bs

/-- The n lowest bytes of a number, lowest first (R3). -/
def toBytes : Nat → Nat → List Byte
  | 0, _ => []
  | n + 1, v => BitVec.ofNat 8 v :: toBytes n (v / 256)

/-- A number list as a set: sorted, no repeats. -/
def setInsert (l : List Nat) (n : Nat) : List Nat :=
  match l with
  | [] => [n]
  | x :: xs => if n < x then n :: x :: xs else if n = x then x :: xs else x :: setInsert xs n

/-- A number list without one number. -/
def setErase (l : List Nat) (n : Nat) : List Nat := l.filter (· ≠ n)

/-- 2^k times x, for a k of either sign, as a numerator and a denominator. -/
def pow2 (k : Int) : Nat × Nat := if k ≥ 0 then (2 ^ k.toNat, 1) else (1, 2 ^ (-k).toNat)

end Machine

end Sys2Proof
end

