-- ==== Sys2Proof/Machine/Num.lean ====
section
/-! DEFINITION. Number formats (chapter 3): decoding to exact values, exact arithmetic, the one rounding of R66 with the
overflow and special cases of R68, the wide format (R73), integers (R63), requantisation (R72) and the stochastic
generator (R69). -/

namespace Sys2Proof.Machine

/-- An exact value: a signed fraction p/q (q is not 0; p = 0 is a signed zero), an infinity, or NaN (R59). -/
inductive Val where
  | nan
  | inf (neg : Bool)
  | fin (neg : Bool) (p q : Nat)
deriving DecidableEq, Repr

/-- The rounding modes of R67. -/
inductive RMode where
  | rne
  | rtz
  | rdn
  | rup
  | rs
deriving DecidableEq, Repr

/-- RM (R67); the values 5 to 7 are illegal before they get here. -/
def RMode.of : Nat → RMode
  | 0 => .rne
  | 1 => .rtz
  | 2 => .rdn
  | 3 => .rup
  | _ => .rs

/-- What a format does with infinities and overflow (R58, R68). -/
inductive FKind where
  /-- Infinities and NaNs at the top exponent; overflow goes by the rounding mode. -/
  | ieee
  /-- As `ieee`, but a finite overflow gives the largest finite value (E5M2). -/
  | e5m2
  /-- No infinity; one NaN pattern (E4M3). -/
  | e4m3
  /-- Neither infinity nor NaN (E2M1). -/
  | e2m1
  /-- The unsigned block scale. -/
  | e3m5
deriving DecidableEq, Repr

/-- A floating-point format (R58). -/
structure FFmt where
  /-- The sign's bit position, which is the number of exponent and fraction bits. -/
  sign : Nat
  /-- Precision: the fraction bits and the hidden bit. -/
  p : Nat
  bias : Nat
  kind : FKind
  /-- The largest finite value, as a significand and an exponent of 2. -/
  maxN : Nat
  maxE : Int
  canonNan : Nat
deriving DecidableEq, Repr

def fFp32 : FFmt := ⟨31, 24, 127, .ieee, 2 ^ 24 - 1, 104, 0x7FC00000⟩
def fBf16 : FFmt := ⟨15, 8, 127, .ieee, 2 ^ 8 - 1, 120, 0x7FC0⟩
def fFp16 : FFmt := ⟨15, 11, 15, .ieee, 2 ^ 11 - 1, 5, 0x7E00⟩
def fE4m3 : FFmt := ⟨7, 4, 7, .e4m3, 448, 0, 0x7F⟩
def fE5m2 : FFmt := ⟨7, 3, 15, .e5m2, 57344, 0, 0x7E⟩
def fE2m1 : FFmt := ⟨3, 2, 1, .e2m1, 6, 0, 0⟩
def fE3m5 : FFmt := ⟨8, 6, 3, .e3m5, 31, 0, 0xFF⟩

/-- The format of a code of R56; the block-scaled codes name their element's format. -/
def floatFmt : Nat → FFmt
  | 0 => fFp32
  | 1 => fBf16
  | 2 => fFp16
  | 3 => fE4m3
  | 4 => fE5m2
  | 5 => fE4m3
  | 6 => fE5m2
  | _ => fE2m1

/-- The smallest exponent of a normal value (R58). -/
def FFmt.emin (f : FFmt) : Int := 1 - (f.bias : Int)

/-- The exponent field's width. -/
def FFmt.ebits (f : FFmt) : Nat := f.sign - (f.p - 1)

/-- The value of a fraction n · 2^k. -/
def Val.scaled (neg : Bool) (n : Nat) (k : Int) : Val := .fin neg (n * (pow2 k).1) (pow2 k).2

/-- Decode(fmt, bits) (R59). -/
def FFmt.decode (f : FFmt) (bits : Nat) : Val :=
  let fb := f.p - 1
  let fr : Nat := bits % 2 ^ fb
  let ex : Nat := bits / 2 ^ fb % 2 ^ f.ebits
  let neg : Bool := if f.kind = .e3m5 then false else bits / 2 ^ f.sign % 2 = 1
  let top := ex = 2 ^ f.ebits - 1
  let finite : Val :=
    if ex = 0 then Val.scaled neg fr (f.emin - fb) else Val.scaled neg (2 ^ fb + fr) ((ex : Int) - f.bias - fb)
  match f.kind with
  | .ieee => if top then (if fr = 0 then .inf neg else .nan) else finite
  | .e5m2 => if top then (if fr = 0 then .inf neg else .nan) else finite
  | .e4m3 => if top && fr = 2 ^ fb - 1 then .nan else finite
  | .e2m1 => finite
  | .e3m5 => if top && fr = 2 ^ fb - 1 then .nan else finite

/-! ## Exact arithmetic (R61, R62) -/

def Val.neg : Val → Val
  | .nan => .nan
  | .inf s => .inf (!s)
  | .fin s p q => .fin (!s) p q

def Val.isNan : Val → Bool
  | .nan => true
  | _ => false

def Val.isFinite : Val → Bool
  | .fin _ _ _ => true
  | _ => false

def Val.isZero : Val → Bool
  | .fin _ p _ => p = 0
  | _ => false

/-- The exact product; the sign of a zero is the product of the signs. -/
def Val.mul : Val → Val → Val
  | .nan, _ => .nan
  | _, .nan => .nan
  | .inf s, .inf t => .inf (s != t)
  | .inf s, .fin t p _ => if p = 0 then .nan else .inf (s != t)
  | .fin s p _, .inf t => if p = 0 then .nan else .inf (s != t)
  | .fin s p q, .fin t p' q' => .fin (s != t) (p * p') (q * q')

/-- The exact quotient (R62). -/
def Val.div : Val → Val → Val
  | .nan, _ => .nan
  | _, .nan => .nan
  | .inf _, .inf _ => .nan
  | .inf s, .fin t _ _ => .inf (s != t)
  | .fin s _ _, .inf t => .fin (s != t) 0 1
  | .fin s p q, .fin t p' q' =>
    if p' = 0 then (if p = 0 then .nan else .inf (s != t)) else .fin (s != t) (p * q') (q * p')

/-- A signed numerator. -/
def signedNum (neg : Bool) (p : Nat) : Int := if neg then -(p : Int) else p

/-- The exact sum of two addends; `rdn` says whether the mode is RDN, which signs an exact zero (R61). -/
def Val.add (rdn : Bool) : Val → Val → Val
  | .nan, _ => .nan
  | _, .nan => .nan
  | .inf s, .inf t => if s = t then .inf s else .nan
  | .inf s, .fin _ _ _ => .inf s
  | .fin _ _ _, .inf t => .inf t
  | .fin s p q, .fin t p' q' =>
    if p = 0 && p' = 0 then .fin (if s = t then s else rdn) 0 1
    else
      let g := Nat.gcd q q'
      let n : Int := signedNum s (p * (q' / g)) + signedNum t (p' * (q / g))
      if n = 0 then .fin rdn 0 1 else .fin (n < 0) n.natAbs (q / g * q')

/-- The exact sum of addends. When every addend is a zero of one sign, so is the sum; any other zero sum is −0 under RDN
and +0 otherwise (R61): adding in turn keeps that sign. -/
def Val.sum (rdn : Bool) : List Val → Val
  | [] => .fin false 0 1
  | v :: vs => vs.foldl (Val.add rdn) v

/-- Order of the values of finite or infinite operands: a < b. False with a NaN; +0 equals −0. -/
def Val.lt : Val → Val → Bool
  | .nan, _ => false
  | _, .nan => false
  | .inf s, .inf t => s && !t
  | .inf s, .fin _ _ _ => s
  | .fin _ _ _, .inf t => !t
  | .fin s p q, .fin t p' q' => signedNum s (p * q') < signedNum t (p' * q)

/-- a = b as values (R176). -/
def Val.eq : Val → Val → Bool
  | .nan, _ => false
  | _, .nan => false
  | .inf s, .inf t => s = t
  | .fin s p q, .fin t p' q' => signedNum s (p * q') = signedNum t (p' * q)
  | _, _ => false

def Val.abs : Val → Val
  | .nan => .nan
  | .inf _ => .inf false
  | .fin _ p q => .fin false p q

/-! ## Rounding -/

/-- ⌊log₂ (p/q)⌋ for p, q not 0. -/
def floorLog2 (p q : Nat) : Int :=
  let e := (Nat.log2 p : Int) - Nat.log2 q
  let (n, d) := pow2 e
  if p * d < q * n then e - 1 else e

/-- The quotient of p/q by the spacing 2^k: its integer part, the remainder and the divisor. -/
def gridQuot (p q : Nat) (k : Int) : Nat × Nat × Nat :=
  let (n, d) := pow2 k
  let num := p * d
  let den := q * n
  (num / den, num % den, den)

/-- The rounded integer part (R66): n, remainder r of divisor den, sign s, draw rnd. -/
def roundQuot (rm : RMode) (s : Bool) (rnd n r den : Nat) : Nat :=
  match rm with
  | .rne => if 2 * r > den || (2 * r = den && n % 2 = 1) then n + 1 else n
  | .rtz => n
  | .rdn => if r > 0 && s then n + 1 else n
  | .rup => if r > 0 && !s then n + 1 else n
  | .rs => if r * 2 ^ 32 > rnd * den then n + 1 else n

/-- The sign bit in place. -/
def FFmt.signBit (f : FFmt) (s : Bool) : Nat := if s && f.kind != .e3m5 then 2 ^ f.sign else 0

/-- The pattern of ±∞ (R58). -/
def FFmt.infBits (f : FFmt) (s : Bool) : Nat := f.signBit s + (2 ^ f.ebits - 1) * 2 ^ (f.p - 1)

/-- The pattern of n · 2^(e − P + 1), n at most 2^P (R66). -/
def FFmt.encode (f : FFmt) (s : Bool) (n : Nat) (e : Int) : Nat :=
  let h := 2 ^ (f.p - 1)
  if n < h then f.signBit s + n
  else if n < 2 * h then f.signBit s + (e + f.bias).toNat * h + (n - h)
  else f.signBit s + (e + 1 + f.bias).toNat * h

/-- The largest finite value with a sign. -/
def FFmt.maxBits (f : FFmt) (s : Bool) : Nat :=
  let e := floorLog2 (f.maxN * (pow2 f.maxE).1) (pow2 f.maxE).2
  f.encode s (gridQuot (f.maxN * (pow2 f.maxE).1) (pow2 f.maxE).2 (e - f.p + 1)).1 e

/-- Overflow(fmt, rm, ovf, s) (R68). -/
def FFmt.overflow (f : FFmt) (rm : RMode) (ovf : Nat) (s : Bool) : Nat :=
  if ovf = 1 then f.maxBits s
  else if ovf = 2 then f.canonNan
  else match f.kind with
    | .ieee =>
      match rm with
      | .rne => f.infBits s
      | .rs => f.infBits s
      | .rtz => f.maxBits s
      | .rup => if s then f.maxBits s else f.infBits s
      | .rdn => if s then f.infBits s else f.maxBits s
    | _ => f.maxBits s

/-- Special(fmt, ovf, v) for an infinity (R68). -/
def FFmt.specialInf (f : FFmt) (ovf : Nat) (s : Bool) : Nat :=
  match f.kind with
  | .ieee => f.infBits s
  | .e5m2 => f.infBits s
  | .e4m3 => if ovf = 2 then f.canonNan else f.maxBits s
  | .e2m1 => f.maxBits s
  | .e3m5 => f.maxBits s

/-- Round(fmt, rm, ovf, v) with the draw rnd (R66). -/
def FFmt.round (f : FFmt) (rm : RMode) (ovf rnd : Nat) (v : Val) : Nat :=
  match v with
  | .nan => f.canonNan
  | .inf s => f.specialInf ovf s
  | .fin s p q =>
    if p = 0 then f.signBit s
    else
      let l := floorLog2 p q
      let e := if l < f.emin then f.emin else l
      let k := e - f.p + 1
      let (n, r, den) := gridQuot p q k
      let n' := roundQuot rm s rnd n r den
      -- n' · 2^k > MAXF
      let (a, b) := pow2 k
      let (c, d) := pow2 f.maxE
      if n' * a * d > f.maxN * c * b then f.overflow rm ovf s else f.encode s n' e

/-- RoundRNE(fmt, v). -/
def FFmt.roundRne (f : FFmt) (v : Val) : Nat := f.round .rne 0 0 v

/-- A floating-point value rounded to an integer and saturated to w bits (R63). -/
def toIntSat (w : Nat) (rm : RMode) (rnd : Nat) (v : Val) : Int :=
  let hi : Int := 2 ^ (w - 1) - 1
  let lo : Int := -(2 ^ (w - 1))
  match v with
  | .nan => 0
  | .inf s => if s then lo else hi
  | .fin s p q =>
    let n := roundQuot rm s rnd (p / q) (p % q) q
    Min.min (Max.max (signedNum s n) lo) hi

/-- An integer as an exact value. -/
def Val.ofInt (n : Int) : Val := .fin (n < 0) n.natAbs 1

/-! ## The wide accumulator format (R58, R73, R74) -/

/-- Decode of a wide pattern: E = 0 is the zero of its sign, whatever F holds (R59). -/
def wideDecode (b : BitVec 40) : Val :=
  let n := b.toNat
  let neg : Bool := n / 2 ^ 39 % 2 = 1
  let ex : Nat := n / 2 ^ 31 % 2 ^ 8
  let fr : Nat := n % 2 ^ 31
  if ex = 0 then .fin neg 0 1
  else if ex = 255 then (if fr = 0 then .inf neg else .nan)
  else Val.scaled neg (2 ^ 31 + fr) ((ex : Int) - 127 - 31)

/-- RoundWide(v) (R73). -/
def roundWide (v : Val) : BitVec 40 :=
  match v with
  | .nan => 0x7FC0000000
  | .inf s => BitVec.ofNat 40 ((if s then 2 ^ 39 else 0) + 255 * 2 ^ 31)
  | .fin s p q =>
    let sb := if s then 2 ^ 39 else 0
    if p = 0 then BitVec.ofNat 40 sb
    else
      let e : Int := floorLog2 p q
      let (n, r, den) := gridQuot p q (e - 31)
      let n' := roundQuot .rne s 0 n r den
      let (m, e') := if n' = 2 ^ 32 then (2 ^ 31, e + 1) else (n', e)
      if e' ≥ 128 then BitVec.ofNat 40 (sb + 255 * 2 ^ 31)
      else if e' < -126 then BitVec.ofNat 40 sb
      else BitVec.ofNat 40 (sb + (e' + 127).toNat * 2 ^ 31 + (m - 2 ^ 31))

/-! ## Square roots, exponentials, logarithms (R180)

The functions are exact; their irrational values are bracketed: what is returned is a fraction between which and the true
value no rounding boundary lies. -/

/-- ⌊√n⌋, bit by bit from bit `i − 1` down. -/
def isqrtFrom (n : Nat) : Nat → Nat → Nat
  | 0, acc => acc
  | i + 1, acc =>
    let t := acc + 2 ^ i
    isqrtFrom n i (if t * t ≤ n then t else acc)

/-- ⌊√n⌋. -/
def isqrt (n : Nat) : Nat := isqrtFrom n (Nat.log2 n / 2 + 1) 0

/-- √(p/q), exact when it is rational at this precision, otherwise half a step of 2^−160 (relative) above its floor. -/
def sqrtVal (p q : Nat) : Val :=
  -- √(p/q) = √(p·q)/q
  let n := p * q * 2 ^ 640
  let r := isqrt n
  if r * r = n then .fin false r (q * 2 ^ 320) else .fin false (2 * r + 1) (q * 2 ^ 321)

/-- The bits of log₂ m, m/2^512 in [1, 2), most significant first: value and remaining steps. -/
def log2Bits : Nat → Nat → Nat → Nat
  | 0, _, acc => acc
  | i + 1, m, acc =>
    let s := m * m / 2 ^ 512
    if s ≥ 2 ^ 513 then log2Bits i (s / 2) (2 * acc + 1) else log2Bits i s (2 * acc)

/-- log₂ (p/q) for p/q > 0. -/
def log2Val (p q : Nat) : Val :=
  let e := floorLog2 p q
  let (n, d) := pow2 e
  if p * d = q * n then Val.ofInt e
  else
    let m := p * d * 2 ^ 512 / (q * n)
    let f := log2Bits 160 m 0
    -- e + (f + 1/2) / 2^160
    let num : Int := e * 2 ^ 161 + (2 * f + 1)
    .fin (num < 0) num.natAbs (2 ^ 161)

/-- 2^f for the bits of f below the point, most significant first, with c = 2^(2^−i) in 512-bit fixed point. -/
def exp2Bits : List Bool → Nat → Nat → Nat
  | [], _, acc => acc
  | b :: bs, c, acc =>
    let c' := isqrt (c * 2 ^ 512)
    exp2Bits bs c' (if b then acc * c' / 2 ^ 512 else acc)

/-- The k lowest bits of n, most significant first. -/
def bitsDown (n : Nat) : Nat → List Bool
  | 0 => []
  | k + 1 => n.testBit k :: bitsDown n k

/-- 2^x for a finite x = ±p/q, q a power of two. -/
def exp2Val (neg : Bool) (p q : Nat) : Val :=
  let k := Nat.log2 q
  let x : Int := signedNum neg p
  let i := x / (q : Int)
  let f := (x % (q : Int)).toNat
  -- exponents far outside every format need no more than their side
  if i > 4096 then Val.scaled false 3 4096
  else if i < -4096 then Val.scaled false 3 (-4096)
  else if f = 0 then Val.scaled false 1 i
  else
    let m := exp2Bits (bitsDown f k) (2 ^ 513) (2 ^ 512)
    Val.scaled false (2 * m + 1) (i - 513)

/-! ## The stochastic generator (R69, R70) -/

/-- One step of the generator: the new SEED. -/
def srStep (x : Word) : Word :=
  let x := x ^^^ (x <<< 13)
  let x := x ^^^ (x >>> 7)
  x ^^^ (x <<< 17)

/-- The draw that a new SEED gives. -/
def srDraw (x : Word) : Nat := x.toNat / 2 ^ 32

/-- SEED after n draws, and the draws in order. -/
def srDraws (x : Word) : Nat → Word × List Nat
  | 0 => (x, [])
  | n + 1 =>
    let x' := srStep x
    let (y, l) := srDraws x' n
    (y, srDraw x' :: l)

/-- The value that a write of 0 to SEED stores (R69). -/
def seedDefault : Word := 0x9E3779B97F4A7C15

/-! ## Requantisation (R72, R183) -/

/-- The smallest E3M5 code, from a code up, whose value is not less than m. -/
def scaleSearch (m : Val) : Nat → Nat → Nat
  | 0, _ => 0xFE
  | fuel + 1, c => if (fE3m5.decode c).lt m then scaleSearch m fuel (c + 1) else c

/-- The largest of the magnitudes of values. -/
def maxAbs (l : List Val) : Val := l.foldl (fun m v => if m.lt v.abs then v.abs else m) (.fin false 0 1)

/-- Requantise values to one block: the scale and the codes. `top` is 6 for FP4 and MAXF(BFMT) for FP8 (R183); the draws are
one for each element, used under RS only. -/
def requantise (f : FFmt) (top : Nat) (rm : RMode) (draws : List Nat) (b : Val) (xs : List Val) : Nat × List Nat :=
  if !b.isFinite || b.isZero || xs.any (fun x => !x.isFinite) then (0xFF, xs.map (fun _ => 0))
  else
    let ys := xs.map (fun x => x.div b)
    let m := maxAbs ys
    if m.isZero then (0, ys.map (fun y => f.round .rne 1 0 y))
    else
      let s := scaleSearch (m.div (Val.ofInt top)) 254 1
      let sv := fE3m5.decode s
      (s, (ys.zip (draws ++ xs.map (fun _ => 0))).map (fun (y, d) => f.round rm 1 d (y.div sv)))

/-- The element value of a block (R64): NaN when the scale is 0xFF, the band scale is not finite, or `blockNan`. -/
def blockElem (f : FFmt) (blockNan : Bool) (code scale : Nat) (band : Val) : Val :=
  if scale = 0xFF || !band.isFinite || blockNan then .nan
  else ((f.decode code).mul (fE3m5.decode scale)).mul band

end Sys2Proof.Machine
end

