-- ==== Sys2Proof/Machine/Flags.lean ====
section
/-! DEFINITION. The computations of conditions. No instruction keeps a carry, an overflow or any other flag (R62, R121); what
other machines hold in flags is a value here: the comparisons (R129, R135, R176), saturation (R127, R174) and counts (R132). -/

namespace Sys2Proof.Machine

/-- 1 or 0 (R129). -/
def boolWord (b : Bool) : Word := if b then 1 else 0

/-- Sext(x) < Sext(y). -/
def ltS (x y : Word) : Bool := x.toInt < y.toInt

/-- Zext(x) < Zext(y). -/
def ltU (x y : Word) : Bool := x.toNat < y.toNat

/-- An integer saturated to w bits, signed (R127, R174). -/
def satInt (w : Nat) (v : Int) : Int := Min.min (Max.max v (-(2 ^ (w - 1)))) (2 ^ (w - 1) - 1)

/-- Zero bits above the highest one bit (R132). -/
def clzW (x : Word) : Nat := if x = 0 then 64 else 63 - Nat.log2 x.toNat

/-- Zero bits below the lowest one bit (R132). -/
def ctzW (x : Word) : Nat := ((List.range 64).find? (fun i => x.getLsbD i)).getD 64

/-- One bits among the n lowest bits of a number (R132, R156, R177). -/
def popcount (x n : Nat) : Nat := ((List.range n).filter (fun i => x.testBit i)).length

end Sys2Proof.Machine
end

