-- ==== Sys2Proof/Syntax.lean ====
section
/-! DEFINITION. The instructions: one constructor for each row of the table of operations and events. The first 193 are
the encoded instructions of R95, each with the fields its layout has (R80, R82, R85); the others are the steps that the
engines, the dispatcher, the directories, the host, the links and the service controllers perform whole. -/

namespace Sys2Proof

/-- The operand fields of a form-R instruction (R80, R82, R85), under the names R86 gives them. `ext` says that words 1
and 2 are present; when they are not, `c e g gn m x` are 0. `lit` is the literal when LEN is 2 or 3. -/
structure R where
  /-- STL, the stall count (R77, R88). -/
  stl : BitVec 3
  /-- LEN is 1 or 3 (R77). -/
  ext : Bool
  /-- The literal (R85). -/
  lit : Option Word
  d : BitVec 6
  a : BitVec 6
  b : BitVec 6
  c : BitVec 6
  e : BitVec 6
  /-- The guard register (R84). -/
  g : BitVec 6
  /-- Guard negate. -/
  gn : Bool
  /-- The modifier bits. -/
  m : BitVec 13
  /-- Word 2. -/
  x : BitVec 32
deriving DecidableEq, Repr

/-- The kinds of agent that run programs (R14, R30). -/
inductive AKind where
  | compute
  | spindle
  | gateway
deriving DecidableEq, Repr

/-- An agent that runs programs: its kind and its number within the kind (R14). -/
structure Agent where
  kind : AKind
  num : Nat
deriving DecidableEq, Repr

/-- The arbiters of R396. -/
inductive Arbiter where
  /-- The issue arbiter of an agent. -/
  | issue (agent : Agent)
  /-- The port of a tile-cache slice. -/
  | slice (n : Nat)
  /-- A device-memory channel. -/
  | channel (n : Nat)
  /-- A router output port. -/
  | port (router out : Nat)
  /-- A die boundary (0: 0-1, 1: 2-3, 2: 0-2, 3: 1-3) in one direction. -/
  | boundary (n : Nat) (up : Bool)
  /-- A scale-up link in one direction. -/
  | link (n : Nat) (out : Bool)
deriving DecidableEq, Repr

/-- The registers that the host reaches through BAR0 (R410) or through the DVSEC (R429). -/
inductive HostReg where
  | jqbase (vd q : Nat)
  | jqctl (vd q : Nat)
  | vdctl (vd : Nat)
  | shr (vd c : Nat)
  | waymsk (vd slice : Nat)
  | coresel (core : Nat)
  | gwavail
  | vdtab (vd : Nat)
  | vdasid (vd : Nat)
  | vdrdir (vd : Nat)
  | dspcfg (vd : Nat)
  | jsbase (vd : Nat)
  | spool (vd : Nat)
  | rbctl
  | kbctl
  | dspcmd
  | gwctl (n : Nat)
  /-- Word w of format region register r of spindle n (R290). -/
  | frr (n r w : Nat)
  | svccmd
  | errbase
  | errctl
  | xlinv0
  | xlinv1
  | thwarn
  /-- The eight bytes at an offset of BAR0, of a VD's virtual function or of the physical function: written, or read (R410). -/
  | bar0 (vf : Option Nat) (off : Nat) (read : Bool)
deriving DecidableEq, Repr

/-- A firmware image as the boot ROM meets it (R445): the header fields; the hashes of the public keys it comes with, and whether each
signature verifies under its key; the reserved bytes; and the digests of its own contents and of the controllers of dies 1 to 3 (R446). -/
structure Image where
  magic : BitVec 32
  headerVersion : Nat
  securityVersion : Nat
  keySlot : Nat
  ecdsaVerifies : Bool
  lmsVerifies : Bool
  /-- The image length in bytes. -/
  length : Nat := 0
  /-- The 28 reserved bytes, as a number. -/
  reserved : Nat := 0
  ecdsaKey : Nat := 0
  lmsKey : Nat := 0
  digest : Nat := 0
  dies : List Nat := []
deriving DecidableEq, Repr

/-- What carries shadow latches (R428). -/
inductive Latched where
  | agent (a : Agent)
  /-- The tile-cache slice beside a spindle. -/
  | slice (n : Nat)
  | router (n : Nat)
deriving DecidableEq, Repr

/-- The SPDM requests of R446. -/
inductive Spdm where
  /-- CHALLENGE with the requester's nonce. -/
  | challenge (nonce : Nat)
  /-- GET_MEASUREMENTS of one index, signed or not. -/
  | measurement (index : Nat) (signed : Bool) (nonce : Nat)
  /-- KEY_EXCHANGE. -/
  | keyExchange (nonce : Nat)
deriving DecidableEq, Repr

/-- The ports whose link can go down (R414, R436). -/
inductive Port where
  | cxl (w : Nat)
  | link (n : Nat)
deriving DecidableEq, Repr

/-- The instructions and steps of the machine. -/
inductive Instr where

  /-- ADD (R127): Writes the 64-bit wrapping sum of gA and gB (or a literal) to gD. -/
  | add (r : R)
  /-- SUB (R127): Writes the 64-bit wrapping difference gA minus gB to gD. -/
  | sub (r : R)
  /-- ADDS (R127): Writes the signed sum of gA and gB, saturated to 64 bits, to gD. -/
  | adds (r : R)
  /-- SUBS (R127): Writes the signed difference of gA and gB, saturated to 64 bits, to gD. -/
  | subs (r : R)
  /-- AND (R127): Writes the bitwise AND of gA and gB to gD. -/
  | and_ (r : R)
  /-- OR (R127): Writes the bitwise OR of gA and gB to gD. -/
  | or_ (r : R)
  /-- XOR (R127): Writes the bitwise XOR of gA and gB to gD. -/
  | xor (r : R)
  /-- ANDN (R127): Writes gA AND NOT gB to gD. -/
  | andn (r : R)
  /-- SHL (R127): Shifts gA left by the low six bits of gB and writes the result to gD. -/
  | shl (r : R)
  /-- SHR (R127): Shifts gA right logically by the low six bits of gB and writes the result to gD. -/
  | shr (r : R)
  /-- SAR (R127): Shifts gA right arithmetically by the low six bits of gB and writes the result to gD. -/
  | sar (r : R)
  /-- ROR (R127): Rotates gA right by the low six bits of gB and writes the result to gD. -/
  | ror (r : R)
  /-- MUL (R127): Writes the low 64 bits of the product of gA and gB to gD, with latency 3. -/
  | mul (r : R)
  /-- MULH (R127): Writes the high 64 bits of the signed product of gA and gB to gD. -/
  | mulh (r : R)
  /-- MULHU (R127): Writes the high 64 bits of the unsigned product of gA and gB to gD. -/
  | mulhu (r : R)
  /-- DIV (R127): Starts a signed division on the core's divider; the quotient truncates toward zero and division by zero gives all ones. -/
  | div (r : R)
  /-- DIVU (R127): Starts an unsigned division on the core's divider. -/
  | divu (r : R)
  /-- REM (R127): Starts a signed remainder; the remainder takes the sign of the dividend. -/
  | rem (r : R)
  /-- REMU (R127): Starts an unsigned remainder. -/
  | remu (r : R)
  /-- ADDI (R128): Adds the sign-extended IMM8 to gA and writes the sum to gD. -/
  | addi (stl : BitVec 3) (d : BitVec 6) (a : BitVec 6) (imm : BitVec 8)
  /-- ANDI (R128): ANDs gA with the sign-extended IMM8 and writes the result to gD. -/
  | andi (stl : BitVec 3) (d : BitVec 6) (a : BitVec 6) (imm : BitVec 8)
  /-- ORI (R128): ORs gA with the sign-extended IMM8 and writes the result to gD. -/
  | ori (stl : BitVec 3) (d : BitVec 6) (a : BitVec 6) (imm : BitVec 8)
  /-- XORI (R128): XORs gA with the sign-extended IMM8 and writes the result to gD. -/
  | xori (stl : BitVec 3) (d : BitVec 6) (a : BitVec 6) (imm : BitVec 8)
  /-- SHLI (R128): Shifts gA left by IMM8 (0 to 63). -/
  | shli (stl : BitVec 3) (d : BitVec 6) (a : BitVec 6) (imm : BitVec 8)
  /-- SHRI (R128): Shifts gA right logically by IMM8 (0 to 63). -/
  | shri (stl : BitVec 3) (d : BitVec 6) (a : BitVec 6) (imm : BitVec 8)
  /-- SARI (R128): Shifts gA right arithmetically by IMM8 (0 to 63). -/
  | sari (stl : BitVec 3) (d : BitVec 6) (a : BitVec 6) (imm : BitVec 8)
  /-- CEQI (R128): Writes 1 to gD if gA equals the sign-extended IMM8, else 0. -/
  | ceqi (stl : BitVec 3) (d : BitVec 6) (a : BitVec 6) (imm : BitVec 8)
  /-- CLTI (R128): Writes 1 to gD if gA is signed-less than IMM8, else 0. -/
  | clti (stl : BitVec 3) (d : BitVec 6) (a : BitVec 6) (imm : BitVec 8)
  /-- CLTUI (R128): Writes 1 to gD if gA is unsigned-less than the sign-extended IMM8, else 0. -/
  | cltui (stl : BitVec 3) (d : BitVec 6) (a : BitVec 6) (imm : BitVec 8)
  /-- CEQ (R129): Writes 1 to gD if gA equals gB, else 0. -/
  | ceq (r : R)
  /-- CNE (R129): Writes 1 to gD if gA differs from gB, else 0. -/
  | cne (r : R)
  /-- CLT (R129): Writes 1 to gD if gA is signed-less than gB, else 0. -/
  | clt (r : R)
  /-- CLTU (R129): Writes 1 to gD if gA is unsigned-less than gB, else 0. -/
  | cltu (r : R)
  /-- MIN (R129): Writes the signed smaller of gA and gB to gD. -/
  | min (r : R)
  /-- MAX (R129): Writes the signed larger of gA and gB to gD. -/
  | max (r : R)
  /-- MINU (R129): Writes the unsigned smaller of gA and gB to gD. -/
  | minu (r : R)
  /-- MAXU (R129): Writes the unsigned larger of gA and gB to gD. -/
  | maxu (r : R)
  /-- SEL (R130): Writes gA to gD if gC is nonzero, else gB or the literal. -/
  | sel (r : R)
  /-- BFXU (R131): Extracts the bit field at POS of width WM1+1 from gA, zero-extended, into gD. -/
  | bfxu (r : R)
  /-- BFXS (R131): Extracts the bit field at POS of width WM1+1 from gA, sign-extended, into gD. -/
  | bfxs (r : R)
  /-- BFI (R131): Inserts the low bits of gA into the field of gD, keeping gD's other bits. -/
  | bfi (r : R)
  /-- CLZ (R132): Writes the number of leading zero bits of gA to gD. -/
  | clz (r : R)
  /-- CTZ (R132): Writes the number of trailing zero bits of gA to gD. -/
  | ctz (r : R)
  /-- POPC (R132): Writes the number of one bits of gA to gD. -/
  | popc (r : R)
  /-- BSWAP (R132): Writes gA with its bytes reversed to gD. -/
  | bswap (r : R)
  /-- ADX2 (R133): Writes gA plus 2 times gB to gD. -/
  | adx2 (r : R)
  /-- ADX4 (R133): Writes gA plus 4 times gB to gD. -/
  | adx4 (r : R)
  /-- ADX8 (R133): Writes gA plus 8 times gB to gD. -/
  | adx8 (r : R)
  /-- ADX16 (R133): Writes gA plus 16 times gB to gD. -/
  | adx16 (r : R)
  /-- BR (R135): Transfers control to the PC-relative word offset OFF20. -/
  | br (stl : BitVec 3) (off : BitVec 20)
  /-- CALL (R135): Writes the link to g62 and transfers control to the PC-relative offset OFF20. -/
  | call (stl : BitVec 3) (off : BitVec 20)
  /-- BNZ (R135): Branches to the PC-relative offset OFF14 if gA is nonzero. -/
  | bnz (stl : BitVec 3) (a : BitVec 6) (off : BitVec 14)
  /-- BZ (R135): Branches to the PC-relative offset OFF14 if gA is zero. -/
  | bz (stl : BitVec 3) (a : BitVec 6) (off : BitVec 14)
  /-- LOOP (R135): Decrements gA and branches to OFF14 if the result is nonzero. -/
  | loop (stl : BitVec 3) (a : BitVec 6) (off : BitVec 14)
  /-- JMP (R135): Transfers control to the byte offset held in gA. -/
  | jmp (r : R)
  /-- JCALL (R135): Writes the next PC to gD and transfers control to the offset held in gA. -/
  | jcall (r : R)
  /-- BEQ (R135): Branches to the absolute offset in X if gA equals gB or the literal. -/
  | beq (r : R)
  /-- BNE (R135): Branches to the absolute offset in X if gA differs from gB or the literal. -/
  | bne (r : R)
  /-- BLT (R135): Branches to the absolute offset in X if gA is signed-less than gB. -/
  | blt (r : R)
  /-- BLTU (R135): Branches to the absolute offset in X if gA is unsigned-less than gB. -/
  | bltu (r : R)
  /-- END (R139): Begins retirement of the activity under R53. -/
  | end_ (r : R)
  /-- NOP (R139): Consumes an issue slot, an issue token and its stall count with no other effect. -/
  | nop (r : R)
  /-- LB (R141): Loads a sign-extended byte from local memory into gD. -/
  | lb (r : R)
  /-- LH (R141): Loads a sign-extended 16-bit value from local memory into gD. -/
  | lh (r : R)
  /-- LW (R141): Loads a sign-extended 32-bit value from local memory into gD. -/
  | lw (r : R)
  /-- LD (R141): Loads a 64-bit value from local memory into gD. -/
  | ld (r : R)
  /-- LBU (R141): Loads a zero-extended byte from local memory into gD. -/
  | lbu (r : R)
  /-- LHU (R141): Loads a zero-extended 16-bit value from local memory into gD. -/
  | lhu (r : R)
  /-- LWU (R141): Loads a zero-extended 32-bit value from local memory into gD. -/
  | lwu (r : R)
  /-- SB (R141): Stores the low byte of gB to local memory. -/
  | sb (r : R)
  /-- SH (R141): Stores the low 16 bits of gB to local memory. -/
  | sh (r : R)
  /-- SW (R141): Stores the low 32 bits of gB to local memory. -/
  | sw (r : R)
  /-- SD (R141): Stores the 64 bits of gB to local memory. -/
  | sd (r : R)
  /-- BAR_INIT (R219): Writes a stage barrier with pending bytes and arrivals and opens phase 0. -/
  | barInit (r : R)
  /-- BAR_EXP (R219): Adds bytes and arrivals to a barrier's pending counts and returns its phase. -/
  | barExp (r : R)
  /-- BAR_ARR (R219): Applies an arrival-only update to a barrier. -/
  | barArr (r : R)
  /-- BAR_INVAL (R219): Writes 16 zero bytes over a barrier after its earlier commands have updated it. -/
  | barInval (r : R)
  /-- BAR_WAIT (R220): Compares a phase token with a barrier and returns DONE or STALE, or waits at a blocking point. -/
  | barWait (r : R)
  /-- BAR_TEST (R220): Compares a phase token with a barrier and returns DONE, PENDING or STALE without waiting. -/
  | barTest (r : R)
  /-- FENCE (R223): Queues a fence that holds the activity's later copy commands until earlier reads deliver and/or writes are performed at the scope. -/
  | fence (r : R)
  /-- SLEEP (R224): Waits at a blocking point until CYCLE reaches CYCLE plus gB. -/
  | sleep (r : R)
  /-- SLEEPU (R224): Waits at a blocking point until CYCLE reaches the absolute cycle in gB. -/
  | sleepu (r : R)
  /-- MFS (R150): Reads a system register into gD. -/
  | mfs (r : R)
  /-- MTS (R150): Writes the RW fields of a system register, or takes the privileged trap. -/
  | mts (r : R)
  /-- XRET (R155): Clears XSTAT.INH and returns to XPC, or traps if not in a handler. -/
  | xret (r : R)
  /-- YIELD (R162): Leaves the issue choice at a blocking point until the dispatcher next selects the activity. -/
  | yield_ (r : R)
  /-- FREE_G (R161): Unbinds general register gA after its pending writes. -/
  | freeG (r : R)
  /-- FREE_V (R161): Unbinds vector register vA after its pending writes. -/
  | freeV (r : R)
  /-- FREE_K (R161): Unbinds mask register kA after its pending writes. -/
  | freeK (r : R)
  /-- REGION (R156): Closes any open region, writes the live-in snapshot and opens an idempotent region. -/
  | region (r : R)
  /-- REND (R156): Waits for every forecast verdict and closes the open region. -/
  | rend (r : R)
  /-- VADD (R173): Adds vA and vB element-wise under the mask, rounding once. -/
  | vadd (r : R)
  /-- VSUB (R173): Subtracts vB from vA element-wise under the mask. -/
  | vsub (r : R)
  /-- VMUL (R173): Multiplies vA and vB element-wise under the mask. -/
  | vmul (r : R)
  /-- VMIN (R173): Writes the signed smaller element of vA and vB. -/
  | vmin (r : R)
  /-- VMAX (R173): Writes the signed larger element of vA and vB. -/
  | vmax (r : R)
  /-- VMINU (R174): Writes the unsigned smaller integer element of vA and vB. -/
  | vminu (r : R)
  /-- VMAXU (R174): Writes the unsigned larger integer element of vA and vB. -/
  | vmaxu (r : R)
  /-- VFMA (R173): Computes a·b + c element-wise with one rounding. -/
  | vfma (r : R)
  /-- VFMS (R173): Computes a·b − c element-wise with one rounding. -/
  | vfms (r : R)
  /-- VFNMA (R173): Computes −(a·b) + c element-wise with one rounding. -/
  | vfnma (r : R)
  /-- VABS (R173): Writes the absolute value of each element of vA. -/
  | vabs (r : R)
  /-- VNEG (R173): Writes the negation of each element of vA. -/
  | vneg (r : R)
  /-- VSEL (R175): Selects each element from vA where the mask is 1, else from vB. -/
  | vsel (r : R)
  /-- VAND (R175): Bitwise AND of vA and vB under the mask. -/
  | vand (r : R)
  /-- VOR (R175): Bitwise OR of vA and vB under the mask. -/
  | vor (r : R)
  /-- VXOR (R175): Bitwise XOR of vA and vB under the mask. -/
  | vxor (r : R)
  /-- VANDN (R175): Bitwise vA AND NOT vB under the mask. -/
  | vandn (r : R)
  /-- VSHL (R175): Shifts integer elements of vA left by elements of vB. -/
  | vshl (r : R)
  /-- VSHR (R175): Shifts integer elements of vA right logically by elements of vB. -/
  | vshr (r : R)
  /-- VSAR (R175): Shifts integer elements of vA right arithmetically by elements of vB. -/
  | vsar (r : R)
  /-- VCEQ (R176): Writes mask kD with element equality of vA and vB. -/
  | vceq (r : R)
  /-- VCLT (R176): Writes mask kD with element less-than of vA and vB. -/
  | vclt (r : R)
  /-- VCLE (R176): Writes mask kD with element less-or-equal of vA and vB. -/
  | vcle (r : R)
  /-- VCUN (R176): Writes mask kD with whether either FP element is NaN. -/
  | vcun (r : R)
  /-- VCLTU (R176): Writes mask kD with unsigned less-than of integer elements. -/
  | vcltu (r : R)
  /-- KAND (R177): Writes kA AND kB to kD. -/
  | kand (r : R)
  /-- KOR (R177): Writes kA OR kB to kD. -/
  | kor (r : R)
  /-- KXOR (R177): Writes kA XOR kB to kD. -/
  | kxor (r : R)
  /-- KANDN (R177): Writes kA AND NOT kB to kD. -/
  | kandn (r : R)
  /-- KPOPC (R177): Writes the number of one bits of kA to gD. -/
  | kpopc (r : R)
  /-- KFIRST (R177): Writes the lowest set bit index of kA, or 128, to gD. -/
  | kfirst (r : R)
  /-- KSET (R177): Sets mask kD from gA (low half) and gB (high half). -/
  | kset (r : R)
  /-- KGET (R177): Writes the low or high 64 bits of kA to gD. -/
  | kget (r : R)
  /-- VBCAST (R178): Broadcasts the low bits of gB into every active element of vD. -/
  | vbcast (r : R)
  /-- VEXT (R178): Extracts element k of vA into gD. -/
  | vext (r : R)
  /-- VINS (R178): Inserts gA into element k of vD. -/
  | vins (r : R)
  /-- VIDX (R178): Writes each element's index into vD. -/
  | vidx (r : R)
  /-- VPERM (R178): Permutes elements of vA by the indices in vB. -/
  | vperm (r : R)
  /-- VROT (R178): Rotates the elements of vA by k. -/
  | vrot (r : R)
  /-- VCMPR (R178): Compresses the active elements of vA to the low elements of vD. -/
  | vcmpr (r : R)
  /-- VRSUM (R179): Reduces the active elements of vA to their sum by a fixed pairwise tree. -/
  | vrsum (r : R)
  /-- VRMAX (R179): Reduces the active elements of vA to their maximum. -/
  | vrmax (r : R)
  /-- VRMIN (R179): Reduces the active elements of vA to their minimum. -/
  | vrmin (r : R)
  /-- VRCP (R180): Writes the correctly rounded BF16 reciprocal of each element. -/
  | vrcp (r : R)
  /-- VRSQRT (R180): Writes the correctly rounded BF16 reciprocal square root of each element. -/
  | vrsqrt (r : R)
  /-- VEXP2 (R180): Writes the correctly rounded BF16 power of two of each element. -/
  | vexp2 (r : R)
  /-- VLOG2 (R180): Writes the correctly rounded BF16 base-2 logarithm of each element. -/
  | vlog2 (r : R)
  /-- VSQRT (R180): Writes the correctly rounded square root of each element. -/
  | vsqrt (r : R)
  /-- VCVT (R181): Converts elements of vA between formats into a part of vD. -/
  | vcvt (r : R)
  /-- VQNT (R183): Requantises blocks of vA to a block-scaled format, writing codes and scales. -/
  | vqnt (r : R)
  /-- VDQNT (R184): Dequantises block-scaled codes into wide elements. -/
  | vdqnt (r : R)
  /-- VLD (R186): Queues a contiguous vector load from local memory. -/
  | vld (r : R)
  /-- VST (R186): Queues a contiguous vector store to local memory. -/
  | vst (r : R)
  /-- VLDS (R186): Queues a strided vector load. -/
  | vlds (r : R)
  /-- VSTS (R186): Queues a strided vector store. -/
  | vsts (r : R)
  /-- VLDX (R186): Queues an indexed vector load. -/
  | vldx (r : R)
  /-- VSTX (R186): Queues an indexed vector store. -/
  | vstx (r : R)
  /-- TLD (R257): Queues a load of tile tD from local memory under TS[D]. -/
  | tld (r : R)
  /-- TST (R258): Queues a store of tile tB to local memory under TS[B]. -/
  | tst (r : R)
  /-- TZERO (R259): Binds tile tD with all zero contents. -/
  | tzero (r : R)
  /-- TMOV (R259): Copies tile tA and its shape into tD. -/
  | tmov (r : R)
  /-- TCVT (R260): Converts tile tA element by element into tD. -/
  | tcvt (r : R)
  /-- TFREE (R259): Unbinds tile tA. -/
  | tfree (r : R)
  /-- MMA (R262): Queues a multiply-accumulate of tA and tB (or a local operand) into accumulator aD. -/
  | mma (r : R)
  /-- ACCRD (R264): Reads half a row of an accumulator into vD and its STEPS into gE. -/
  | accrd (r : R)
  /-- ACCST (R265): Stores every entry of an accumulator to local memory, optionally scaled and unbound. -/
  | accst (r : R)
  /-- AZERO (R266): Binds accumulator aD as zero with the view INT gives. -/
  | azero (r : R)
  /-- AFREE (R266): Unbinds accumulator aD. -/
  | afree (r : R)
  /-- CPY (R201): Queues a load of a tensor tile into local memory, counted on a barrier, with an optional promise. -/
  | cpy (r : R)
  /-- CPY_PROG (R209): Requests a spindle program that streams into a push window. -/
  | cpyProg (r : R)
  /-- CPYST (R201): Queues a store (optionally reducing) of a local tile into a tensor tile. -/
  | cpyst (r : R)
  /-- CPYL (R202): Queues a raw byte load from a tensor's linear range into local memory. -/
  | cpyl (r : R)
  /-- CPYL_ST (R202): Queues a raw byte store from local memory into a tensor's linear range. -/
  | cpylSt (r : R)
  /-- PFX (R203): Prefetches a tile's lines into the tile cache. -/
  | pfx (r : R)
  /-- GATH (R205): Gathers tensor rows named by an index list into local memory. -/
  | gath (r : R)
  /-- SCAT (R205): Scatters local rows into tensor rows named by an index list. -/
  | scat (r : R)
  /-- RED (R205): Reduces local rows element-wise into tensor rows named by an index list. -/
  | red (r : R)
  /-- TFLUSH (R204): Writes back and invalidates every tile-cache line of a tensor. -/
  | tflush (r : R)
  /-- CODELD (R207): Replaces the job's code segment on the core and rebuilds the start map. -/
  | codeld (r : R)
  /-- PWIN (R208): Registers or unregisters a push window of the activity. -/
  | pwin (r : R)
  /-- PWRET (R210): Decrements the arrival count of a window's return barrier after earlier reads of the window. -/
  | pwret (r : R)
  /-- MEET (R312): Releases at .dev and sends an arrival with key, deadline and footprint to the rendezvous directory. -/
  | meet (r : R)
  /-- PART (R327): Enters the meeting barrier and leaves the meeting home, stay or to a named core. -/
  | part (r : R)
  /-- MSYNC (R324): Waits for the partner's matching msync and the completion of both parties' earlier writes. -/
  | msync (r : R)
  /-- MCANCEL (R328): Sends a cancellation of every waiting party of a key to its directory. -/
  | mcancel (r : R)
  /-- MGET (R323): Reads a partner's general register into gD. -/
  | mget (r : R)
  /-- MGETV (R323): Reads a partner's vector register into vD. -/
  | mgetv (r : R)
  /-- MCPY (R325): Copies bytes from the partner window into local memory. -/
  | mcpy (r : R)
  /-- MSWAP (R326): Exchanges luggage pages between the party and its partner. -/
  | mswap (r : R)
  /-- COLL (R337): Checks a group descriptor and sends a collective arrival to the directory of its key. -/
  | coll (r : R)
  /-- CCANCEL (R340): Dissolves the forming group of a key with CANCELLED. -/
  | ccancel (r : R)
  /-- FCAST (R355): Reads a forecast descriptor and either copies S to D or writes a prediction and takes a tag. -/
  | fcast (r : R)
  /-- FWAIT (R366): Waits at a blocking point for one of the activity's forecast tags to be resolved. -/
  | fwait (r : R)
  /-- FSTAT (R367): Writes the activity's speculation status word. -/
  | fstat (r : R)
  /-- JOBPOST (R380): Releases at .dev and sends a job card address to the die's dispatch unit. -/
  | jobpost (r : R)
  /-- JOBWAIT (R381): Waits at a blocking point until a named job completes, or returns at once. -/
  | jobwait (r : R)
  /-- SPUSH (R286): Spindle assembles a tensor tile and pushes it into the requester's stream window. -/
  | spush (r : R)
  /-- SFMT (R286): Spindle pushes bytes from its local memory into the stream window. -/
  | sfmt (r : R)
  /-- SFILL (R286): Spindle reads bytes from the stream window into its local memory. -/
  | sfill (r : R)
  /-- SWB (R286): Spindle writes a tile from the stream window back into a tensor. -/
  | swb (r : R)
  /-- BADDQ (R423): Gateway adds two block-scaled operands exactly and requantises the sum. -/
  | baddq (r : R)
  /-- BQTAKE (R424): Gateway frees a held block-queue slot and takes the earliest takeable one. -/
  | bqtake (r : R)
  /-- REGISTER_WRITEBACK (R89): A fixed-latency result reaches the register file λ cycles after issue. -/
  | registerWriteback (uid : Nat)
  /-- LOAD_RESULT (R146): A scalar local load returns its value to its destination register. -/
  | loadResult (uid : Nat)
  /-- DIVIDE_RESULT (R123): The core's divider writes its result 20 cycles after issue and frees. -/
  | divideResult (uid : Nat)
  /-- VECTOR_ACCESS_DONE (R188): A queued vector load or store completes its bank accesses and writes its result. -/
  | vectorAccessDone (cmd : Nat)
  /-- FIRST_OVERRUN (R49): The run-budget counter exceeds RUNB: XSTAT.PRB is set and the counter restarts. -/
  | firstOverrun (uid : Nat)
  /-- KILL (R50): A second overrun kills the activity: effects discarded, commands cancelled, meeting left, retirement, RUNAWAY. -/
  | kill (uid : Nat)
  /-- RUN_BUDGET_TRAP (R154): A pending run-budget trap is taken at the activity's next issue. -/
  | runBudgetTrap (uid : Nat)
  /-- MISSED_PROMISE (R215): CYCLE reaches a .pm command's promise with its phase incomplete, setting XSTAT.PMP. -/
  | missedPromise (cmd : Nat)
  /-- MISSED_PROMISE_TRAP (R154): A pending missed-promise trap is taken at the activity's next issue. -/
  | missedPromiseTrap (uid : Nat)
  /-- REFUSED_STORE_TRAP (R212): A pending refused-store trap reports the earliest refused journal entry at the next issue and frees it. -/
  | refusedStoreTrap (uid : Nat)
  /-- JOURNAL_ACK (R212): A posted-store journal entry's write is acknowledged and the entry freed, or refused and marked. -/
  | journalAck (agent : Agent) (entry : Nat)
  /-- RETIREMENT (R53): Once its commands, programs and journal entries are done, the activity frees its registers, pages and slot. -/
  | retirement (uid : Nat)
  /-- COPY_START (R200): The copy queue starts a waiting command once its scoreboard, fence and bucket conditions allow. -/
  | copyStart (cmd : Nat)
  /-- DESCRIPTOR_READ (R193): A tensor descriptor read completes and the issuing activity's interlock ends. -/
  | descriptorRead (uid : Nat)
  /-- PAGE_WALK (R298): A spindle completes a five-level page walk and fills the requester's translation cache or fails with XLATE. -/
  | pageWalk (cmd : Nat)
  /-- LINE_FILL (R407): A tile-cache fill from DRAM, CXL or the home slice completes, allocating a way. -/
  | lineFill (cmd : Nat) (unit : Nat) (replica : Bool)
  /-- LANDING_UNIT (R244): A load command's unit lands its last beat and updates its barrier the next cycle. -/
  | landingUnit (cmd : Nat) (unit : Nat)
  /-- STORE_PERFORMED (R201): A write command's writes are acknowledged (and performed at its scope) and its barrier takes one arrival. -/
  | storePerformed (cmd : Nat) (unit : Nat)
  /-- MONITOR_GRANT (R221): A freed monitor entry is granted to the oldest activity queued for one. -/
  | monitorGrant (agent : Agent)
  /-- BAR_WAIT_WAKE (R220): A waiting bar.wait becomes ready after its phase completes and writes DONE. -/
  | barWaitWake (uid : Nat)
  /-- SLEEP_WAKE (R347): CYCLE reaches a sleeping activity's wake cycle and it becomes ready. -/
  | sleepWake (uid : Nat)
  /-- TFLUSH_DONE (R204): All dirty lines of the tensor are written back and invalidated; the barrier takes one arrival. -/
  | tflushDone (cmd : Nat)
  /-- CODELD_DONE (R207): The code image is written, CODELEN set, the start map rebuilt and the hold released. -/
  | codeldDone (cmd : Nat)
  /-- PROGRAM_REQUEST_QUEUED (R452): A cpy.prog request enters the spindle's program request queue and the command completes. -/
  | programRequestQueued (cmd : Nat)
  /-- SPINDLE_PROGRAM_START (R280): A queued program request finds a slot and pages, its descriptor is checked, and the program starts. -/
  | spindleProgramStart (spindle : Nat)
  /-- SPINDLE_PROGRAM_END (R281): A spindle program retires by end or fault and the requester's BAR takes one arrival. -/
  | spindleProgramEnd (uid : Nat)
  /-- PUSH_LANDED (R286): A spindle push lands its last byte in the window and updates the requester's barrier. -/
  | pushLanded (push : Nat)
  /-- RETURN_UPDATE (R287): A pwret's return decrements the window's return barrier at the spindle. -/
  | returnUpdate (msg : Nat)
  /-- MMA_START (R256): A ready mma passes its barrier test and starts on the array. -/
  | mmaStart (cmd : Nat)
  /-- KSTEP_END (R262): An mma K-step ends and all 2,048 accumulator entries change at once. -/
  | kstepEnd (cmd : Nat)
  /-- TILE_PORT_COMPLETE (R263): A tile-port command completes and frees its matrix queue entry. -/
  | tilePortComplete (cmd : Nat)
  /-- DIRECTORY_ARRIVAL (R307): A directory processes a meet arrival: match, park or queue. -/
  | directoryArrival (msg : Nat)
  /-- DECISION_ARRIVES (R317): A directory decision or status reaches a party, and a traveller's shuttle leaves. -/
  | decisionArrives (uid : Nat)
  /-- SHUTTLE_LANDED (R314): A shuttle's last beat lands at its destination core, or is refused by back-pressure. -/
  | shuttleLanded (uid : Nat)
  /-- MEET_DEADLINE (R319): A waiting party's deadline passes and the directory removes it with ALONE. -/
  | meetDeadline (uid : Nat)
  /-- DIRECTORY_CANCEL (R328): A directory processes an mcancel and cancels waiting parties of the key. -/
  | directoryCancel (msg : Nat)
  /-- PART_BARRIER (R327): Both parties pass their part waits; the window unmaps and each leaves home, stays or travels. -/
  | partBarrier (uid : Nat)
  /-- COLL_ARRIVAL (R338): A directory processes a collective arrival: open, join, refuse or complete a group. -/
  | collArrival (msg : Nat)
  /-- COLL_GO (R341): GO reaches a rank, which releases at G and sends its source range. -/
  | collGo (uid : Nat)
  /-- COLL_RESULTS_LANDED (R343): A rank's last result bytes land; the collective ends MET with BAR and G[D] updated. -/
  | collResultsLanded (uid : Nat)
  /-- COLL_DEADLINE (R339): An incomplete forming group reaches its deadline and is dissolved with ALONE. -/
  | collDeadline (group : Nat)
  /-- COLL_CANCEL (R340): The directory processes a ccancel and dissolves the forming group. -/
  | collCancel (msg : Nat)
  /-- GROUP_DISSOLVED_STATUS (R351): A dissolution status reaches a rank, writing G[D] and a REFUSED update on BAR. -/
  | groupDissolvedStatus (uid : Nat)
  /-- VERDICT (R363): The tolerance comparator tests a completed forecast tag and passes or fails it. -/
  | verdict (uid : Nat) (tag : Nat)
  /-- HELD_BUFFER_SPACE (R360): Space frees in the held-effects buffer and a waiting speculative activity resumes. -/
  | heldBufferSpace (uid : Nat)
  /-- JOB_QUEUE_ENTRY (R376): The die-0 unit takes one host queue entry, reads its card and posts it, or sets ERR. -/
  | jobQueueEntry (vd : Nat) (q : Nat)
  /-- JOBPOST_REQUEST (R380): A dispatch unit reads a posted card, accepts it with an id, checks it and answers the poster. -/
  | jobpostRequest (msg : Nat)
  /-- ARGT_DESCRIPTOR_READ (R36): The dispatcher's read of the argument tensor's descriptor completes after acceptance, failing the job with CARD if invalid. -/
  | argtDescriptorRead (job : Nat)
  /-- JOB_READY (R385): A job becomes ready the cycle after its last predecessor completes. -/
  | jobReady (job : Nat)
  /-- DEAL_CHUNK (R39): An owner unit deals one chunk of records to the span core with the highest free count. -/
  | dealChunk (die : Nat)
  /-- ACTIVITY_START (R42): An unstarted activity gets a slot and pages; data pages are zeroed and the record copied. -/
  | activityStart (agent : Agent)
  /-- CODE_LOAD (R387): The first activity of a job on a core finishes loading the code image, or its failure kills waiters with CODEERR. -/
  | codeLoad (agent : Agent) (job : Nat)
  /-- FIRST_ISSUE (R388): The started activity issues its first instruction 3 cycles after setup ends. -/
  | firstIssue (uid : Nat)
  /-- MIGRATION (R51): At CYCLE mod 256 = 0 a loaded core pushes one activity to a lighter core of its group. -/
  | migration (core : Nat)
  /-- VICTIM_CHOICE (R383): A unit chooses a lower-class victim at a blocking point for a waiting activity and orders eviction. -/
  | victimChoice (die : Nat)
  /-- EVICTION (R163): The core evicts an activity at a blocking point, settling commands and writing the save area. -/
  | eviction (uid : Nat)
  /-- RESTORE (R166): A saved activity whose restore condition holds is restored on a core of its span. -/
  | restore (uid : Nat)
  /-- JOBWAIT_WAKE (R381): A jobwait waiter is woken 14 cycles after the owner unit processes the completion. -/
  | jobwaitWake (uid : Nat)
  /-- JOB_COMPLETION (R392): The owner unit processes a job's completion: writes performed, status byte and completion record written. -/
  | jobCompletion (job : Nat)
  /-- SWITCH_END (R378): No excluded activity remains on a switching core, and CORESEL.BUSY clears. -/
  | switchEnd (core : Nat)
  /-- BUCKET_MOVE (R295): A move of an address bucket drains, flushes and retargets its slice in every table copy. -/
  | bucketMove
  /-- KEY_BUCKET_MOVE (R306): A move of a key bucket hands waiting parties and groups to the new directory. -/
  | keyBucketMove
  /-- REBALANCER (R294): Every 65,536 cycles with EN set, the hardware rebalancer moves the hottest slice's busiest bucket. -/
  | rebalancer
  /-- KEY_REBALANCER (R305): Every 65,536 cycles with EN set, the key rebalancer moves the busiest directory's busiest bucket. -/
  | keyRebalancer
  /-- TOKEN_REFILL (R399): Each cycle an arbiter adds RATE to each bucket, overflows to surplus and adds the unallocated rate. -/
  | tokenRefill (arb : Arbiter)
  /-- JQ_ENABLE (R376): A write of EN to JQCTL enables the queue, or sets ERR for a bad LOGN or BASE. -/
  | jqEnable (vd : Nat) (q : Nat) (value : Word)
  /-- JQ_DOORBELL (R376): A write to JQCTL.TAIL rings the doorbell, posting entries HEAD to TAIL−1. -/
  | jqDoorbell (vd : Nat) (q : Nat) (tail : BitVec 16)
  /-- VD_ENABLE (R394): A write of VDCTL.EN enables or disables a VD, refilling buckets, or is ignored or refused. -/
  | vdEnable (vd : Nat) (value : Word)
  /-- SHR_WRITE (R398): A write to SHRc changes a VD's share, or is refused with SERR if the rate sum exceeds CAP. -/
  | shrWrite (vd : Nat) (c : Nat) (value : Word)
  /-- WAYMSK_WRITE (R408): A write to WAYMSK changes the ways a VD owns in a slice for later allocations. -/
  | waymskWrite (vd : Nat) (slice : Nat) (value : Word)
  /-- CORESEL_WRITE (R378): A write changing CORESEL starts a switch, withdrawing unstarted excluded activities. -/
  | coreselWrite (core : Nat) (value : Word)
  /-- RBCTL_GO (R294): A GO to RBCTL requests a move of bucket BKT to slice TGT, queued if busy. -/
  | rbctlGo (value : Word)
  /-- KBCTL_GO (R305): A GO to KBCTL requests a move of key bucket BKT to directory TGT. -/
  | kbctlGo (value : Word)
  /-- DSPCMD_END_JOB (R393): A GO to DSPCMD with OP 0 ends a job: records dropped, activities killed, ENDED. -/
  | dspcmdEndJob (value : Word)
  /-- GATEWAY_START (R420): A GO to GWCTL starts a gateway activity after checking its descriptor. -/
  | gatewayStart (n : Nat) (value : Word)
  /-- RETIRE_COMPUTE_CORE (R433): Service command 0x01 retires a compute core by a switch that excludes every VD. -/
  | retireComputeCore (core : Nat)
  /-- RETIRE_SPINDLE (R433): Service command 0x02 retires a spindle, moving its buckets and ending its programs. -/
  | retireSpindle (spindle : Nat)
  /-- REPAIR_DRAM_ROW (R434): Service command 0x03 repairs a DRAM row by post-package repair, keeping its poison. -/
  | repairDramRow (channel : Nat) (bank : Nat) (row : Nat)
  /-- SPARE_A_LANE (R435): Service command 0x04 replaces a boundary or link lane by a spare. -/
  | spareALane (iface : Nat) (lane : Nat)
  /-- DIE_WARM_RESET (R438): Service command 0x05 resets die 1, 2 or 3 through its drain, reset and reload steps. -/
  | dieWarmReset (die : Nat)
  /-- SET_ROUTE (R436): Service command 0x06 moves the route to a peer module after the old link drains. -/
  | setRoute (module : Nat) (link : Nat) (valid : Bool)
  /-- SERVICE_COMMAND_END (R432): A service command ends, writing its status and a class 0x0C record and clearing BUSY. -/
  | serviceCommandEnd
  /-- XLINV_GO (R442): A GO to XLINV invalidates cached translations of a range and drains commands using them. -/
  | xlinvGo (value : Word)
  /-- XLINV_ACK (R442): Every engine and slice has finished the invalidation and XLINV.BUSY clears. -/
  | xlinvAck
  /-- MODID_WRITE (R417): A write to MODID assigns the module's number for later peer accesses. -/
  | modidWrite (value : Word)
  /-- ERRCTL_READ (R429): A read of ERRCTL returns DROPS and clears it. -/
  | errctlRead
  /-- REGISTER_WRITE (R4): A write to any other register updates its RW fields and clears W1C bits written as 1. -/
  | registerWrite (reg : HostReg) (value : Word)
  /-- TIMING_REPLAY (R428): A shadow latch detects a late transition and the agent repeats the stage at half rate. -/
  | timingReplay (unit : Latched)
  /-- FLIT_REPLAY (R415): A link flit failing its CRC is replayed and counted. -/
  | flitReplay (link : Nat)
  /-- TELEMETRY_UPDATE (R444): Every 1,024 cycles the monitors update TELEMd and a THWARN excess writes a record. -/
  | telemetryUpdate (die : Nat) (telem : Word) (power : BitVec 32) (energy : Word)
  /-- THERMTRIP (R444): A junction reaches 115 °C: every clock stops and THERMTRIP# is asserted. -/
  | thermtrip (die : Nat)
  /-- COLD_RESET (R445): At cold reset the primary ROM verifies and loads the firmware image, then trains the module. -/
  | coldReset (primary : Image) (backup : Image)
  /-- HOST_WRITE (R413): A posted host write through BAR2 is numbered and performed in order at its home slice. -/
  | hostWrite (vd : Nat) (va : Nat) (data : List Byte) (relaxed : Bool)
  /-- HOST_READ (R411): A host read through BAR2 is served at the home slice after earlier posted writes, or aborts. -/
  | hostRead (vd : Nat) (va : Nat) (len : Nat)
  /-- PEER_ACCESS (R416): An incoming peer access on a link is translated and served at its home slice, or refused. -/
  | peerAccess (link : Nat) (vd : Nat) (va : Nat) (data : List Byte) (write : Bool)
  /-- BLOCK_RECORD (R421): An incoming 128-byte block record lands in a gateway's block queue slot, or is refused. -/
  | blockRecord (link : Nat) (vd : Nat) (data : List Byte)
  /-- SWITCH_REDUCTION_RESULT (R419): A switch's reduced result sector is written to the root or every member, completing contributions. -/
  | switchReductionResult (round : Nat)
  /-- CXL_TIMEOUT (R414): A CXL request not completed within 170,000 cycles completes with REFUSED. -/
  | cxlTimeout (cmd : Nat)
  /-- LINK_DOWN_TIMEOUT (R436): A request on a link that goes down completes with REFUSED after 170,000 cycles. -/
  | linkDownTimeout (cmd : Nat)
  /-- SET_KEY (R447): An SPDM vendor request writes two keys into a key slot, unless the slot is in use. -/
  | setKey (slot : Nat) (key1 : BitVec 256) (key2 : BitVec 256)
  /-- ERASE_KEY (R447): An SPDM vendor request erases a key slot, unless the slot is in use. -/
  | eraseKey (slot : Nat)
  /-- SELECT_KEY (R447): An SPDM vendor request sets KEYSEL of a disabled VD. -/
  | selectKey (vd : Nat) (slot : Nat)
  /-- RAISE_FUSED_SECURITY_VERSION (R447): An SPDM vendor request writes a higher security version to the fuses. -/
  | raiseFusedSecurityVersion (version : Nat)
  /-- SPDM_REQUEST (R446): Physical function 0 answers an SPDM request such as CHALLENGE or GET_MEASUREMENTS. -/
  | spdmRequest (request : Spdm)
  /-- LINK_DOWN (R436): A scale-up link or CXL port link goes down, so that its requests are refused or left to time out. -/
  | linkDown (port : Port)
deriving DecidableEq, Repr

end Sys2Proof
end

