-- ==== Sys2Proof/Machine/Forms.lean ====
section
/-! DEFINITION. The encoding tables as data: for each instruction its opcode, which operand fields it uses and for what,
which framings it accepts and which modifier bits; and from them the legality of R97, the source and destination registers,
the latency class (R87, R122, R171) and the agents that have it (R96). -/

namespace Sys2Proof

/-- The register classes of R81. -/
inductive Cls where
  | g
  | v
  | k
  | t
  | a
deriving DecidableEq, Repr

/-- How many registers a class has (R81). -/
def Cls.count : Cls → Nat
  | .g => 64
  | .v => 32
  | .k => 8
  | .t => 8
  | .a => 2

/-- A register: its class and its number. -/
structure Reg where
  cls : Cls
  num : Nat
deriving DecidableEq, Repr

/-- What an entry uses a register field for. -/
inductive Use where
  /-- Not used: reserved (R81). -/
  | none
  /-- A source. -/
  | src (c : Cls)
  /-- A destination. -/
  | dst (c : Cls)
  /-- A destination that is read first. -/
  | both (c : Cls)
  /-- A register that is named and not read (`free`). -/
  | name (c : Cls)
  /-- The number of a partner's register (`mget`, `mgetv`). -/
  | part (limit : Nat)
deriving DecidableEq, Repr

/-- Whether an entry accepts extended words (R83, R124). -/
inductive ExtUse where
  | no
  | may
  | must
deriving DecidableEq, Repr

/-- The latency classes: fixed ones (R87, R122, R171), and the others, which interlock. -/
inductive Lat where
  | alu
  | mul
  | vint
  /-- Floating point or integer by FMT (R171). -/
  | varith
  | vfp
  | vtrans
  | other
deriving DecidableEq, Repr

/-- One row of the encoding tables, for form R. -/
structure Row where
  op : Nat
  f : Nat
  d : Use
  a : Use
  b : Use
  c : Use
  e : Use
  ext : ExtUse
  /-- The width of the literal, 0 where none is allowed (R85). -/
  lit : Nat
  /-- The modifier bits that the entry uses. -/
  m : BitVec 13
  /-- The bits of word 2 that the entry uses. -/
  x : BitVec 32
  lat : Lat
deriving DecidableEq, Repr

/-- An instruction as its form and fields (R80); `step` for a step that has no encoding. -/
inductive Enc where
  | r (row : Row) (r : R)
  | i (op : Nat) (stl : BitVec 3) (d a : BitVec 6) (imm : BitVec 8)
  | j (op : Nat) (stl : BitVec 3) (off : BitVec 20)
  | z (op : Nat) (stl : BitVec 3) (a : BitVec 6) (off : BitVec 14)
  | step

/-! ## Named modifier fields -/

/-- FMT, M[3:0] (R169). -/
def R.fmt (r : R) : Nat := (r.m.extractLsb' 0 4).toNat
/-- RM, M[6:4] (R169). -/
def R.rm (r : R) : Nat := (r.m.extractLsb' 4 3).toNat
/-- OVF, M[8:7] (R169). -/
def R.ovf (r : R) : Nat := (r.m.extractLsb' 7 2).toNat
/-- KM, M[11:9] (R169). -/
def R.km (r : R) : Nat := (r.m.extractLsb' 9 3).toNat
/-- ZM, M[12] (R169). -/
def R.zm (r : R) : Bool := r.m.getLsbD 12
/-- X[3:0], a second format code (R181, R182). -/
def R.xfmt (r : R) : Nat := (r.x.extractLsb' 0 4).toNat
/-- X[6:4], PART (R181, R182). -/
def R.xpart (r : R) : Nat := (r.x.extractLsb' 4 3).toNat

/-- LB of `mma`, SCL of `accst`, INT of `azero`: M[12] (R254). -/
def R.lb (r : R) : Bool := r.m.getLsbD 12
/-- BSH, M[11:9] (R254). -/
def R.bsh (r : R) : Nat := (r.m.extractLsb' 9 3).toNat
/-- CLR, M[11] (R254). -/
def R.clr (r : R) : Bool := r.m.getLsbD 11
/-- KOFF, M[8:6] (R254). -/
def R.koff (r : R) : Nat := (r.m.extractLsb' 6 3).toNat
/-- RM of the matrix instructions, M[8:6] (R254). -/
def R.rmM (r : R) : Nat := (r.m.extractLsb' 6 3).toNat
/-- OVF of the matrix instructions, M[5:4] (R254). -/
def R.ovfM (r : R) : Nat := (r.m.extractLsb' 4 2).toNat

/-- The floating-point set of R167. -/
def isFp (f : Nat) : Bool := f ≤ 2
/-- The integer set of R167. -/
def isInt (f : Nat) : Bool := 8 ≤ f && f ≤ 0xA
/-- The set WIDTH of R167. -/
def isWidth (f : Nat) : Bool := f ≤ 4 || isInt f
/-- The block-scaled formats of R64. -/
def isBlock (f : Nat) : Bool := 5 ≤ f && f ≤ 7
/-- The element width of a format of WIDTH in bits (R167). -/
def fmtWidth (f : Nat) : Nat :=
  match f with
  | 0 => 32 | 1 => 16 | 2 => 16 | 3 => 8 | 4 => 8 | 8 => 8 | 9 => 32 | 10 => 64 | _ => 32
/-- The element count of a format in a vector register (R167). -/
def fmtCount (f : Nat) : Nat := 1024 / fmtWidth f

/-- Whether FMT of a modifier field is an integer format; `vcun` and `vcltu` share their opcode and differ by it (R175). -/
def intFmt (m : BitVec 13) : Bool := isInt (m.extractLsb' 0 4).toNat


/-- What the encoding tables say of each instruction (R126-R185, R195-R197, R216, R253, R283, R308, R333, R352, R379, R422). -/
def Instr.enc : Instr → Enc
  | .add r => .r ⟨0x01, 0, .dst .g, .src .g, .src .g, .none, .none, .may, 64, 0x0000, 0x0, .alu⟩ r
  | .sub r => .r ⟨0x01, 1, .dst .g, .src .g, .src .g, .none, .none, .may, 64, 0x0000, 0x0, .alu⟩ r
  | .adds r => .r ⟨0x01, 2, .dst .g, .src .g, .src .g, .none, .none, .may, 64, 0x0000, 0x0, .alu⟩ r
  | .subs r => .r ⟨0x01, 3, .dst .g, .src .g, .src .g, .none, .none, .may, 64, 0x0000, 0x0, .alu⟩ r
  | .and_ r => .r ⟨0x02, 0, .dst .g, .src .g, .src .g, .none, .none, .may, 64, 0x0000, 0x0, .alu⟩ r
  | .or_ r => .r ⟨0x02, 1, .dst .g, .src .g, .src .g, .none, .none, .may, 64, 0x0000, 0x0, .alu⟩ r
  | .xor r => .r ⟨0x02, 2, .dst .g, .src .g, .src .g, .none, .none, .may, 64, 0x0000, 0x0, .alu⟩ r
  | .andn r => .r ⟨0x02, 3, .dst .g, .src .g, .src .g, .none, .none, .may, 64, 0x0000, 0x0, .alu⟩ r
  | .shl r => .r ⟨0x03, 0, .dst .g, .src .g, .src .g, .none, .none, .may, 6, 0x0000, 0x0, .alu⟩ r
  | .shr r => .r ⟨0x03, 1, .dst .g, .src .g, .src .g, .none, .none, .may, 6, 0x0000, 0x0, .alu⟩ r
  | .sar r => .r ⟨0x03, 2, .dst .g, .src .g, .src .g, .none, .none, .may, 6, 0x0000, 0x0, .alu⟩ r
  | .ror r => .r ⟨0x03, 3, .dst .g, .src .g, .src .g, .none, .none, .may, 6, 0x0000, 0x0, .alu⟩ r
  | .mul r => .r ⟨0x04, 0, .dst .g, .src .g, .src .g, .none, .none, .may, 64, 0x0000, 0x0, .mul⟩ r
  | .mulh r => .r ⟨0x04, 1, .dst .g, .src .g, .src .g, .none, .none, .may, 64, 0x0000, 0x0, .mul⟩ r
  | .mulhu r => .r ⟨0x04, 2, .dst .g, .src .g, .src .g, .none, .none, .may, 64, 0x0000, 0x0, .mul⟩ r
  | .div r => .r ⟨0x05, 0, .dst .g, .src .g, .src .g, .none, .none, .may, 64, 0x0000, 0x0, .other⟩ r
  | .divu r => .r ⟨0x05, 1, .dst .g, .src .g, .src .g, .none, .none, .may, 64, 0x0000, 0x0, .other⟩ r
  | .rem r => .r ⟨0x05, 2, .dst .g, .src .g, .src .g, .none, .none, .may, 64, 0x0000, 0x0, .other⟩ r
  | .remu r => .r ⟨0x05, 3, .dst .g, .src .g, .src .g, .none, .none, .may, 64, 0x0000, 0x0, .other⟩ r
  | .addi stl d a imm => .i 0x06 stl d a imm
  | .andi stl d a imm => .i 0x07 stl d a imm
  | .ori stl d a imm => .i 0x08 stl d a imm
  | .xori stl d a imm => .i 0x09 stl d a imm
  | .shli stl d a imm => .i 0x0A stl d a imm
  | .shri stl d a imm => .i 0x0B stl d a imm
  | .sari stl d a imm => .i 0x0C stl d a imm
  | .ceqi stl d a imm => .i 0x13 stl d a imm
  | .clti stl d a imm => .i 0x14 stl d a imm
  | .cltui stl d a imm => .i 0x15 stl d a imm
  | .ceq r => .r ⟨0x0D, 0, .dst .g, .src .g, .src .g, .none, .none, .may, 64, 0x0000, 0x0, .alu⟩ r
  | .cne r => .r ⟨0x0D, 1, .dst .g, .src .g, .src .g, .none, .none, .may, 64, 0x0000, 0x0, .alu⟩ r
  | .clt r => .r ⟨0x0D, 2, .dst .g, .src .g, .src .g, .none, .none, .may, 64, 0x0000, 0x0, .alu⟩ r
  | .cltu r => .r ⟨0x0D, 3, .dst .g, .src .g, .src .g, .none, .none, .may, 64, 0x0000, 0x0, .alu⟩ r
  | .min r => .r ⟨0x0E, 0, .dst .g, .src .g, .src .g, .none, .none, .may, 64, 0x0000, 0x0, .alu⟩ r
  | .max r => .r ⟨0x0E, 1, .dst .g, .src .g, .src .g, .none, .none, .may, 64, 0x0000, 0x0, .alu⟩ r
  | .minu r => .r ⟨0x0E, 2, .dst .g, .src .g, .src .g, .none, .none, .may, 64, 0x0000, 0x0, .alu⟩ r
  | .maxu r => .r ⟨0x0E, 3, .dst .g, .src .g, .src .g, .none, .none, .may, 64, 0x0000, 0x0, .alu⟩ r
  | .sel r => .r ⟨0x0F, 0, .dst .g, .src .g, .src .g, .src .g, .none, .must, 64, 0x0000, 0x0, .alu⟩ r
  | .bfxu r => .r ⟨0x10, 0, .dst .g, .src .g, .none, .none, .none, .must, 0, 0x0FFF, 0x0, .alu⟩ r
  | .bfxs r => .r ⟨0x10, 1, .dst .g, .src .g, .none, .none, .none, .must, 0, 0x0FFF, 0x0, .alu⟩ r
  | .bfi r => .r ⟨0x10, 2, .both .g, .src .g, .none, .none, .none, .must, 0, 0x0FFF, 0x0, .alu⟩ r
  | .clz r => .r ⟨0x11, 0, .dst .g, .src .g, .none, .none, .none, .may, 0, 0x0000, 0x0, .alu⟩ r
  | .ctz r => .r ⟨0x11, 1, .dst .g, .src .g, .none, .none, .none, .may, 0, 0x0000, 0x0, .alu⟩ r
  | .popc r => .r ⟨0x11, 2, .dst .g, .src .g, .none, .none, .none, .may, 0, 0x0000, 0x0, .alu⟩ r
  | .bswap r => .r ⟨0x11, 3, .dst .g, .src .g, .none, .none, .none, .may, 0, 0x0000, 0x0, .alu⟩ r
  | .adx2 r => .r ⟨0x12, 0, .dst .g, .src .g, .src .g, .none, .none, .may, 64, 0x0000, 0x0, .alu⟩ r
  | .adx4 r => .r ⟨0x12, 1, .dst .g, .src .g, .src .g, .none, .none, .may, 64, 0x0000, 0x0, .alu⟩ r
  | .adx8 r => .r ⟨0x12, 2, .dst .g, .src .g, .src .g, .none, .none, .may, 64, 0x0000, 0x0, .alu⟩ r
  | .adx16 r => .r ⟨0x12, 3, .dst .g, .src .g, .src .g, .none, .none, .may, 64, 0x0000, 0x0, .alu⟩ r
  | .br stl off => .j 0x20 stl off
  | .call stl off => .j 0x21 stl off
  | .bnz stl a off => .z 0x22 stl a off
  | .bz stl a off => .z 0x23 stl a off
  | .loop stl a off => .z 0x24 stl a off
  | .jmp r => .r ⟨0x25, 0, .none, .src .g, .none, .none, .none, .may, 0, 0x0000, 0x0, .alu⟩ r
  | .jcall r => .r ⟨0x25, 1, .dst .g, .src .g, .none, .none, .none, .may, 0, 0x0000, 0x0, .alu⟩ r
  | .beq r => .r ⟨0x26, 0, .none, .src .g, .src .g, .none, .none, .must, 64, 0x0000, 0xFFFFFFFF, .alu⟩ r
  | .bne r => .r ⟨0x26, 1, .none, .src .g, .src .g, .none, .none, .must, 64, 0x0000, 0xFFFFFFFF, .alu⟩ r
  | .blt r => .r ⟨0x26, 2, .none, .src .g, .src .g, .none, .none, .must, 64, 0x0000, 0xFFFFFFFF, .alu⟩ r
  | .bltu r => .r ⟨0x26, 3, .none, .src .g, .src .g, .none, .none, .must, 64, 0x0000, 0xFFFFFFFF, .alu⟩ r
  | .end_ r => .r ⟨0x27, 0, .none, .none, .none, .none, .none, .may, 0, 0x0000, 0x0, .other⟩ r
  | .nop r => .r ⟨0x27, 1, .none, .none, .none, .none, .none, .may, 0, 0x0000, 0x0, .other⟩ r
  | .lb r => .r ⟨0x28, 0, .dst .g, .src .g, .none, .none, .none, .may, 0, 0x0000, 0xFFFFFFFF, .other⟩ r
  | .lh r => .r ⟨0x28, 1, .dst .g, .src .g, .none, .none, .none, .may, 0, 0x0000, 0xFFFFFFFF, .other⟩ r
  | .lw r => .r ⟨0x28, 2, .dst .g, .src .g, .none, .none, .none, .may, 0, 0x0000, 0xFFFFFFFF, .other⟩ r
  | .ld r => .r ⟨0x28, 3, .dst .g, .src .g, .none, .none, .none, .may, 0, 0x0000, 0xFFFFFFFF, .other⟩ r
  | .lbu r => .r ⟨0x29, 0, .dst .g, .src .g, .none, .none, .none, .may, 0, 0x0000, 0xFFFFFFFF, .other⟩ r
  | .lhu r => .r ⟨0x29, 1, .dst .g, .src .g, .none, .none, .none, .may, 0, 0x0000, 0xFFFFFFFF, .other⟩ r
  | .lwu r => .r ⟨0x29, 2, .dst .g, .src .g, .none, .none, .none, .may, 0, 0x0000, 0xFFFFFFFF, .other⟩ r
  | .sb r => .r ⟨0x2A, 0, .none, .src .g, .src .g, .none, .none, .may, 8, 0x0000, 0xFFFFFFFF, .other⟩ r
  | .sh r => .r ⟨0x2A, 1, .none, .src .g, .src .g, .none, .none, .may, 16, 0x0000, 0xFFFFFFFF, .other⟩ r
  | .sw r => .r ⟨0x2A, 2, .none, .src .g, .src .g, .none, .none, .may, 32, 0x0000, 0xFFFFFFFF, .other⟩ r
  | .sd r => .r ⟨0x2A, 3, .none, .src .g, .src .g, .none, .none, .may, 64, 0x0000, 0xFFFFFFFF, .other⟩ r
  | .barInit r => .r ⟨0x30, 0, .dst .g, .src .g, .src .g, .src .g, .none, .must, 32, 0x0000, 0x0, .other⟩ r
  | .barExp r => .r ⟨0x30, 1, .dst .g, .src .g, .src .g, .src .g, .none, .must, 32, 0x0000, 0x0, .other⟩ r
  | .barArr r => .r ⟨0x30, 2, .none, .src .g, .src .g, .none, .none, .may, 16, 0x0000, 0x0, .other⟩ r
  | .barInval r => .r ⟨0x30, 3, .none, .src .g, .none, .none, .none, .may, 0, 0x0000, 0x0, .other⟩ r
  | .barWait r => .r ⟨0x31, 0, .dst .g, .src .g, .src .g, .none, .none, .may, 8, 0x0000, 0x0, .other⟩ r
  | .barTest r => .r ⟨0x31, 1, .dst .g, .src .g, .src .g, .none, .none, .may, 8, 0x0000, 0x0, .other⟩ r
  | .fence r => .r ⟨0x32, 0, .none, .none, .none, .none, .none, .must, 0, 0x00F0, 0x0, .other⟩ r
  | .sleep r => .r ⟨0x33, 0, .none, .none, .src .g, .none, .none, .may, 64, 0x0000, 0x0, .other⟩ r
  | .sleepu r => .r ⟨0x33, 1, .none, .none, .src .g, .none, .none, .may, 64, 0x0000, 0x0, .other⟩ r
  | .mfs r => .r ⟨0x38, 0, .dst .g, .none, .none, .none, .none, .must, 0, 0x0000, 0xFFF, .alu⟩ r
  | .mts r => .r ⟨0x38, 1, .none, .none, .src .g, .none, .none, .must, 64, 0x0000, 0xFFF, .alu⟩ r
  | .xret r => .r ⟨0x39, 0, .none, .none, .none, .none, .none, .may, 0, 0x0000, 0x0, .other⟩ r
  | .yield_ r => .r ⟨0x39, 1, .none, .none, .none, .none, .none, .may, 0, 0x0000, 0x0, .other⟩ r
  | .freeG r => .r ⟨0x3A, 0, .none, .name .g, .none, .none, .none, .may, 0, 0x0000, 0x0, .other⟩ r
  | .freeV r => .r ⟨0x3A, 1, .none, .name .v, .none, .none, .none, .may, 0, 0x0000, 0x0, .other⟩ r
  | .freeK r => .r ⟨0x3A, 2, .none, .name .k, .none, .none, .none, .may, 0, 0x0000, 0x0, .other⟩ r
  | .region r => .r ⟨0x3B, 0, .none, .none, .src .g, .none, .none, .must, 64, 0x00FE, 0xFFFFFFFF, .other⟩ r
  | .rend r => .r ⟨0x3B, 1, .none, .none, .none, .none, .none, .may, 0, 0x0000, 0x0, .other⟩ r
  | .vadd r => .r ⟨0x40, 0, .dst .v, .src .v, .src .v, .none, .none, .may, 0, 0x1FFF, 0x0, .varith⟩ r
  | .vsub r => .r ⟨0x40, 1, .dst .v, .src .v, .src .v, .none, .none, .may, 0, 0x1FFF, 0x0, .varith⟩ r
  | .vmul r => .r ⟨0x40, 2, .dst .v, .src .v, .src .v, .none, .none, .may, 0, 0x1FFF, 0x0, .varith⟩ r
  | .vmin r => .r ⟨0x41, 0, .dst .v, .src .v, .src .v, .none, .none, .may, 0, 0x1E0F, 0x0, .varith⟩ r
  | .vmax r => .r ⟨0x41, 1, .dst .v, .src .v, .src .v, .none, .none, .may, 0, 0x1E0F, 0x0, .varith⟩ r
  | .vminu r => .r ⟨0x41, 2, .dst .v, .src .v, .src .v, .none, .none, .may, 0, 0x1E0F, 0x0, .vint⟩ r
  | .vmaxu r => .r ⟨0x41, 3, .dst .v, .src .v, .src .v, .none, .none, .may, 0, 0x1E0F, 0x0, .vint⟩ r
  | .vfma r => .r ⟨0x42, 0, .dst .v, .src .v, .src .v, .src .v, .none, .must, 0, 0x1FFF, 0x0, .varith⟩ r
  | .vfms r => .r ⟨0x42, 1, .dst .v, .src .v, .src .v, .src .v, .none, .must, 0, 0x1FFF, 0x0, .varith⟩ r
  | .vfnma r => .r ⟨0x42, 2, .dst .v, .src .v, .src .v, .src .v, .none, .must, 0, 0x1FFF, 0x0, .varith⟩ r
  | .vabs r => .r ⟨0x46, 1, .dst .v, .src .v, .none, .none, .none, .may, 0, 0x1F8F, 0x0, .vint⟩ r
  | .vneg r => .r ⟨0x46, 2, .dst .v, .src .v, .none, .none, .none, .may, 0, 0x1F8F, 0x0, .vint⟩ r
  | .vsel r => .r ⟨0x46, 0, .dst .v, .src .v, .src .v, .none, .none, .may, 0, 0x0E0F, 0x0, .vint⟩ r
  | .vand r => .r ⟨0x43, 0, .dst .v, .src .v, .src .v, .none, .none, .may, 0, 0x1E0F, 0x0, .vint⟩ r
  | .vor r => .r ⟨0x43, 1, .dst .v, .src .v, .src .v, .none, .none, .may, 0, 0x1E0F, 0x0, .vint⟩ r
  | .vxor r => .r ⟨0x43, 2, .dst .v, .src .v, .src .v, .none, .none, .may, 0, 0x1E0F, 0x0, .vint⟩ r
  | .vandn r => .r ⟨0x43, 3, .dst .v, .src .v, .src .v, .none, .none, .may, 0, 0x1E0F, 0x0, .vint⟩ r
  | .vshl r => .r ⟨0x44, 0, .dst .v, .src .v, .src .v, .none, .none, .may, 0, 0x1E0F, 0x0, .vint⟩ r
  | .vshr r => .r ⟨0x44, 1, .dst .v, .src .v, .src .v, .none, .none, .may, 0, 0x1E0F, 0x0, .vint⟩ r
  | .vsar r => .r ⟨0x44, 2, .dst .v, .src .v, .src .v, .none, .none, .may, 0, 0x1E0F, 0x0, .vint⟩ r
  | .vceq r => .r ⟨0x45, 0, .dst .k, .src .v, .src .v, .none, .none, .may, 0, 0x0E0F, 0x0, .varith⟩ r
  | .vclt r => .r ⟨0x45, 1, .dst .k, .src .v, .src .v, .none, .none, .may, 0, 0x0E0F, 0x0, .varith⟩ r
  | .vcle r => .r ⟨0x45, 2, .dst .k, .src .v, .src .v, .none, .none, .may, 0, 0x0E0F, 0x0, .varith⟩ r
  | .vcun r => .r ⟨0x45, 3, .dst .k, .src .v, .src .v, .none, .none, .may, 0, 0x0E0F, 0x0, .varith⟩ r
  | .vcltu r => .r ⟨0x45, 3, .dst .k, .src .v, .src .v, .none, .none, .may, 0, 0x0E0F, 0x0, .vint⟩ r
  | .kand r => .r ⟨0x47, 0, .dst .k, .src .k, .src .k, .none, .none, .may, 0, 0x0000, 0x0, .vint⟩ r
  | .kor r => .r ⟨0x47, 1, .dst .k, .src .k, .src .k, .none, .none, .may, 0, 0x0000, 0x0, .vint⟩ r
  | .kxor r => .r ⟨0x47, 2, .dst .k, .src .k, .src .k, .none, .none, .may, 0, 0x0000, 0x0, .vint⟩ r
  | .kandn r => .r ⟨0x47, 3, .dst .k, .src .k, .src .k, .none, .none, .may, 0, 0x0000, 0x0, .vint⟩ r
  | .kpopc r => .r ⟨0x48, 0, .dst .g, .src .k, .none, .none, .none, .may, 0, 0x0000, 0x0, .vint⟩ r
  | .kfirst r => .r ⟨0x48, 1, .dst .g, .src .k, .none, .none, .none, .may, 0, 0x0000, 0x0, .vint⟩ r
  | .kset r => .r ⟨0x48, 2, .dst .k, .src .g, .src .g, .none, .none, .may, 64, 0x0000, 0x0, .vint⟩ r
  | .kget r => .r ⟨0x48, 3, .dst .g, .src .k, .none, .none, .none, .may, 0, 0x0001, 0x0, .vint⟩ r
  | .vbcast r => .r ⟨0x49, 0, .dst .v, .none, .src .g, .none, .none, .may, 64, 0x1E0F, 0x0, .vint⟩ r
  | .vext r => .r ⟨0x49, 1, .dst .g, .src .v, .src .g, .none, .none, .may, 64, 0x000F, 0x0, .vint⟩ r
  | .vins r => .r ⟨0x49, 2, .both .v, .src .g, .src .g, .none, .none, .may, 64, 0x000F, 0x0, .vint⟩ r
  | .vidx r => .r ⟨0x49, 3, .dst .v, .none, .none, .none, .none, .may, 0, 0x1E0F, 0x0, .vint⟩ r
  | .vperm r => .r ⟨0x4A, 0, .dst .v, .src .v, .src .v, .none, .none, .may, 0, 0x1E0F, 0x0, .vint⟩ r
  | .vrot r => .r ⟨0x4A, 1, .dst .v, .src .v, .src .g, .none, .none, .may, 64, 0x1E0F, 0x0, .vint⟩ r
  | .vcmpr r => .r ⟨0x4A, 2, .dst .v, .src .v, .none, .none, .none, .may, 0, 0x0E0F, 0x0, .vint⟩ r
  | .vrsum r => .r ⟨0x4B, 0, .dst .g, .src .v, .none, .none, .none, .may, 0, 0x0FFF, 0x0, .other⟩ r
  | .vrmax r => .r ⟨0x4B, 1, .dst .g, .src .v, .none, .none, .none, .may, 0, 0x0E0F, 0x0, .other⟩ r
  | .vrmin r => .r ⟨0x4B, 2, .dst .g, .src .v, .none, .none, .none, .may, 0, 0x0E0F, 0x0, .other⟩ r
  | .vrcp r => .r ⟨0x4C, 0, .dst .v, .src .v, .none, .none, .none, .may, 0, 0x1FFF, 0x0, .vtrans⟩ r
  | .vrsqrt r => .r ⟨0x4C, 1, .dst .v, .src .v, .none, .none, .none, .may, 0, 0x1FFF, 0x0, .vtrans⟩ r
  | .vexp2 r => .r ⟨0x4C, 2, .dst .v, .src .v, .none, .none, .none, .may, 0, 0x1FFF, 0x0, .vtrans⟩ r
  | .vlog2 r => .r ⟨0x4C, 3, .dst .v, .src .v, .none, .none, .none, .may, 0, 0x1FFF, 0x0, .vtrans⟩ r
  | .vsqrt r => .r ⟨0x4D, 0, .dst .v, .src .v, .none, .none, .none, .may, 0, 0x1FFF, 0x0, .vtrans⟩ r
  | .vcvt r => .r ⟨0x4E, 0, .dst .v, .src .v, .none, .none, .none, .must, 0, 0x1FFF, 0x7F, .vfp⟩ r
  | .vqnt r => .r ⟨0x4F, 0, .both .v, .src .v, .src .g, .none, .dst .g, .must, 16, 0x007F, 0x7F, .vfp⟩ r
  | .vdqnt r => .r ⟨0x4F, 1, .dst .v, .src .v, .src .g, .src .g, .none, .must, 64, 0x01FF, 0x7F, .vfp⟩ r
  | .vld r => .r ⟨0x50, 0, .dst .v, .src .g, .none, .none, .none, .may, 0, 0x1E0F, 0xFFFFFFFF, .other⟩ r
  | .vst r => .r ⟨0x50, 1, .none, .src .g, .src .v, .none, .none, .may, 0, 0x0E0F, 0xFFFFFFFF, .other⟩ r
  | .vlds r => .r ⟨0x50, 2, .dst .v, .src .g, .none, .src .g, .none, .must, 0, 0x1E0F, 0xFFFFFFFF, .other⟩ r
  | .vsts r => .r ⟨0x50, 3, .none, .src .g, .src .v, .src .g, .none, .must, 0, 0x0E0F, 0xFFFFFFFF, .other⟩ r
  | .vldx r => .r ⟨0x51, 0, .dst .v, .src .g, .none, .src .v, .none, .must, 0, 0x1E0F, 0xFFFFFFFF, .other⟩ r
  | .vstx r => .r ⟨0x51, 1, .none, .src .g, .src .v, .src .v, .none, .must, 0, 0x0E0F, 0xFFFFFFFF, .other⟩ r
  | .tld r => .r ⟨0x60, 0, .dst .t, .src .g, .none, .none, .src .g, .may, 0, 0x0000, 0x3FFFF, .other⟩ r
  | .tst r => .r ⟨0x60, 1, .none, .src .g, .src .t, .none, .none, .may, 0, 0x0000, 0x0, .other⟩ r
  | .tzero r => .r ⟨0x60, 2, .dst .t, .none, .none, .none, .none, .may, 0, 0x0000, 0x0, .other⟩ r
  | .tmov r => .r ⟨0x60, 3, .dst .t, .src .t, .none, .none, .none, .may, 0, 0x0000, 0x0, .other⟩ r
  | .tcvt r => .r ⟨0x61, 0, .dst .t, .src .t, .src .g, .none, .none, .may, 16, 0x01F0, 0x0, .other⟩ r
  | .tfree r => .r ⟨0x61, 1, .none, .src .t, .none, .none, .none, .may, 0, 0x0000, 0x0, .other⟩ r
  | .mma r => .r (if r.lb then ⟨0x62, 0, .dst .a, .src .t, .src .g, .none, .src .g, .may, 0, 0x1FC0, 0x3FFFF, .other⟩ else
      ⟨0x62, 0, .dst .a, .src .t, .src .t, .none, .src .g, .may, 0, 0x1FC0, 0x3FFFF, .other⟩) r
  | .accrd r => .r ⟨0x63, 0, .dst .v, .src .a, .src .g, .none, .dst .g, .must, 6, 0x01CF, 0x0, .other⟩ r
  | .accst r => .r ⟨0x63, 1, .none, .src .g, .src .g, .src .a, .src .g, .must, 32, 0x19FF, 0x0, .other⟩ r
  | .azero r => .r ⟨0x63, 2, .dst .a, .none, .none, .none, .none, .may, 0, 0x1000, 0x0, .other⟩ r
  | .afree r => .r ⟨0x63, 3, .dst .a, .none, .none, .none, .none, .may, 0, 0x0000, 0x0, .other⟩ r
  | .cpy r => .r ⟨0x68, 0, .dst .g, .src .g, .src .g, .src .g, .src .g, .must, 16, 0x18F0, 0x3FFFF, .other⟩ r
  | .cpyProg r => .r ⟨0x68, 0, .none, .src .g, .src .g, .src .g, .src .g, .must, 56, 0x0008, 0x3FFFF, .other⟩ r
  | .cpyst r => .r ⟨0x68, 1, .none, .src .g, .src .g, .src .g, .src .g, .must, 16, 0x17F0, 0x3FFFF, .other⟩ r
  | .cpyl r => .r ⟨0x68, 2, .dst .g, .src .g, .src .g, .src .g, .src .g, .must, 16, 0x18F0, 0x3FFFF, .other⟩ r
  | .cpylSt r => .r ⟨0x68, 2, .none, .src .g, .src .g, .src .g, .src .g, .must, 16, 0x10F2, 0x3FFFF, .other⟩ r
  | .pfx r => .r ⟨0x68, 3, .none, .none, .src .g, .src .g, .src .g, .must, 16, 0x0000, 0x0, .other⟩ r
  | .gath r => .r ⟨0x69, 0, .none, .src .g, .src .g, .src .g, .src .g, .must, 16, 0x10F4, 0x3FFFF, .other⟩ r
  | .scat r => .r ⟨0x69, 1, .none, .src .g, .src .g, .src .g, .src .g, .must, 16, 0x10F0, 0x3FFFF, .other⟩ r
  | .red r => .r ⟨0x69, 2, .none, .src .g, .src .g, .src .g, .src .g, .must, 16, 0x17F0, 0x3FFFF, .other⟩ r
  | .tflush r => .r ⟨0x6A, 0, .none, .none, .src .g, .none, .none, .must, 16, 0x0000, 0x3FFFF, .other⟩ r
  | .codeld r => .r ⟨0x6A, 1, .none, .none, .src .g, .src .g, .none, .must, 56, 0x0000, 0x0, .other⟩ r
  | .pwin r => .r ⟨0x6B, 0, .none, .src .g, .src .g, .src .g, .none, .must, 17, 0x0000, 0x0, .other⟩ r
  | .pwret r => .r ⟨0x6B, 1, .none, .src .g, .none, .none, .none, .may, 0, 0x0000, 0x0, .other⟩ r
  | .meet r => .r ⟨0x70, 0, .dst .g, .src .g, .src .g, .src .g, .none, .must, 32, 0x0000, 0x0, .other⟩ r
  | .part r => .r ⟨0x70, 1, .dst .g, .src .g, .none, .none, .none, .may, 0, 0x0003, 0x0, .other⟩ r
  | .msync r => .r ⟨0x70, 2, .none, .none, .none, .none, .none, .may, 0, 0x0000, 0x0, .other⟩ r
  | .mcancel r => .r ⟨0x70, 3, .dst .g, .src .g, .none, .none, .none, .may, 0, 0x0000, 0x0, .other⟩ r
  | .mget r => .r ⟨0x71, 0, .dst .g, .part 64, .none, .none, .none, .may, 0, 0x0000, 0x0, .other⟩ r
  | .mgetv r => .r ⟨0x71, 1, .dst .v, .part 32, .none, .none, .none, .may, 0, 0x0000, 0x0, .other⟩ r
  | .mcpy r => .r ⟨0x72, 0, .none, .src .g, .src .g, .src .g, .none, .must, 24, 0x0000, 0x0, .other⟩ r
  | .mswap r => .r ⟨0x72, 1, .none, .src .g, .src .g, .src .g, .none, .must, 24, 0x0000, 0x0, .other⟩ r
  | .coll r => .r ⟨0x74, 0, .dst .g, .src .g, .src .g, .none, .none, .must, 32, 0x1FCF, 0x3FFFF, .other⟩ r
  | .ccancel r => .r ⟨0x74, 1, .dst .g, .src .g, .none, .none, .none, .may, 0, 0x0000, 0x0, .other⟩ r
  | .fcast r => .r ⟨0x76, 0, .dst .g, .src .g, .none, .none, .none, .may, 0, 0x0000, 0x0, .other⟩ r
  | .fwait r => .r ⟨0x76, 1, .dst .g, .src .g, .none, .none, .none, .may, 0, 0x0000, 0x0, .other⟩ r
  | .fstat r => .r ⟨0x76, 2, .dst .g, .src .g, .none, .none, .none, .may, 0, 0x0000, 0x0, .other⟩ r
  | .jobpost r => .r ⟨0x78, 0, .dst .g, .none, .src .g, .none, .none, .may, 56, 0x0000, 0x0, .other⟩ r
  | .jobwait r => .r ⟨0x79, 0, .dst .g, .src .g, .none, .none, .none, .may, 0, 0x0000, 0x0, .other⟩ r
  | .spush r => .r ⟨0x7A, 0, .src .g, .src .g, .src .g, .src .g, .src .g, .must, 18, 0x0000, 0x3FFFF, .other⟩ r
  | .sfmt r => .r ⟨0x7A, 1, .src .g, .src .g, .src .g, .src .g, .none, .must, 18, 0x0000, 0x3FFFF, .other⟩ r
  | .sfill r => .r ⟨0x7A, 2, .src .g, .src .g, .src .g, .src .g, .none, .must, 18, 0x0000, 0x3FFFF, .other⟩ r
  | .swb r => .r ⟨0x7A, 3, .src .g, .src .g, .src .g, .src .g, .src .g, .must, 18, 0x00F0, 0x3FFFF, .other⟩ r
  | .baddq r => .r ⟨0x7C, 0, .both .v, .src .v, .src .v, .src .g, .both .g, .must, 0, 0x0070, 0xFFFF007F, .vfp⟩ r
  | .bqtake r => .r ⟨0x7C, 1, .dst .g, .src .g, .none, .none, .none, .may, 0, 0x0000, 0x0, .other⟩ r
  | .registerWriteback _ => .step
  | .loadResult _ => .step
  | .divideResult _ => .step
  | .vectorAccessDone _ => .step
  | .firstOverrun _ => .step
  | .kill _ => .step
  | .runBudgetTrap _ => .step
  | .missedPromise _ => .step
  | .missedPromiseTrap _ => .step
  | .refusedStoreTrap _ => .step
  | .journalAck _ _ => .step
  | .retirement _ => .step
  | .copyStart _ => .step
  | .descriptorRead _ => .step
  | .pageWalk _ => .step
  | .lineFill _ _ _ => .step
  | .landingUnit _ _ => .step
  | .storePerformed _ _ => .step
  | .monitorGrant _ => .step
  | .barWaitWake _ => .step
  | .sleepWake _ => .step
  | .tflushDone _ => .step
  | .codeldDone _ => .step
  | .programRequestQueued _ => .step
  | .spindleProgramStart _ => .step
  | .spindleProgramEnd _ => .step
  | .pushLanded _ => .step
  | .returnUpdate _ => .step
  | .mmaStart _ => .step
  | .kstepEnd _ => .step
  | .tilePortComplete _ => .step
  | .directoryArrival _ => .step
  | .decisionArrives _ => .step
  | .shuttleLanded _ => .step
  | .meetDeadline _ => .step
  | .directoryCancel _ => .step
  | .partBarrier _ => .step
  | .collArrival _ => .step
  | .collGo _ => .step
  | .collResultsLanded _ => .step
  | .collDeadline _ => .step
  | .collCancel _ => .step
  | .groupDissolvedStatus _ => .step
  | .verdict _ _ => .step
  | .heldBufferSpace _ => .step
  | .jobQueueEntry _ _ => .step
  | .jobpostRequest _ => .step
  | .argtDescriptorRead _ => .step
  | .jobReady _ => .step
  | .dealChunk _ => .step
  | .activityStart _ => .step
  | .codeLoad _ _ => .step
  | .firstIssue _ => .step
  | .migration _ => .step
  | .victimChoice _ => .step
  | .eviction _ => .step
  | .restore _ => .step
  | .jobwaitWake _ => .step
  | .jobCompletion _ => .step
  | .switchEnd _ => .step
  | .bucketMove => .step
  | .keyBucketMove => .step
  | .rebalancer => .step
  | .keyRebalancer => .step
  | .tokenRefill _ => .step
  | .jqEnable _ _ _ => .step
  | .jqDoorbell _ _ _ => .step
  | .vdEnable _ _ => .step
  | .shrWrite _ _ _ => .step
  | .waymskWrite _ _ _ => .step
  | .coreselWrite _ _ => .step
  | .rbctlGo _ => .step
  | .kbctlGo _ => .step
  | .dspcmdEndJob _ => .step
  | .gatewayStart _ _ => .step
  | .retireComputeCore _ => .step
  | .retireSpindle _ => .step
  | .repairDramRow _ _ _ => .step
  | .spareALane _ _ => .step
  | .dieWarmReset _ => .step
  | .setRoute _ _ _ => .step
  | .serviceCommandEnd => .step
  | .xlinvGo _ => .step
  | .xlinvAck => .step
  | .modidWrite _ => .step
  | .errctlRead => .step
  | .registerWrite _ _ => .step
  | .timingReplay _ => .step
  | .flitReplay _ => .step
  | .telemetryUpdate _ _ _ _ => .step
  | .thermtrip _ => .step
  | .coldReset _ _ => .step
  | .hostWrite _ _ _ _ => .step
  | .hostRead _ _ _ => .step
  | .peerAccess _ _ _ _ _ => .step
  | .blockRecord _ _ _ => .step
  | .switchReductionResult _ => .step
  | .cxlTimeout _ => .step
  | .linkDownTimeout _ => .step
  | .setKey _ _ _ => .step
  | .eraseKey _ => .step
  | .selectKey _ _ => .step
  | .raiseFusedSecurityVersion _ => .step
  | .spdmRequest _ => .step
  | .linkDown _ => .step

/-! ## Length and legality -/

/-- LEN (R77). -/
def R.len (r : R) : Nat := (if r.ext then 1 else 0) + (if r.lit.isSome then 2 else 0)

/-- The length in bytes that a LEN value gives (R77). -/
def lenBytes : Nat → Nat
  | 0 => 4
  | 1 => 12
  | 2 => 12
  | _ => 20

/-- The length of an instruction in bytes (R77). -/
def Instr.bytes (i : Instr) : Nat :=
  match i.enc with
  | .r _ r => lenBytes r.len
  | .step => 0
  | _ => 4

/-- STL of an instruction (R88). -/
def Instr.stl (i : Instr) : Nat :=
  match i.enc with
  | .r _ r => r.stl.toNat
  | .i _ s _ _ _ => s.toNat
  | .j _ s _ => s.toNat
  | .z _ s _ _ => s.toNat
  | .step => 0

/-- The major opcode of an instruction. -/
def Instr.op (i : Instr) : Nat :=
  match i.enc with
  | .r row _ => row.op
  | .i op _ _ _ _ => op
  | .j op _ _ => op
  | .z op _ _ _ => op
  | .step => 0

/-- A register field holds a number of its class, and an unused one holds 0 (R81). -/
def Use.ok (u : Use) (n : BitVec 6) : Bool :=
  match u with
  | .none => n == 0
  | .src c => n.toNat < c.count
  | .dst c => n.toNat < c.count
  | .both c => n.toNat < c.count
  | .name c => n.toNat < c.count
  | .part l => n.toNat < l

/-- The framing of a form-R instruction (R83, R85, R124). -/
def Row.framed (row : Row) (r : R) : Bool :=
  (match row.ext with
   | .no => !r.ext
   | .may => true
   | .must => r.ext) &&
  (r.ext || (r.c == 0 && r.e == 0 && r.g == 0 && !r.gn && r.m == 0 && r.x == 0)) &&
  (r.g != 0 || !r.gn) &&
  (match r.lit with
   | none => row.b.ok r.b
   | some l => row.lit != 0 && r.b == 0 && l.toNat < 2 ^ row.lit)

/-- The fields of a form-R instruction are those its row allows (R81, R83). -/
def Row.fields (row : Row) (r : R) : Bool :=
  row.d.ok r.d && row.a.ok r.a && row.c.ok r.c && row.e.ok r.e &&
  (r.m &&& ~~~ row.m) == 0 && (r.x &&& ~~~ row.x) == 0

/-- RM and OVF of the arithmetic rows of R172. -/
def arithOk (r : R) : Bool :=
  if isFp r.fmt then r.rm ≤ 4 && r.ovf ≤ 2 else isInt r.fmt && r.rm == 0 && r.ovf ≤ 1

/-- The conditions on a vector instruction's X for `vqnt`, `vdqnt` (R182). -/
def quantOk (r : R) : Bool :=
  (r.fmt == 0 || r.fmt == 1) && isBlock r.xfmt &&
  r.xpart < (if r.xfmt == 7 then 4 else 2) * (if r.fmt == 0 then 2 else 1)

/-- SEM, M[7:6] (R196). -/
def R.sem (r : R) : Nat := (r.m.extractLsb' 6 2).toNat
/-- SCOPE, M[5:4] (R196). -/
def R.scope (r : R) : Nat := (r.m.extractLsb' 4 2).toNat
/-- RED, M[10:8] (R196). -/
def R.redOp (r : R) : Nat := (r.m.extractLsb' 8 3).toNat
/-- U, M[12] (R196). -/
def R.unordered (r : R) : Bool := r.m.getLsbD 12
/-- PM, M[11] (R196). -/
def R.pm (r : R) : Bool := r.m.getLsbD 11
/-- Z, M[2] (R196). -/
def R.zfill (r : R) : Bool := r.m.getLsbD 2
/-- BAR, X[17:0] (R196). -/
def R.bar (r : R) : Nat := (r.x.extractLsb' 0 18).toNat

/-- SEM is one of those an entry accepts, and a weak command has SCOPE 0 (R197). -/
def semOk (r : R) (l : List Nat) : Bool := l.contains r.sem && (r.sem != 0 || r.scope == 0)

/-- COP, M[12:9] (R334). -/
def R.cop (r : R) : Nat := (r.m.extractLsb' 9 4).toNat
/-- ROP, M[8:7] (R334). -/
def R.rop (r : R) : Nat := (r.m.extractLsb' 7 2).toNat
/-- ACC, M[6] (R334). -/
def R.acc (r : R) : Bool := r.m.getLsbD 6

/-- What an entry asks beyond its row (R96, the last sentence). -/
def Instr.extra : Instr → Bool
  -- immediate shifts take 0 to 63 (R128)
  | .shli _ _ _ imm => imm.toNat < 64
  | .shri _ _ _ imm => imm.toNat < 64
  | .sari _ _ _ imm => imm.toNat < 64
  -- bit fields end at bit 63 (R131)
  | .bfxu r => (r.m.extractLsb' 0 6).toNat + (r.m.extractLsb' 6 6).toNat ≤ 63
  | .bfxs r => (r.m.extractLsb' 0 6).toNat + (r.m.extractLsb' 6 6).toNat ≤ 63
  | .bfi r => (r.m.extractLsb' 0 6).toNat + (r.m.extractLsb' 6 6).toNat ≤ 63
  -- the count register of loop is not g0 (R134)
  | .loop _ a _ => a != 0
  -- arithmetic (R172)
  | .vadd r => arithOk r
  | .vsub r => arithOk r
  | .vmul r => arithOk r
  | .vfma r => arithOk r
  | .vfms r => arithOk r
  | .vfnma r => arithOk r
  | .vmin r => isFp r.fmt || isInt r.fmt
  | .vmax r => isFp r.fmt || isInt r.fmt
  | .vminu r => isInt r.fmt
  | .vmaxu r => isInt r.fmt
  | .vabs r => if isFp r.fmt then r.ovf == 0 else isInt r.fmt && r.ovf ≤ 1
  | .vneg r => if isFp r.fmt then r.ovf == 0 else isInt r.fmt && r.ovf ≤ 1
  -- logic, shifts, compares, select (R175)
  | .vand r => isWidth r.fmt
  | .vor r => isWidth r.fmt
  | .vxor r => isWidth r.fmt
  | .vandn r => isWidth r.fmt
  | .vshl r => isInt r.fmt
  | .vshr r => isInt r.fmt
  | .vsar r => isInt r.fmt
  | .vceq r => isFp r.fmt || isInt r.fmt
  | .vclt r => isFp r.fmt || isInt r.fmt
  | .vcle r => isFp r.fmt || isInt r.fmt
  | .vcun r => isFp r.fmt
  | .vcltu r => isInt r.fmt
  | .vsel r => isWidth r.fmt
  -- moves and permutes (R178); the literal of vbcast has the element's width
  | .vbcast r => isWidth r.fmt && (match r.lit with | none => true | some l => l.toNat < 2 ^ fmtWidth r.fmt)
  | .vext r => isWidth r.fmt
  | .vins r => isWidth r.fmt
  | .vidx r => isWidth r.fmt
  | .vperm r => isWidth r.fmt
  | .vrot r => isWidth r.fmt
  | .vcmpr r => isWidth r.fmt
  -- reductions (R179)
  | .vrsum r => arithOk r
  | .vrmax r => isFp r.fmt || isInt r.fmt
  | .vrmin r => isFp r.fmt || isInt r.fmt
  -- transcendentals (R180)
  | .vrcp r => r.fmt ≤ 1 && r.rm ≤ 3 && r.ovf ≤ 2
  | .vrsqrt r => r.fmt ≤ 1 && r.rm ≤ 3 && r.ovf ≤ 2
  | .vexp2 r => r.fmt ≤ 1 && r.rm ≤ 3 && r.ovf ≤ 2
  | .vlog2 r => r.fmt ≤ 1 && r.rm ≤ 3 && r.ovf ≤ 2
  | .vsqrt r => r.fmt ≤ 1 && r.rm ≤ 3 && r.ovf ≤ 2
  -- conversions (R181)
  | .vcvt r => isWidth r.fmt && isWidth r.xfmt &&
      r.xpart < Nat.max (fmtWidth r.fmt) (fmtWidth r.xfmt) / Nat.min (fmtWidth r.fmt) (fmtWidth r.xfmt) &&
      (if isInt r.fmt && isInt r.xfmt then r.rm == 0 else r.rm ≤ 4) &&
      (if isInt r.xfmt then r.ovf ≤ 1 else r.ovf ≤ 2)
  -- block quantisation (R182-R184)
  | .vqnt r => quantOk r && (r.rm == 0 || r.rm == 4)
  | .vdqnt r => quantOk r && r.rm ≤ 4 && r.ovf ≤ 2 &&
      (match r.lit with | none => true | some l => l.toNat < 2 ^ (if r.fmt == 0 then 32 else 64))
  -- vector loads and stores (R185)
  | .vld r => isWidth r.fmt
  | .vst r => isWidth r.fmt
  | .vlds r => isWidth r.fmt
  | .vsts r => isWidth r.fmt
  | .vldx r => r.fmt == 0 || r.fmt == 9 || r.fmt == 10
  | .vstx r => r.fmt == 0 || r.fmt == 9 || r.fmt == 10
  -- copies (R196, R197)
  | .fence r => r.sem != 0
  | .cpy r => semOk r [0, 1, 3] && (!r.pm || r.bar != 0)
  | .cpyst r => semOk r [0, 2, 3] && r.redOp ≤ 6
  | .cpyl r => semOk r [0, 1, 3] && (!r.pm || r.bar != 0)
  | .cpylSt r => semOk r [0, 2, 3] && r.m.getLsbD 1
  -- PRG tells cpy.prog from cpy, and ST the store from the load (R195)
  | .cpyProg r => r.m.getLsbD 3
  | .gath r => semOk r [0, 1, 3] && (!r.zfill || r.bar != 0)
  | .scat r => semOk r [0, 2, 3]
  | .red r => semOk r [0, 2, 3] && 1 ≤ r.redOp && r.redOp ≤ 6
  | .swb r => semOk r [0, 2, 3]
  -- matrix (R253, R254)
  | .tld r => r.bar != 0 || r.e == 0
  | .mma r => (r.bar != 0 || r.e == 0) && (r.lb || r.bsh == 0)
  | .tcvt r => r.rmM ≤ 4 && r.ovfM ≤ 2
  | .accrd r => r.rmM ≤ 3 && (r.fmt == 0 || r.fmt == 9)
  | .accst r => r.rmM ≤ 4 && r.ovfM ≤ (if r.fmt == 9 then 1 else 2) && (r.fmt ≤ 1 || r.fmt == 9) &&
      (r.lb || (r.b == 0 && r.lit.isNone))
  -- collectives (R334)
  | .coll r => r.cop ≤ 7 &&
      (if r.cop == 4 || r.cop == 5 then r.rop ≤ 2 && (r.fmt ≤ 2 || r.fmt == 9) && (!r.acc || r.fmt == 1 || r.fmt == 2)
       else r.rop == 0 && !r.acc && r.fmt == 0)
  -- link instructions (R422)
  | .baddq r => (r.rm == 0 || r.rm == 4) && isBlock r.xfmt && r.xpart ≤ (if r.xfmt == 7 then 3 else 1)
  -- part (R309)
  | .part r => (r.m.extractLsb' 0 2).toNat ≤ 2 && (((r.m.extractLsb' 0 2).toNat == 2) == (r.a != 0))
  | _ => true

/-- R97: every condition that makes an encoding illegal, but for the agent's (R96). A step has no encoding. -/
def Instr.legal (i : Instr) : Bool :=
  (match i.enc with
   | .r row r => row.framed r && row.fields r
   | .step => false
   | _ => true) && i.extra

/-- The instructions that only some agents have (R30, R95, R96). -/
def Instr.onAgent (i : Instr) (k : AKind) : Bool :=
  let op := i.op
  match i, k with
  | .cpyProg _, k => k == .compute
  | .pwin _, k => k == .compute
  | .pwret _, k => k == .compute
  | .codeld _, k => k == .compute
  | _, k =>
    if 0x60 ≤ op && op ≤ 0x67 then k == .compute
    else if 0x70 ≤ op && op ≤ 0x73 then k == .compute
    else if 0x74 ≤ op && op ≤ 0x75 then k != .spindle
    else if 0x76 ≤ op && op ≤ 0x79 then k == .compute
    else if 0x7A ≤ op && op ≤ 0x7B then k == .spindle
    else if op == 0x7C then k == .gateway
    else true

/-! ## Registers and their homes -/

/-- The home of a register in the spill reserve (R45). -/
def Reg.homeOffset (r : Reg) : Nat :=
  match r.cls with
  | .g => 8 * r.num
  | .k => 0x200 + 16 * r.num
  | _ => 0x400 + 128 * r.num

/-- The bytes of a register. -/
def Reg.size (r : Reg) : Nat :=
  match r.cls with
  | .g => 8
  | .k => 16
  | _ => 128

/-- A vector register's pool is its own; general and mask registers share one (R43). -/
def Reg.inVector (r : Reg) : Bool := r.cls = .v

/-- Physical registers that a register takes. -/
def Reg.cost (r : Reg) : Nat := if r.cls = .k then 2 else 1

/-! ## Source and destination registers -/

/-- The registers that a field names as sources. -/
def Use.srcs (u : Use) (n : BitVec 6) : List Reg :=
  match u with
  | .src c => [⟨c, n.toNat⟩]
  | _ => []

/-- The registers that a field names as destinations. -/
def Use.dsts (u : Use) (n : BitVec 6) : List Reg :=
  match u with
  | .dst c => [⟨c, n.toNat⟩]
  | .both c => [⟨c, n.toNat⟩]
  | _ => []

/-- A register that binds: every one but g0 and k0 (R43). -/
def Reg.binds (r : Reg) : Bool := r.num != 0 || !(r.cls == .g || r.cls == .k)

/-- Whether the row's M has the mask field KM, and the instruction names a mask other than k0. -/
def Row.masked (row : Row) (r : R) : Bool :=
  0x40 ≤ row.op && row.op ≤ 0x51 && (row.m.extractLsb' 9 3) != 0 && r.km != 0

/-- The source registers: in the order in which R100 names them, A, B, C, E; then a destination D that is read, then the mask, which R100
does not place (DESIGN CHOICE, log 129).
The destination of a masked instruction that merges is read as well when some element is inactive (R168): see
`mergeSrc`. -/
def Instr.srcs (i : Instr) : List Reg :=
  List.filter Reg.binds <| match i.enc with
   | .r row r =>
     row.a.srcs r.a ++ (if r.lit.isSome then [] else row.b.srcs r.b) ++ row.c.srcs r.c ++ row.e.srcs r.e ++
     (match row.e with
      | .both c => [⟨c, r.e.toNat⟩]
      | _ => []) ++
     (match row.d with
      | .both c => [⟨c, r.d.toNat⟩]
      | .src c => [⟨c, r.d.toNat⟩]
      | _ => []) ++
     (if row.masked r then [⟨.k, r.km⟩] else [])
   | .i _ _ _ a _ => [⟨.g, a.toNat⟩]
   | .z _ _ a _ => [⟨.g, a.toNat⟩]
   | _ => []

/-- The vector destination of an instruction that merges under a mask, or that writes only a part of it (R168, R181): read as
a source when some element keeps its old value. `vsel` and `vcmpr` write every element whatever the mask (R175, R178). -/
def Instr.merges (i : Instr) : Option Nat :=
  match i with
  | .vsel _ => none
  | .vcmpr _ => none
  | .vcvt r => if fmtWidth r.xfmt < fmtWidth r.fmt || !r.zm then some r.d.toNat else none
  | _ =>
    match i.enc with
    | .r row r => if row.masked r && row.d == .dst .v && !r.zm then some r.d.toNat else none
    | _ => none

/-- The destination registers. -/
def Instr.dsts (i : Instr) : List Reg :=
  List.filter Reg.binds <| match i.enc with
   | .r row r => row.d.dsts r.d ++ row.e.dsts r.e
   | .i _ _ d _ _ => [⟨.g, d.toNat⟩]
   | .j op _ _ => if op = 0x21 then [⟨.g, 62⟩] else []
   | .z op _ a _ => if op = 0x24 then [⟨.g, a.toNat⟩] else []
   | .step => []

/-- The guard register and its negation: `none` when unguarded (R84). -/
def Instr.guard (i : Instr) : Option (Reg × Bool) :=
  match i.enc with
  | .r _ r => if r.g = 0 then none else some (⟨.g, r.g.toNat⟩, r.gn)
  | _ => none

/-- The guard register, which is read before the others (R100, step 4). -/
def Instr.guardReg (i : Instr) : List Reg := (i.guard.map (fun g => g.1)).toList

/-- The fixed latency of an instruction's result (R87, R122, R171); 0 for one that interlocks. -/
def Instr.lat (i : Instr) : Nat :=
  match i.enc with
  | .r row r =>
    match row.lat with
    | .alu => 1
    | .mul => 3
    | .vint => 2
    | .varith => if isInt r.fmt then 2 else 4
    | .vfp => 4
    | .vtrans => 8
    | .other => 0
  | .step => 0
  | _ => 1

/-- The instructions of R46, which reset the run-budget counter when they issue (R48). -/
def Instr.blocking : Instr → Bool
  | .barWait _ => true
  | .meet _ => true
  | .jobwait _ => true
  | .sleep _ => true
  | .sleepu _ => true
  | .fwait _ => true
  | .yield_ _ => true
  | _ => false

end Sys2Proof
end

