-- ==== Sys2Proof/Decode.lean ====
section
/-! DEFINITION. The decoder (R77, R80-R85, R97): total on any bytes, rejecting by name; and the encoder, written from the same
tables. -/

namespace Sys2Proof

/-- Why a string of bytes is no instruction. -/
inductive DecodeError where
  /-- Fewer bytes than LEN asks. -/
  | truncated
  /-- No instruction has this opcode and minor function (R92, R95, R97). -/
  | unassigned
  /-- LEN is not 0 on a form-I, J or Z instruction (R82). -/
  | framing
  /-- A field, framing or register number that the entry does not allow (R97). -/
  | illegal
deriving DecidableEq, Repr

/-! ## Fields -/

/-- Bits [17:12] of word 0 (R80). -/
def fieldD (w : BitVec 32) : BitVec 6 := w.extractLsb' 12 6
/-- Bits [23:18] of word 0. -/
def fieldA (w : BitVec 32) : BitVec 6 := w.extractLsb' 18 6
/-- Bits [29:24] of word 0. -/
def fieldB (w : BitVec 32) : BitVec 6 := w.extractLsb' 24 6
/-- OP, bits [11:5] of word 0 (R77). -/
def fieldOp (w : BitVec 32) : Nat := (w.extractLsb' 5 7).toNat
/-- LEN, bits [1:0] of word 0 (R77). -/
def fieldLen (w : BitVec 32) : Nat := (w.extractLsb' 0 2).toNat

/-- The little-endian word of four bytes (R3). -/
def word32 (b0 b1 b2 b3 : Byte) : BitVec 32 := b3 ++ b2 ++ b1 ++ b0

/-- Byte string to words, lowest address first; what is left over is dropped. -/
def toWords : List Byte → List (BitVec 32)
  | b0 :: b1 :: b2 :: b3 :: rest => word32 b0 b1 b2 b3 :: toWords rest
  | _ => []

/-- The bytes of a word, lowest first (R3). -/
def ofWord (w : BitVec 32) : List Byte :=
  [w.extractLsb' 0 8, w.extractLsb' 8 8, w.extractLsb' 16 8, w.extractLsb' 24 8]

/-- The form-R fields of word 0, words 1 and 2 when present, and the literal when present. -/
def fieldsR (w0 : BitVec 32) (ext : Option (BitVec 32 × BitVec 32)) (lit : Option Word) : R :=
  { stl := w0.extractLsb' 2 3
    ext := ext.isSome
    lit := lit
    d := fieldD w0
    a := fieldA w0
    b := fieldB w0
    c := match ext with | some (w1, _) => w1.extractLsb' 0 6 | none => 0
    e := match ext with | some (w1, _) => w1.extractLsb' 6 6 | none => 0
    g := match ext with | some (w1, _) => w1.extractLsb' 12 6 | none => 0
    gn := match ext with | some (w1, _) => w1.getLsbD 18 | none => false
    m := match ext with | some (w1, _) => w1.extractLsb' 19 13 | none => 0
    x := match ext with | some (_, w2) => w2 | none => 0 }

/-! ## The opcode map (R95) -/

/-- The form-R instruction of a major opcode and a minor function, where the table of R95 has one. -/
def formR (op f : Nat) (r : R) : Option Instr :=
  match op with
  | 0x01 => [.add r, .sub r, .adds r, .subs r][f]?
  | 0x02 => [.and_ r, .or_ r, .xor r, .andn r][f]?
  | 0x03 => [.shl r, .shr r, .sar r, .ror r][f]?
  | 0x04 => [.mul r, .mulh r, .mulhu r][f]?
  | 0x05 => [.div r, .divu r, .rem r, .remu r][f]?
  | 0x0D => [.ceq r, .cne r, .clt r, .cltu r][f]?
  | 0x0E => [.min r, .max r, .minu r, .maxu r][f]?
  | 0x0F => [.sel r][f]?
  | 0x10 => [.bfxu r, .bfxs r, .bfi r][f]?
  | 0x11 => [.clz r, .ctz r, .popc r, .bswap r][f]?
  | 0x12 => [.adx2 r, .adx4 r, .adx8 r, .adx16 r][f]?
  | 0x25 => [.jmp r, .jcall r][f]?
  | 0x26 => [.beq r, .bne r, .blt r, .bltu r][f]?
  | 0x27 => [.end_ r, .nop r][f]?
  | 0x28 => [.lb r, .lh r, .lw r, .ld r][f]?
  | 0x29 => [.lbu r, .lhu r, .lwu r][f]?
  | 0x2A => [.sb r, .sh r, .sw r, .sd r][f]?
  | 0x30 => [.barInit r, .barExp r, .barArr r, .barInval r][f]?
  | 0x31 => [.barWait r, .barTest r][f]?
  | 0x32 => [.fence r][f]?
  | 0x33 => [.sleep r, .sleepu r][f]?
  | 0x38 => [.mfs r, .mts r][f]?
  | 0x39 => [.xret r, .yield_ r][f]?
  | 0x3A => [.freeG r, .freeV r, .freeK r][f]?
  | 0x3B => [.region r, .rend r][f]?
  | 0x40 => [.vadd r, .vsub r, .vmul r][f]?
  | 0x41 => [.vmin r, .vmax r, .vminu r, .vmaxu r][f]?
  | 0x42 => [.vfma r, .vfms r, .vfnma r][f]?
  | 0x43 => [.vand r, .vor r, .vxor r, .vandn r][f]?
  | 0x44 => [.vshl r, .vshr r, .vsar r][f]?
  | 0x45 => [.vceq r, .vclt r, .vcle r, if intFmt r.m then .vcltu r else .vcun r][f]?
  | 0x46 => [.vsel r, .vabs r, .vneg r][f]?
  | 0x47 => [.kand r, .kor r, .kxor r, .kandn r][f]?
  | 0x48 => [.kpopc r, .kfirst r, .kset r, .kget r][f]?
  | 0x49 => [.vbcast r, .vext r, .vins r, .vidx r][f]?
  | 0x4A => [.vperm r, .vrot r, .vcmpr r][f]?
  | 0x4B => [.vrsum r, .vrmax r, .vrmin r][f]?
  | 0x4C => [.vrcp r, .vrsqrt r, .vexp2 r, .vlog2 r][f]?
  | 0x4D => [.vsqrt r][f]?
  | 0x4E => [.vcvt r][f]?
  | 0x4F => [.vqnt r, .vdqnt r][f]?
  | 0x50 => [.vld r, .vst r, .vlds r, .vsts r][f]?
  | 0x51 => [.vldx r, .vstx r][f]?
  | 0x60 => [.tld r, .tst r, .tzero r, .tmov r][f]?
  | 0x61 => [.tcvt r, .tfree r][f]?
  | 0x62 => [.mma r][f]?
  | 0x63 => [.accrd r, .accst r, .azero r, .afree r][f]?
  | 0x68 => [if r.m.getLsbD 3 then .cpyProg r else .cpy r, .cpyst r, if r.m.getLsbD 1 then .cpylSt r else .cpyl r, .pfx r][f]?
  | 0x69 => [.gath r, .scat r, .red r][f]?
  | 0x6A => [.tflush r, .codeld r][f]?
  | 0x6B => [.pwin r, .pwret r][f]?
  | 0x70 => [.meet r, .part r, .msync r, .mcancel r][f]?
  | 0x71 => [.mget r, .mgetv r][f]?
  | 0x72 => [.mcpy r, .mswap r][f]?
  | 0x74 => [.coll r, .ccancel r][f]?
  | 0x76 => [.fcast r, .fwait r, .fstat r][f]?
  | 0x78 => [.jobpost r][f]?
  | 0x79 => [.jobwait r][f]?
  | 0x7A => [.spush r, .sfmt r, .sfill r, .swb r][f]?
  | 0x7C => [.baddq r, .bqtake r][f]?
  | _ => none

/-- The instruction of form I, J or Z of a major opcode, from bits 31 to 12 of word 0. -/
def formIJZ (op : Nat) (stl : BitVec 3) (w : BitVec 32) : Option Instr :=
  match op with
  | 0x06 => some (.addi stl (fieldD w) (fieldA w) (w.extractLsb' 24 8))
  | 0x07 => some (.andi stl (fieldD w) (fieldA w) (w.extractLsb' 24 8))
  | 0x08 => some (.ori stl (fieldD w) (fieldA w) (w.extractLsb' 24 8))
  | 0x09 => some (.xori stl (fieldD w) (fieldA w) (w.extractLsb' 24 8))
  | 0x0A => some (.shli stl (fieldD w) (fieldA w) (w.extractLsb' 24 8))
  | 0x0B => some (.shri stl (fieldD w) (fieldA w) (w.extractLsb' 24 8))
  | 0x0C => some (.sari stl (fieldD w) (fieldA w) (w.extractLsb' 24 8))
  | 0x13 => some (.ceqi stl (fieldD w) (fieldA w) (w.extractLsb' 24 8))
  | 0x14 => some (.clti stl (fieldD w) (fieldA w) (w.extractLsb' 24 8))
  | 0x15 => some (.cltui stl (fieldD w) (fieldA w) (w.extractLsb' 24 8))
  | 0x20 => some (.br stl (w.extractLsb' 12 20))
  | 0x21 => some (.call stl (w.extractLsb' 12 20))
  | 0x22 => some (.bnz stl (fieldD w) (w.extractLsb' 18 14))
  | 0x23 => some (.bz stl (fieldD w) (w.extractLsb' 18 14))
  | 0x24 => some (.loop stl (fieldD w) (w.extractLsb' 18 14))
  | _ => none

/-- The instruction that a word 0, its extended words and its literal spell, before the checks of R97. -/
def spell (w0 : BitVec 32) (ext : Option (BitVec 32 × BitVec 32)) (lit : Option Word) : Except DecodeError Instr :=
  match formIJZ (fieldOp w0) (w0.extractLsb' 2 3) w0 with
  | some i => if fieldLen w0 = 0 then .ok i else .error .framing
  | none =>
    match formR (fieldOp w0) (w0.extractLsb' 30 2).toNat (fieldsR w0 ext lit) with
    | some i => .ok i
    | none => .error .unassigned

/-- The instruction at the head of a list of words. -/
def decodeWords (ws : List (BitVec 32)) : Except DecodeError Instr :=
  let checked (e : Except DecodeError Instr) : Except DecodeError Instr :=
    match e with
    | .ok i => if i.legal then .ok i else .error .illegal
    | .error r => .error r
  match ws with
  | [] => .error .truncated
  | w0 :: rest =>
    match fieldLen w0, rest with
    | 0, _ => checked (spell w0 none none)
    | 1, w1 :: w2 :: _ => checked (spell w0 (some (w1, w2)) none)
    | 2, l0 :: l1 :: _ => checked (spell w0 none (some (l1 ++ l0)))
    | 3, w1 :: w2 :: l0 :: l1 :: _ => checked (spell w0 (some (w1, w2)) (some (l1 ++ l0)))
    | _, _ => .error .truncated

/-- The instruction at the head of a byte string, and the bytes after it. -/
def decode (bs : List Byte) : Except DecodeError (Instr × List Byte) :=
  match decodeWords (toWords bs) with
  | .ok i => .ok (i, bs.drop i.bytes)
  | .error r => .error r

/-! ## The encoder -/

/-- Word 0 of a form-R instruction (R77, R80). -/
def word0R (op f : Nat) (r : R) : BitVec 32 :=
  BitVec.ofNat 2 f ++ r.b ++ r.a ++ r.d ++ BitVec.ofNat 7 op ++ r.stl ++ BitVec.ofNat 2 r.len

/-- Word 1 (R82). -/
def word1R (r : R) : BitVec 32 := r.m ++ BitVec.ofBool r.gn ++ r.g ++ r.e ++ r.c

/-- The words of an instruction; none for a step, which has no encoding. -/
def encode (i : Instr) : List (BitVec 32) :=
  match i.enc with
  | .r row r =>
    word0R row.op row.f r ::
      ((if r.ext then [word1R r, r.x] else []) ++
       (match r.lit with
        | some l => [l.extractLsb' 0 32, l.extractLsb' 32 32]
        | none => []))
  | .i op stl d a imm => [imm ++ a ++ d ++ BitVec.ofNat 7 op ++ stl ++ 0#2]
  | .j op stl off => [off ++ BitVec.ofNat 7 op ++ stl ++ 0#2]
  | .z op stl a off => [off ++ a ++ BitVec.ofNat 7 op ++ stl ++ 0#2]
  | .step => []

/-- The bytes of an instruction in memory (R77, R3). -/
def encodeBytes (i : Instr) : List Byte := (encode i).flatMap ofWord

/-- n words of 32 bits of a number, the least significant first. -/
def splitWords : Nat → Nat → List (BitVec 32)
  | 0, _ => []
  | n + 1, w => BitVec.ofNat 32 w :: splitWords n (w / 2 ^ 32)

/-- The instruction the decoder reads from one whose first `nbits` bits are `w`, bit 0 the least significant of word 0, every
later bit being 0. -/
def decodeTableWord (nbits w : Nat) : Option Instr :=
  match decodeWords (splitWords 5 (w % 2 ^ nbits)) with
  | .ok i => some i
  | .error _ => none

end Sys2Proof
end

