-- ==== Sys2Proof/Config.lean ====
section
/-! DEFINITION. The free values (no body: nothing can be proved of what they answer) and the constants of the module. -/

namespace Sys2Proof.Config

/-- The order of the steps that several agents could take in one cycle, which the spec leaves open (R18, R24, R55, R232): the
n-th free choice of the machine. -/
opaque choice : Nat → Nat

/-- Device signatures over SPDM transcripts (R446), by signature scheme and transcript. -/
opaque signature : Nat → List Nat → Nat

/-- The integrity tag of a save area (R164), by the number of the key and contents. -/
opaque integrityTag : Nat → List Nat → BitVec 128

/-- Free values that no other entry names, by the number of the draw. -/
opaque freeValue : Nat → Word

/-- The cycles that refused bank accesses cost a scalar load while other requesters use the banks (R21, R146, R451), by the number of the choice. -/
opaque bankWait : Nat → Nat

/-- Bytes of memory attached to a CXL port (R414); the least of this and 2 TiB. -/
opaque cxlBytes : Nat → Nat

/-- Spare rows of a DRAM bank (R434). -/
opaque rowSpares : Nat

/-- The 32-byte sectors of a DRAM row (R434) by their offsets in the channel (R28), in sectors: by bank and row. -/
opaque rowSectors : Nat → Nat → List Nat

/-- Redundant lanes of a die boundary (R435). -/
opaque boundarySpares : Nat

/-- The measurements of the ROM and of the debug state (R446), by index. -/
opaque measured : Nat → Nat

/-- Compute cores in the module (R14). -/
def computeCores : Nat := 4096
/-- Spindles in the module (R14). -/
def spindles : Nat := 384
/-- Gateway cores in the module (R14). -/
def gateways : Nat := 16

end Sys2Proof.Config
end

