-- ==== Sys2Proof/Machine/State.lean ====
section
/-! DEFINITION. The state of the module: activities, the agents they stand on, memory, and the units beside the cores; plain
data throughout. The activity in focus (`me`) and the agent it stands on (`core`) are held apart from the others: an
instruction acts on them, and a step of another unit first brings the activity it concerns into focus. -/

namespace Sys2Proof.Machine

/-! ## Registers -/

/-- The general, vector and mask registers of an activity (R43). A register is bound when it is listed here or in `spilled`. -/
structure Regs where
  g : AMap Word
  v : AMap Vec
  k : AMap Mask
  /-- Bound registers whose value stands at its home in the spill reserve (R44, R45). -/
  spilled : List Reg
  /-- Registers in physical registers, the least recently used first (R44). -/
  order : List Reg
deriving DecidableEq, Repr

/-- What a pending register write is of (R87, R122, R123). -/
inductive PendKind where
  | fixed
  | load
  | divide
  /-- A result of an engine that is known and due. -/
  | engine
deriving DecidableEq, Repr

/-- A register write that has not taken effect: the value (a general or mask register takes the low bits), the first cycle
in which a reader sees it, and the source registers of its instruction (which R44 does not spill). -/
structure Pend where
  reg : Reg
  val : Vec
  due : Nat
  kind : PendKind
  keep : List Reg
deriving DecidableEq, Repr

/-- A tile register (R249). -/
structure Tile where
  payload : Memory
  scales : Memory
  band : BitVec 16
  poison : Bool
deriving DecidableEq, Repr

/-- The view of an accumulator's entries (R252). -/
inductive AccView where
  | fp
  | int
deriving DecidableEq, Repr

/-- An accumulator (R252): the entries that are not 0, by row·64 + column; 40 bits each. -/
structure Acc where
  entries : AMap (BitVec 40)
  view : AccView
  steps : Nat
  poison : Bool
deriving DecidableEq, Repr

/-- What stays with a spilled accumulator (R270). -/
structure SpilledAcc where
  view : AccView
  steps : Nat
  poison : Bool
deriving DecidableEq, Repr

/-- The matrix commands (R253). -/
inductive MatKind where
  | tld
  | tst
  | tzero
  | tmov
  | tcvt
  | tfree
  | mma
  | accst
  | azero
  | afree
  | accrd
deriving DecidableEq, Repr

/-! ## Parts of an activity -/

/-- Local memory and the like: bytes, and the aligned 8-byte words that are poisoned (R143). -/
structure LMem where
  bytes : Memory
  poison : List Nat
  /-- Something has been written since the activity started (R52). -/
  touched : Bool := false
  /-- The aligned 8-byte words that hold a correctable error (R143). -/
  soft : List Nat := []
deriving DecidableEq, Repr

/-- A range that an engine command of the activity holds on the range scoreboard (R22, R23). -/
structure Claim where
  cmd : Nat
  start : Nat
  len : Nat
  write : Bool
deriving DecidableEq, Repr

/-- What a job gives its activities (R35); on a spindle or a gateway core, what the program descriptor gives (R279). -/
structure JobCtx where
  vd : Nat
  jid : Nat
  cls : Nat
  stage : Nat
  keysp : Nat
  runb : Nat
  /-- Code pages c (R36). -/
  codePages : Nat
  dpages : Nat
  spages : Nat
  trape : Nat
  ovle : Nat
  entry : Nat
  /-- The record index. -/
  record : Nat
deriving DecidableEq, Repr

/-- The trap registers (R151-R153). -/
structure TrapRegs where
  xpc : Word
  xcause : Word
  xinfo : Word
  inh : Bool
  prs : Bool
  pmp : Bool
  prb : Bool
  /-- The barrier and the promised cycle of each pending missed promise, in order (R153, R215). -/
  missed : List (Nat × Nat)
deriving DecidableEq, Repr

/-- A trap that has been taken and waits for the verdicts of its activity or for its vector accesses (R154, R188): its cause and XINFO,
whether it is asynchronous, and the cycle of its issue slot (R454). -/
structure TrapWait where
  cause : Nat
  info : Word
  async : Bool
  since : Nat
deriving DecidableEq, Repr

/-- The open region (R156, R157). -/
structure Region where
  pc : Word
  rcnt : Nat
  try_ : Nat
  pin : Bool
  open_ : Bool
  /-- The command number at the region's entry: commands numbered from here on were issued inside (R160). -/
  cmdMark : Nat
  /-- A `rend` that waits for verdicts: its bytes and its stall count (R156, R372). -/
  closing : Option (Nat × Nat)
deriving DecidableEq, Repr

/-- A blocking point with its wake condition (R46, R165). -/
inductive Block where
  | none
  /-- `bar.wait`: barrier address, phase token, destination register. -/
  | barWait (addr : Nat) (token : Nat) (dst : Nat)
  /-- The phase that `bar.wait` awaited has completed, with this status, at this cycle (R220). -/
  | barDone (dst : Nat) (status : Nat) (since : Nat)
  /-- Waiting for a monitor entry. -/
  | monitor (addr : Nat) (token : Nat) (dst : Nat)
  /-- `meet`: where the party stands is in `meet`. -/
  | meet
  | jobwait (id : Nat) (dst : Nat)
  /-- The awaited job has completed: its id, its status byte, and the cycle of the wake (R381). -/
  | jobDone (id : Nat) (dst : Nat) (byte : Nat) (due : Nat)
  | sleep (wake : Nat)
  | fwait (tag : Nat) (dst : Nat)
  /-- The held-effects buffer is full: the bytes that are needed. -/
  | held (need : Nat)
  | yielded
deriving DecidableEq, Repr

/-- Whether an activity exists and what it is doing besides issuing. -/
inductive Life where
  /-- No activity: what stands in focus before any exists. -/
  | absent
  | live
  /-- `end` has issued; retirement waits (R53). -/
  | ending
  /-- `end` inside a meeting: the barrier of `part` first (R53, step 2). -/
  | endParting
  /-- Killed in a meeting to which it had travelled: it goes home as by `part .home`, and retires there (R330). -/
  | killed
deriving DecidableEq, Repr

/-- A push window (R208). -/
structure Window where
  base : Nat
  len : Nat
  /-- The spindle program that streams into it. -/
  prog : Option Nat
  /-- A request for a program has been made for it and the program has not started (R209). -/
  asked : Bool
deriving DecidableEq, Repr

/-! ## Tensors, translations and copy commands -/

/-- A tensor descriptor (R190). -/
structure Desc where
  fmt : Nat
  base : Nat
  d0 : Nat
  d1 : Nat
  d2 : Nat
  d3 : Nat
  s1 : Nat
  s2 : Nat
  s3 : Nat
  asid : Nat
  ro : Bool
  fre : Bool
  freg : Nat
  /-- Tile width in 32-byte units. -/
  tbw : Nat
  /-- Tile rows. -/
  tr : Nat
deriving DecidableEq, Repr

/-- A descriptor that a core keeps for a job (R193), `none` when it is invalid; on a spindle also a program descriptor's bytes,
under the virtual address `va` with tensor id 0 (R277). -/
structure DescEntry where
  vd : Nat
  jid : Nat
  tid : Nat
  va : Nat
  desc : Option Desc
  card : List Byte
deriving DecidableEq, Repr

/-- A code image in a spindle's cache (R277). -/
structure CodeImage where
  vd : Nat
  va : Nat
  bytes : List Byte
deriving DecidableEq, Repr

/-- A job card (R35). -/
structure Card where
  span : Nat
  code : Nat
  ovle : Nat
  trape : Nat
  entry : Nat
  cwords : Nat
  rcount : Nat
  rsize : Nat
  argt : Nat
  keysp : Nat
  tmask : Nat
  gmask : Nat
  spages : Nat
  dpages : Nat
  cmin : Nat
  vd : Nat
  cls : Nat
  stage : Nat
  preds : List Nat
  runb : Nat
  ctgt : Nat
  /-- Every reserved field is 0. -/
  clean : Bool
deriving DecidableEq, Repr

/-- A translation (R194, R298): the page of `size` bytes at `va`. -/
structure Xlat where
  vd : Nat
  asid : Nat
  va : Nat
  size : Nat
  pa : Nat
  writable : Bool
deriving DecidableEq, Repr

/-- The kinds of command in a copy queue (R195, R223, R283). -/
inductive CmdKind where
  | cpy
  | cpyProg
  | cpyst
  | cpyl
  | cpylSt
  | pfx
  | gath
  | scat
  | red
  | tflush
  | codeld
  | pwret
  | fence
  | spush
  | sfmt
  | sfill
  | swb
deriving DecidableEq, Repr

/-- A command in a copy queue. -/
structure Cmd where
  /-- The command's number: commands are numbered in issue order. -/
  id : Nat
  /-- The activity that issued it. -/
  owner : Nat
  kind : CmdKind
  /-- Its operand fields, from which a save area writes its words (R245). -/
  r : R
  pc : Nat
  /-- The cycle of its issue. -/
  issued : Nat
  opA : Word
  opB : Word
  opC : Word
  opE : Word
  vd : Nat
  tid : Nat
  desc : Option Desc
  /-- The index list (R205). -/
  idx : List Int
  /-- The base of its local range; for a stream instruction, that of its range in the requester's memory (R286). -/
  base : Nat
  /-- Its local length in bytes, which is what a load counts on its barrier. -/
  len : Nat
  bar : Nat
  sem : Nat
  scope : Nat
  /-- Marked `.u` (R24). -/
  u : Bool
  /-- The posted-store journal entry it took (R212). -/
  journal : Option Nat
  started : Bool
  /-- Held under speculation until its activity commits (R359, R360). -/
  held : Bool
  /-- Units not yet delivered or performed, in order (R244). -/
  todo : List Nat
  /-- Units whose lines have been filled. -/
  filled : List Nat
  kept : Nat
  counted : Nat
  /-- The phase of its barrier at issue (R215, R244). -/
  phase : Nat
  /-- The first error it met after issue (R450). -/
  err : Nat
  /-- The outcome of each translation it needed, by 64 KiB page: the physical page and whether it may be written. -/
  xlat : AMap (Option (Nat × Bool))
  /-- The earliest cycle of its next delivery (R213, R288); for a write that has started, the cycle at which its last beat has left the
  fabric port (R228). -/
  due : Nat
  /-- It was issued again after a restore (R248). -/
  again : Bool
  /-- The local source as it was copied when the command was held (R360). -/
  payload : Option LMem
  /-- The job of its issuer, whose code segment a `codeld` replaces (R207). -/
  jid : Nat
  /-- The cycle of its start. -/
  startedAt : Nat
  /-- Units of a load that are in flight: the 64-byte beats of each that have landed, uncounted, and the error met in them (R244). -/
  landing : AMap (Nat × Nat)
  /-- Units whose requests a bucket move has held (R296). -/
  heldUnits : List Nat
  /-- Bytes of a load that have come, and wait for the others of their 32-byte beat of local memory (R24). -/
  staged : List (Nat × Option Byte)
  /-- Of a release or sc write that has started: the writes that its activity had issued or observed and that are not performed at their home
  slices (R235). -/
  covers : List Nat
  /-- MODID at its issue (R417). -/
  modid : BitVec 9
  /-- Units whose requests a warm reset of a die has held (R438, step 10). -/
  warmUnits : List Nat
deriving DecidableEq, Repr

/-- A command in a matrix queue (R256, R274). -/
structure MatCmd where
  id : Nat
  owner : Nat
  kind : MatKind
  /-- Its operand fields, from which a save area writes its words (R273). -/
  r : R
  pc : Nat
  issued : Nat
  /-- Its local range, none for one that names no local memory. -/
  y : Nat
  len : Nat
  /-- The values of TS[A], of TS[B] or TS[BSH], and of TS[D] at issue (R250). -/
  ta : Word
  tb : Word
  td : Word
  opA : Word
  opB : Word
  opC : Word
  opE : Word
  /-- SEED at issue, from which its draws are made (R70). -/
  seed : Word
  /-- The cycle at which it started on its unit. -/
  started : Option Nat
  /-- K-steps done. -/
  step : Nat
  /-- The local operand of an `mma` as the K-step now running reads it (R262). -/
  latch : LMem
  /-- It has read a poisoned operand (R268). -/
  bad : Bool
  /-- Its activity was restarted or squashed: it writes no register (R160). -/
  stale : Bool
deriving DecidableEq, Repr

/-- An outstanding forecast tag (R353, R358). -/
structure Tag where
  num : Nat
  dst : Nat
  shadow : Nat
  rows : Nat
  rby : Nat
  fmt : Nat
  abs : BitVec 32
  rel : BitVec 32
  rpl : Bool
  bar : Nat
  tok : Nat
  /-- The number of its verdict's claims. -/
  cmd : Nat
  /-- The cycle in which the prediction was written, once it was. -/
  written : Option Nat
  /-- The cycle at which its phase completed, and that phase's error mark. -/
  completed : Option (Nat × Bool)
deriving DecidableEq, Repr

/-- A promise that a `.pm` command recorded (R215): its barrier, the phase at issue, the promised cycle. -/
structure Promise where
  cmd : Nat
  bar : Nat
  phase : Nat
  cycle : Nat
deriving DecidableEq, Repr

/-- A held effect (R360): a write command with its payload, or a posted card with the destination register. -/
structure Held where
  cmd : Option Cmd
  post : Option (Nat × Nat)
  bytes : Nat
  /-- Its activity has committed: it leaves for the queue in its turn (R364). -/
  released : Bool
deriving DecidableEq, Repr

/-- A posted-store journal entry in use (R212): the command and its activity; once refused, the error code and the cycle of the refusal. -/
structure JEntry where
  cmd : Nat
  owner : Nat
  pc : Nat
  code : Nat
  order : Nat
deriving DecidableEq, Repr

/-- A spindle program request (R209, R280). -/
structure ProgReq where
  owner : Nat
  window : Nat
  va : Nat
  argC : Word
  argE : Word
  bar : Nat
  vd : Nat
  cls : Nat
  issued : Nat
deriving DecidableEq, Repr

/-- What a spindle program or a gateway activity has besides an activity's state (R280, R420). -/
structure ProgCtx where
  /-- The requester, none for a gateway activity. -/
  requester : Option Nat
  window : Nat
  bar : Nat
  /-- The return barrier it named for its window (R286), 0 none. -/
  ret : Nat
  /-- It ended by a fault with this cause and XINFO (R281). -/
  fault : Option (Nat × Word)
  /-- Block-queue slots that a gateway activity holds (R424). -/
  slots : List Nat
deriving DecidableEq, Repr

/-! ## Meetings -/

/-- The states of a party (R320); `saved` is an evicted party, `leaving` one that has passed the barrier of `part` and
travels. -/
inductive PartyPhase where
  | arriving
  | queued
  | parked
  | saved
  | matched
  | met
  | leaving
deriving DecidableEq, Repr

/-- A party of a meeting. -/
structure Party where
  phase : PartyPhase
  key : Word
  /-- The deadline, none for a timeout of 0 (R319). -/
  deadline : Option Nat
  /-- The destination register of its `meet`. -/
  dst : Nat
  /-- The first luggage frame and the luggage pages (R311). -/
  lf : Nat
  ln : Nat
  /-- The status that the directory has decided and not yet delivered (R318). -/
  status : Option Nat
  partner : Option Nat
  /-- The partner's ACTID at the match. -/
  partnerAct : Nat
  side : Nat
  /-- It travelled, or was restored at the meeting place (R318). -/
  moved : Bool
  /-- The core of the meeting, once placed, and the slot reserved there for a party that travels (R313). -/
  place : Option Nat
  vslot : Nat
  /-- It still has to travel to the place. -/
  travels : Bool
  /-- The cycle at which its decision arrives, while it has not, and that at which its shuttle lands (R317). -/
  decided : Option Nat
  lands : Option Nat
  /-- `msync` instructions it has issued since MET (R324); while it waits in one, the instruction's bytes and stall count. -/
  syncs : Nat
  inSync : Option (Nat × Nat)
  /-- `part` has passed its step 2 (R327): TO, the core named, the destination register; and the cycle in which it did. -/
  parting : Option (Nat × Nat × Nat)
  partAt : Nat
  /-- `.to` was replaced by `.home`. -/
  replaced : Bool
  /-- What stays at home while the party is away (R321): the mapped frames and the spill reserve. -/
  away : Bool
  homeFrames : List Nat
  homeReserve : LMem
  /-- It waited at the directory when it was matched (R313). -/
  waited : Bool
  /-- What loading the job's code at the place adds to its travel (R314). -/
  codeTime : Nat
  /-- The shuttle that carries it holds an uncorrectable error (R330; log 62). -/
  damaged : Bool
deriving DecidableEq, Repr

/-! ## Collectives -/

/-- What makes two ranks fit one group (R338), and the tree's mode (R342). -/
structure CollOp where
  n : Nat
  cop : Nat
  rop : Nat
  acc : Bool
  fmt : Nat
  ch : Nat
  root : Nat
deriving DecidableEq, Repr

/-- A rank's part in a collective (R335-R337, R343). -/
structure CollRank where
  /-- Its claims on the scoreboard: of the source, and of the destination. -/
  srcCmd : Nat
  dstCmd : Nat
  key : Word
  op : CollOp
  rank : Nat
  src : Nat
  dst : Nat
  bar : Nat
  reg : Nat
  deadline : Option Nat
  /-- The group it joined. -/
  group : Option Nat
  /-- Its luggage has left (R341). -/
  sent : Bool
  /-- A status other than MET that has been decided: the status, the ranks arrived, the cycle in which it reaches the rank. -/
  status : Option (Nat × Nat × Nat)
  /-- The last beat of its luggage has left (R341). -/
  left : Bool
deriving DecidableEq, Repr

/-! ## An activity, whole -/

/-- An activity. -/
structure Activity where
  /-- The model's handle of the activity. -/
  uid : Nat
  life : Life
  /-- The agent whose local memory and engines it uses. -/
  agent : Agent
  /-- Home core, slot and generation (R32). -/
  home : Nat
  slot : Nat
  gen : Nat
  job : JobCtx
  pc : Word
  nextIssue : Nat
  lastIssue : Nat
  regs : Regs
  pend : List Pend
  /-- Registers that an outstanding engine command will write. -/
  claimed : List Reg
  tiles : AMap Tile
  accs : AMap Acc
  /-- Tile registers and accumulators whose contents stand in the matrix spill area (R270, R271); a tile keeps its poison. -/
  tspilled : AMap Bool
  aspilled : AMap SpilledAcc
  /-- Tiles in physical tile registers, the least recently used first (R271). -/
  torder : List Nat
  /-- The save-pool blocks of the matrix spill area, none before the first spill. -/
  spillArea : List Nat
  /-- The cycle at which its last matrix command completed (R269). -/
  matDone : Nat
  /-- By barrier address, the cycle in which a phase last completed (R256). -/
  barEnds : AMap Nat
  ts : AMap Word
  schk : Bool
  seed : Word
  runc : Nat
  overrun : Bool
  trap : TrapRegs
  region : Region
  psjpc : Word
  lm : LMem
  frames : List Nat
  reserve : LMem
  claims : List Claim
  block : Block
  /-- The first cycle at which the instruction now held was tried (R205, R214). -/
  firstTry : Option Nat
  /-- The index list that the held instruction is reading: address, length, and the scoreboard entries that it and the data take (R23, R205,
  R206). -/
  listRead : Option (Nat × Nat × Nat)
  /-- The tensor whose descriptor the held instruction waits for (R193). -/
  descWait : Option Nat
  windows : AMap Window
  prog : Option ProgCtx
  party : Option Party
  /-- After a restart or a squash: no issue before every command of the activity from this number on is settled (R160). -/
  settling : Option Nat
  /-- The status with which the job records the activity's kill, 0 while it is not to be killed (R50, R155, R392). -/
  doom : Nat
  /-- The first fetch at ENTRY has not been checked (R93). -/
  fresh : Bool
  /-- Its own outstanding forecast tags (R358), the tags it is tainted with by reading (R361), and its held effects in program
  order (R360). -/
  tags : List Tag
  taints : List Nat
  coll : Option CollRank
  /-- The PC of the instruction that last issued, and the cycle at which its blocking point began. -/
  lastPc : Word
  blockAt : Nat
  helds : List Held
  promises : List Promise
  /-- The last cycle in which a stream instruction of it waited on back-pressure (R281). -/
  quiet : Option Nat
  /-- The trap whose entry waits (R154, R454). -/
  trapping : Option TrapWait
  /-- Writes that it has observed by synchronising with others while they were not performed at their home slices (R235). -/
  seen : List Nat
deriving DecidableEq, Repr

/-! ## The vector engine's queue -/

/-- A vector load or store in its queue (R186, R187): the active elements with their addresses, the mask, and the old
destination of a load or the data of a store; once its access is made, a load's value in `data`. -/
structure VecCmd where
  id : Nat
  owner : Nat
  pc : Word
  load : Bool
  /-- The range scoreboard still holds its access. -/
  waiting : Bool
  elems : List (Nat × Nat)
  fmt : Nat
  dst : Nat
  mask : Mask
  zm : Bool
  data : Vec
  /-- Cycles of access to the banks (R188). -/
  span : Nat
  due : Nat
  /-- Its activity was restarted or squashed: it writes no register, and meets no poison (R160, R365). -/
  stale : Bool
deriving DecidableEq, Repr

/-! ## Local copies -/

/-- Commands that copy within local memory: `mcpy` (R325), D := S of a forecast and its replacement at a pass, and the prediction
(R355, R356, R363). -/
inductive LocKind where
  | mcpy
  | copy
  | predict
deriving DecidableEq, Repr

/-- A local copy command. -/
structure LocCmd where
  id : Nat
  owner : Nat
  kind : LocKind
  src : Nat
  /-- H2 of a prediction. -/
  src2 : Nat
  dst : Nat
  len : Nat
  fmt : Nat
  mode : Nat
  damp : Nat
  /-- The tag whose prediction it writes. -/
  tag : Nat
  /-- The cycles from its start to its end, and the cycle of its start, once its ranges were free (R200, R325, R355). -/
  span : Nat
  started : Option Nat
deriving DecidableEq, Repr

/-! ## An agent that issues -/

/-- A code segment resident on a core (R91, R387). -/
structure CodeSeg where
  jid : Nat
  vd : Nat
  bytes : Memory
  /-- CODELEN. -/
  len : Nat
  starts : List Nat
  /-- `codeld`, or the first load of the image, holds the issue of its activities. -/
  held : Bool
  /-- Code pages taken on the core (R40). -/
  pages : Nat
  /-- The image is being loaded (R387): since this cycle. -/
  loading : Option Nat
  /-- The cycle at which its load ended (R388). -/
  ready : Nat
deriving DecidableEq, Repr

/-- What an agent holds for its activities. -/
structure Core where
  agent : Agent
  slotGen : AMap Nat
  segs : List CodeSeg
  divBusy : Nat
  /-- The copy queue, in issue order (R200). -/
  copyq : List Cmd
  locq : List LocCmd
  /-- The matrix queue, in issue order (R20). -/
  matq : List MatCmd
  /-- A gateway core's block queue (R421): its bytes by window offset, and the slots that hold a record, in order of
  arrival. -/
  blockq : Memory
  blockReady : List Nat
  vecq : List VecCmd
  /-- One more than the last cycle in which the copy queue started a command. -/
  startedAt : Nat
  /-- The cycle in which a unit of a load last landed at the port (R213). -/
  portFree : Nat
  /-- The cycle in which the last beat of the spindle's last push left (R288). -/
  pushFree : Nat
  journal : AMap JEntry
  /-- The translation cache, the least recently used first (R194). -/
  tlb : List Xlat
  descs : List DescEntry
  /-- A spindle's cached code images, the least recently used first, and its program request queue (R277, R280). -/
  images : List CodeImage
  progq : List ProgReq
  /-- Activities that hold a monitor entry, and those that wait for one, in order (R221). -/
  monitors : List Nat
  monitorQueue : List Nat
  /-- CORESEL (R378): reserved to the VD, switch in progress. -/
  selRes : Bool
  selBusy : Bool
  selVd : Nat
  retired : Bool
  /-- The forecast tag counter (R358) and the cycle at which the comparator is free (R363). -/
  tagCtr : Nat
  cmpFree : Nat
  /-- The format region registers of a spindle: word w of FRRr at 4·r + w (R290). -/
  frr : AMap Word
deriving DecidableEq, Repr

/-- A saved activity (R163-R165): its context with its blocking point, the core it left, the blocks of its save area and what was
written there, and the commands to issue again (R245, R273). -/
structure Saved where
  act : Activity
  blocks : List Nat
  image : List Byte
  cmds : List Cmd
  mats : List MatCmd
  /-- The wake kind (R165). -/
  wake : Nat
  /-- The core on which a matched party is to be restored (R329). -/
  at_ : Option Nat
  /-- The cycle since which it is ready to be restored and has found no room (R383). -/
  since : Option Nat
  /-- The order of saves. -/
  order : Nat
deriving DecidableEq, Repr

/-! ## Module memory and the tile cache -/

/-- Physical memory by 52-bit address (R28, R29). -/
structure PhysMem where
  bytes : Memory
  /-- 32-byte sectors whose poison bit is set or whose contents are uncorrectable (R301; log 4). -/
  poison : List Nat
  /-- The number of the key under which a sector was last written (R300). -/
  keyOf : AMap Nat
  /-- 32-byte sectors that hold a correctable error (R301). -/
  soft : List Nat := []
deriving DecidableEq, Repr

/-- The tag of a tile line (R27, R453). -/
structure LineKey where
  vd : Nat
  tid : Nat
  row : Nat
  col : Nat
deriving DecidableEq, Repr

/-- A sector of a line (R289): its bytes and its scale bytes by physical address. -/
structure LSector where
  cells : List Host.Cell
  side : List Host.Cell
  dirty : Bool
  poison : Bool
  /-- Its scale bytes come from a poisoned sector (R301). -/
  badSide : Bool
deriving DecidableEq, Repr

/-- A resident line of a slice (R289). -/
structure Line where
  key : LineKey
  slice : Nat
  set : Nat
  way : Nat
  replica : Bool
  borrowed : Bool
  sects : AMap LSector
  band : List Host.Cell
  bandDirty : Bool
  /-- Its band scale comes from a poisoned sector (R301). -/
  badBand : Bool
deriving DecidableEq, Repr

/-- An entry of the address bucket table that differs from its reset value (R293). -/
structure Bucket where
  hold : Bool
  repl : Bool
  slice : Nat
deriving DecidableEq, Repr

/-- A move of an address bucket in progress (R295). -/
structure Move where
  bucket : Nat
  target : Nat
  repl : Bool
deriving DecidableEq, Repr

/-- What a release or sc write command has performed, while writes that it covers are outstanding (R234, R235): the command, its scope and
agent, the bytes that hold its value, and those writes. -/
structure Release where
  cmd : Nat
  scope : Nat
  agent : Agent
  pas : List Nat
  covers : List Nat
deriving DecidableEq, Repr

/-- The tile cache (R27, R289-R297, R406). -/
structure Cache where
  /-- The lines, the least recently used first. -/
  lines : List Line
  buckets : AMap Bucket
  move : Option Move
  /-- RBCTL (R294) and the GO that waits behind a move. -/
  rbctl : Word
  queued : Option Word
  /-- Accesses in the interval, by slice and by bucket (R294). -/
  hits : AMap Nat
  bucketHits : AMap Nat
  /-- WAYMSK by VD·384 + slice, where it is not all ones (R406). -/
  waymsk : AMap (BitVec 16)
  /-- Writes of WAYMSK after which borrowed bits are being recomputed: VD, slice, the cycle of the write, and the mask, which acts from the
  next cycle on (R408). -/
  remask : List (Nat × Nat × Nat × BitVec 16)
  /-- Release writes whose values an acquire may still read, by which it observes others (R235). -/
  released : List Release
  /-- The translations that walks have given, by which an invalidation finds the frame that it frees (R442; log 63). -/
  mapped : List Xlat
deriving DecidableEq, Repr

/-! ## Virtual devices -/

/-- The registers of a virtual device (R376, R377, R394-R397). -/
structure Vd where
  en : Bool
  spown : Bool
  serr : Bool
  vdtab : Word
  vdasid : Word
  vdrdir : Word
  /-- RATE and DEPTH by class code (R397). -/
  shr : AMap (Nat × Nat)
  dspcfg : Word
  jsbase : Word
  spool : Word
  jqbase : AMap Word
  jqctl : AMap Word
  /-- The value of VDCTL written in this cycle, which acts from the next one on (R404). -/
  next : Option Word
deriving DecidableEq, Repr

/-! ## Service controller -/

/-- A key slot's keys (R447). -/
structure KeyPair where
  key1 : BitVec 256
  key2 : BitVec 256
deriving DecidableEq, Repr

/-- The limiter of one agent and class of error records (R430): the cycle of its last record, and the events since. -/
structure Limiter where
  kind : Nat
  agent : Nat
  cls : Nat
  last : Option Nat
  count : Nat
deriving DecidableEq, Repr

/-- A service command in progress (R432): its operation, its argument, the cycle it began and how far it has come. -/
structure SvcRun where
  op : Nat
  arg : Nat
  since : Nat
  status : Nat
  done : Bool
deriving DecidableEq, Repr

/-- An invalidation in progress (R442): its range and the commands that were translated in it. -/
structure XlinvRun where
  vd : Nat
  asid : Nat
  va : Nat
  /-- Bytes; none for every page of the ASID. -/
  len : Option Nat
  cmds : List Nat
  /-- The cycle of the GO. -/
  since : Nat
deriving DecidableEq, Repr

/-- The outcome of the boot ROM (R445). -/
inductive Boot where
  /-- The ROM has not run since the cold reset. -/
  | pending
  /-- An image runs. -/
  | running (i : Image)
  /-- Both images failed: physical function 0 only, and no job runs. -/
  | failed
deriving DecidableEq, Repr

/-- What comes in from outside and may have to wait (R296, R413, R421): writes and reads through BAR2, accesses to registers through BAR0, and
what comes over a scale-up link. -/
inductive Inbound where
  | hostWrite (vd va : Nat) (data : List Byte) (relaxed : Bool)
  | hostRead (vd va len : Nat)
  | reg (reg : HostReg) (value : Word)
  | tail (vd q : Nat) (tail : BitVec 16)
  | peerAccess (link vd va : Nat) (data : List Byte) (write : Bool)
  | blockRecord (link vd : Nat) (data : List Byte)
deriving DecidableEq, Repr

/-- The service controllers and the module's registers (R417, R425, R429-R447). -/
structure Svc where
  boot : Boot
  svccmd : Word
  run : Option SvcRun
  errbase : Word
  errEn : Bool
  errOvf : Bool
  errDrops : Nat
  errProd : Nat
  errCons : Nat
  xlinv0 : Word
  xlinv1 : Word
  xlrun : Option XlinvRun
  /-- GWCTL of each gateway core (R420). -/
  gwctl : AMap Word
  thwarn : Word
  pwravg : BitVec 32
  energy : Word
  telem : AMap Word
  modid : BitVec 9
  gwavail : BitVec 16
  limits : List Limiter
  /-- Functions whose MSI-X vector was raised, the last first (R409, R429). -/
  msix : List Nat
  keys : AMap KeyPair
  /-- Every key pair that has been set: a key's number is its place here. -/
  keyHist : List KeyPair
  keysel : AMap Nat
  fusedVersion : Nat
  /-- Key slots of the boot ROM that are revoked (R445). -/
  revoked : List Nat
  /-- The link for each peer module (R436). -/
  routes : AMap Nat
  /-- Links that are up (R415); an unlisted link is down. -/
  linksUp : List Nat
  /-- CXL ports whose link is up, with the bytes of memory attached (R414). -/
  cxl : AMap Nat
  spindlesRetired : List Nat
  /-- Repairs used by channel·32 + bank, and spares used by interface (R434, R435). -/
  rowRepairs : AMap Nat
  lanesSpared : AMap Nat
  /-- The die in warm reset, and how far the reset has come (R438). -/
  warm : Option (Nat × Nat)
  tripped : Bool
  /-- Answers to SPDM requests, the last first: the measurement or transcript, and its signatures (R446). -/
  answers : List (List Nat × List Nat)
  /-- The number of the last host write that the sequence point numbered (R413). -/
  hostSeq : Nat
  /-- What the last host read gave: its data, or none for Completer Abort (R411). -/
  hostAnswer : Option (List Byte)
  /-- The completion of the last incoming peer access: an error code or 0, and the data of a read (R416). -/
  peerAnswer : Nat × List Byte
  /-- The value of the last read of ERRCTL (R429). -/
  errRead : Word
  /-- Accesses from outside that wait, in the order in which they came: for the end of a bucket move (R296), or for room in a block queue
  (R421). -/
  inbound : List Inbound
  /-- The hashes of the public keys that fuses hold, by key slot of the boot ROM: SHA-384 of the ECDSA key, SHA-256 of the LMS key (R445). -/
  keyHash : AMap (Nat × Nat)
  /-- SPDM secure sessions open on physical function 0 (R446, R447). -/
  sessions : List Nat
deriving DecidableEq, Repr

/-! ## Directories (R302-R307, R338) -/

/-- A party waiting at a directory: parked, queued or saved (R307, R320). -/
structure Waiter where
  /-- The number of its arrival, in one count with those of the groups (R307, R338). -/
  num : Nat
  uid : Nat
  vd : Nat
  keysp : Nat
  key : Word
  deadline : Option Nat
  /-- It holds no directory entry. -/
  queued : Bool
  /-- It was evicted while it was queued, and has given up its place (R320). -/
  gone : Bool
deriving DecidableEq, Repr

/-- A rank of a group: its number, its activity, the agent it calls home, and its luggage once sent. -/
structure Member where
  rank : Nat
  uid : Nat
  home : Agent
  vd : Nat
  jid : Nat
  luggage : Option LMem
  /-- Its result has landed, or it has been removed. -/
  done : Bool
  /-- The cycle in which its luggage was sent (R345), and the writes that it had issued or observed and that were not performed at their home
  slices then (R235, R237). -/
  sentAt : Nat
  covers : List Nat
deriving DecidableEq, Repr

/-- A group of a collective (R338, R341). -/
structure Group where
  id : Nat
  vd : Nat
  keysp : Nat
  key : Word
  op : CollOp
  members : List Member
  deadline : Option Nat
  queued : Bool
  /-- The cycle at which it completed. -/
  complete : Option Nat
deriving DecidableEq, Repr

/-- An entry of the key bucket table that differs from its reset value (R304). -/
structure KeyBucket where
  hold : Bool
  dir : Nat
deriving DecidableEq, Repr

/-- The directories. -/
structure Dirs where
  buckets : AMap KeyBucket
  /-- A move of a key bucket in progress: the bucket, the target, and the number from which on messages are held (R306). -/
  move : Option (Nat × Nat × Nat)
  /-- KBCTL (R305), and the GO that waits behind a move. -/
  kbctl : Word
  queued : Option Word
  waiters : List Waiter
  groups : List Group
  /-- The number of the next waiter or group. -/
  nextNum : Nat
  /-- One more than the cycle in which a directory last processed something (R307). -/
  busy : AMap Nat
  /-- Arrivals in the interval by directory and by bucket (R305). -/
  hits : AMap Nat
  bucketHits : AMap Nat
deriving DecidableEq, Repr

/-! ## Jobs (R373-R393) -/

/-- An uncompleted job. -/
structure Job where
  vd : Nat
  jid : Nat
  /-- The die of the unit that owns it (R373, R437). -/
  owner : Nat
  card : Card
  /-- The predecessors that have not completed, and the cycle from which it is ready. -/
  preds : List Nat
  readyAt : Option Nat
  /-- The argument tensor's descriptor: not read yet, or read (R389). -/
  argt : Option Desc
  argtRead : Bool
  accepted : Nat
  /-- Records withdrawn from a core, and the first record never dealt. -/
  back : List Nat
  next : Nat
  lastDealt : Nat
  retired : Nat
  stat : Nat
  nerr : Nat
  /-- Class 0x0D has been reported (R39). -/
  stranded : Bool
deriving DecidableEq, Repr

/-- A record dealt to a core that has not started (R40). -/
structure Unstarted where
  vd : Nat
  jid : Nat
  record : Nat
  core : Nat
  since : Nat
  due : Nat
  /-- It was pushed: a slot and pages of the core are reserved to it (R391). -/
  reserved : Bool
deriving DecidableEq, Repr

/-- What a victim is evicted for (R383): a record that has not started, or a saved activity. -/
inductive Claimant where
  | record (vd jid record : Nat)
  | saved (uid : Nat)
deriving DecidableEq, Repr

/-- The dispatcher. -/
structure Dispatch where
  jobs : List Job
  /-- The next id of each VD (R374). -/
  counters : AMap Nat
  unstarted : List Unstarted
  /-- Evictions ordered (R383), those that the victim's core has accepted (R382), and the cycle of each unit's last order. -/
  orders : List Nat
  evicting : List Nat
  /-- The victims ordered, each with what it was chosen for. -/
  victims : List (Nat × Claimant)
  ordered : AMap Nat
  /-- One more than the cycle in which a unit last processed an event (R373). -/
  busy : AMap Nat
  dspcmd : Word
  /-- The VD and the queue that the host queue unit served last. -/
  turn : Nat × AMap Nat
  saves : Nat
  /-- One more than the cycle in which a core last decided a push (R51). -/
  pushed : AMap Nat
deriving DecidableEq, Repr

/-! ## Shares (R396-R400) -/

/-- The buckets of an arbiter by VD and its surplus pool, in units of 1/1,024 token, and the VDs last given a bucket grant and a
surplus grant. -/
structure Share where
  tokens : AMap Nat
  surplus : Nat
  lastOwn : Nat
  lastBorrow : Nat
deriving DecidableEq, Repr

/-! ## The external switch (R419) -/

/-- A switch group: its members in order with their addresses, the root among them, and the deadline of a round in cycles. -/
structure SwGroup where
  members : List (Nat × Nat)
  root : Nat
  deadline : Nat
deriving DecidableEq, Repr

/-- A contribution to a sector: the member's index, its bytes by offset in the sector, and the command and unit of this module that
sent it. -/
structure SwPart where
  member : Nat
  cells : List Host.Cell
  src : Option (Nat × Nat)
deriving DecidableEq, Repr

/-- A round of a sector of switch space. -/
structure SwRound where
  id : Nat
  vd : Nat
  group : Nat
  all : Bool
  off : Nat
  fmt : Nat
  opened : Nat
  parts : List SwPart
deriving DecidableEq, Repr

/-- The switch. -/
structure Switch where
  groups : AMap SwGroup
  rounds : List SwRound
  nextRound : Nat
deriving DecidableEq, Repr

/-! ## Stops -/

/-- Why the machine stops. -/
inductive Fault where
  /-- Raised by `step` while THERMTRIP# is asserted: every clock is stopped, and only a cold reset recovers (R444). Safe: the
  hardware stops too. -/
  | clocksStopped
deriving DecidableEq, Repr

/-- Why an instruction has no meaning here. -/
inductive Refusal where
  /-- Raised by an arm of `exec` whose instruction is not modelled. Safe. -/
  | notModelled (mnemonic : String)
deriving DecidableEq, Repr

/-! ## The state -/

/-- What a message is. -/
inductive MsgKind where
  /-- An update of an activity's barrier by `pwret` or by the end of a program (R281, R287). -/
  | update (uid bar bytes arrivals code : Nat)
  /-- The arrival of a `meet`, with the agent that issued it (R312, R349). -/
  | meet (uid : Nat) (sender : Agent)
  /-- `mcancel` or `ccancel` of a key of a VD and a key space, for a destination register (R328, R340). -/
  | cancel (uid dst vd keysp : Nat) (key : Word) (coll : Bool) (sender : Agent)
  /-- The arrival of a `coll` (R337). -/
  | coll (uid : Nat) (sender : Agent)
  /-- The arrival of a rank that has gone: the job it was of, its key, operation and rank, the status that it leaves the others, and whether
  those of its job are spared (R346). -/
  | quit (vd jid keysp : Nat) (key : Word) (op : CollOp) (rank status : Nat) (spare : Bool) (sender : Agent)
  /-- An activity of a job has retired: the status that its job records, 0 for none, and the refusals that were never reported (R53, R373). -/
  | retired (vd jid stat refused : Nat) (sender : Agent)
  /-- A job is to be ended (R393). -/
  | endJob (vd jid : Nat)
  /-- The last of a job's activities has retired: it is to complete (R54, R373). -/
  | complete (vd jid : Nat)
  /-- A card posted by an activity (R380): its destination register, the VD, and the agent it came from. -/
  | jobpost (uid dst va vd : Nat) (sender : Agent)
deriving DecidableEq, Repr

/-- A message on its way to another unit. -/
structure Msg where
  id : Nat
  kind : MsgKind
  /-- The cycle in which it arrives. -/
  due : Nat
deriving DecidableEq, Repr

/-- Whose turn it is within a cycle. -/
inductive Phase where
  /-- The agents that may still issue in this cycle, in order. -/
  | issue (agents : List Agent)
  /-- The other units act, and then the cycle ends. -/
  | device
deriving DecidableEq, Repr

/-- What draws tokens on its way (R403): a unit of a copy command, the shuttle of a party, the luggage of a rank and its result, the walk for
a page of a command, an access of the machine's own. -/
inductive Traveller where
  | unit (cmd u : Nat)
  | shuttle (uid : Nat)
  | luggage (uid : Nat)
  | result (uid : Nat)
  | walk (cmd page : Nat)
  | transit (num : Nat)
deriving DecidableEq, Repr

/-- How far a traveller has come: the tokens it has drawn by arbiter, and the cycle in which it reached the arbiter at which it waits
(R400). -/
structure Passage where
  who : Traveller
  since : Nat
  drawn : List (Arbiter × Nat)
deriving DecidableEq, Repr

/-- An access that the machine made for a VD, whose tokens are still to be drawn (R270, R403): the cycle in which it set out, the tokens of its
way, and the agent whose matrix engine waits until they are drawn. -/
structure Transit where
  num : Nat
  vd : Nat
  since : Nat
  needs : List (Arbiter × Nat)
  port : Option Agent
deriving DecidableEq, Repr

structure State where
  cycle : Nat
  me : Activity
  core : Core
  acts : List Activity
  cores : List Core
  saved : List Saved
  mem : PhysMem
  cache : Cache
  dirs : Dirs
  disp : Dispatch
  vds : AMap Vd
  svc : Svc
  /-- An arbiter of a class (by its code) that has granted nothing, and the arbiters that have (R399). -/
  idle : AMap Share
  arbs : List (Arbiter × Share)
  /-- The travellers under way that have drawn tokens (R400, R403). -/
  passing : List Passage
  transits : List Transit
  switch : Switch
  msgs : List Msg
  agenda : List Instr
  phase : Phase
  choiceCtr : Nat
  nextUid : Nat
  nextCmd : Nat
  nextMsg : Nat
  nextTransit : Nat
deriving DecidableEq, Repr

/-! ## Reset -/

/-- No activity. -/
def Activity.absent : Activity :=
  { uid := 0, life := .absent, agent := ⟨.compute, 0⟩, home := 0, slot := 0, gen := 0,
    job := ⟨0, 0, 0, 0, 0, 0, 0, 0, 0, 0, 0, 0, 0⟩, pc := 0, nextIssue := 0, lastIssue := 0, regs := ⟨[], [], [], [], []⟩, pend := [],
    claimed := [], tiles := [], accs := [], tspilled := [], aspilled := [], torder := [], spillArea := [], matDone := 0, barEnds := [],
    ts := [], schk := false, seed := 0, runc := 0, overrun := false, trap := ⟨0, 0, 0, false, false, false, false, []⟩,
    region := ⟨BitVec.allOnes 64, 0, 0, false, false, 0, none⟩, psjpc := 0, lm := ⟨[], [], false, []⟩, frames := [], reserve := ⟨[], [], false, []⟩, claims := [],
    block := .none, firstTry := none, listRead := none, descWait := none, windows := [], prog := none, party := none, settling := none,
    doom := 0, fresh := false, tags := [], taints := [], coll := none, lastPc := 0, blockAt := 0, helds := [], promises := [],
    quiet := none, trapping := none, seen := [] }

/-- An agent that holds nothing yet. -/
def Core.fresh (a : Agent) : Core :=
  { agent := a, slotGen := [], segs := [], divBusy := 0, copyq := [], locq := [], matq := [], vecq := [], blockq := [],
    blockReady := [], startedAt := 0, portFree := 0, pushFree := 0, journal := [], tlb := [], descs := [], images := [], progq := [],
    monitors := [], monitorQueue := [], selRes := false, selBusy := false, selVd := 0, retired := false, tagCtr := 0, cmpFree := 0,
    frr := [] }

/-- The service controllers after reset: THWARN 95 °C (R444), MODID with no number (R417), everything else 0. -/
def Svc.reset : Svc :=
  { boot := .pending, svccmd := 0, run := none, errbase := 0, errEn := false, errOvf := false, errDrops := 0, errProd := 0,
    errCons := 0, xlinv0 := 0, xlinv1 := 0, xlrun := none, gwctl := [], thwarn := 1520, pwravg := 0, energy := 0, telem := [], modid := 0x1FF,
    gwavail := 0, limits := [], msix := [], keys := [], keyHist := [], keysel := [], fusedVersion := 0, revoked := [], routes := [], linksUp := [],
    cxl := [], spindlesRetired := [], rowRepairs := [], lanesSpared := [], warm := none, tripped := false, answers := [],
    hostSeq := 0, hostAnswer := none, peerAnswer := (0, []), errRead := 0, inbound := [], keyHash := [], sessions := [] }

/-- The machine right after a cold reset, before the boot ROM has run (R445): no activity exists, memory lists nothing, every
register holds its Reset value. -/
def State.reset : State :=
  { cycle := 0, me := Activity.absent, core := Core.fresh ⟨.compute, 0⟩, acts := [], cores := [], saved := []
    mem := ⟨[], [], [], []⟩
    cache := ⟨[], [], none, 0, none, [], [], [], [], [], []⟩
    dirs := ⟨[], none, 0, none, [], [], 0, [], [], []⟩
    disp := ⟨[], [], [], [], [], [], [], [], 0, (63, []), 0, []⟩
    vds := [], svc := Svc.reset, idle := [], arbs := [], passing := [], transits := [], switch := ⟨[], [], 0⟩, msgs := [], agenda := [], phase := .device
    choiceCtr := 0, nextUid := 1, nextCmd := 1, nextMsg := 1, nextTransit := 1 }

end Sys2Proof.Machine
end

