-- ==== Sys2Proof/Machine/Base.lean ====
section
/-! DEFINITION. The named operations on one activity and its core: bringing it into focus, reading and writing registers
(R43-R45), local memory (R41, R142, R143), the range scoreboard (R22, R23) and the stage barrier (R217-R220). -/

namespace Sys2Proof.Machine

/-- A sum. -/
def sumOf (l : List Nat) : Nat := l.foldl (· + ·) 0

/-! ## Focus -/

/-- The activity with a handle, wherever it stands. -/
def State.act? (s : State) (uid : Nat) : Option Activity :=
  if s.me.uid = uid then some s.me else s.acts.find? (fun a => a.uid = uid)

/-- What an agent holds. -/
def State.coreOf (s : State) (a : Agent) : Core :=
  if s.core.agent = a then s.core else (s.cores.find? (fun c => c.agent = a)).getD (Core.fresh a)

/-- The state with an agent's core in focus. -/
def State.focusCore (a : Agent) (s : State) : State :=
  if s.core.agent = a then s
  else { s with core := s.coreOf a, cores := s.core :: s.cores.filter (fun c => c.agent ≠ a) }

/-- The state with an activity in focus, on the agent it stands on; unchanged when there is none. -/
def State.focus (uid : Nat) (s : State) : State :=
  if s.me.uid = uid then State.focusCore s.me.agent s
  else match s.acts.find? (fun a => a.uid = uid) with
    | none => s
    | some a => State.focusCore a.agent
        { s with
          me := a
          acts := (if s.me.life = .absent then [] else [s.me]) ++ s.acts.filter (fun b => b.uid ≠ uid) }

/-- Change the core in focus. -/
def State.modCore (f : Core → Core) (s : State) : State := { s with core := f s.core }

/-- Change the activity in focus. -/
def State.modMe (f : Activity → Activity) (s : State) : State := { s with me := f s.me }

/-- Change one activity without moving the focus. -/
def State.modAct (uid : Nat) (f : Activity → Activity) (s : State) : State :=
  if s.me.uid = uid then { s with me := f s.me }
  else { s with acts := s.acts.map (fun a => if a.uid = uid then f a else a) }

/-- Change one agent's core without moving the focus. -/
def State.modCoreOf (a : Agent) (f : Core → Core) (s : State) : State :=
  if s.core.agent = a then { s with core := f s.core }
  else { s with cores := f (s.coreOf a) :: s.cores.filter (fun c => c.agent ≠ a) }

/-- Every activity that exists. -/
def State.allActs (s : State) : List Activity := (s.me :: s.acts).filter (fun a => a.life ≠ .absent)

/-- Every agent that holds something. -/
def State.allCores (s : State) : List Core := s.core :: s.cores

/-- The activities that stand on an agent. -/
def State.residents (s : State) (a : Agent) : List Activity := s.allActs.filter (fun b => b.agent = a)

/-- Whether a verified image runs (R445). -/
def State.booted (s : State) : Bool :=
  match s.svc.boot with
  | .running _ => true
  | _ => false

/-! ## Registers (R43) -/

/-- The value of a general register: 0 for g0 and for an unbound one; from its home when it is spilled. -/
def Activity.g (a : Activity) (n : Nat) : Word :=
  if n = 0 then 0
  else if (⟨.g, n⟩ : Reg) ∈ a.regs.spilled then
    BitVec.ofNat 64 (ofBytes (a.reserve.bytes.readN (Reg.homeOffset ⟨.g, n⟩) 8))
  else (a.regs.g.find n).getD 0

/-- The value of a vector register. -/
def Activity.v (a : Activity) (n : Nat) : Vec :=
  if (⟨.v, n⟩ : Reg) ∈ a.regs.spilled then
    BitVec.ofNat 1024 (ofBytes (a.reserve.bytes.readN (Reg.homeOffset ⟨.v, n⟩) 128))
  else (a.regs.v.find n).getD 0

/-- The value of a mask register: all ones for k0. -/
def Activity.k (a : Activity) (n : Nat) : Mask :=
  if n = 0 then BitVec.allOnes 128
  else if (⟨.k, n⟩ : Reg) ∈ a.regs.spilled then
    BitVec.ofNat 128 (ofBytes (a.reserve.bytes.readN (Reg.homeOffset ⟨.k, n⟩) 16))
  else (a.regs.k.find n).getD 0

/-- Whether a register stands in a physical register. -/
def Regs.physical (r : Regs) (x : Reg) : Bool :=
  match x.cls with
  | .g => (r.g.find x.num).isSome
  | .v => (r.v.find x.num).isSome
  | .k => (r.k.find x.num).isSome
  | _ => false

/-- Whether a register is bound (R43). -/
def Regs.bound (r : Regs) (x : Reg) : Bool := r.physical x || x ∈ r.spilled

/-- Bound general registers, a bound mask register counting as two (R43). -/
def Regs.boundG (r : Regs) : Nat :=
  r.g.length + 2 * r.k.length + (r.spilled.filter (fun x => x.cls = .g)).length +
  2 * (r.spilled.filter (fun x => x.cls = .k)).length

/-- Bound vector registers. -/
def Regs.boundV (r : Regs) : Nat := r.v.length + (r.spilled.filter (fun x => x.cls = .v)).length

/-- Physical registers of the general pool in use. -/
def Regs.usedG (r : Regs) : Nat := r.g.length + 2 * r.k.length

/-- Physical registers of an agent's pools (R19, R277, R420): general, vector. -/
def poolSize : AKind → Nat × Nat
  | .compute => (512, 96)
  | .spindle => (256, 32)
  | .gateway => (256, 32)

/-- The raw value of a register. -/
def Activity.raw (a : Activity) (r : Reg) : Vec :=
  match r.cls with
  | .g => (a.g r.num).setWidth 1024
  | .v => a.v r.num
  | .k => (a.k r.num).setWidth 1024
  | _ => 0

/-- Registers without one. -/
def Regs.drop (r : Regs) (x : Reg) : Regs :=
  { g := if x.cls = .g then r.g.del x.num else r.g
    v := if x.cls = .v then r.v.del x.num else r.v
    k := if x.cls = .k then r.k.del x.num else r.k
    spilled := r.spilled.filter (fun y => y ≠ x)
    order := r.order.filter (fun y => y ≠ x) }

/-- Registers with one bound to a value, in a physical register and used last. -/
def Regs.set (r : Regs) (x : Reg) (val : Vec) : Regs :=
  { g := if x.cls = .g then r.g.put x.num (val.setWidth 64) else r.g
    v := if x.cls = .v then r.v.put x.num val else r.v
    k := if x.cls = .k then r.k.put x.num (val.setWidth 128) else r.k
    spilled := r.spilled.filter (fun y => y ≠ x)
    order := r.order.filter (fun y => y ≠ x) ++ [x] }

/-- Registers with some used last, in order (R44). -/
def Regs.touch (r : Regs) (xs : List Reg) : Regs :=
  let ys := xs.filter (fun x => r.physical x)
  { r with order := r.order.filter (fun y => y ∉ ys) ++ ys.eraseDups }

/-! ## Local memory and the like -/

/-- The aligned 8-byte words that a range of n bytes at a touches. -/
def wordsOf (a n : Nat) : List Nat := if n = 0 then [] else (List.range ((a + n - 1) / 8 - a / 8 + 1)).map (fun i => a / 8 + i)

/-- Write bytes; a word that is written whole loses its poison (R143), and a correctable error with it. -/
def LMem.write (m : LMem) (a : Nat) (bs : List Byte) : LMem :=
  { bytes := m.bytes.writeN a bs
    poison := m.poison.filter (fun w => !(a ≤ 8 * w && 8 * w + 8 ≤ a + bs.length))
    touched := true
    soft := m.soft.filter (fun w => !(a ≤ 8 * w && 8 * w + 8 ≤ a + bs.length)) }

/-- Words whose 8 bytes have all been written, in whatever pieces, are neither poisoned nor in error (R143). -/
def LMem.clear (m : LMem) (ws : List Nat) : LMem :=
  { m with poison := m.poison.filter (fun w => w ∉ ws), soft := m.soft.filter (fun w => w ∉ ws) }

/-- Read bytes. -/
def LMem.read (m : LMem) (a n : Nat) : List Byte := m.bytes.readN a n

/-- The first poisoned word of a range, if any. -/
def LMem.poisoned (m : LMem) (a n : Nat) : Option Nat := (wordsOf a n).find? (fun w => w ∈ m.poison)

/-- The memory after bytes have landed: each address with its byte, or with none when it could not be delivered. A word with an
undelivered byte is poisoned; one whose 8 bytes all landed good is not (R143, R211). -/
def LMem.land (m : LMem) (cells : List (Nat × Option Byte)) : LMem :=
  let words := (cells.map (fun c => c.1 / 8)).eraseDups
  let bad := words.filter (fun w => cells.any (fun c => c.1 / 8 = w && c.2.isNone))
  let whole := words.filter (fun w => (cells.filter (fun c => c.1 / 8 = w && c.2.isSome)).length = 8)
  { bytes := cells.foldl (fun b c => match c.2 with
      | some x => b.write c.1 x
      | none => b) m.bytes
    poison := bad.foldl setInsert (m.poison.filter (fun w => w ∉ whole))
    touched := true
    soft := m.soft.filter (fun w => w ∉ whole) }

/-- Mark words as poisoned. -/
def LMem.taint (m : LMem) (ws : List Nat) : LMem := { m with poison := ws.foldl setInsert m.poison }

/-! ## Spilling and refilling (R44) -/

/-- Whether an activity holds a physical register of a pool that may be taken for a write, and its least recently used one.
`keep` are registers that are not chosen. -/
def Activity.spillable (a : Activity) (vector : Bool) (keep : List Reg) : Option Reg :=
  a.regs.order.find? (fun x => x.inVector = vector && a.regs.physical x && x ∉ keep)

/-- The activity with a register stored to its home and marked spilled (R44). -/
def Activity.spill (a : Activity) (x : Reg) : Activity :=
  let regs := a.regs.drop x
  { a with
    reserve := a.reserve.write x.homeOffset (toBytes x.size (a.raw x).toNat)
    regs := { regs with spilled := regs.spilled ++ [x] } }

/-- Of two candidate victims, the one R44 takes: the lowest class, then the one issued least recently; of two that issued last in the
same cycle, or not at all, the first in the list of residents (DESIGN CHOICE, log 103). -/
def victimBefore (a b : Activity) : Bool :=
  a.job.cls < b.job.cls || (a.job.cls = b.job.cls && a.lastIssue ≤ b.lastIssue)

/-- The victim of a spill in an agent's pool, with the register it gives up. The registers of `keep` belong to the activity
`self` and are not chosen. -/
def State.spillVictim (s : State) (agent : Agent) (vector : Bool) (self : Nat) (keep : List Reg) : Option (Nat × Reg) :=
  let cands := (s.residents agent).filterMap (fun a =>
    (a.spillable vector (if a.uid = self then keep else [])).map (fun x => (a, x)))
  match cands with
  | [] => none
  | c :: cs =>
    let best := cs.foldl (fun b c => if victimBefore b.1 c.1 then b else c) c
    some (best.1.uid, best.2)

/-- Physical registers in use in an agent's pool. -/
def State.poolUsed (s : State) (agent : Agent) (vector : Bool) : Nat :=
  ((s.residents agent).map (fun a => if vector then a.regs.v.length else a.regs.usedG)).foldl (· + ·) 0

/-- Spill until `need` registers of a pool are free: at most `fuel` spills. -/
def State.makeRoom (agent : Agent) (vector : Bool) (need self : Nat) (keep : List Reg) : Nat → State → State
  | 0, s => s
  | fuel + 1, s =>
    let size := if vector then (poolSize agent.kind).2 else (poolSize agent.kind).1
    if s.poolUsed agent vector + need ≤ size then s
    else match s.spillVictim agent vector self keep with
      | none => s
      | some (uid, x) => State.makeRoom agent vector need self keep fuel (s.modAct uid (fun a => a.spill x))

/-- Write a register of the activity in focus: bind it, making room in its pool when it needs a physical register (R43, R44).
Writes to g0 and k0 are discarded. -/
def State.writeReg (x : Reg) (val : Vec) (keep : List Reg) (s : State) : State :=
  if !x.binds then s
  else
    let s := if s.me.regs.physical x then s
      else State.makeRoom s.me.agent x.inVector x.cost s.me.uid (x :: keep) x.cost s
    s.modMe (fun a => { a with regs := a.regs.set x val })

/-- Refill a spilled register of the activity in focus (R44). -/
def State.refill (x : Reg) (keep : List Reg) (s : State) : State :=
  if x ∈ s.me.regs.spilled then s.writeReg x (s.me.raw x) keep else s

/-- Refill every spilled register of a list. -/
def State.refillAll (xs : List Reg) (s : State) : State := xs.foldl (fun s x => s.refill x xs) s

/-- The first spilled register of a list whose home holds a poisoned word, and that word's reserve offset. -/
def Activity.badHome (a : Activity) (xs : List Reg) : Option Nat :=
  xs.findSome? (fun x =>
    if x ∈ a.regs.spilled then (a.reserve.poisoned x.homeOffset x.size).map (fun w => 8 * w) else none)

/-! ## Pending writes (R87-R90) -/

/-- The pending write of a register. -/
def Activity.pendOf (a : Activity) (x : Reg) : Option Pend := a.pend.find? (fun p => p.reg = x)

/-- Whether a register waits for a result that interlocks: of an engine, a division or a load. -/
def Activity.interlocked (a : Activity) (x : Reg) : Bool :=
  x ∈ a.claimed || (match a.pendOf x with
    | some p => p.kind ≠ .fixed
    | none => false)

/-- Queue a register write that takes effect at a cycle; a write to g0 or k0 is discarded. -/
def State.pendWrite (kind : PendKind) (due : Nat) (keep : List Reg) (x : Reg) (val : Vec) (s : State) : State :=
  if !x.binds then s
  else s.modMe (fun a => { a with pend := a.pend ++ [⟨x, val, due, kind, keep⟩] })

/-- Write the pending results of the activity in focus that a test picks, in order, and drop them from the list. -/
def State.commitWhere (p : Pend → Bool) (s : State) : State :=
  let ws := s.me.pend.filter p
  ws.foldl (fun s w => s.writeReg w.reg w.val w.keep)
    (s.modMe (fun a => { a with pend := a.pend.filter (fun w => !p w) }))

/-- The last cycle at which a pending result is due. -/
def Activity.lastDue (a : Activity) : Nat := a.pend.foldl (fun n p => max n p.due) 0

/-- Every pending write takes effect (R90, R123), and the next issue comes no earlier than the last of them. -/
def State.flushPending (s : State) : State :=
  let d := s.me.lastDue
  (s.commitWhere (fun _ => true)).modMe (fun a => { a with nextIssue := max a.nextIssue d })

/-! ## Local addresses (R41, R142, R278, R420) -/

/-- XB (R41). -/
def Activity.xb (a : Activity) : Nat := a.job.codePages * 0x800

/-- The end of the local address space below the windows. -/
def localTop : AKind → Nat
  | .compute => 0x30000
  | .spindle => 0x20000
  | .gateway => 0x20000

/-- The partner of the activity in focus, in an established meeting on this core (R322). -/
def State.partner (s : State) : Option Activity :=
  match s.me.party with
  | some p =>
    if p.phase = .met then
      match p.partner with
      | some u => s.act? u
      | none => none
    else none
  | none => none

/-- The partner's local address behind a window address, when the page is present (R322). -/
def windowFrame (p : Activity) (y : Nat) : Option Nat :=
  match p.party with
  | some q => if (y - 0x400000) / 0x800 < q.ln then some (q.lf * 0x800 + (y - 0x400000)) else none
  | none => none

/-- CheckLocal of one byte address (R142, R278, R420): the cause of the trap, if any. -/
def State.checkByte (s : State) (store : Bool) (y : Int) : Option Nat :=
  if y < 0 then some 6
  else
    let n := y.toNat
    if n < s.me.xb then some 5
    else if n < localTop s.me.agent.kind then (if n / 0x800 ∈ s.me.frames then none else some 6)
    else match s.me.agent.kind with
      | .compute =>
        if 0x400000 ≤ n && n < 0x408000 && !store then
          match s.partner with
          | some p => if (windowFrame p n).isSome then none else some 6
          | none => some 6
        else some 6
      | .gateway => if 0x400000 ≤ n && n < 0x402000 && !store then none else some 6
      | .spindle => some 6

/-- CheckLocal of n bytes, lowest first: the first that fails and its cause. -/
def State.checkLocal (s : State) (store : Bool) (y : Int) : Nat → Option (Int × Nat)
  | 0 => none
  | n + 1 =>
    match s.checkByte store y with
    | some c => some (y, c)
    | none => State.checkLocal s store (y + 1) n

/-- XINFO of a local-access trap, with bits [50:48] and up given (R142): bits [47:0] hold the address. -/
def localInfo (y : Int) (hi : Nat) : Word := BitVec.ofNat 64 ((y % 2 ^ 48).toNat + hi * 2 ^ 48)

/-- Read bytes at a local address that has passed CheckLocal. -/
def State.readLocal (s : State) (y n : Nat) : List Byte :=
  if y < 0x400000 then s.me.lm.read y n
  else match s.me.agent.kind with
    | .gateway => s.core.blockq.readN (y - 0x400000) n
    | _ =>
      match s.partner with
      | some p => p.lm.read ((windowFrame p y).getD 0) n
      | none => []

/-- The first poisoned word of a local range that has passed CheckLocal: its address. -/
def State.poisonAt (s : State) (y n : Nat) : Option Nat :=
  if y < 0x400000 then (s.me.lm.poisoned y n).map (fun w => 8 * w)
  else match s.partner with
    | some p => (p.lm.poisoned ((windowFrame p y).getD 0) n).map (fun w => 8 * w + y - (windowFrame p y).getD 0)
    | none => none

/-- Write bytes of the activity in focus at a local address that has passed CheckLocal. -/
def State.writeLocal (y : Nat) (bs : List Byte) (s : State) : State :=
  s.modMe (fun a => { a with lm := a.lm.write y bs })

/-! ## Speculation (R359, R361) -/

/-- The verdict set: its own outstanding tags and those it is tainted with (R359). -/
def Activity.verdictSet (a : Activity) : List Nat := a.tags.map (fun t => t.num) ++ a.taints

/-- An activity is speculative while its verdict set is not empty (R359). -/
def Activity.speculative (a : Activity) : Bool := a.verdictSet ≠ []

/-- A read of the partner's state by the activity in focus (R361): none when it has to wait for the partner's verdicts. -/
def State.readPartner (s : State) : Option State :=
  match s.partner with
  | none => some s
  | some p =>
    if !p.speculative then some s
    else if s.me.region.open_ && !s.me.region.pin then
      some (s.modMe (fun a => { a with taints := p.verdictSet.foldl setInsert a.taints }))
    else none

/-- A read of n local bytes: it counts as a read of the partner's state when one of them lies in the partner window. -/
def State.readTaint (y n : Nat) (s : State) : Option State :=
  if s.me.agent.kind = .compute && n ≠ 0 && 0x400000 < y + n then s.readPartner else some s

/-! ## The range scoreboard (R22, R23) -/

/-- Whether two ranges share a 32-byte beat. -/
def beatsOverlap (a n b m : Nat) : Bool := n ≠ 0 && m ≠ 0 && a / 32 ≤ (b + m - 1) / 32 && b / 32 ≤ (a + n - 1) / 32

/-- Whether an access would wait for an earlier one of the activity: a write for every overlapping access, a read for every
overlapping write. Only commands numbered below `before` count. -/
def Activity.rangeBusy (a : Activity) (before : Nat) (write : Bool) (y n : Nat) : Bool :=
  a.claims.any (fun c => c.cmd < before && (write || c.write) && beatsOverlap c.start c.len y n)

/-- Entries of an agent's range scoreboard (R19, R277, R420). -/
def scoreSize : AKind → Nat
  | .compute => 384
  | .spindle => 128
  | .gateway => 128

/-- Scoreboard entries of an activity: those of its commands, and those that a gather, a scatter or a reduction takes while its index list
is read: the list's and the data's (R23, R205). -/
def Activity.entries (a : Activity) : Nat := a.claims.length + (a.listRead.map (fun l => l.2.2)).getD 0

/-- Scoreboard entries in use on an agent. -/
def State.scoreUsed (s : State) (a : Agent) : Nat := ((s.residents a).map Activity.entries).foldl (· + ·) 0

/-- Take scoreboard entries for a command of the activity in focus. -/
def State.claim (cs : List Claim) (s : State) : State := s.modMe (fun a => { a with claims := a.claims ++ cs })

/-- Give back the scoreboard entries of a command. -/
def Activity.release (a : Activity) (cmd : Nat) : Activity := { a with claims := a.claims.filter (fun c => c.cmd ≠ cmd) }

/-! ## Stage barriers (R217-R220) -/

/-- A stage barrier (R217). -/
structure Bar where
  pb : Nat
  pa : Nat
  phase : Nat
  ecur : Bool
  elast : Bool
  code : Nat
  rlb : Nat
  rla : Nat
deriving DecidableEq, Repr

/-- The barrier that 16 bytes hold. -/
def Bar.ofNum (w : Nat) : Bar :=
  { pb := w % 2 ^ 32, pa := w / 2 ^ 32 % 2 ^ 16, phase := w / 2 ^ 48 % 256, ecur := w / 2 ^ 56 % 2 = 1,
    elast := w / 2 ^ 57 % 2 = 1, code := w / 2 ^ 58 % 64, rlb := w / 2 ^ 64 % 2 ^ 32, rla := w / 2 ^ 96 % 2 ^ 16 }

/-- The 16 bytes of a barrier, as a number. -/
def Bar.toNum (b : Bar) : Nat :=
  b.pb % 2 ^ 32 + b.pa % 2 ^ 16 * 2 ^ 32 + b.phase % 256 * 2 ^ 48 + (if b.ecur then 2 ^ 56 else 0) +
  (if b.elast then 2 ^ 57 else 0) + b.code % 64 * 2 ^ 58 + b.rlb % 2 ^ 32 * 2 ^ 64 + b.rla % 2 ^ 16 * 2 ^ 96

/-- Whether a phase is open: some bytes or arrivals are pending (DEDUCED, log 15). -/
def Bar.isOpen (b : Bar) : Bool := b.pb ≠ 0 || b.pa ≠ 0

/-- Update(bytes, arrivals, code) (R218). -/
def Bar.update (b : Bar) (bytes arrivals code : Nat) : Bar :=
  let wasOpen := b.isOpen
  let b1 := if code ≠ 0 && !b.ecur then { b with code := code, ecur := true } else b
  let b2 := if b.pb < bytes || b.pa < arrivals then
      { b1 with code := if b1.ecur then b1.code else 7, ecur := true } else b1
  let b3 := { b2 with pb := b2.pb - bytes, pa := b2.pa - arrivals }
  if b3.pb = 0 && b3.pa = 0 && wasOpen then
    { b3 with elast := b3.ecur, ecur := false, phase := (b3.phase + 1) % 256, pb := b3.rlb, pa := b3.rla }
  else b3

/-- The barrier at a local address of an activity. -/
def Activity.bar (a : Activity) (y : Nat) : Bar := Bar.ofNum (ofBytes (a.lm.read y 16))

/-- The activity with a barrier stored. -/
def Activity.setBar (a : Activity) (y : Nat) (b : Bar) : Activity := { a with lm := a.lm.write y (toBytes 16 b.toNum) }

/-- A forecast tag whose phase has completed: since this cycle, with this error mark (R363). -/
def Tag.phaseEnd (t : Tag) (y cycle : Nat) (b : Bar) : Tag :=
  if t.bar = y && t.completed.isNone && b.phase ≠ t.tok then { t with completed := some (cycle, b.elast) } else t

/-- The status of `bar.wait` and `bar.test` (R220). -/
def Bar.status (b : Bar) (st : Nat) : Nat :=
  st + (if b.elast then 2 ^ 8 else 0) + b.code * 2 ^ 10 + b.phase * 2 ^ 16

/-- A `bar.wait` at a barrier whose awaited phase has completed (R220). -/
def Block.phaseEnd (k : Block) (y cycle : Nat) (b : Bar) : Block :=
  match k with
  | .barWait addr token dst => if addr = y && b.phase = (token + 1) % 256 then .barDone dst (b.status 0) cycle else k
  | _ => k

/-- The cycle in which the barrier unit applies an update: that of the instruction that makes it, or the one after that in which data
landed (R213). -/
def State.updateCycle (s : State) : Nat := if s.phase = .device then s.cycle + 1 else s.cycle

/-- Apply an update to a barrier of an activity, wherever it stands; nothing for address 0 (R196). -/
def State.barUpdate (uid y bytes arrivals code : Nat) (s : State) : State :=
  if y = 0 then s
  else s.modAct uid (fun a =>
    if a.life = .absent then a
    else
      let b := (a.bar y).update bytes arrivals code
      { a.setBar y b with
        tags := a.tags.map (fun t => t.phaseEnd y s.updateCycle b)
        block := a.block.phaseEnd y s.updateCycle b
        barEnds := if b.phase ≠ (a.bar y).phase then a.barEnds.put y s.updateCycle else a.barEnds
        promises := a.promises.filter (fun p => p.bar ≠ y || p.phase = b.phase) })

/-! ## What an instruction's effect comes to -/

/-- The outcome of an instruction's own effect, after the checks of R100 steps 1 to 6. -/
inductive Eff where
  /-- It has its effect, and control goes to the next instruction. -/
  | done (s : State)
  /-- It has its effect, and control goes to an address. -/
  | jump (s : State) (t : Int)
  /-- It takes a trap, with none of its effects. -/
  | trap (cause : Nat) (info : Word)
  /-- An interlock holds it; the state carries what the wait needs. -/
  | hold (s : State)
  /-- It meets poison or an uncorrectable error (R143, R160): the source code of R153 and the address. -/
  | poison (src addr : Nat)

/-- XINFO of a copy fault (R199). -/
def faultInfo (code : Nat) (pos tid : Nat) : Word := BitVec.ofNat 64 (code + pos % 2 ^ 16 * 2 ^ 16 + tid % 2 ^ 16 * 2 ^ 32)

/-- A copy fault, cause 0x0C (R199). -/
def Eff.fault (code : Nat) (pos : Nat := 0) (tid : Nat := 0) : Eff := .trap 0x0C (faultInfo code pos tid)

/-- The key of an activity's code segment on its agent: its job's id, or its own handle for a spindle program or a gateway
activity. -/
def Activity.segKey (a : Activity) : Nat := if a.agent.kind = .compute then a.job.jid else a.uid

/-- The segment an activity runs, on the core in focus (R91). -/
def State.seg (s : State) : Option CodeSeg :=
  s.core.segs.find? (fun g => g.jid = s.me.segKey && g.vd = s.me.job.vd)

/-- CODELEN (R91). -/
def State.codeLen (s : State) : Nat := (s.seg.map (fun g => g.len)).getD 0

end Sys2Proof.Machine
end

