-- ==== Sys2Proof/Machine/Cipher.lean ====
section
/-! DEFINITION. AES-256-XTS over the 32-byte sectors of encrypted memory (R300). The rule names the standard and the tweak; the cipher itself,
and the order of a key's bytes, are those of FIPS 197 and IEEE 1619 (PRESUMED, log 22). -/

namespace Sys2Proof.Machine

/-! ## AES-256 on blocks of 16 bytes, as numbers below 256 -/

/-- The substitution table: entry x is byte x of the number. -/
def aesSbox : Nat :=
  0x16bb54b00f2d99416842e6bf0d89a18cdf2855cee9871e9b948ed9691198f8e19e1dc186b95735610ef6034866b53e708a8bbd4b1f74dde8c6b4a61c2e2578ba * 2 ^ 1536 +
  0x08ae7a65eaf4566ca94ed58d6d37c8e779e4959162acd3c25c2406490a3a32e0db0b5ede14b8ee4688902a22dc4f816073195d643d7ea7c41744975fec130ccd * 2 ^ 1024 +
  0xd2f3ff1021dab6bcf5389d928f40a351a89f3c507f02f94585334d43fbaaefd0cf584c4a39becb6a5bb1fc20ed00d153842fe329b3d63b52a05a6e1b1a2c8309 * 2 ^ 512 +
  0x75b227ebe28012079a059618c323c7041531d871f1e5a534ccf73f362693fdb7c072a49cafa2d4adf04759fa7dc982ca76abd7fe2b670130c56f6bf27b777c63

/-- The inverse substitution table. -/
def aesInvSbox : Nat :=
  0x7d0c2155631469e126d677ba7e042b17619953833cbbebc8b0f52aae4d3be0a0ef9cc9939f7ae52d0d4ab519a97f51605fec8027591012b131c7078833a8dd1f * 2 ^ 1536 +
  0xf45acd78fec0db9a2079d2c64b3e56fc1bbe18aa0e62b76f89c5291d711af1476edf751ce837f9e28535ade72274ac9673e6b4f0cecff297eadc674f4111913a * 2 ^ 1024 +
  0x6b8a130103bdafc1020f3fca8f1e2cd00645b3b80558e4f70ad3bc8c00abd890849d8da75746155edab9edfd5048706c92b6655dcc5ca4d41698688664f6f872 * 2 ^ 512 +
  0x25d18b6d49a25b76b224d92866a12e084ec3fa420b954cee3d23c2a632947b54cbe9dec444438e3487ff2f9b8239e37cfbd7f3819ea340bf38a53630d56a0952

/-- An entry of a table. -/
def aesLookup (table x : Nat) : Nat := table / 2 ^ (8 * x) % 256

/-- Twice an element of the field. -/
def aesDouble (a : Nat) : Nat := if a < 128 then 2 * a else (2 * a) ^^^ 0x11B

/-- The product of an element with a constant below 16. -/
def aesMul (a c : Nat) : Nat :=
  let b := aesDouble a
  let d := aesDouble b
  (if c % 2 = 1 then a else 0) ^^^ (if c / 2 % 2 = 1 then b else 0) ^^^ (if c / 4 % 2 = 1 then d else 0) ^^^
    (if c / 8 % 2 = 1 then aesDouble d else 0)

/-- The bytes of two blocks, added. -/
def aesAdd (xs ys : List Nat) : List Nat := (xs.zip ys).map (fun (x, y) => x ^^^ y)

/-- Rows of a block rotated: row r by r columns in the direction of `step`. -/
def aesRows (step : Nat) (xs : List Nat) : List Nat :=
  (List.range 16).map (fun i => xs.getD (i % 4 + 4 * ((i / 4 + step * (i % 4)) % 4)) 0)

/-- Columns of a block multiplied by a circulant matrix with a first row. -/
def aesColumns (row xs : List Nat) : List Nat :=
  (List.range 16).map (fun i => ((List.range 4).map (fun k =>
    aesMul (xs.getD (i / 4 * 4 + k) 0) (row.getD ((k + 4 - i % 4) % 4) 0))).foldl (· ^^^ ·) 0)

/-- The words of the key schedule, the last first: `n` more of them, from number i on. -/
def aesSchedule : Nat → Nat → List (List Nat) → List (List Nat)
  | 0, _, ws => ws
  | n + 1, i, ws =>
    let t := ws.headD []
    let t :=
      if i % 8 = 0 then
        aesAdd (((t.drop 1) ++ t.take 1).map (aesLookup aesSbox)) [2 ^ (i / 8 - 1), 0, 0, 0]
      else if i % 8 = 4 then t.map (aesLookup aesSbox)
      else t
    aesSchedule n (i + 1) (aesAdd (ws.getD 7 []) t :: ws)

/-- The 15 round keys of a key of 32 bytes. -/
def aesRoundKeys (key : List Nat) : List (List Nat) :=
  let ws := (aesSchedule 52 8 (((List.range 8).map (fun i => (key.drop (4 * i)).take 4)).reverse)).reverse
  (List.range 15).map (fun i => ((ws.drop (4 * i)).take 4).flatten)

/-- A block encrypted. -/
def aesEncrypt (key block : List Nat) : List Nat :=
  match aesRoundKeys key with
  | [] => block
  | k :: ks =>
    let sub (xs : List Nat) : List Nat := aesRows 1 (xs.map (aesLookup aesSbox))
    let mid := (ks.take 13).foldl (fun xs k => aesAdd (aesColumns [2, 3, 1, 1] (sub xs)) k) (aesAdd block k)
    aesAdd (sub mid) (ks.getD 13 [])

/-- A block decrypted. -/
def aesDecrypt (key block : List Nat) : List Nat :=
  match (aesRoundKeys key).reverse with
  | [] => block
  | k :: ks =>
    let sub (xs : List Nat) : List Nat := (aesRows 3 xs).map (aesLookup aesInvSbox)
    let mid := (ks.take 13).foldl (fun xs k => aesColumns [14, 11, 13, 9] (aesAdd (sub xs) k)) (aesAdd block k)
    aesAdd (sub mid) (ks.getD 13 [])

/-! ## XTS (R300) -/

/-- A number as n little-endian bytes. -/
def leBytes (n x : Nat) : List Nat := (List.range n).map (fun i => x / 2 ^ (8 * i) % 256)

/-- The number of little-endian bytes. -/
def leNumber (xs : List Nat) : Nat := xs.foldr (fun x acc => x + 256 * acc) 0

/-- A tweak multiplied by α. -/
def xtsNext (t : Nat) : Nat := if t < 2 ^ 127 then 2 * t else (2 * t - 2 ^ 128) ^^^ 0x87

/-- The two blocks of a sector, each passed through a block cipher under the tweak of the sector's number: PA[51:5]. -/
def xtsSector (f : List Nat → List Nat → List Nat) (k : KeyPair) (sector : Nat) (bs : List Nat) : List Nat :=
  let t0 := leNumber (aesEncrypt (leBytes 32 k.key2.toNat) (leBytes 16 sector))
  let one (t : Nat) (xs : List Nat) : List Nat := aesAdd (f (leBytes 32 k.key1.toNat) (aesAdd xs (leBytes 16 t))) (leBytes 16 t)
  one t0 (bs.take 16) ++ one (xtsNext t0) (bs.drop 16)

/-- A sector's plain bytes encrypted under a key pair. -/
def KeyPair.encrypt (k : KeyPair) (sector : Nat) (bs : List Nat) : List Nat := xtsSector aesEncrypt k sector bs

/-- A sector's stored bytes decrypted under a key pair. -/
def KeyPair.decrypt (k : KeyPair) (sector : Nat) (bs : List Nat) : List Nat := xtsSector aesDecrypt k sector bs

end Sys2Proof.Machine
end

