-- ==== Sys2Proof/Machine/Mem.lean ====
section
/-! DEFINITION. Memory outside the cores: the physical map (R28, R29), page walks (R298), encryption by key slot (R300),
poison (R301), and the tile cache: tags and buckets (R292, R293, R453), replicas (R297), allocation (R407), format regions
(R290, R291). -/

namespace Sys2Proof.Machine

/-! ## The physical map (R29) -/

/-- What a physical address is. -/
inductive PaKind where
  | device
  | hole
  /-- Window and offset of CXL memory. -/
  | cxl (w off : Nat)
  | host
  /-- Target module, Q bit and offset (R416). -/
  | peer (p : Nat) (q : Bool) (off : Nat)
deriving DecidableEq, Repr

/-- The range of R29 that holds an address. -/
def paKind (pa : Nat) : PaKind :=
  if pa < 0x018000000000 then .device
  else if pa < 0x100000000000 then .hole
  else if pa < 0x200000000000 then .cxl ((pa - 0x100000000000) / 0x20000000000) ((pa - 0x100000000000) % 0x20000000000)
  else if pa < 0x8000000000000 then .hole
  else if pa < 0xC000000000000 then .host
  else if pa < 0x10000000000000 then .peer (pa / 2 ^ 41 % 512) (pa / 2 ^ 40 % 2 = 1) (pa % 2 ^ 40)
  else .hole

/-- The channel that stores a device address (R28). -/
def channelOf (pa : Nat) : Nat := pa / 256 % 384

/-- The offset of a device address within its channel (R28). -/
def channelOffset (pa : Nat) : Nat := pa / 256 / 384 * 256 + pa % 256

/-- The device address at an offset of a channel (R28). -/
def channelAddr (channel off : Nat) : Nat := (off / 256 * 384 + channel) * 256 + off % 256

/-- The error codes of R211. -/
def errRange : Nat := 1
def errXlate : Nat := 2
def errAddr : Nat := 3
def errPoison : Nat := 4
def errRefused : Nat := 5
def errConflict : Nat := 6

/-- The registers of a virtual device; a VD that nothing has written has its reset values (R376, R377, R394-R397). -/
def Vd.reset : Vd :=
  { en := false, spown := false, serr := false, vdtab := 0, vdasid := 0, vdrdir := 0, shr := [], dspcfg := BitVec.ofNat 64 (64 * 2 ^ 36 + 4), jsbase := 0,
    spool := 0, jqbase := [], jqctl := [], next := none }

/-- The registers of VD v. -/
def State.vd (s : State) (v : Nat) : Vd := (s.vds.find v).getD Vd.reset

/-- KEYSEL(VD) (R300). -/
def State.keySel (s : State) (vd : Nat) : Nat := (s.svc.keysel.find vd).getD 0

/-- A key as memory is read and written under it: its number among the keys that have been set, and those keys. -/
structure KeyView where
  num : Nat
  keys : List KeyPair
deriving DecidableEq, Repr

/-- The key that a VD's slot holds: equal keys have one number; one that no key has for a slot without a key. -/
def State.keySlot (s : State) (vd : Nat) : KeyView :=
  ⟨match s.svc.keys.find (s.keySel vd) with
   | some p => (s.svc.keyHist.findIdx? (· = p)).getD s.svc.keyHist.length
   | none => s.svc.keyHist.length, s.svc.keyHist⟩

/-- Why an access of a VD to a physical address is not served: 0 when it is (R29, R300, R414, R416, R417, R436). -/
def State.paError (s : State) (vd pa : Nat) : Nat :=
  let keyed := (s.svc.keys.find (s.keySel vd)).isSome
  match paKind pa with
  | .device => if keyed then 0 else errRefused
  | .hole => errAddr
  | .cxl w off =>
    match s.svc.cxl.find w with
    | none => errRefused
    | some cap => if off < cap then (if keyed then 0 else errRefused) else errAddr
  | .host => 0
  | .peer p _ _ =>
    if p ≠ 511 && (s.svc.modid = 0x1FF || p = s.svc.modid.toNat) then errAddr
    else match s.svc.routes.find p with
      | none => errAddr
      | some l => if l ∈ s.svc.linksUp then 0 else errRefused

/-- Whether a read of an address is refused: the block queues of another module, and switch space (R416, R419). -/
def noRead (pa : Nat) : Bool :=
  match paKind pa with
  | .peer p q _ => p = 511 || q
  | _ => false

/-- Whether an address lies in switch space (R419). -/
def isSwitch (pa : Nat) : Bool :=
  match paKind pa with
  | .peer p _ _ => p = 511
  | _ => false

/-- Whether sectors at an address are stored encrypted (R300). -/
def encrypted (pa : Nat) : Bool :=
  match paKind pa with
  | .device => true
  | .cxl _ _ => true
  | _ => false

/-- The bytes of a sector that key number k wrote, as another key reads them: its ciphertext, decrypted (R300, R447). -/
def KeyView.recrypt (v : KeyView) (k sector : Nat) (bs : List Byte) : List Byte :=
  match v.keys[k]?, v.keys[v.num]? with
  | some a, some b => (b.decrypt sector (a.encrypt sector (bs.map (fun x => x.toNat)))).map (BitVec.ofNat 8)
  | _, _ => bs

/-- The bytes of a sector of backing memory as a key reads them. Memory holds the plain bytes with the number of the key that wrote them;
a sector that nothing has written reads alike under every key (log 22). -/
def PhysMem.sector (m : PhysMem) (slot : KeyView) (q : Nat) : List Byte :=
  let bs := m.bytes.readN (32 * q) 32
  match m.keyOf.find q with
  | some k => if k = slot.num then bs else slot.recrypt k q bs
  | none => bs

/-- A byte of backing memory as a VD's key reads it (R300). -/
def PhysMem.get (m : PhysMem) (slot : KeyView) (pa : Nat) : Byte :=
  match m.keyOf.find (pa / 32) with
  | some k => if encrypted pa && k ≠ slot.num then (m.sector slot (pa / 32)).getD (pa % 32) 0 else m.bytes.read pa
  | none => m.bytes.read pa

/-- The sector of an address decrypted and stored again under a key. -/
def PhysMem.rekey (m : PhysMem) (slot : KeyView) (pa : Nat) : PhysMem :=
  if !encrypted pa then m
  else
    let q := pa / 32
    match m.keyOf.find q with
    | some k =>
      if k = slot.num then m
      else { m with bytes := m.bytes.writeN (32 * q) (m.sector slot q), keyOf := m.keyOf.put q slot.num }
    | none => { m with keyOf := m.keyOf.put q slot.num }

/-- Write a byte of backing memory under a key slot. -/
def PhysMem.set (m : PhysMem) (slot : KeyView) (pa : Nat) (b : Byte) : PhysMem :=
  let m := m.rekey slot pa
  { m with bytes := m.bytes.write pa b }

/-- Write cells of backing memory. -/
def PhysMem.setCells (m : PhysMem) (slot : KeyView) (cs : List Host.Cell) : PhysMem :=
  cs.foldl (fun m c => m.set slot c.1 c.2) m

/-- Set or clear the poison bit of the sector of an address; a sector written whole holds no correctable error either. -/
def PhysMem.mark (m : PhysMem) (pa : Nat) (bad : Bool) : PhysMem :=
  { m with poison := if bad then setInsert m.poison (pa / 32) else setErase m.poison (pa / 32)
           soft := if bad then m.soft else setErase m.soft (pa / 32) }

/-- Whether the sector of an address is poisoned. -/
def PhysMem.bad (m : PhysMem) (pa : Nat) : Bool := pa / 32 ∈ m.poison

/-- Whether cells are a whole aligned sector (R301). -/
def wholeSector (cs : List Host.Cell) : Bool :=
  match cs with
  | [] => false
  | c :: _ => c.1 % 32 = 0 && cs.length = 32 && (cs.zipIdx).all (fun (d, i) => d.1 = c.1 + i)

/-! ## Tags, buckets, slices (R292, R293, R297, R453) -/

/-- The tag of the address line of a physical address (R453). -/
def addrKey (vd pa : Nat) : LineKey := ⟨vd, 0, pa / 2 ^ 9 % 2 ^ 32, pa / 2 ^ 41 % 2 ^ 11⟩

/-- The string S of R292. -/
def LineKey.string (k : LineKey) : Nat :=
  k.vd % 2 ^ 6 + k.tid % 2 ^ 16 * 2 ^ 6 + k.row % 2 ^ 32 * 2 ^ 22 + k.col % 2 ^ 32 * 2 ^ 54

/-- The XOR of n 12-bit chunks of a number (R292, R303). -/
def fold12 : Nat → Nat → Nat
  | 0, _ => 0
  | n + 1, x => (x % 4096) ^^^ fold12 n (x / 4096)

/-- A line's bucket (R292). -/
def LineKey.bucket (k : LineKey) : Nat := fold12 8 k.string

/-- A line's set in its slice (R292). -/
def LineKey.set (k : LineKey) : Nat := fold12 7 (k.string / 4096) % 128

/-- An entry of the address bucket table (R293). -/
def State.bucket (s : State) (b : Nat) : Bucket := (s.cache.buckets.find b).getD ⟨false, false, b % 384⟩

/-- The home slice of a line. -/
def State.homeSlice (s : State) (k : LineKey) : Nat := (s.bucket k.bucket).slice

/-- The replica slice of a line on a die, if its bucket is replicated and it is not the home slice (R297); none where that spindle is
retired (R431). -/
def State.replicaSlice (s : State) (k : LineKey) (die : Nat) : Option Nat :=
  let b := s.bucket k.bucket
  let r := die * 96 + b.slice % 96
  if b.repl && r ≠ b.slice && r ∉ s.svc.spindlesRetired then some r else none

/-- The resident home line of a tag. -/
def Cache.home (c : Cache) (k : LineKey) : Option Line := c.lines.find? (fun l => l.key = k && !l.replica)

/-- Replace the home line of a tag, used last. -/
def Cache.update (c : Cache) (l : Line) : Cache :=
  { c with lines := c.lines.filter (fun m => !(m.key = l.key && !m.replica)) ++ [l] }

/-- WAYMSK (R406). -/
def State.waymsk (s : State) (vd slice : Nat) : BitVec 16 := (s.cache.waymsk.find (vd * 384 + slice)).getD 0xFFFF

/-! ## Reading and writing bytes at a home slice -/

/-- Which part of a line holds a byte: its payload, its block scales, its band scale (R289). -/
inductive Part where
  | cell
  | side
  | band
deriving DecidableEq, Repr

/-- A byte as a line of a slice holds it: the tag, the sector, the part, the physical address. -/
structure Loc where
  key : LineKey
  sect : Nat
  part : Part
  pa : Nat
deriving DecidableEq, Repr

/-- The location of a byte of an address line (R453). -/
def addrLoc (vd pa : Nat) : Loc := ⟨addrKey vd pa, pa / 32 % 16, .cell, pa⟩

/-- A sector that holds nothing yet. -/
def LSector.empty : LSector := ⟨[], [], false, false, false⟩

/-- What a line holds at a location: the byte, and whether it is poisoned. The scales of a poisoned sector are delivered as poison too (R286,
R289). -/
def Line.get? (l : Line) (x : Loc) : Option (Byte × Bool) :=
  match x.part with
  | .band => (AMap.find l.band x.pa).map (fun b => (b, l.badBand))
  | p =>
    match l.sects.find x.sect with
    | none => none
    | some t => if p = .cell then (AMap.find t.cells x.pa).map (fun b => (b, t.poison))
        else (AMap.find t.side x.pa).map (fun b => (b, t.poison || t.badSide))

/-- The line through which a tag is read: the replica in a slice, else the home line (R232, R297). -/
def Cache.served (c : Cache) (replica : Option Nat) (k : LineKey) : Option Line :=
  match replica with
  | some r => (c.lines.find? (fun l => l.key = k && l.replica && l.slice = r)).orElse (fun _ => c.home k)
  | none => c.home k

/-- Read a byte for a VD, at a replica slice or at the home slice: the byte, or an error of R211. -/
def State.loadVia (s : State) (replica : Option Nat) (vd : Nat) (x : Loc) : Except Nat Byte :=
  match (s.cache.served replica x.key).bind (fun l => l.get? x) with
  | some (b, bad) => if bad then .error errPoison else .ok b
  | none =>
    let e := s.paError vd x.pa
    if e ≠ 0 then .error e
    else if noRead x.pa then .error errRefused
    else if s.mem.bad x.pa then .error errPoison
    else .ok (s.mem.get (s.keySlot vd) x.pa)

/-- Read a byte for a VD at its home slice. -/
def State.loadByte (s : State) (vd : Nat) (x : Loc) : Except Nat Byte := s.loadVia none vd x

/-- Invalidate the replicas of a tag (R233). -/
def Cache.dropReplicas (c : Cache) (k : LineKey) : Cache :=
  { c with lines := c.lines.filter (fun m => !(m.key = k && m.replica)) }

/-- A byte that is written again holds the value of no earlier release (R227, R234). -/
def Cache.overwrite (c : Cache) (pas : List Nat) : Cache :=
  if c.released = [] then c
  else { c with released := (c.released.map (fun (r : Release) => { r with pas := r.pas.filter (fun a => a ∉ pas) })).filter (fun r => r.pas ≠ []) }

/-- Write cells of one sector of one part of a line at the home slice: into the line when it is resident (it turns dirty),
else into backing memory. A sector that is written whole loses its poison (R301). -/
def State.storeCells (vd : Nat) (key : LineKey) (sect : Nat) (part : Part) (cs : List Host.Cell) (s : State) : State :=
  let s : State := { s with cache := (s.cache.dropReplicas key).overwrite (cs.map (fun c => c.1)) }
  match s.cache.home key with
  | some l =>
    match part with
    | .band =>
      let l' : Line := { l with band := cs.foldl (fun m c => AMap.put m c.1 c.2) l.band, bandDirty := true }
      { s with cache := s.cache.update l' }
    | _ =>
      let t := (l.sects.find sect).getD LSector.empty
      let t := if part = .cell then
          { t with cells := cs.foldl (fun m c => AMap.put m c.1 c.2) t.cells, dirty := true,
                   poison := t.poison && !wholeSector cs }
        else { t with side := cs.foldl (fun m c => AMap.put m c.1 c.2) t.side, dirty := true }
      { s with cache := s.cache.update { l with sects := l.sects.put sect t } }
  | none =>
    let m := s.mem.setCells (s.keySlot vd) cs
    let m := if part = .cell && wholeSector cs then
        (match cs with
         | c :: _ => m.mark c.1 false
         | [] => m)
      else m
    { s with mem := m }

/-- Write a sector of a line back: its dirty bytes, and its poison (R301). -/
def PhysMem.writeBackSector (m : PhysMem) (slot : KeyView) (t : LSector) : PhysMem :=
  if !t.dirty then m
  else
    let m := (m.setCells slot t.cells).setCells slot t.side
    let m := if t.badSide then t.side.foldl (fun m c => m.mark c.1 true) m else m
    if t.poison then t.cells.foldl (fun m c => m.mark c.1 true) m
    else if wholeSector t.cells then (match t.cells with
      | c :: _ => m.mark c.1 false
      | [] => m)
    else m

/-- Write a line back. -/
def PhysMem.writeBack (m : PhysMem) (slot : KeyView) (l : Line) : PhysMem :=
  let m := l.sects.foldl (fun m t => m.writeBackSector slot t.2) m
  if l.bandDirty then
    let m := m.setCells slot l.band
    if l.badBand then l.band.foldl (fun m c => m.mark c.1 true) m else m
  else m

/-- Write back the dirty sectors of every home line that a test picks; the lines stay, clean. -/
def State.cleanLines (p : Line → Bool) (s : State) : State :=
  let ls := s.cache.lines.filter (fun l => p l && !l.replica)
  { s with
    mem := ls.foldl (fun m l => m.writeBack (s.keySlot l.key.vd) l) s.mem
    cache := { s.cache with lines := s.cache.lines.map (fun l =>
      if p l then { l with sects := l.sects.map (fun (i, t) => (i, { t with dirty := false })), bandDirty := false } else l) } }

/-- Write back and invalidate every line, replicas included, that a test picks. -/
def State.flushLines (p : Line → Bool) (s : State) : State :=
  { s with
    mem := (s.cache.lines.filter (fun l => p l && !l.replica)).foldl (fun m l => m.writeBack (s.keySlot l.key.vd) l) s.mem
    cache := { s.cache with lines := s.cache.lines.filter (fun l => !p l) } }

/-- Whether a line has a dirty part. -/
def Line.dirty (l : Line) : Bool := l.bandDirty || l.sects.any (fun t => t.2.dirty)

/-! ## Allocation (R407) -/

/-- The lowest number below n that meets a test. -/
def lowest (p : Nat → Bool) (n : Nat) : Option Nat := (List.range n).find? p

/-- The way that a fill for a VD takes in a set of a slice, whether it is borrowed, and the line it evicts (R407). -/
def State.allocWay (s : State) (vd slice set : Nat) : Option (Nat × Bool × Option Line) :=
  let here := s.cache.lines.filter (fun l => l.slice = slice && l.set = set)
  let mask := s.waymsk vd slice
  let free (w : Nat) : Bool := !here.any (fun l => l.way = w)
  let claimed (w : Nat) : Bool := s.vds.any (fun (v, r) => r.en && (s.waymsk v slice).getLsbD w)
  match lowest (fun w => mask.getLsbD w && free w) 16 with
  | some w => some (w, false, none)
  | none =>
    match lowest (fun w => !mask.getLsbD w && free w && !claimed w) 16 with
    | some w => some (w, true, none)
    | none =>
      match lowest (fun w => !mask.getLsbD w && free w) 16 with
      | some w => some (w, true, none)
      | none =>
        match here.find? (fun l => mask.getLsbD l.way && l.borrowed) with
        | some l => some (l.way, false, some l)
        | none =>
          match here.find? (fun l => mask.getLsbD l.way && l.key.vd = vd) with
          | some l => some (l.way, false, some l)
          | none => none

/-- Take a line out of its slice, writing it back when it is dirty (R407). -/
def State.evictLine (l : Line) (s : State) : State :=
  { s with
    mem := if l.replica then s.mem else s.mem.writeBack (s.keySlot l.key.vd) l
    cache := { s.cache with lines := s.cache.lines.filter (fun m => !(m.slice = l.slice && m.set = l.set && m.way = l.way)) } }

/-- The parts of a line that a fill brings in: sectors with the addresses of their payload and scale bytes, and the
addresses of the band scale. -/
structure FillSet where
  sects : List (Nat × List Nat × List Nat)
  band : List Nat
deriving DecidableEq, Repr

/-- Fill a line into a slice (R301, R407): nothing when no way can be allocated. Bytes that are not served are left out. -/
def State.fillLine (vd : Nat) (key : LineKey) (slice : Nat) (replica : Bool) (f : FillSet) (s : State) : State :=
  match s.allocWay vd slice key.set with
  | none => s
  | some (way, borrowed, victim) =>
    let s := match victim with
      | some l => s.evictLine l
      | none => s
    let slot := s.keySlot vd
    let served (pa : Nat) : Bool := s.paError vd pa = 0 && !noRead pa
    let cells (pas : List Nat) : List Host.Cell :=
      (pas.filter served).foldl (fun m pa => AMap.put m pa (s.mem.get slot pa)) []
    let poisoned (pas : List Nat) : Bool := (pas.filter served).any (fun pa => s.mem.bad pa)
    let sects : AMap LSector := f.sects.foldl (fun m (i, pas, sides) =>
      m.put i ⟨cells pas, cells sides, false, poisoned pas, poisoned sides⟩) []
    let l : Line := ⟨key, slice, key.set, way, replica, borrowed, sects, cells f.band, false, poisoned f.band⟩
    { s with cache := { s.cache with lines := s.cache.lines ++ [l] } }

/-- What a fill of an address line brings in: its 512 bytes (R453). -/
def LineKey.addrFill (k : LineKey) : FillSet :=
  let base := k.row * 2 ^ 9 + k.col * 2 ^ 41
  ⟨(List.range 16).map (fun i => (i, (List.range 32).map (fun j => base + 32 * i + j), [])), []⟩

/-- The key of the access counts of a bucket at a slice (R294). -/
def bucketAt (slice bucket : Nat) : Nat := slice * 4096 + bucket

/-- A line of a slice is used: it is the last that its set replaces (R407). -/
def Cache.touch (c : Cache) (slice : Nat) (k : LineKey) : Cache :=
  { c with lines := c.lines.filter (fun l => !(l.slice = slice && l.key = k)) ++ c.lines.filter (fun l => l.slice = slice && l.key = k) }

/-- Count accesses at slices to lines for the rebalancer (R294); each is a use of its line (R407). -/
def State.countAt (ks : List (Nat × LineKey)) (s : State) : State :=
  ks.foldl (fun (s : State) (sl, k) =>
    { s with cache := { s.cache.touch sl k with
      hits := s.cache.hits.put sl ((s.cache.hits.find sl).getD 0 + 1)
      bucketHits := s.cache.bucketHits.put (bucketAt sl k.bucket) ((s.cache.bucketHits.find (bucketAt sl k.bucket)).getD 0 + 1) } }) s

/-- Count accesses to lines at their home slices. -/
def State.countLines (ks : List LineKey) (s : State) : State := s.countAt (ks.map (fun k => (s.homeSlice k, k)))

/-- Whether an address line need not or cannot be filled: it is resident, its bucket is moving, or its memory does not answer. -/
def State.linePresent (s : State) (vd : Nat) (k : LineKey) : Bool :=
  (s.cache.home k).isSome || (s.bucket k.bucket).hold || s.paError vd (k.row * 2 ^ 9 + k.col * 2 ^ 41) ≠ 0

/-- The line of an error record comes into its slice. -/
def State.bringLine (vd : Nat) (k : LineKey) (s : State) : State :=
  let s := s.countLines [k]
  if s.linePresent vd k then s else s.fillLine vd k (s.homeSlice k) false k.addrFill

/-- The address lines of physical addresses, once each. -/
def addrKeys (vd : Nat) (pas : List Nat) : List LineKey := (pas.map (addrKey vd)).eraseDups

/-- Whether an address line among some lies in a bucket that is moving: its requests are held (R296). -/
def State.addrHeld (s : State) (vd : Nat) (pas : List Nat) : Bool :=
  s.cache.move.isSome && (addrKeys vd pas).any (fun k => (s.bucket k.bucket).hold)

/-! ## Page walks (R298, R299) -/

/-- Read n little-endian bytes of an address line for a VD. -/
def State.loadPhys (s : State) (vd pa : Nat) (n : Nat) : Except Nat Nat :=
  (List.range n).foldr (fun i acc =>
    match s.loadByte vd (addrLoc vd (pa + i)), acc with
    | .ok b, .ok v => .ok (b.toNat + 256 * v)
    | .error e, _ => .error e
    | _, .error e => .error e) (.ok 0)

/-- The index of a virtual address at a level (R298). -/
def walkIndex (level va : Nat) : Nat :=
  match level with
  | 0 => va / 2 ^ 48 % 256
  | 1 => va / 2 ^ 39 % 512
  | 2 => va / 2 ^ 30 % 512
  | 3 => va / 2 ^ 21 % 512
  | _ => va / 2 ^ 16 % 32

/-- The page size of a leaf at a level, if one may stand there. -/
def leafSize : Nat → Option Nat
  | 2 => some (2 ^ 30)
  | 3 => some (2 ^ 21)
  | 4 => some (2 ^ 16)
  | _ => none

/-- The bytes of the table that an entry of a level points to. -/
def tableSize (level : Nat) : Nat := if level = 3 then 256 else 4096

/-- The levels of a walk from one on, with the table's address: the page, or none for XLATE. -/
def State.walkFrom (s : State) (vd asid va : Nat) : List Nat → Nat → Option Xlat
  | [], _ => none
  | level :: rest, table =>
    match s.loadPhys vd (table + 8 * walkIndex level va) 8 with
    | .error _ => none
    | .ok e =>
      let v := e % 2 = 1
      let leaf := e / 2 % 2 = 1
      let w := e / 4 % 2 = 1
      let pa := e / 2 ^ 8 % 2 ^ 44 * 2 ^ 8
      if !v || e / 8 % 32 ≠ 0 || e / 2 ^ 52 ≠ 0 then none
      else if leaf then
        match leafSize level with
        | none => none
        | some size => if pa % size = 0 then some ⟨vd, asid, va / size * size, size, pa, w⟩ else none
      else if level = 4 || pa % tableSize level ≠ 0 then none
      else State.walkFrom s vd asid va rest pa

/-- A five-level walk (R298): the page that holds an address, or none. -/
def State.walk (s : State) (vd asid va : Nat) : Option Xlat :=
  if va ≥ 2 ^ 56 then none
  else
    match s.loadPhys vd ((s.vd vd).vdrdir.toNat / 2 ^ 12 % 2 ^ 40 * 2 ^ 12 + 8 * asid) 8 with
    | .error _ => none
    | .ok root =>
      let pa := root / 2 ^ 8 % 2 ^ 44 * 2 ^ 8
      if root % 2 ≠ 1 || root / 2 % 2 = 1 || root / 8 % 32 ≠ 0 || root / 2 ^ 52 ≠ 0 || pa % 2048 ≠ 0 then none
      else s.walkFrom vd asid va [0, 1, 2, 3, 4] pa

/-- The entries that a walk reads from a level on (R298). -/
def State.walkPas (s : State) (vd va : Nat) : List Nat → Nat → List Nat
  | [], _ => []
  | level :: rest, table =>
    let at_ := table + 8 * walkIndex level va
    match s.loadPhys vd at_ 8 with
    | .error _ => [at_]
    | .ok e => if e % 2 ≠ 1 || e / 2 % 2 = 1 then [at_] else at_ :: State.walkPas s vd va rest (e / 2 ^ 8 % 2 ^ 44 * 2 ^ 8)

/-- The addresses of the entries that a walk reads, the root pointer among them. -/
def State.walkReads (s : State) (vd asid va : Nat) : List Nat :=
  let at_ := (s.vd vd).vdrdir.toNat / 2 ^ 12 % 2 ^ 40 * 2 ^ 12 + 8 * asid
  if va ≥ 2 ^ 56 then []
  else match s.loadPhys vd at_ 8 with
    | .error _ => [at_]
    | .ok root =>
      if root % 2 ≠ 1 || root / 2 % 2 = 1 then [at_]
      else at_ :: s.walkPas vd va [0, 1, 2, 3, 4] (root / 2 ^ 8 % 2 ^ 44 * 2 ^ 8)

/-- Whether a walk reads a line in a bucket that is moving (R296). -/
def State.walkHeld (s : State) (vd asid va : Nat) : Bool := s.cache.move.isSome && s.addrHeld vd (s.walkReads vd asid va)

/-- The physical address of a virtual one in a translation that covers it. -/
def Xlat.apply (x : Xlat) (va : Nat) : Nat := x.pa + (va - x.va)

/-- Whether a translation covers an address. -/
def Xlat.covers (x : Xlat) (vd asid va : Nat) : Bool := x.vd = vd && x.asid = asid && x.va ≤ va && va < x.va + x.size

/-- DASID of a VD (R395). -/
def State.dasid (s : State) (vd : Nat) : Nat := (s.vd vd).vdasid.toNat % 2 ^ 16

/-- Translate one address by a walk: its physical address, or XLATE; a write needs a writable page. -/
def State.xlateWalk (s : State) (vd asid va : Nat) (write : Bool) : Except Nat Nat :=
  match s.walk vd asid va with
  | none => .error errXlate
  | some x => if write && !x.writable then .error errXlate else .ok (x.apply va)

/-- The addresses at which a virtual range meets 64 KiB pages. -/
def virtPages (va n : Nat) : List Nat :=
  if n = 0 then [] else (List.range ((va + n - 1) / 2 ^ 16 - va / 2 ^ 16 + 1)).map (fun k => max va ((va / 2 ^ 16 + k) * 2 ^ 16))

/-- The addresses at which a virtual range meets address lines. -/
def virtLines (va n : Nat) : List Nat :=
  if n = 0 then [] else (List.range ((va + n - 1) / 512 - va / 512 + 1)).map (fun k => max va ((va / 512 + k) * 512))

/-- The physical addresses at which a virtual range meets address lines, where it is mapped. -/
def State.virtPas (s : State) (vd asid va n : Nat) : List Nat :=
  (virtLines va n).filterMap (fun a => (s.xlateWalk vd asid a false).toOption)

/-- Whether an access of the machine's own to a virtual range meets a line in a bucket that is moving, in its walks or in its lines: its
requests are held (R296). -/
def State.virtHeld (s : State) (vd asid va n : Nat) : Bool :=
  s.cache.move.isSome &&
  ((virtPages va n).any (fun p => s.walkHeld vd asid p) || s.addrHeld vd (s.virtPas vd asid va n))

/-- Read bytes at a virtual address through address lines, each byte with its own outcome (R42, R453). -/
def State.readVirt (s : State) (vd asid va n : Nat) : List (Except Nat Byte) :=
  (List.range n).map (fun i =>
    match s.xlateWalk vd asid (va + i) false with
    | .error e => .error e
    | .ok pa => s.loadByte vd (addrLoc vd pa))

/-- The bytes of a read, or its first error. -/
def allOk : List (Except Nat Byte) → Except Nat (List Byte)
  | [] => .ok []
  | .error e :: _ => .error e
  | .ok b :: rest =>
    match allOk rest with
    | .ok bs => .ok (b :: bs)
    | .error e => .error e

/-! ## Format regions (R290, R291) -/

/-- A format region register (R290). -/
structure Frr where
  en : Bool
  fmt : Nat
  ebase : Nat
  sbase : Nat
  elen : Nat
  rb : Nat
  bbase : Nat
deriving DecidableEq, Repr

/-- FRRn of the spindle beside a slice. -/
def State.frr (s : State) (slice n : Nat) : Frr :=
  let w (i : Nat) : Nat := (((s.coreOf ⟨.spindle, slice⟩).frr.find (4 * n + i)).getD 0).toNat
  { en := w 0 / 2 ^ 63 = 1, fmt := w 0 / 2 ^ 52 % 16, ebase := w 0 % 2 ^ 52, sbase := w 1 % 2 ^ 52,
    elen := w 2 % 2 ^ 48, rb := w 2 / 2 ^ 48, bbase := w 3 % 2 ^ 52 }

/-- Whether a register is enabled and valid (R291). -/
def Frr.valid (f : Frr) : Bool :=
  f.en && 5 ≤ f.fmt && f.fmt ≤ 7 && 32 ≤ f.rb && f.rb % 32 = 0 && f.elen % f.rb = 0 && f.ebase % 32 = 0

/-- Bytes of a block's elements (R291). -/
def blockBytes (fmt : Nat) : Nat := if fmt = 7 then 4 else 8

/-- The scale byte and the band scale of the element byte at a physical address, if it lies in the region. -/
def Frr.scaleOf (f : Frr) (p : Nat) : Option (Nat × Nat) :=
  if f.valid && f.ebase ≤ p && p < f.ebase + f.elen then
    let o := p - f.ebase
    let bb := blockBytes f.fmt
    some (f.sbase + o / f.rb * (f.rb / bb) + o % f.rb / bb, f.bbase + 2 * (o / f.rb / 64))
  else none

/-! ## Distances (R14, R17) -/

/-- The position of an agent: die, quadrant; and super-group, group, tile for a compute core. -/
def agentPlace (a : Agent) : Nat × Nat × Option (Nat × Nat × Nat) :=
  match a.kind with
  | .compute => (a.num / 1024, a.num / 256 % 4, some (a.num / 64 % 4, a.num / 16 % 4, a.num / 4 % 4))
  | .spindle => (a.num / 96, a.num / 24 % 4, none)
  | .gateway => (a.num / 4, a.num % 4, none)

/-- The die of an agent. -/
def agentDie (a : Agent) : Nat := (agentPlace a).1

/-- Die boundaries between two dies (R13). -/
def dieHops (a b : Nat) : Nat := (if a % 2 ≠ b % 2 then 1 else 0) + (if a / 2 % 2 ≠ b / 2 % 2 then 1 else 0)

/-- The level latency between two agents (R17). -/
def levelLatency (a b : Agent) : Nat :=
  let (d1, q1, p1) := agentPlace a
  let (d2, q2, p2) := agentPlace b
  if a = b then 0
  else if d1 ≠ d2 then 13 + 24 * dieHops d1 d2
  else if q1 ≠ q2 then 13
  else match p1, p2 with
    | some (s1, g1, t1), some (s2, g2, t2) =>
      if s1 ≠ s2 then 9 else if g1 ≠ g2 then 5 else if t1 ≠ t2 then 3 else 1
    | _, _ => 9

/-- What filling a line from its memory adds at a slice, by the line's address: DRAM behind the channel's spindle (R213), a CXL port on its
quadrant's router (R414), a peer module, whose link is crossed once each way on the model's count (R416; log 53). -/
def State.memoryTime (s : State) (slice : Agent) (pa : Nat) : Nat :=
  match paKind pa with
  | .device => 120 + 2 * levelLatency slice ⟨.spindle, channelOf pa⟩
  | .cxl w _ => 340 + 2 * levelLatency slice ⟨.gateway, 4 * (w / 2) + 2 * (w % 2)⟩
  | .peer p _ _ => 2 * 170 + 2 * ((s.svc.routes.find p).map (fun l => levelLatency slice ⟨.gateway, l⟩)).getD 0
  | _ => 0

/-! ## Ways (R13, R396) -/

/-- The router output port that leads to an agent (log 60): that of its tile router, or of its quadrant router. -/
def portTo (a : Agent) : Arbiter :=
  match a.kind with
  | .compute => .port (a.num / 4) (a.num % 4)
  | .spindle => .port (1024 + a.num / 24) (a.num % 24)
  | _ => .port (1024 + a.num) 24

/-- The die whose boundaries carry no traffic, in a warm reset from step 5 on (R437, R438). -/
def State.cutDie (s : State) : Option Nat :=
  match s.svc.warm with
  | some (d, 4) => some d
  | _ => none

/-- The die boundaries that traffic from one die to another crosses: first the one that changes bit 0 of the die number (R13), and last
where that way crosses the die that is cut off (R437). -/
def boundaries (cut : Option Nat) (a b : Nat) : List Arbiter :=
  let row (y : Nat) : List Arbiter := if a % 2 = b % 2 then [] else [.boundary y (b % 2 = 1)]
  let column (x : Nat) : List Arbiter := if a / 2 = b / 2 then [] else [.boundary (2 + x) (b / 2 = 1)]
  let corner := a / 2 * 2 + b % 2
  if cut = some corner && a ≠ corner && b ≠ corner then column (a % 2) ++ row (b / 2) else row (a / 2) ++ column (b % 2)

/-- The way of a number of beats from one agent to another. -/
def State.wayTo (s : State) (a b : Agent) (beats : Nat) : List (Arbiter × Nat) :=
  if beats = 0 then [] else (boundaries s.cutDie (agentDie a) (agentDie b) ++ [portTo b]).map (fun x => (x, beats))

/-- The tokens of a way, one entry for each arbiter. -/
def sumNeeds (xs : List (Arbiter × Nat)) : List (Arbiter × Nat) :=
  xs.foldl (fun m x => if m.any (fun y => y.1 = x.1) then m.map (fun y => if y.1 = x.1 then (y.1, y.2 + x.2) else y) else m ++ [x]) []

/-- The bursts of DRAM that some addresses take, one for each sector, by channel (R396). -/
def burstsOf (pas : List Nat) : List (Arbiter × Nat) :=
  (((pas.filter (fun pa => paKind pa = .device)).map (fun pa => pa / 32)).eraseDups).map (fun q => (.channel (channelOf (32 * q)), 1))

/-- The bursts that writing a line back takes. -/
def Line.backBursts (l : Line) : List (Arbiter × Nat) :=
  if l.replica then []
  else burstsOf ((l.sects.filter (fun t => t.2.dirty)).flatMap (fun t => (t.2.cells ++ t.2.side).map (fun c => c.1)) ++
    (if l.bandDirty then l.band.map (fun c => c.1) else []))

/-- The tokens of an access to an address line: one at its home slice; where the line is not resident, the bursts that fill it and those that
write back the line it replaces (R396, R407). -/
def State.lineNeeds (s : State) (vd : Nat) (k : LineKey) : List (Arbiter × Nat) :=
  (.slice (s.homeSlice k), 1) ::
  (if (s.cache.home k).isSome then []
   else burstsOf (k.addrFill.sects.flatMap (fun x => x.2.1)) ++
    (match s.allocWay vd (s.homeSlice k) k.set with
     | some (_, _, some l) => l.backBursts
     | _ => []))

/-- An access that the machine makes for a VD sets out to draw the tokens of its way (R403); a VD that is not enabled draws none (R394). -/
def State.charge (vd : Nat) (port : Option Agent) (needs : List (Arbiter × Nat)) (s : State) : State :=
  if needs = [] || !(s.vd vd).en then s
  else { s with transits := s.transits ++ [⟨s.nextTransit, vd, s.cycle, sumNeeds needs, port⟩], nextTransit := s.nextTransit + 1 }

end Sys2Proof.Machine
end

