-- ==== Sys2Proof/Machine/Ops.lean ====
section
/-! DEFINITION. The operations that every instruction shares: the checks of R100 in their order, interlocks (R87-R90),
completing and transferring control (R88, R138), taking a trap (R154) and returning from one (R155), and restarting a region
(R160); and the error records (R430). -/

namespace Sys2Proof.Machine

/-! ## Error records (R429, R430) -/

/-- The number of an agent's kind in an error record (R430). -/
def kindCode : AKind → Nat
  | .compute => 0
  | .spindle => 1
  | .gateway => 2

/-- The classes that are limited to one record in 2^20 cycles (R430). -/
def limitedClass (c : Nat) : Bool := c = 1 || c = 3 || c = 4 || c = 5 || c = 9 || c = 0xB

/-- Raise the MSI-X vector of a function (R409). -/
def Svc.raise (v : Svc) (f : Nat) : Svc := { v with msix := f :: v.msix }

/-- The records that the ring holds by its index: 2^(LOGN+6), as far as PROD's 16 bits reach (R429; DEDUCED, log 127). -/
def Svc.ringSize (v : Svc) : Nat := min (2 ^ (v.errbase.toNat % 16 + 6)) (2 ^ 16)

/-- Whether the ring is full (R429). -/
def Svc.ringFull (v : Svc) : Bool := (v.errProd + 1) % v.ringSize = v.errCons % v.ringSize

/-- The sectors among some addresses that hold a correctable error. -/
def PhysMem.softAt (m : PhysMem) (pas : List Nat) : List Nat :=
  m.soft.filter (fun q => paKind (32 * q) = .device && pas.any (fun pa => pa / 32 = q))

/-- The limiter of an agent and a class (R430). -/
def Svc.limiter (v : Svc) (kind agent cls : Nat) : Limiter :=
  (v.limits.find? (fun l => l.kind = kind && l.agent = agent && l.cls = cls)).getD ⟨kind, agent, cls, none, 0⟩

/-- Set a limiter. -/
def Svc.limit (v : Svc) (l : Limiter) : Svc :=
  { v with limits := l :: v.limits.filter (fun m => !(m.kind = l.kind && m.agent = l.agent && m.cls = l.cls)) }

/-- An event that no record tells yet is counted for the next one (R430). -/
def State.countEvent (kind agent cls : Nat) (s : State) : State :=
  let l := s.svc.limiter kind agent cls
  { s with svc := s.svc.limit { l with count := l.count + 1 } }

/-- Write one 32-byte record into the ring, or drop it (R429, R430). A correctable error in the ring's own line is counted. -/
def State.ringWrite (kind agent cls : Nat) (vd : Option Nat) (cyc where_ info count : Nat) (s : State) : State :=
  let v := s.svc
  if !v.errEn then s
  else
    let size := v.ringSize
    if v.ringFull then
      { s with svc := { v with errOvf := true, errDrops := min (v.errDrops + 1) 0xFFFF } }
    else
      let w0 := cls * 2 ^ 56 + kind * 2 ^ 48 + agent % 2 ^ 12 * 2 ^ 32 +
        (match vd with
         | some d => 2 ^ 31 + d % 64 * 2 ^ 25
         | none => 0) + min count (2 ^ 25 - 1)
      let pa := v.errbase.toNat / 2 ^ 12 % 2 ^ 40 * 2 ^ 12 + 32 * v.errProd
      let bs := toBytes 8 w0 ++ toBytes 8 cyc ++ toBytes 8 where_ ++ toBytes 8 info
      let v := { v with errProd := (v.errProd + 1) % size }.raise 0
      let v := match vd with
        | some d => v.raise (d + 1)
        | none => v
      let k := addrKey (vd.getD 0) pa
      let soft := if s.linePresent (vd.getD 0) k then []
        else s.mem.softAt (k.addrFill.sects.flatMap (fun x => x.2.1))
      let s := soft.foldl (fun s q => s.countEvent 6 (channelOf (32 * q)) 1) (({ s with svc := v }).bringLine (vd.getD 0) k)
      s.storeCells (vd.getD 0) (addrKey (vd.getD 0) pa) (pa / 32 % 16) .cell
        ((bs.zipIdx).map (fun (b, i) => (pa + i, b)))

/-- Report an event: a record now, or a count for the next record of a limited class, which no record has yet told (R430). -/
def State.report (kind agent cls : Nat) (vd : Option Nat) (where_ info : Nat) (s : State) : State :=
  if !limitedClass cls then s.ringWrite kind agent cls vd s.cycle where_ info 1
  else
    let l := s.svc.limiter kind agent cls
    let due := match l.last with
      | some c => decide (c + 2 ^ 20 ≤ s.cycle)
      | none => true
    if !due then s.countEvent kind agent cls
    else if !s.svc.errEn || s.svc.ringFull then (s.countEvent kind agent cls).ringWrite kind agent cls vd s.cycle where_ info 1
    else
      ({ s with svc := s.svc.limit ⟨kind, agent, cls, some s.cycle, 0⟩ }).ringWrite kind agent cls vd s.cycle where_ info (l.count + 1)

/-! ## Lines that the machine reads for itself (R301, R453) -/

/-- Fill a line; the correctable errors in the sectors it reads are corrected and reported, and stay in the DRAM (R301, R430). -/
def State.fill (vd : Nat) (key : LineKey) (slice : Nat) (replica : Bool) (f : FillSet) (s : State) : State :=
  let pas := f.sects.flatMap (fun x => x.2.1 ++ x.2.2) ++ f.band
  (s.mem.softAt pas).foldl (fun s q => s.report 6 (channelOf (32 * q)) 1 (some vd) (32 * q) 0) (s.fillLine vd key slice replica f)

/-- An access of the machine's own to an address line brings it into its slice, where it can be had (R453), unless its bucket is moving. -/
def State.fetchLine (vd : Nat) (k : LineKey) (s : State) : State :=
  let pa := k.row * 2 ^ 9 + k.col * 2 ^ 41
  let s := s.countLines [k]
  if s.linePresent vd k || noRead pa then s else s.fill vd k (s.homeSlice k) false k.addrFill

/-- The same for an access that has not drawn the tokens of its way: it draws them from now on (R403). -/
def State.keepLine (vd : Nat) (k : LineKey) (s : State) : State := (s.charge vd none (s.lineNeeds vd k)).fetchLine vd k

/-- The lines of physical addresses that the machine reads or writes for itself are brought in (R453). -/
def State.keepAddrs (vd : Nat) (pas : List Nat) (s : State) : State :=
  (addrKeys vd pas).foldl (fun s k => s.keepLine vd k) s

/-- What a walk has given is kept, for an invalidation to find the frame that it frees (R442; log 63). -/
def State.noteWalk (vd asid va : Nat) (s : State) : State :=
  match s.walk vd asid va with
  | some x => if x ∈ s.cache.mapped then s else { s with cache := { s.cache with mapped := s.cache.mapped ++ [x] } }
  | none => s

/-- The lines that a walk reads are brought in (R299, R453). -/
def State.keepWalk (vd asid va : Nat) (s : State) : State := (s.noteWalk vd asid va).keepAddrs vd (s.walkReads vd asid va)

/-- The same for a walk that has drawn its tokens. -/
def State.fetchWalk (vd asid va : Nat) (s : State) : State :=
  (addrKeys vd (s.walkReads vd asid va)).foldl (fun s k => s.fetchLine vd k) (s.noteWalk vd asid va)

/-- The lines of a virtual range that the machine reads or writes for itself are brought in, those of its walks among them (R453). -/
def State.keepVirt (vd asid va n : Nat) (s : State) : State :=
  let s := (virtPages va n).foldl (fun s p => s.keepWalk vd asid p) s
  s.keepAddrs vd (s.virtPas vd asid va n)

/-- Write bytes at a virtual address through address lines, sector by sector; the first error, 0 for none. -/
def State.writeVirt (vd asid va : Nat) (bs : List Byte) (s : State) : State × Nat :=
  let s := s.keepVirt vd asid va bs.length
  let cells := (bs.zipIdx).map (fun (b, i) => (s.xlateWalk vd asid (va + i) true, b))
  let good := cells.filterMap (fun (r, b) => match r with
    | .ok pa => if s.paError vd pa = 0 then some (pa, b) else none
    | .error _ => none)
  let err := cells.foldl (fun e (r, _) => if e ≠ 0 then e else match r with
    | .ok pa => s.paError vd pa
    | .error c => c) 0
  let sectors := (good.map (fun c => c.1 / 32)).eraseDups
  (sectors.foldl (fun s q =>
    s.storeCells vd (addrKey vd (32 * q)) (q % 16) .cell (good.filter (fun c => c.1 / 32 = q))) s, err)

/-! ## Reports of activities -/

/-- Report an event of the activity in focus. -/
def State.reportMe (cls where_ info : Nat) (s : State) : State :=
  s.report (kindCode s.me.agent.kind) s.me.agent.num cls (some s.me.job.vd) where_ info

/-- The memory without the correctable errors of some words. -/
def LMem.mend (m : LMem) (ws : List Nat) : LMem := { m with soft := m.soft.filter (fun w => w ∉ ws) }

/-- The words of a range of a memory that hold a correctable error. -/
def LMem.softIn (m : LMem) (a n : Nat) : List Nat := (wordsOf a n).filter (fun w => w ∈ m.soft)

/-- A load of the activity in focus corrects the correctable errors in the words it reads; each is reported with its address (R143, R430).
In the partner window the words are the partner's. -/
def State.correct (y n : Nat) (s : State) : State :=
  if y < 0x400000 then
    let ws := s.me.lm.softIn y n
    ws.foldl (fun s w => s.reportMe 1 (8 * w) 0) (s.modMe (fun a => { a with lm := a.lm.mend ws }))
  else match s.partner with
    | some p =>
      let x := (windowFrame p y).getD 0
      let ws := p.lm.softIn x n
      ws.foldl (fun s w => s.reportMe 1 (8 * w + y - x) 0) (s.modAct p.uid (fun a => { a with lm := a.lm.mend ws }))
    | none => s

/-- Update a barrier (R218) and report POISON on it (R430). -/
def State.barNote (uid y bytes arrivals code : Nat) (s : State) : State :=
  let s := s.barUpdate uid y bytes arrivals code
  if code = errPoison && y ≠ 0 then
    match s.act? uid with
    | some a => s.report (kindCode a.agent.kind) a.agent.num 2 (some a.job.vd) y code
    | none => s
  else s

/-! ## Holding and completing -/

/-- An interlock holds the instruction: it is tried again in the next cycle. -/
def State.holdIssue (s : State) : State :=
  s.modMe (fun a => { a with nextIssue := s.cycle + 1, firstTry := some (a.firstTry.getD s.cycle) })

/-- An instruction of R46 resets the run-budget counter when it issues (R48, R49). -/
def State.resetRun (i : Instr) (s : State) : State :=
  if i.blocking then s.modMe (fun a => { a with runc := 0, overrun := false }) else s

/-- The instruction has issued and control goes to the next one (R88). -/
def State.complete (i : Instr) (s : State) : State :=
  (s.resetRun i).modMe (fun a => { a with
    pc := a.pc + BitVec.ofNat 64 i.bytes
    lastPc := a.pc
    blockAt := s.cycle
    nextIssue := max (s.cycle + 1 + i.stl) a.nextIssue
    lastIssue := s.cycle
    firstTry := none
    listRead := none
    descWait := none })

/-- The instruction has issued and control goes to an address: one cycle more when it is not the next instruction (R138), but
not for `loop` on a spindle (R288). -/
def State.transfer (i : Instr) (t : Int) (s : State) : State :=
  let next := s.me.pc + BitVec.ofNat 64 i.bytes
  let free := s.me.agent.kind = .spindle && i.op = 0x24
  let extra := if BitVec.ofInt 64 t = next || free then 1 else 2
  (s.resetRun i).modMe (fun a => { a with
    pc := BitVec.ofInt 64 t
    lastPc := a.pc
    blockAt := s.cycle
    nextIssue := max (s.cycle + extra + i.stl) a.nextIssue
    lastIssue := s.cycle
    firstTry := none
    listRead := none
    descWait := none })

/-! ## Targets of transfers (R93) -/

/-- The check of a transfer's target: XINFO of the misaligned-target trap, if it takes it. -/
def State.badTarget (s : State) (t : Int) : Option Word :=
  if t % 4 ≠ 0 then some (BitVec.ofInt 64 t)
  else if t < 0 || t ≥ 4 * s.codeLen then none
  else if ((s.seg.map (fun g => g.starts)).getD []).contains (t / 4).toNat then none
  else some (BitVec.ofInt 64 t)

/-! ## Taking a trap (R154, R155, R281, R454) -/

/-- Mark the activity in focus to be killed and kill it next (R50). -/
def State.condemn (stat : Nat) (s : State) : State :=
  let s := s.modMe (fun a => { a with doom := stat })
  { s with agenda := .kill s.me.uid :: s.agenda }

/-- The job status of a trap taken inside a handler (R392). -/
def statTrapnest : Nat := 3

/-- XCAUSE (R152). -/
def xcauseOf (cause : Nat) (async inreg : Bool) : Word :=
  BitVec.ofNat 64 (cause + (if async then 2 ^ 8 else 0) + (if inreg then 2 ^ 9 else 0))

/-- The handler's address (R154, step 4). -/
def JobCtx.handler (j : JobCtx) (cause : Nat) : Nat := 4 * (if cause = 4 && j.ovle ≠ 0 then j.ovle else j.trape)

/-- Whether the activity in focus has vector loads or stores in the queue: they complete before a blocking point, a trap entry
and a region entry (R188). -/
def State.vecBusy (s : State) : Bool := s.core.vecq.any (fun c => c.owner = s.me.uid)

/-- The cycle of the issue slot of the trap that is being taken: of an earlier cycle when its entry has waited (R454). -/
def State.trapCycle (s : State) : Nat :=
  match s.me.trapping with
  | some t => t.since
  | none => s.cycle

/-- A trap uses its issue slot now, and its entry waits (R154, R454): the activity issues nothing more until then. -/
def State.awaitEntry (cause : Nat) (info : Word) (async : Bool) (s : State) : State :=
  s.modMe (fun a => { a with
    trapping := some ⟨cause, info, async, s.trapCycle⟩, lastIssue := s.trapCycle, firstTry := none, listRead := none, descWait := none })

/-- Take a trap. While the activity holds forecast tags, the entry waits for their verdicts, and for its vector accesses (R188). On a spindle or a
gateway core a trap ends the program (R281). A synchronous trap in a handler kills the activity (R155), after the same wait (DESIGN CHOICE,
log 110). Otherwise: pending writes take effect, XPC, XCAUSE and XINFO are written, INH is set, and control goes to the handler, whose address
is checked under R93. -/
def State.takeTrap (cause : Nat) (info : Word) (async : Bool) (s : State) : State :=
  if s.me.speculative || s.vecBusy then s.awaitEntry cause info async
  else match s.me.prog with
    | some p =>
      s.modMe (fun a => { a with
        life := .ending, prog := some { p with fault := some (cause, info) }, lastIssue := s.trapCycle, firstTry := none,
        listRead := none, descWait := none, trapping := none })
    | none =>
      if s.me.trap.inh && !async then
        (s.modMe (fun a => { a with lastIssue := s.trapCycle, trapping := none })).condemn statTrapnest
      else
        let s := s.flushPending
        let t : Nat := s.me.job.handler cause
        let s := s.modMe (fun a => { a with
          trap := { a.trap with
            xpc := a.pc, xcause := xcauseOf cause async a.region.open_, xinfo := info, inh := true }
          region := { a.region with closing := none }
          pc := BitVec.ofNat 64 t
          party := a.party.map (fun p => { p with inSync := none })
          nextIssue := max (s.trapCycle + 2) a.nextIssue
          lastIssue := s.trapCycle
          firstTry := none
          listRead := none
          descWait := none
          trapping := none })
        if (s.badTarget t).isSome then s.condemn statTrapnest else s

/-- XINFO of the illegal-instruction trap (R98): words 0 and 1. -/
def illegalInfo (i : Instr) : Word :=
  let ws := encode i
  let w1 : Nat := match i.enc with
    | .r _ r => if r.ext then ((ws[1]?).getD 0).toNat else 0
    | _ => 0
  BitVec.ofNat 64 (((ws[0]?).getD 0).toNat + w1 * 2 ^ 32)

/-! ## Returning from a trap (R155) -/

/-- The effect of `xret`: illegal outside a handler, whatever XPC holds; else INH is cleared and control goes to XPC. -/
def State.returnTrap (i : Instr) (s : State) : Eff :=
  if !s.me.trap.inh then .trap 1 (illegalInfo i)
  else match s.badTarget s.me.trap.xpc.toNat with
    | some info => .trap 2 info
    | none => .jump (s.modMe (fun a => { a with trap := { a.trap with inh := false } })) s.me.trap.xpc.toNat

/-! ## Settling commands and restarting a region (R160, R163, R244) -/

/-- The load commands, which a settling cancels (R244). -/
def CmdKind.isLoad : CmdKind → Bool
  | .cpy => true
  | .cpyl => true
  | .gath => true
  | _ => false

/-- Take a command out of the copy queue of the core in focus, with its scoreboard entries. A `codeld` holds its job's activities no
longer (R207). -/
def State.dropCmd (c : Cmd) (s : State) : State :=
  (s.modCore (fun k => { k with
    copyq := k.copyq.filter (fun d => d.id ≠ c.id)
    segs := if c.kind = .codeld then k.segs.map (fun g => if g.jid = c.jid && g.vd = c.vd then { g with held := false } else g)
      else k.segs })).modAct c.owner (fun a => a.release c.id)

/-- Cancel a load command (R244): what has come of it stays, and its barrier takes back the bytes it counted, unless the phase has completed
meanwhile. -/
def State.cancelLoad (c : Cmd) (s : State) : State :=
  let s := (s.dropCmd c).modAct c.owner (fun a => if c.staged = [] then a else { a with lm := a.lm.land c.staged })
  if c.bar = 0 || c.counted = 0 then s
  else s.modAct c.owner (fun a =>
    let b := a.bar c.bar
    if b.phase ≠ c.phase then a else a.setBar c.bar { b with pb := min (b.pb + c.counted) (2 ^ 32 - 1) })

/-- Cancel the load commands and drop the prefetches that the activity in focus issued from a number on. -/
def State.cancelLoads (mark : Nat) (s : State) : State :=
  (s.core.copyq.filter (fun c => c.owner = s.me.uid && mark ≤ c.id && (c.kind.isLoad || c.kind = .pfx))).foldl
    (fun s c => s.cancelLoad c) s

/-- Drop the matrix commands of the activity in focus, from a number on, that have not started (R273). -/
def State.dropMats (mark : Nat) (s : State) : State :=
  let mine (c : MatCmd) : Bool := c.owner = s.me.uid && mark ≤ c.id && c.started.isNone
  let ids := (s.core.matq.filter mine).map (fun c => c.id)
  (s.modCore (fun k => { k with matq := k.matq.filter (fun c => !mine c) })).modMe
    (fun a => { a with claims := a.claims.filter (fun x => x.cmd ∉ ids) })

/-- The numbers whose bit is set. -/
def bitsOf (n w : Nat) : List Nat := (List.range w).filter (fun i => n.testBit i)

/-- A little-endian number of the spill reserve, where a party that is away keeps its snapshot at home (R321). -/
def Activity.resNum (a : Activity) (off n : Nat) : Nat :=
  ofBytes ((match a.party with
    | some p => if p.away then p.homeReserve else a.reserve
    | none => a.reserve).read off n)

/-- What has been sent for an activity and is to bring it a register's value brings it none: the register is g0 (R160, step 2). -/
def MsgKind.stale (m : MsgKind) (u : Nat) : MsgKind :=
  match m with
  | .cancel uid dst vd keysp key isColl sender => .cancel uid (if uid = u then 0 else dst) vd keysp key isColl sender
  | .jobpost uid dst va vd sender => .jobpost uid (if uid = u then 0 else dst) va vd sender
  | m => m

/-- Results that the activity in focus still awaits write no register of it: of its vector loads and `accrd` commands, of messages, of its
collective, and of cards that were released (R160, step 2; R365, step 1). -/
def State.staleResults (s : State) : State :=
  let u := s.me.uid
  let s : State := { s with msgs := s.msgs.map (fun m => { m with kind := m.kind.stale u }) }
  (s.modCore (fun k => { k with
    vecq := k.vecq.map (fun c => if c.owner = u && c.load then { c with stale := true } else c)
    matq := k.matq.map (fun c => if c.owner = u then { c with stale := true } else c) })).modMe (fun a => { a with
      claimed := []
      coll := a.coll.map (fun c => { c with reg := 0 })
      helds := a.helds.map (fun h => { h with post := h.post.map (fun p => (0, p.2)) }) })

/-- Restore the live-in registers from the snapshot; every other register becomes unbound (R158, R160). -/
def State.restoreSnapshot (s : State) : State :=
  let a := s.me
  let gm := a.resNum 0x1800 8
  let vm := a.resNum 0x1808 4
  let km := a.resNum 0x180C 1
  let gb := a.resNum 0x1810 8
  let vb := a.resNum 0x1818 4
  let kb := a.resNum 0x181C 1
  let gs := (bitsOf gm 64).filter (· ≠ 0)
  let ks := (bitsOf km 8).filter (· ≠ 0)
  let vs := bitsOf vm 32
  let gOff := 0x1840
  let kOff := gOff + 8 * gs.length
  let vOff := kOff + 16 * ks.length
  let regs : List (Reg × Nat × Bool) :=
    (gs.zipIdx.map (fun (n, i) => (⟨.g, n⟩, gOff + 8 * i, gb.testBit n))) ++
    (ks.zipIdx.map (fun (n, i) => (⟨.k, n⟩, kOff + 16 * i, kb.testBit n))) ++
    (vs.zipIdx.map (fun (n, i) => (⟨.v, n⟩, vOff + 128 * i, vb.testBit n)))
  let s := s.modMe (fun a => { a with regs := ⟨[], [], [], [], []⟩ })
  regs.foldl (fun s (x, off, bound) =>
    if bound then s.writeReg x (BitVec.ofNat 1024 (a.resNum off x.size)) [] else s) s

/-- The activity in focus goes back to its region's entry (R160 steps 1 to 5, and the PC): pending writes are settled, load
commands of the region are cancelled, registers and SEED come from the snapshot, and it issues again once every other command
of the region is settled. It waits in no `msync` (R324), in no `rend` (R372) and at no trap entry (R154, step 2). -/
def State.rewind (s : State) : State :=
  let s := (s.commitWhere (fun _ => true)).staleResults
  let s := (s.cancelLoads s.me.region.cmdMark).dropMats s.me.region.cmdMark
  let s := s.restoreSnapshot
  s.modMe (fun a => { a with
    seed := BitVec.ofNat 64 (a.resNum 0x1820 8)
    pc := a.region.pc
    life := .live
    settling := some a.region.cmdMark
    nextIssue := s.cycle + 1
    party := a.party.map (fun p => { p with inSync := none })
    region := { a.region with closing := none }
    trapping := none
    firstTry := none
    listRead := none
    descWait := none })

/-! ## Squashes (R365) -/

/-- The snapshot size of the open region (R156). -/
def Activity.snapshotSize (a : Activity) : Nat :=
  let count (off n : Nat) : Nat := ((List.range (8 * n)).filter (fun i => (a.resNum off n).testBit i)).length
  64 + 8 * count 0x1800 8 + 128 * count 0x1808 4 + 16 * count 0x180C 4

/-- An activity without tags, taints and the effects it holds for them, and without the claims of its verdicts. -/
def Activity.unspeculate (a : Activity) : Activity :=
  { a with tags := [], taints := [], helds := a.helds.filter (fun h => h.released)
           claims := a.claims.filter (fun c => !a.tags.any (fun t => t.cmd = c.cmd)) }

/-- Whether the comparator serves another tag of the agent before one (R363): in the order in which phases complete, the older tag
first. -/
def State.servedBefore (s : State) (a : Agent) (p id : Nat) : Bool :=
  (s.residents a).any (fun b => b.tags.any (fun t => match t.completed with
    | some (q, _) => q < p || (q = p && t.cmd < id)
    | none => false))

/-- The cycle at which the comparator starts a tag's test, once its phase is complete and its prediction written (R363). -/
def Tag.testStart (t : Tag) (free : Nat) : Option Nat :=
  match t.completed, t.written with
  | some (p, _), some w => some (max (p + 1) (max (w + 1) free))
  | _, _ => none

/-- Whether the comparator of the core in focus is testing a tag of the activity in focus in a cycle. -/
def State.tests (s : State) (v : Nat) (t : Tag) : Bool :=
  (t.testStart s.core.cmpFree).any (fun b => decide (b ≤ v)) &&
  (match t.completed with
   | some (p, _) => !s.servedBefore s.me.agent p t.cmd
   | none => false)

/-- The tags of the activity in focus are dropped at cycle v: a test of one of them ends there (R363, R365). -/
def State.endTest (v : Nat) (s : State) : State :=
  if s.me.tags.any (s.tests v) then s.modCore (fun k => { k with cmpFree := max k.cmpFree (v + 1) }) else s

/-- Squash the activity in focus at verdict cycle v (R365, steps 1 to 4 and 6), and report it (R369). -/
def State.squashMe (v : Nat) (s : State) : State :=
  let s := ((s.endTest v).reportMe 5 0 1).rewind
  (s.modCore (fun c => { c with
    monitors := c.monitors.filter (· ≠ s.me.uid), monitorQueue := c.monitorQueue.filter (· ≠ s.me.uid) })).modMe
    (fun a => { a.unspeculate with block := .none, nextIssue := v + 1 + (a.snapshotSize + 255) / 256 })

/-- Squash every activity on an agent that is tainted with one of some tags, and those tainted by it in turn (R365, step 5). -/
def State.squashTainted (agent : Agent) (v : Nat) : Nat → List Nat → State → State
  | 0, _, s => s
  | fuel + 1, nums, s =>
    match (s.residents agent).find? (fun a => a.taints.any (fun t => t ∈ nums)) with
    | none => s
    | some a =>
      let own := a.tags.map (fun t => t.num)
      State.squashTainted agent v fuel (nums ++ own) ((s.focus a.uid).squashMe v)

/-- Drop the tags of the activity in focus at cycle v: everything tainted with them is squashed (R365). -/
def State.dropTags (v : Nat) (s : State) : State :=
  let u := s.me.uid
  let nums := s.me.tags.map (fun t => t.num)
  let ag := s.me.agent
  (State.squashTainted ag v 32 nums ((s.endTest v).modMe Activity.unspeculate)).focus u

/-- Drop the tags of the activity in focus in this cycle, without a verdict (R365). -/
def State.dropSpec (s : State) : State := s.dropTags s.cycle

/-- An error restart (R160). -/
def State.restartRegion (s : State) : State :=
  let s := (s.reportMe 4 0 0).dropSpec
  s.rewind.modMe (fun a => { a with
    region := { a.region with try_ := a.region.try_ + 1, rcnt := min (a.region.rcnt + 1) 0xFFFF }
    lastIssue := s.cycle })

/-- An instruction meets poison or an uncorrectable error (R143, R160): a restart inside an open region that is neither
pinned nor restarted three times; else trap 0x0A. XINFO[53] is set only for a region that is not pinned (DESIGN CHOICE, log 109). -/
def State.takePoison (src addr : Nat) (s : State) : State :=
  let g := s.me.region
  if g.open_ && !g.pin && g.try_ < 3 then s.restartRegion
  else
    let info := addr % 2 ^ 48 + src * 2 ^ 48 + (if g.open_ && g.pin then 2 ^ 52 else 0) +
      (if g.open_ && !g.pin then 2 ^ 53 else 0)
    (s.reportMe 2 addr info).takeTrap 0x0A (BitVec.ofNat 64 info) false

/-! ## System registers (R148) -/

/-- Whether a system register number is assigned on a kind of agent: TS0 to TS7 belong to the matrix engine (R30, R250). -/
def sysAssigned (n : Nat) (k : AKind) : Bool :=
  n ≤ 8 || (0x10 ≤ n && n ≤ 0x13) || n = 0x18 || n = 0x19 || (0x20 ≤ n && n ≤ 0x27 && k = .compute) ||
  (0x40 ≤ n && n ≤ 0x42)

/-- Whether a system register has an RW field. -/
def sysWritable (n : Nat) : Bool := n = 2 || n = 5 || n = 0x10 || n = 0x13 || (0x20 ≤ n && n ≤ 0x27)

/-- The system register that `mfs` or `mts` names. -/
def sysRegOf : Instr → Option (Nat × Bool)
  | .mfs r => some (r.x.toNat, false)
  | .mts r => some (r.x.toNat, true)
  | _ => none

/-! ## The checks of R100, steps 2 to 6 -/

/-- What the checks before an instruction's own effect come to. -/
inductive Pre where
  | trap (cause : Nat) (info : Word)
  /-- An interlock holds the instruction at issue (R87, R90). -/
  | hold
  /-- A spilled source's home is bad: the word's reserve offset (R160). -/
  | poison (addr : Nat)
  /-- The guard does not hold (R84). -/
  | squelch
  | go
deriving DecidableEq, Repr

/-- The class code of a register in XINFO of the stall-count trap (R100). -/
def clsCode : Cls → Nat
  | .g => 0
  | .v => 1
  | .k => 2
  | .t => 3
  | .a => 3

/-- XINFO of the stall-count trap on a register (R100). -/
def State.stallInfo (s : State) (x : Reg) (due : Nat) : Word :=
  BitVec.ofNat 64 (x.num % 64 + clsCode x.cls * 64 + (due - s.cycle) % 256 * 256)

/-- The first register of a list with a fixed-latency write pending, and the cycle it takes effect. -/
def Activity.firstShort (a : Activity) (xs : List Reg) : Option (Reg × Nat) :=
  xs.findSome? (fun x => (a.pendOf x).map (fun p => (x, p.due)))

/-- The element count of a vector instruction's destination (R168, R181). -/
def maskCount (i : Instr) : Nat :=
  match i, i.enc with
  | .vcvt r, _ => fmtCount r.xfmt
  | _, .r _ r => fmtCount r.fmt
  | _, _ => 0

/-- Whether an instruction's merging destination is read: some element keeps its old value (R168, R181). -/
def Activity.mergeSrc (a : Activity) (i : Instr) : List Reg :=
  match i.merges, i.enc with
  | some d, .r _ r =>
    let part := match i with
      | .vcvt q => decide (fmtWidth q.xfmt < fmtWidth q.fmt)
      | _ => false
    if part || (a.k r.km).toNat % 2 ^ (maskCount i) ≠ 2 ^ (maskCount i) - 1 then [⟨.v, d⟩] else []
  | _, _ => []

/-- Every register an instruction reads after its guard (R100, step 6): its operands in order, then a destination it merges into, which R100
does not place (DESIGN CHOICE, log 129). -/
def Activity.reads (a : Activity) (i : Instr) : List Reg := i.srcs ++ a.mergeSrc i

/-- The checks of R100 steps 2 to 6, with the interlocks, in order: an awaited result first, then the stall counts of the sources, a
destination that is read as well among them (R131, R168), then the order of writes (R90). -/
def precheck (i : Instr) (s : State) : Pre :=
  let a := s.me
  if !i.legal || !i.onAgent a.agent.kind ||
      (match (sysRegOf i) with
       | some (n, _) => !sysAssigned n a.agent.kind
       | none => false) then .trap 1 (illegalInfo i)
  else if (match (sysRegOf i) with
       | some (n, w) => w && !sysWritable n
       | none => false) then .trap 0x0D (BitVec.ofNat 64 (((sysRegOf i).map (fun p => p.1)).getD 0))
  else
    let guard : Pre :=
      match i.guard with
      | none => .go
      | some (x, neg) =>
        if a.interlocked x then .hold
        else match a.pendOf x with
          | some p => if a.schk then .trap 3 (s.stallInfo x p.due)
            else if (a.g x.num ≠ 0) != neg then .go else .squelch
          | none =>
            match a.badHome [x] with
            | some w => .poison w
            | none => if (a.g x.num ≠ 0) != neg then .go else .squelch
    match guard with
    | .go =>
      let rs := a.reads i
      if rs.any a.interlocked || i.dsts.any a.interlocked then .hold
      else if a.schk && (a.firstShort rs).isSome then
        (match a.firstShort rs with
         | some (x, due) => .trap 3 (s.stallInfo x due)
         | none => .go)
      else if i.dsts.any (fun x => (a.pendOf x).isSome) then .hold
      else match a.badHome rs with
        | some w => .poison w
        | none => .go
    | p => p

/-- Registers of the activity in focus are read: the spilled ones are refilled, and all of them were used last (R44). -/
def State.readRegs (rs : List Reg) (s : State) : State :=
  (s.refillAll rs).modMe (fun a => { a with regs := a.regs.touch rs })

/-- The state an instruction's effect starts from: its spilled sources and its guard are refilled, and its registers were used last (R44). -/
def State.prepare (i : Instr) (s : State) : State := s.readRegs (i.guardReg ++ s.me.reads i)

/-- Issue an encoded instruction whose own effect is `eff` (R100). -/
def issue (i : Instr) (s : State) (eff : State → Eff) : Host.Outcome State Fault Refusal :=
  .next (match precheck i s with
    | .trap c info => s.takeTrap c info false
    | .hold => s.holdIssue
    | .poison w => s.takePoison 2 w
    | .squelch => (s.readRegs i.guardReg).complete i
    | .go =>
      if i.blocking && s.vecBusy then s.holdIssue
      else match eff (s.prepare i) with
      | .done t => t.complete i
      | .jump t p => t.transfer i p
      | .trap c info => s.takeTrap c info false
      | .hold t => t.holdIssue
      | .poison src addr => s.takePoison src addr)

/-! ## Operands (R86) and results -/

/-- SrcB() (R86). -/
def Activity.srcB (a : Activity) (r : R) : Word :=
  match r.lit with
  | some l => l
  | none => a.g r.b.toNat

/-- Queue the fixed-latency result of an instruction in a general register (R87). -/
def State.resultG (i : Instr) (d : BitVec 6) (v : Word) (s : State) : State :=
  s.pendWrite .fixed (s.cycle + i.lat) i.srcs ⟨.g, d.toNat⟩ (v.setWidth 1024)

/-- Queue the fixed-latency result of an instruction in a vector register. -/
def State.resultV (i : Instr) (d : BitVec 6) (v : Vec) (s : State) : State :=
  s.pendWrite .fixed (s.cycle + i.lat) i.srcs ⟨.v, d.toNat⟩ v

/-- Queue the fixed-latency result of an instruction in a mask register. -/
def State.resultK (i : Instr) (d : BitVec 6) (v : Mask) (s : State) : State :=
  s.pendWrite .fixed (s.cycle + i.lat) i.srcs ⟨.k, d.toNat⟩ (v.setWidth 1024)

/-- Queue an interlocked result in a general register that is ready at a cycle. -/
def State.resultAt (kind : PendKind) (due : Nat) (keep : List Reg) (d : Nat) (v : Word) (s : State) : State :=
  s.pendWrite kind due keep ⟨.g, d⟩ (v.setWidth 1024)

/-- A register that an outstanding command will write (R87). -/
def State.claimReg (x : Reg) (s : State) : State :=
  if !x.binds then s else s.modMe (fun a => { a with claimed := a.claimed ++ [x] })

/-- Write a claimed general register of the activity in focus, which is then free to read. Nothing if the claim was dropped. -/
def State.deliver (d : Nat) (v : Word) (s : State) : State :=
  if (⟨.g, d⟩ : Reg) ∈ s.me.claimed then
    (s.modMe (fun a => { a with claimed := a.claimed.erase ⟨.g, d⟩ })).writeReg ⟨.g, d⟩ (v.setWidth 1024) []
  else s

/-- Open registers pinned by the instructions of R159, other than under speculation. -/
def State.pinRegion (s : State) : State :=
  if s.me.region.open_ && !s.me.speculative then s.modMe (fun a => { a with region := { a.region with pin := true } }) else s

end Sys2Proof.Machine
end

