-- ==== Sys2Proof/Machine/Operands.lean ====
section
/-! DEFINITION. Operand forms: targets (R86), local addresses (R141), elements of vector registers (R167, R168). -/

namespace Sys2Proof.Machine

/-- Target(off) (R86): from the instruction's first word. -/
def Activity.target (a : Activity) {n : Nat} (off : BitVec n) : Int := (a.pc.toNat : Int) + 4 * off.toInt

/-- The base address of a local access (R141, R185): exact, with no wrap. -/
def Activity.ea (a : Activity) (r : R) : Int := ((a.g r.a.toNat).toNat : Int) + r.x.toInt

/-- Elem(x, i) of width w (R168), as a number. -/
def elem (w : Nat) (x : Vec) (i : Nat) : Nat := x.toNat / 2 ^ (w * i) % 2 ^ w

/-- The vector of element values, element 0 first (R167). -/
def packElems (w : Nat) (l : List Nat) : Vec := BitVec.ofNat 1024 (l.foldr (fun e acc => e % 2 ^ w + 2 ^ w * acc) 0)

/-- The signed value of a w-bit pattern. -/
def sextNat (w n : Nat) : Int := if n / 2 ^ (w - 1) % 2 = 1 then (n % 2 ^ w : Nat) - (2 ^ w : Int) else (n % 2 ^ w : Nat)

/-- The w-bit pattern of an integer (Trunc). -/
def truncInt (w : Nat) (v : Int) : Nat := (v % (2 ^ w : Int)).toNat

/-- An element-wise write (R168): active elements take op, the others 0 or the old element. -/
def maskedElems (w n : Nat) (k : Mask) (zm : Bool) (old : Vec) (op : Nat → Nat) : Vec :=
  packElems w ((List.range n).map (fun i => if k.getLsbD i then op i else if zm then 0 else elem w old i))

/-- The bytes of a span of a vector register. -/
def vecBytes (x : Vec) (off n : Nat) : List Byte := (List.range n).map (fun i => x.extractLsb' (8 * (off + i)) 8)

/-- A vector register with the bytes of a span replaced. -/
def setVecBytes (x : Vec) (off : Nat) (bs : List Byte) : Vec :=
  packElems 8 ((List.range 128).map (fun i =>
    if off ≤ i && i < off + bs.length then (bs.getD (i - off) 0).toNat else elem 8 x i))

end Sys2Proof.Machine
end

