-- ==== Sys2Proof/Machine/Barrier.lean ====
section
/-! DEFINITION. Stage barriers, `sleep` and `sleepu` (R216-R222, R224). `fence` is a command of the copy queue and stands with
the copy engine. -/

namespace Sys2Proof.Machine

/-- Monitor entries of an agent (R19, R277, R420). -/
def monitorSize : AKind → Nat
  | .compute => 32
  | .spindle => 16
  | .gateway => 16

/-- The checks of a barrier instruction's address (R216, R199): its 16 bytes as a write, then its alignment. -/
def State.barCheck (s : State) (f : Nat) (y : Nat) : Option Eff :=
  match s.checkLocal true y 16 with
  | some (z, c) => some (.trap c (localInfo z (2 * f + 1)))
  | none => if y % 16 ≠ 0 then some (.fault 5) else none

/-- Whether an earlier command of the activity in focus that names a barrier has not made its last update: a command of an engine, one that
is held, a forecast, a collective, a program from its request to its update (R219, R357). -/
def State.barNamed (s : State) (y : Nat) : Bool :=
  s.core.copyq.any (fun c => c.owner = s.me.uid && c.bar = y) || s.me.helds.any (fun h => h.cmd.any (fun c => c.bar = y)) ||
  s.me.coll.any (fun c => c.bar = y) || s.allCores.any (fun k => k.progq.any (fun q => q.owner = s.me.uid && q.bar = y)) ||
  s.msgs.any (fun m => match m.kind with
    | .update uid bar _ _ _ => uid = s.me.uid && bar = y
    | _ => false) ||
  s.core.matq.any (fun c => c.owner = s.me.uid && c.r.bar = y) || s.me.tags.any (fun t => t.bar = y) ||
  s.allActs.any (fun b => match b.prog with
    | some p => p.requester = some s.me.uid && p.bar = y
    | none => false)

/-- An interlocked result of the barrier unit: it is ready in the next cycle (R216; log 16). -/
def State.barResult (i : Instr) (d : BitVec 6) (v : Nat) (s : State) : State :=
  s.resultAt .engine (s.cycle + 1) i.srcs d.toNat (BitVec.ofNat 64 v)

/-- `bar.init` (R219). -/
def execBarInit (r : R) (s : State) : Host.Outcome State Fault Refusal :=
  issue (.barInit r) s (fun s =>
    let y := (s.me.g r.a.toNat).toNat
    match s.barCheck 0 y with
    | some e => e
    | none =>
      let b := (s.me.srcB r).toNat % 2 ^ 32
      let a := (s.me.g r.c.toNat).toNat % 2 ^ 16
      if b = 0 && a = 0 then .fault 6
      else if s.barNamed y then .hold s
      else .done ((s.modMe (fun m => m.setBar y ⟨b, a, 0, false, false, 0, b, a⟩)).barResult (.barInit r) r.d 0))

/-- `bar.exp` (R219). -/
def execBarExp (r : R) (s : State) : Host.Outcome State Fault Refusal :=
  issue (.barExp r) s (fun s =>
    let y := (s.me.g r.a.toNat).toNat
    match s.barCheck 1 y with
    | some e => e
    | none =>
      let b := s.me.bar y
      let b' := { b with
        pb := min (b.pb + (s.me.srcB r).toNat % 2 ^ 32) (2 ^ 32 - 1)
        pa := min (b.pa + (s.me.g r.c.toNat).toNat % 2 ^ 16) (2 ^ 16 - 1) }
      .done ((s.modMe (fun m => m.setBar y b')).barResult (.barExp r) r.d b.phase))

/-- `bar.arr` (R219). -/
def execBarArr (r : R) (s : State) : Host.Outcome State Fault Refusal :=
  issue (.barArr r) s (fun s =>
    let y := (s.me.g r.a.toNat).toNat
    match s.barCheck 2 y with
    | some e => e
    | none =>
      let n := (s.me.srcB r).toNat % 2 ^ 16
      if n = 0 then .fault 6 else .done (s.barUpdate s.me.uid y 0 n 0))

/-- `bar.inval` (R219). -/
def execBarInval (r : R) (s : State) : Host.Outcome State Fault Refusal :=
  issue (.barInval r) s (fun s =>
    let y := (s.me.g r.a.toNat).toNat
    match s.barCheck 3 y with
    | some e => e
    | none => if s.barNamed y then .hold s else .done (s.writeLocal y (toBytes 16 0)))

/-- The distance of a barrier's phase from a token (R220). -/
def Bar.ahead (b : Bar) (token : Nat) : Nat := (b.phase + 256 - token % 256) % 256

/-- The activity in focus waits at a barrier: at a monitor entry when one is free, else in the queue for one (R221). -/
def State.armMonitor (y token dst : Nat) (s : State) : State :=
  let s := (s.flushPending).claimReg ⟨.g, dst⟩
  if s.core.monitors.length < monitorSize s.core.agent.kind then
    (s.modCore (fun c => { c with monitors := c.monitors ++ [s.me.uid] })).modMe
      (fun a => { a with block := .barWait y token dst })
  else
    (s.modCore (fun c => { c with monitorQueue := c.monitorQueue ++ [s.me.uid] })).modMe
      (fun a => { a with block := .monitor y token dst })

/-- `bar.wait` (R220, R221). -/
def execBarWait (r : R) (s : State) : Host.Outcome State Fault Refusal :=
  issue (.barWait r) s (fun s =>
    let y := (s.me.g r.a.toNat).toNat
    match s.barCheck 0 y with
    | some e => e
    | none =>
      let t := (s.me.srcB r).toNat % 256
      let b := s.me.bar y
      if b.ahead t = 1 then .done (s.barResult (.barWait r) r.d (b.status 0))
      else if b.ahead t = 0 then .done (s.armMonitor y t r.d.toNat)
      else .done (s.barResult (.barWait r) r.d (b.status 1)))

/-- `bar.test` (R220). -/
def execBarTest (r : R) (s : State) : Host.Outcome State Fault Refusal :=
  issue (.barTest r) s (fun s =>
    let y := (s.me.g r.a.toNat).toNat
    match s.barCheck 1 y with
    | some e => e
    | none =>
      let t := (s.me.srcB r).toNat % 256
      let b := s.me.bar y
      let st := if b.ahead t = 1 then 0 else if b.ahead t = 0 then 2 else 1
      .done (s.barResult (.barTest r) r.d (b.status st)))

/-- The effect of a sleep until a cycle (R224): nothing to wait for when it has come. -/
def effSleep (wake : Nat) (s : State) : Eff :=
  if wake ≤ s.cycle then .done s else .done (s.flushPending.modMe (fun a => { a with block := .sleep wake }))

/-- `sleep` (R224). -/
def execSleep (r : R) (s : State) : Host.Outcome State Fault Refusal :=
  issue (.sleep r) s (fun s => effSleep (s.cycle + (s.me.srcB r).toNat) s)

/-- `sleepu` (R224). -/
def execSleepu (r : R) (s : State) : Host.Outcome State Fault Refusal :=
  issue (.sleepu r) s (fun s => effSleep (s.me.srcB r).toNat s)

/-! ## Steps of the monitors (R220, R221, R224) -/

/-- Give up the monitor entry or the queue place of an activity. -/
def Core.leaveMonitor (c : Core) (uid : Nat) : Core :=
  { c with monitors := c.monitors.filter (· ≠ uid), monitorQueue := c.monitorQueue.filter (· ≠ uid) }

/-- MONITOR_GRANT: the oldest activity queued for a monitor entry takes a free one; its `bar.wait` looks at the barrier
again. -/
def execMonitorGrant (agent : Agent) (s : State) : Host.Outcome State Fault Refusal :=
  .next (
    let c := s.coreOf agent
    match c.monitorQueue with
    | [] => s
    | u :: rest =>
      if c.monitors.length < monitorSize agent.kind then
        match s.act? u with
        | none => s.modCoreOf agent (fun c => { c with monitorQueue := rest })
        | some a =>
          match a.block with
          | .monitor y t d =>
            let s := s.modCoreOf agent (fun c => { c with monitorQueue := rest, monitors := c.monitors ++ [u] })
            let b := a.bar y
            let k : Block :=
              if b.ahead t = 0 then .barWait y t d else .barDone d (b.status (if b.ahead t = 1 then 0 else 1)) (s.cycle + 1)
            s.modAct u (fun a => { a with block := k })
          | _ => s.modCoreOf agent (fun c => { c with monitorQueue := rest })
      else s)

/-- BAR_WAIT_WAKE: the activity is ready in the cycle after the update of its barrier, and its status is written (R213, R220, R348). -/
def execBarWaitWake (uid : Nat) (s : State) : Host.Outcome State Fault Refusal :=
  .next (
    match (s.act? uid).map Activity.block with
    | some (.barDone dst st since) =>
      let s := s.focus uid
      let s := s.modMe (fun a => { a with block := .none, nextIssue := max a.nextIssue (since + 1) })
      (s.modCore (fun c => c.leaveMonitor uid)).deliver dst (BitVec.ofNat 64 st)
    | _ => s)

/-- SLEEP_WAKE: the wake cycle has come; the first issue comes in the cycle after it (R224, R347). -/
def execSleepWake (uid : Nat) (s : State) : Host.Outcome State Fault Refusal :=
  .next (
    match (s.act? uid).map Activity.block with
    | some (.sleep w) =>
      if w ≤ s.cycle then s.modAct uid (fun a => { a with block := .none, nextIssue := max a.nextIssue (w + 1) }) else s
    | _ => s)

end Sys2Proof.Machine
end

