-- ==== Sys2Proof/Machine/Control.lean ====
section
/-! DEFINITION. Transfers of control, `end` and `nop` (R134-R139). -/

namespace Sys2Proof.Machine

/-- Transfer control to t, after the check of R93 step 1; `f` is the link write or the decrement, which a transfer that traps
does not perform (R137). -/
def effTransfer (t : Int) (f : State → State) (s : State) : Eff :=
  match s.badTarget t with
  | some info => .trap 2 info
  | none => .jump (f s) t

/-- Transfer when a condition holds, else fall through; only the target of a transfer that is taken is checked (DESIGN CHOICE, log 114). -/
def effBranch (c : Bool) (t : Int) (s : State) : Eff := if c then effTransfer t id s else .done s

/-- The PC after an instruction ("next", R135). -/
def Activity.next (a : Activity) (i : Instr) : Word := a.pc + BitVec.ofNat 64 i.bytes

/-- `br` (R135). -/
def execBr (stl : BitVec 3) (off : BitVec 20) (s : State) : Host.Outcome State Fault Refusal :=
  issue (.br stl off) s (fun s => effTransfer (s.me.target off) id s)

/-- `call`: the link is I.PC + 4 in g62 (R135). -/
def execCall (stl : BitVec 3) (off : BitVec 20) (s : State) : Host.Outcome State Fault Refusal :=
  issue (.call stl off) s (fun s =>
    effTransfer (s.me.target off) (State.resultG (.call stl off) 62 (s.me.pc + 4)) s)

/-- `bnz` (R135). -/
def execBnz (stl : BitVec 3) (a : BitVec 6) (off : BitVec 14) (s : State) : Host.Outcome State Fault Refusal :=
  issue (.bnz stl a off) s (fun s => effBranch (s.me.g a.toNat != 0) (s.me.target off) s)

/-- `bz` (R135). -/
def execBz (stl : BitVec 3) (a : BitVec 6) (off : BitVec 14) (s : State) : Host.Outcome State Fault Refusal :=
  issue (.bz stl a off) s (fun s => effBranch (s.me.g a.toNat == 0) (s.me.target off) s)

/-- `loop`: decrement, and branch while the count is not 0 (R135). -/
def execLoop (stl : BitVec 3) (a : BitVec 6) (off : BitVec 14) (s : State) : Host.Outcome State Fault Refusal :=
  issue (.loop stl a off) s (fun s =>
    let v := s.me.g a.toNat - 1
    if v ≠ 0 then effTransfer (s.me.target off) (State.resultG (.loop stl a off) a v) s
    else .done (s.resultG (.loop stl a off) a v))

/-- `jmp` (R135). -/
def execJmp (r : R) (s : State) : Host.Outcome State Fault Refusal :=
  issue (.jmp r) s (fun s => effTransfer (s.me.g r.a.toNat).toNat id s)

/-- `jcall`: the target is read before the link is written (R135). -/
def execJcall (r : R) (s : State) : Host.Outcome State Fault Refusal :=
  issue (.jcall r) s (fun s =>
    effTransfer (s.me.g r.a.toNat).toNat (State.resultG (.jcall r) r.d (s.me.next (.jcall r))) s)

/-- `beq` (R135, R136). -/
def execBeq (r : R) (s : State) : Host.Outcome State Fault Refusal :=
  issue (.beq r) s (fun s => effBranch (s.me.g r.a.toNat == s.me.srcB r) r.x.toNat s)

/-- `bne` (R135, R136). -/
def execBne (r : R) (s : State) : Host.Outcome State Fault Refusal :=
  issue (.bne r) s (fun s => effBranch (s.me.g r.a.toNat != s.me.srcB r) r.x.toNat s)

/-- `blt` (R135, R136). -/
def execBlt (r : R) (s : State) : Host.Outcome State Fault Refusal :=
  issue (.blt r) s (fun s => effBranch (ltS (s.me.g r.a.toNat) (s.me.srcB r)) r.x.toNat s)

/-- `bltu` (R135, R136). -/
def execBltu (r : R) (s : State) : Host.Outcome State Fault Refusal :=
  issue (.bltu r) s (fun s => effBranch (ltU (s.me.g r.a.toNat) (s.me.srcB r)) r.x.toNat s)

/-- `end`: the activity issues nothing more and retires in the steps of R53 (R139); inside a meeting it performs `part .home`
first. -/
def execEnd (r : R) (s : State) : Host.Outcome State Fault Refusal :=
  issue (.end_ r) s (fun s => .done (s.modMe (fun a => { a with
    life := if a.party.isSome then .endParting else .ending })))

/-- `nop` (R139). -/
def execNop (r : R) (s : State) : Host.Outcome State Fault Refusal := issue (.nop r) s (fun s => .done s)

end Sys2Proof.Machine
end

