-- ==== Sys2Proof/Machine/Local.lean ====
section
/-! DEFINITION. Scalar loads and stores of local memory (R140-R146). -/

namespace Sys2Proof.Machine

/-- The cycles after issue at which a load's value is ready: one more when it spans two bank words (R146). -/
def loadLatency (y n : Nat) : Nat := if y / 8 = (y + n - 1) / 8 then 3 else 4

/-- Whether a requester of the banks other than the scalar pipe may be at work for the agent in focus (R21): its engines, or data that lands
from the fabric: of copies, pushes and collectives, code and records, and the shuttles of meetings. -/
def State.banksBusy (s : State) : Bool :=
  s.core.copyq ≠ [] || s.core.matq ≠ [] || s.core.vecq ≠ [] || s.core.locq ≠ [] || s.core.progq ≠ [] ||
  (s.residents s.core.agent).any (fun a => a.windows ≠ [] || a.coll.isSome) || s.core.segs.any (fun g => g.loading.isSome) ||
  s.disp.unstarted.any (fun u => s.core.agent.kind = .compute && u.core = s.core.agent.num) ||
  s.allActs.any (fun a => s.core.agent.kind = .compute && a.party.any (fun p => p.lands.isSome))

/-- The cycles that refused bank accesses cost a scalar load (R21, R146): none while nothing else uses the banks; else free, as the pages
that back the frames are not the program's to know (R451; log 115). -/
def State.bankWait (s : State) : Nat := if s.banksBusy then Config.bankWait s.choiceCtr else 0

/-- The effect of a load of 2^f bytes: the checks of R142, the wait of R144, the poison of R143, then the value, extended by
`ext`, to the destination (R141); correctable errors are corrected and reported (R143). -/
def effLoad (i : Instr) (r : R) (f : Nat) (ext : Nat → Word) (s : State) : Eff :=
  let n := 2 ^ f
  let ea := s.me.ea r
  match s.checkLocal false ea n with
  | some (y, c) => .trap c (localInfo y (2 * f))
  | none =>
    let y := ea.toNat
    if s.me.rangeBusy s.nextCmd false y n then .hold s
    else match s.readTaint y n with
      | none => .hold s
      | some s =>
        match s.poisonAt y n with
        | some w => .poison 0 w
        | none =>
          .done ((s.correct y n).resultAt .load (s.cycle + loadLatency y n + s.bankWait) i.srcs r.d.toNat (ext (ofBytes (s.readLocal y n))))

/-- The effect of a store of 2^f bytes (R141): its bytes are in their banks when it has issued, so a `.u` copy that issues later reads them
(DESIGN CHOICE where R145 lets it read either value, log 107). -/
def effStore (r : R) (f : Nat) (s : State) : Eff :=
  let n := 2 ^ f
  let ea := s.me.ea r
  match s.checkLocal true ea n with
  | some (y, c) => .trap c (localInfo y (2 * f + 1))
  | none =>
    if s.me.rangeBusy s.nextCmd true ea.toNat n then .hold s
    else .done (s.writeLocal ea.toNat (toBytes n (s.me.srcB r).toNat))

/-- A value of n bytes sign-extended. -/
def extS (n v : Nat) : Word := BitVec.ofInt 64 (sextNat (8 * n) v)

/-- A value zero-extended. -/
def extZ (v : Nat) : Word := BitVec.ofNat 64 v

/-- `lb`: load a sign-extended byte (R141). -/
def execLb (r : R) (s : State) : Host.Outcome State Fault Refusal := issue (.lb r) s (effLoad (.lb r) r 0 (extS 1))
/-- `lh`: load a sign-extended half-word. -/
def execLh (r : R) (s : State) : Host.Outcome State Fault Refusal := issue (.lh r) s (effLoad (.lh r) r 1 (extS 2))
/-- `lw`: load a sign-extended word. -/
def execLw (r : R) (s : State) : Host.Outcome State Fault Refusal := issue (.lw r) s (effLoad (.lw r) r 2 (extS 4))
/-- `ld`: load 64 bits. -/
def execLd (r : R) (s : State) : Host.Outcome State Fault Refusal := issue (.ld r) s (effLoad (.ld r) r 3 (extS 8))
/-- `lbu`: load a zero-extended byte. -/
def execLbu (r : R) (s : State) : Host.Outcome State Fault Refusal := issue (.lbu r) s (effLoad (.lbu r) r 0 extZ)
/-- `lhu`: load a zero-extended half-word. -/
def execLhu (r : R) (s : State) : Host.Outcome State Fault Refusal := issue (.lhu r) s (effLoad (.lhu r) r 1 extZ)
/-- `lwu`: load a zero-extended word. -/
def execLwu (r : R) (s : State) : Host.Outcome State Fault Refusal := issue (.lwu r) s (effLoad (.lwu r) r 2 extZ)
/-- `sb`: store a byte (R141). -/
def execSb (r : R) (s : State) : Host.Outcome State Fault Refusal := issue (.sb r) s (effStore r 0)
/-- `sh`: store a half-word. -/
def execSh (r : R) (s : State) : Host.Outcome State Fault Refusal := issue (.sh r) s (effStore r 1)
/-- `sw`: store a word. -/
def execSw (r : R) (s : State) : Host.Outcome State Fault Refusal := issue (.sw r) s (effStore r 2)
/-- `sd`: store 64 bits. -/
def execSd (r : R) (s : State) : Host.Outcome State Fault Refusal := issue (.sd r) s (effStore r 3)

end Sys2Proof.Machine
end

