-- ==== Sys2Proof/Machine/Tensor.lean ====
section
/-! DEFINITION. Tensors: descriptors and their validity (R190), row addresses and tiles (R191), local layouts (R192), the units
of a copy (R244, R455), and reaching a tensor's bytes through tile lines and address lines (R27, R289-R291, R453). -/

namespace Sys2Proof.Machine

/-! ## Descriptors (R190) -/

/-- Bits of an element of a format (R56). -/
def fmtBits : Nat → Nat
  | 0 => 32 | 1 => 16 | 2 => 16 | 3 => 8 | 4 => 8 | 5 => 8 | 6 => 8 | 7 => 4 | 8 => 8 | 9 => 32 | 10 => 64 | _ => 8

/-- The descriptor that 64 bytes hold, none when it is invalid. -/
def Desc.parse (bs : List Byte) : Option Desc :=
  let w (i : Nat) : Nat := ofBytes ((bs.drop (8 * i)).take 8)
  let d : Desc :=
    { fmt := w 0 / 2 ^ 56 % 16, base := w 0 % 2 ^ 56, d0 := w 1 % 2 ^ 32, d1 := w 1 / 2 ^ 32, d2 := w 2 % 2 ^ 32,
      d3 := w 2 / 2 ^ 32, s1 := w 3 % 2 ^ 48, s2 := w 4 % 2 ^ 48, s3 := w 5 % 2 ^ 48, asid := w 6 / 2 ^ 32 % 2 ^ 16,
      ro := w 6 / 2 ^ 21 % 2 = 1, fre := w 6 / 2 ^ 20 % 2 = 1, freg := w 6 / 2 ^ 16 % 16, tbw := w 6 / 2 ^ 8 % 256,
      tr := w 6 % 256 }
  let reserved := w 0 / 2 ^ 60 = 0 && w 3 / 2 ^ 48 = 0 && w 4 / 2 ^ 48 = 0 && w 5 / 2 ^ 48 = 0 && w 6 / 2 ^ 48 = 0 &&
    w 6 / 2 ^ 22 % 2 ^ 10 = 0 && w 7 = 0
  if reserved && d.fmt ≤ 10 && 1 ≤ d.d0 && 1 ≤ d.d1 && 1 ≤ d.d2 && 1 ≤ d.d3 && (!isBlock d.fmt || d.d0 % 8 = 0) &&
      d.fre = isBlock d.fmt && 1 ≤ d.tbw && d.tbw ≤ 16 && (d.tr = 16 || d.tr = 32 || d.tr = 64)
  then some d else none

/-- NR (R191). -/
def Desc.nr (d : Desc) : Nat := d.d1 * d.d2 * d.d3
/-- RB (R191). -/
def Desc.rb (d : Desc) : Nat := (d.d0 * fmtBits d.fmt + 7) / 8
/-- TB (R191). -/
def Desc.tb (d : Desc) : Nat := 32 * d.tbw
/-- RBp (R205). -/
def Desc.rbp (d : Desc) : Nat := (d.rb + 31) / 32 * 32
/-- bs (R192). -/
def Desc.bs (d : Desc) : Nat := blockBytes d.fmt
/-- SC (R192). -/
def Desc.sc (d : Desc) : Nat := d.tr * d.tb / d.bs
/-- The bytes of a local tile: LL for a block-scaled one (R192). -/
def Desc.ll (d : Desc) : Nat := if isBlock d.fmt then d.tr * d.tb + d.sc + 32 else d.tr * d.tb
/-- VA(r, b) (R191). -/
def Desc.va (d : Desc) (r b : Nat) : Nat := d.base + r % d.d1 * d.s1 + r / d.d1 % d.d2 * d.s2 + r / (d.d1 * d.d2) * d.s3 + b
/-- A tile that lies wholly outside the tensor (R191). -/
def Desc.outside (d : Desc) (i j : Nat) : Bool := d.nr ≤ i * d.tr || d.rb ≤ j * d.tb
/-- Tile lines of a tile. -/
def Desc.lines (d : Desc) : Nat := d.tr / 16 * d.tbw

/-! ## Where a local byte comes from -/

/-- The source of a local byte: nothing (a byte outside the tensor, or padding), a byte of a row, the block scale of the block
that begins at a byte of a row, a byte of the band scale of a row, or a byte of the tensor's linear range. -/
inductive Src where
  | zero
  | cell (r b : Nat)
  | scale (r b : Nat)
  | band (r b k : Nat)
  | lin (off : Nat)
deriving DecidableEq, Repr

/-- Local offsets and sources of unit u of tile (i, j): one tile line with its scales, and with the band scale for the first
(R244, R455). -/
def Desc.tileUnit (d : Desc) (i j u : Nat) : List (Nat × Src) :=
  let lr := u / d.tbw
  let lc := u % d.tbw
  let inside (r b : Nat) : Bool := r < d.nr && b < d.rb
  let rows := (List.range 16).map (fun q => 16 * lr + q)
  let cells := rows.flatMap (fun q => (List.range 32).map (fun k =>
    let r := i * d.tr + q
    let b := j * d.tb + 32 * lc + k
    (q * d.tb + 32 * lc + k, if inside r b then Src.cell r b else .zero)))
  if !isBlock d.fmt then cells
  else
    let scales := rows.flatMap (fun q => (List.range (32 / d.bs)).map (fun k =>
      let r := i * d.tr + q
      let b := j * d.tb + 32 * lc + d.bs * k
      (d.tr * d.tb + (q * d.tb + 32 * lc) / d.bs + k, if inside r b then Src.scale r b else .zero)))
    let band := if u = 0 then (List.range 32).map (fun k =>
        (d.tr * d.tb + d.sc + k, if k < 2 then Src.band (i * d.tr) (j * d.tb) k else .zero))
      else []
    cells ++ scales ++ band

/-- Unit u of a linear copy: 512 bytes of the local range (R244). -/
def linUnit (off len u : Nat) : List (Nat × Src) :=
  (List.range (min 512 (len - 512 * u))).map (fun k => (512 * u + k, .lin (off + 512 * u + k)))

/-- The source of byte o of the local range of a gather (R205). -/
def Desc.rowSrc (d : Desc) (idx : List Int) (o : Nat) : Src :=
  let r : Int := idx.getD (o / d.rbp) (-1)
  let b := o % d.rbp
  if 0 ≤ r && r < (d.nr : Int) && b < d.rb then .cell r.toNat b else .zero

/-- Unit u of a gather: 512 bytes of the local range (R244). -/
def Desc.gatherUnit (d : Desc) (idx : List Int) (len u : Nat) : List (Nat × Src) :=
  (List.range (min 512 (len - 512 * u))).map (fun k => (512 * u + k, d.rowSrc idx (512 * u + k)))

/-- Unit u of a scatter or a reduction: row u of the local range (R205). -/
def Desc.scatterUnit (d : Desc) (idx : List Int) (u : Nat) : List (Nat × Src) :=
  (List.range d.rb).map (fun b => (u * d.rbp + b, d.rowSrc idx (u * d.rbp + b)))

/-! ## Virtual ranges of a command -/

/-- The virtual ranges (address, length) that tile (i, j) touches, row by row. -/
def Desc.tileSpans (d : Desc) (i j : Nat) : List (Nat × Nat) :=
  (List.range d.tr).filterMap (fun q =>
    let r := i * d.tr + q
    let n := min d.tb (d.rb - j * d.tb)
    if r < d.nr && 0 < n then some (d.va r (j * d.tb), n) else none)

/-- The virtual ranges of a list of rows. -/
def Desc.rowSpans (d : Desc) (idx : List Int) : List (Nat × Nat) :=
  idx.filterMap (fun (r : Int) => if 0 ≤ r && r < (d.nr : Int) then some (d.va r.toNat 0, d.rb) else none)

/-- Bytes of the smallest page: the unit in which a command records translations (R194). -/
def pageBytes : Nat := 2 ^ 16

/-- The pages of a list of virtual ranges, in order of first use. -/
def pagesOf (spans : List (Nat × Nat)) : List Nat :=
  (spans.flatMap (fun (a, n) =>
    (List.range ((a + n - 1) / pageBytes - a / pageBytes + 1)).map (fun k => a / pageBytes + k))).eraseDups

/-! ## Reaching bytes -/

/-- The translations of a command: by page, the physical page and whether it may be written; none for a failed walk. -/
abbrev PageMap := AMap (Option (Nat × Bool))

/-- The physical address of a virtual one under recorded translations. -/
def PageMap.apply (m : PageMap) (write : Bool) (va : Nat) : Except Nat Nat :=
  match AMap.find m (va / pageBytes) with
  | some (some (pa, w)) => if write && !w then .error errXlate else .ok (pa + va % pageBytes)
  | _ => .error errXlate

/-- A tensor as commands see it: the VD, the id, the descriptor. -/
structure Target where
  vd : Nat
  tid : Nat
  desc : Desc
deriving DecidableEq, Repr

/-- The tag of the tile line that holds byte b of row r. -/
def Target.key (t : Target) (r b : Nat) : LineKey := ⟨t.vd, t.tid, r / 16, b / 32⟩

/-- The scale byte and the band scale of an element byte, through the format region register of the spindle that serves its
line (R290, R291): ADDR when the register does not cover it. -/
def State.scales (s : State) (t : Target) (k : LineKey) (pa : Nat) : Except Nat (Nat × Nat) :=
  match (s.frr (s.homeSlice k) t.desc.freg).scaleOf pa with
  | some p => .ok p
  | none => .error errAddr

/-- Where a source byte lies: none for a byte that is zero. -/
def State.resolve (s : State) (t : Target) (m : PageMap) (write : Bool) (x : Src) : Except Nat (Option Loc) :=
  let at_ (r b : Nat) (f : LineKey → Nat → Except Nat (Option Loc)) : Except Nat (Option Loc) :=
    match m.apply write (t.desc.va r b) with
    | .error e => .error e
    | .ok pa => f (t.key r b) pa
  match x with
  | .zero => .ok none
  | .cell r b => at_ r b (fun k pa =>
      if t.desc.fre then
        match s.scales t k pa with
        | .error e => .error e
        | .ok _ => .ok (some ⟨k, r % 16, .cell, pa⟩)
      else .ok (some ⟨k, r % 16, .cell, pa⟩))
  | .scale r b => at_ r b (fun k pa =>
      match s.scales t k pa with
      | .error e => .error e
      | .ok (sc, _) => .ok (some ⟨k, r % 16, .side, sc⟩))
  | .band r b i => at_ r b (fun k pa =>
      match s.scales t k pa with
      | .error e => .error e
      | .ok (_, bd) => .ok (some ⟨k, r % 16, .band, bd + i⟩))
  | .lin o =>
    match m.apply write (t.desc.va 0 0 + o) with
    | .error e => .error e
    | .ok pa => .ok (some (addrLoc t.vd pa))

/-- A read of one source byte: its value, or an error of R211. -/
def State.fetchSrc (s : State) (t : Target) (m : PageMap) (x : Src) : Except Nat Byte :=
  match s.resolve t m false x with
  | .error e => .error e
  | .ok none => .ok 0
  | .ok (some l) => s.loadByte t.vd l

/-- The lines that sources lie in. -/
def State.linesOf (s : State) (t : Target) (m : PageMap) (write : Bool) (xs : List Src) : List LineKey :=
  (xs.filterMap (fun x => match s.resolve t m write x with
    | .ok (some l) => some l.key
    | _ => none)).eraseDups

/-- The physical address of a virtual one for a fill: as the command translated it, else by a walk. -/
def State.fillPa (s : State) (t : Target) (m : PageMap) (va : Nat) : Option Nat :=
  match AMap.find m (va / pageBytes) with
  | some (some (pa, _)) => some (pa + va % pageBytes)
  | some none => none
  | none =>
    match s.xlateWalk t.vd t.desc.asid va false with
    | .ok pa => some pa
    | .error _ => none

/-- What a fill of a line brings in (R289, R291): an address line whole, a tile line as far as it lies in the tensor. -/
def State.fillSet (s : State) (t : Target) (m : PageMap) (k : LineKey) : FillSet :=
  if k.tid = 0 then k.addrFill
  else
    let d := t.desc
    let row (i : Nat) : List Nat :=
      let r := 16 * k.row + i
      if r < d.nr then (List.range 32).filterMap (fun j =>
        let b := 32 * k.col + j
        if b < d.rb then (s.fillPa t m (d.va r b)).filter (fun pa => !d.fre || (s.scales t k pa).toOption.isSome) else none)
      else []
    let sides (pas : List Nat) : List Nat :=
      if d.fre then (pas.filterMap (fun pa => (s.scales t k pa).toOption.map (fun p => p.1))).eraseDups else []
    let rows := (List.range 16).map (fun i => (i, row i, sides (row i)))
    let band := if d.fre then
        (match rows.findSome? (fun x => x.2.1.head?) with
         | some pa =>
           (match s.scales t k pa with
            | .ok (_, bd) => [bd, bd + 1]
            | .error _ => [])
         | none => [])
      else []
    ⟨rows.filter (fun x => x.2.1 ≠ []), band⟩

/-- Mark the sector of a location poisoned: in its line when it is resident, else in the metadata (R301). -/
def State.poisonLoc (vd : Nat) (l : Loc) (s : State) : State :=
  match s.cache.home l.key with
  | some ln =>
    let t := (ln.sects.find l.sect).getD LSector.empty
    { s with cache := s.cache.update (match l.part with
      | .band => { ln with badBand := true, bandDirty := true }
      | .side => { ln with sects := ln.sects.put l.sect { t with badSide := true, dirty := true } }
      | .cell => { ln with sects := ln.sects.put l.sect { t with poison := true, dirty := true } }) }
  | none => if s.paError vd l.pa = 0 then { s with mem := s.mem.mark l.pa true } else s

end Sys2Proof.Machine
end

