-- ==== Sys2Proof/Machine/Copy.lean ====
section
/-! DEFINITION. The copy-class instructions and `fence` at issue (R189-R215, R223): their checks in the order of R199, and the
command each puts into the copy queue. Held commands of a speculative activity go to its held-effects buffer (R359, R360). The
queue at work is in CopyQueue. -/

namespace Sys2Proof.Machine

/-! ## Commands -/

/-- The instruction of a command (R245). -/
def CmdKind.instr (k : CmdKind) (r : R) : Instr :=
  match k with
  | .cpy => .cpy r
  | .cpyProg => .cpyProg r
  | .cpyst => .cpyst r
  | .cpyl => .cpyl r
  | .cpylSt => .cpylSt r
  | .pfx => .pfx r
  | .gath => .gath r
  | .scat => .scat r
  | .red => .red r
  | .tflush => .tflush r
  | .codeld => .codeld r
  | .pwret => .pwret r
  | .fence => .fence r
  | .spush => .spush r
  | .sfmt => .sfmt r
  | .sfill => .sfill r
  | .swb => .swb r

/-- Whether a command writes outside its activity (R226). -/
def CmdKind.isWrite : CmdKind → Bool
  | .cpyst => true
  | .cpylSt => true
  | .scat => true
  | .red => true
  | .tflush => true
  | .swb => true
  | _ => false

/-- Whether a command reads rows of local memory, which counts as a read (R226); its index list is read at issue. -/
def CmdKind.readsRows (k : CmdKind) : Bool := k = .scat || k = .red

/-- Whether a command is a read command of device memory (R226). -/
def CmdKind.isRead : CmdKind → Bool
  | .cpy => true
  | .cpyl => true
  | .gath => true
  | .pfx => true
  | .codeld => true
  | .spush => true
  | _ => false

/-- Entries of an agent's copy queue (R19, R277, R420). -/
def copyQueueSize : AKind → Nat
  | .compute => 256
  | .spindle => 64
  | .gateway => 64

/-- Commands of an agent's copy queue: an `mcpy` is one, though its work is local (R20, R325). -/
def Core.copyCount (k : Core) : Nat := k.copyq.length + (k.locq.filter (fun c => c.kind = .mcpy)).length

/-- Whether an agent's copy queue is full (R19, R20). -/
def Core.copyFull (k : Core) : Bool := copyQueueSize k.agent.kind ≤ k.copyCount

/-- Entries of an agent's posted-store journal (R19, R277, R420). -/
def journalSize : AKind → Nat
  | .compute => 64
  | .spindle => 32
  | .gateway => 32

/-- Translations that an agent's copy engine keeps (R194, R277, R420). -/
def tlbSize : AKind → Nat
  | .compute => 512
  | .spindle => 64
  | .gateway => 64

/-- A command of the activity in focus, with nothing yet said of its ranges. -/
def State.newCmd (s : State) (k : CmdKind) (r : R) : Cmd :=
  let a := s.me
  { id := s.nextCmd, owner := a.uid, kind := k, r := r, pc := a.pc.toNat, issued := s.cycle, opA := a.g r.a.toNat,
    opB := a.srcB r, opC := a.g r.c.toNat, opE := a.g r.e.toNat, vd := a.job.vd, tid := 0, desc := none, idx := [], base := (a.g r.a.toNat).toNat, len := 0,
    bar := r.bar, sem := r.sem, scope := r.scope, u := r.unordered, journal := none, started := false, held := false,
    todo := [], filled := [], kept := 0, counted := 0, phase := (a.bar r.bar).phase, err := 0, xlat := [], due := 0,
    again := false, payload := none, jid := a.job.jid, startedAt := 0, landing := [], heldUnits := [], staged := [], covers := [], modid := s.svc.modid, warmUnits := [] }

/-- The tensor of a command. -/
def Cmd.target (c : Cmd) : Option Target := c.desc.map (fun d => ⟨c.vd, c.tid, d⟩)

/-- The virtual ranges of a command, under its ASID. -/
def Cmd.spans (c : Cmd) : List (Nat × Nat) :=
  match c.desc with
  | none => if c.kind = .codeld then [(c.opB.toNat, c.len)] else []
  | some d =>
    match c.kind with
    | .cpy => d.tileSpans c.opC.toNat c.opE.toNat
    | .cpyst => d.tileSpans c.opC.toNat c.opE.toNat
    | .pfx => d.tileSpans c.opC.toNat c.opE.toNat
    | .cpyl => [(d.va 0 0 + c.opC.toNat, c.len)]
    | .cpylSt => [(d.va 0 0 + c.opC.toNat, c.len)]
    | .gath => d.rowSpans c.idx
    | .scat => d.rowSpans c.idx
    | .red => d.rowSpans c.idx
    | .spush => d.tileSpans c.opA.toNat c.opC.toNat
    | .swb => d.tileSpans c.opA.toNat c.opC.toNat
    | _ => []

/-- The units of a command: for loads R244 and R455, for writes the tile line, 512 bytes, or the row. -/
def Cmd.units (c : Cmd) : Nat :=
  match c.kind, c.desc with
  | .cpy, some d => d.lines
  | .cpyst, some d => d.lines
  | .pfx, some d => d.lines
  | .spush, some d => d.lines
  | .swb, some d => d.lines
  | .cpyl, _ => (c.len + 511) / 512
  | .cpylSt, _ => (c.len + 511) / 512
  | .gath, _ => (c.len + 511) / 512
  | .scat, _ => c.idx.length
  | .red, _ => c.idx.length
  | .tflush, _ => 1
  | .codeld, _ => 1
  | _, _ => 0

/-- Local offsets and sources of a unit. -/
def Cmd.unitSrc (c : Cmd) (u : Nat) : List (Nat × Src) :=
  match c.desc with
  | none => []
  | some d =>
    match c.kind with
    | .cpy => d.tileUnit c.opC.toNat c.opE.toNat u
    | .cpyst => d.tileUnit c.opC.toNat c.opE.toNat u
    | .pfx => d.tileUnit c.opC.toNat c.opE.toNat u
    | .spush => d.tileUnit c.opA.toNat c.opC.toNat u
    | .swb => d.tileUnit c.opA.toNat c.opC.toNat u
    | .cpyl => linUnit c.opC.toNat c.len u
    | .cpylSt => linUnit c.opC.toNat c.len u
    | .gath => d.gatherUnit c.idx c.len u
    | .scat => d.scatterUnit c.idx u
    | .red => d.scatterUnit c.idx u
    | _ => []

/-! ## Translations kept by an agent (R194) -/

/-- The translation of an address in an agent's cache. -/
def Core.tlbFind (c : Core) (vd asid va : Nat) : Option Xlat := c.tlb.find? (fun x => x.covers vd asid va)

/-- Note that a translation was used. -/
def Core.tlbTouch (c : Core) (x : Xlat) : Core := { c with tlb := c.tlb.filter (fun y => y ≠ x) ++ [x] }

/-- Take a walk's result into the cache, replacing the least recently used when it is full. -/
def Core.tlbFill (c : Core) (x : Xlat) : Core :=
  let rest := c.tlb.filter (fun y => y ≠ x)
  { c with tlb := (if rest.length < tlbSize c.agent.kind then rest else rest.tail) ++ [x] }

/-- The ASID of a command: its descriptor's, or the VD's own for an image (R194, R207). -/
def State.asidOf (s : State) (c : Cmd) : Nat :=
  match c.desc with
  | some d => d.asid
  | none => s.dasid c.vd

/-- Record the translations of a command that its agent's cache holds. -/
def Core.translateHits (k : Core) (asid : Nat) (c : Cmd) : Core × Cmd :=
  (pagesOf c.spans).foldl (fun (k, c) p =>
    match k.tlbFind c.vd asid (p * pageBytes) with
    | some x => (k.tlbTouch x, { c with xlat := AMap.put c.xlat p (some (x.apply (p * pageBytes), x.writable)) })
    | none => (k, c)) (k, c)

/-- Translate every page of a command, by its agent's cache or by a walk, which fills it: none when a page has no translation. -/
def State.translateAll (c : Cmd) (s : State) : Option (State × Cmd) :=
  (pagesOf c.spans).foldl (fun (r : Option (State × Cmd)) p =>
    r.bind (fun (s, c) =>
      let va := p * pageBytes
      match s.core.tlbFind c.vd (s.asidOf c) va with
      | some x => some (s.modCore (fun k => k.tlbTouch x), { c with xlat := AMap.put c.xlat p (some (x.apply va, x.writable)) })
      | none =>
        match s.walk c.vd (s.asidOf c) va with
        | some x =>
          some ((s.keepWalk c.vd (s.asidOf c) va).modCore (fun k => k.tlbFill x),
            { c with xlat := AMap.put c.xlat p (some (x.apply va, x.writable)) })
        | none => none)) (some (s, c))

/-! ## Checks at issue (R199) -/

/-- A step of the checks: an outcome that ends the issue, or none to go on. -/
abbrev Check := State → Option Eff

/-- The first check that ends the issue, else the effect. -/
def checked (cs : List Check) (k : State → Eff) (s : State) : Eff :=
  match cs.findSome? (fun c => c s) with
  | some e => e
  | none => k s

/-- A local range under CheckLocal; XINFO names the minor function. -/
def ckLocal (f : Nat) (write : Bool) (y : Nat) (n : Nat) : Check := fun s =>
  (s.checkLocal write y n).map (fun (z, c) => Eff.trap c (localInfo z (2 * f + if write then 1 else 0)))

/-- A condition that must hold, or the copy fault with a code. -/
def ckFault (bad : Bool) (code pos tid : Nat) : Check := fun _ => if bad then some (.fault code pos tid) else none

/-- The 16 bytes at BAR, when one is named (R199, step 1). -/
def ckBar (f : Nat) (r : R) : Check := fun s => if r.bar = 0 then none else ckLocal f true r.bar 16 s

/-- BAR's alignment (R196). -/
def ckBarAlign (r : R) (tid : Nat) : Check := ckFault (r.bar % 16 ≠ 0) 5 0 tid

/-- The descriptors' job key on an agent: a spindle's cache is tagged by VD alone (R277). On a gateway core, which runs no job, it is 0, and
a descriptor stays until a reset of the die (DESIGN CHOICE, log 113). -/
def Activity.descJob (a : Activity) : Nat := if a.agent.kind = .spindle then 0 else a.job.jid

/-- The descriptor that the core holds for a tensor (R193): none when it has not been read. -/
def State.findDesc (s : State) (tid : Nat) : Option (Option Desc) :=
  (s.core.descs.find? (fun e => e.vd = s.me.job.vd && e.jid = s.me.descJob && e.tid = tid)).map (fun e => e.desc)

/-- The physical address of a tensor's entry in the table of its VD (R191). -/
def State.tableAddr (s : State) (vd tid : Nat) : Nat := (s.vd vd).vdtab.toNat / 2 ^ 6 % 2 ^ 46 * 2 ^ 6 + 64 * tid

/-- Whether the table of a VD has an entry for a tensor (R395). -/
def State.inTable (s : State) (vd tid : Nat) : Bool := tid < (s.vd vd).vdasid.toNat / 2 ^ 32 % 2 ^ 17

/-- The core in focus reads a tensor's descriptor from its VD's table, and keeps it for a job (R193, R277): an id beyond the table and a
descriptor that cannot be read are invalid (DEDUCED, log 42). -/
def State.readDesc (vd jid tid : Nat) (s : State) : State :=
  let pa := s.tableAddr vd tid
  let desc := if !s.inTable vd tid then none
    else match s.loadPhys vd pa 64 with
      | .ok w => Desc.parse (toBytes 64 w)
      | .error _ => none
  (if s.inTable vd tid then s.keepAddrs vd [pa] else s).modCore (fun k =>
    { k with descs := (if k.agent.kind = .spindle && k.descs.length ≥ 64 then k.descs.tail else k.descs) ++ [⟨vd, jid, tid, pa, desc, []⟩] })

/-- The descriptor step of the checks (R193, R199 step 2): wait for its read, or TENSOR. -/
def ckDesc (tid : Nat) : Check := fun s =>
  if tid = 0 then some (.fault 1 0 tid)
  else match s.findDesc tid with
    | none => some (.hold (s.modMe (fun a => { a with descWait := some tid })))
    | some none => some (.fault 1 0 tid)
    | some (some _) => none

/-- The descriptor, once `ckDesc` has passed. -/
def State.descOf (s : State) (tid : Nat) : Option Desc := (s.findDesc tid).bind id

/-- A check that looks at the descriptor. -/
def ckWith (tid : Nat) (f : Desc → Check) : Check := fun s =>
  match s.descOf tid with
  | some d => f d s
  | none => none

/-! ## Placing a command -/

/-- Bytes that an activity's held effects take. -/
def Activity.heldBytes (a : Activity) : Nat := (a.helds.map (fun h => h.bytes)).foldl (· + ·) 0

/-- Bytes in use in an agent's held-effects buffer (R360). -/
def State.heldUsed (s : State) (a : Agent) : Nat := ((s.residents a).map Activity.heldBytes).foldl (· + ·) 0

/-- The size of a held command's entry (R360). -/
def heldEntry (payload : Nat) : Nat := 64 + (payload + 31) / 32 * 32

/-- The lowest free journal entry of the core in focus (R212). -/
def Core.freeEntry (c : Core) : Option Nat := lowest (fun e => (c.journal.find e).isNone) (journalSize c.agent.kind)

/-- Note that a spindle used a tensor descriptor (R277). -/
def Core.touchDesc (c : Core) (vd tid : Nat) : Core :=
  if c.agent.kind = .spindle then
    let mine (e : DescEntry) : Bool := e.vd = vd && e.tid = tid && tid ≠ 0
    { c with descs := c.descs.filter (fun e => !mine e) ++ c.descs.filter mine }
  else c

/-- The copy queue with a command more. -/
def Core.addCmd (k : Core) (c : Cmd) : Core := { k with copyq := k.copyq ++ [c] }

/-- Put a command of the activity in focus into the copy queue, with its scoreboard entries and translations. -/
def State.enqueue (c : Cmd) (claims : List Claim) (s : State) : State :=
  let (core, c) := s.core.translateHits (s.asidOf c) { c with todo := List.range c.units }
  let s := { s with core := (core.touchDesc c.vd c.tid).addCmd c, nextCmd := max s.nextCmd (c.id + 1) }
  if c.u then s else s.claim claims

/-- Accept a command: it waits while the queue or the scoreboard is full (R20, R23); a write command or a fence, also while effects of its
activity that were released before have not left the held-effects buffer (R364). -/
def accept (c : Cmd) (claims : List Claim) (after : State → State) (s : State) : Eff :=
  if s.core.copyFull then .hold s
  else if (c.kind.isWrite || c.kind = .fence) && s.me.helds.any (fun h => h.released) then .hold s
  else if !c.u && s.scoreUsed s.me.agent + claims.length > scoreSize s.me.agent.kind then .hold s
  else .done (after (s.enqueue c claims))

/-- Accept a write command, with a journal entry when it names no barrier (R212). -/
def acceptWrite (c : Cmd) (claims : List Claim) (s : State) : Eff :=
  if c.bar ≠ 0 then accept c claims id s
  else match s.core.freeEntry with
    | none => .hold s
    | some e =>
      accept { c with journal := some e } claims (State.modCore (fun k =>
        { k with journal := AMap.put k.journal e ⟨c.id, c.owner, c.pc, 0, 0⟩ })) s

/-- The held-effects buffer has no room: the activity waits for it at a blocking point (R46, R360), once its pending writes have taken effect
and its vector accesses are complete (R90, R123, R188). -/
def State.awaitHeld (size : Nat) (s : State) : Eff :=
  if s.me.pend ≠ [] || s.vecBusy then .hold s else .hold (s.modMe (fun a => { a with block := .held size }))

/-- Hold a write command of a speculative activity (R359, R360): its payload is copied, read as a read command would. -/
def holdWrite (c : Cmd) (src n : Nat) (s : State) : Eff :=
  let size := heldEntry (n + 4 * c.idx.length)
  if size > 8192 then .hold s
  else if s.heldUsed s.me.agent + size > 16384 then s.awaitHeld size
  else if !c.u && s.me.rangeBusy s.nextCmd false src n then .hold s
  else
    let copy : LMem := ⟨Memory.writeN [] src (s.readLocal src n), (wordsOf src n).filter (fun w => (s.poisonAt (8 * w) 8).isSome), true, []⟩
    .done (s.modMe (fun a => { a with helds := a.helds ++ [⟨some { c with held := true, payload := some copy }, none, size, false⟩] }))

/-- Place a write command: held under speculation, else accepted. -/
def placeWrite (c : Cmd) (src n : Nat) (s : State) : Eff :=
  if s.me.speculative then holdWrite c src n s
  else acceptWrite c (if n = 0 then [] else [⟨c.id, src, n, false⟩]) s

/-! ## Promises (R214, R215) -/

/-- The home slice's spindle of a source, where the level latency is taken to. -/
def State.sliceAgent (s : State) (k : LineKey) : Agent := ⟨.spindle, s.homeSlice k⟩

/-- The level latency from an agent to the first line of a command (R213). -/
def State.firstLatency (s : State) (a : Agent) (c : Cmd) : Nat :=
  match c.target with
  | none => 0
  | some t =>
    match (s.linesOf t c.xlat false ((c.unitSrc 0).map (fun p => p.2))).head? with
    | some k => levelLatency a (s.sliceAgent k)
    | none => 0

/-- The promise of a load (R214), 0 for none: every page hits the translation cache and lies in device memory. -/
def State.promise (s : State) (c : Cmd) (d : BitVec 6) : Nat :=
  let (_, h) := s.core.translateHits (s.asidOf c) c
  let pages := pagesOf c.spans
  let ok := pages.all (fun p => match AMap.find h.xlat p with
    | some (some (pa, _)) => paKind pa = .device
    | _ => false)
  if !ok || c.sem = 3 || d = 0 then 0
  else
    let q := (s.core.copyq.filter (fun e => !e.started && e.kind ≠ .fence)).length
    s.cycle + 16 * q + 2 * s.firstLatency s.me.agent h + (c.len + 63) / 64 + 320

/-- Write the promise of a load, and record it under `.pm`. -/
def State.setPromise (i : Instr) (c : Cmd) (pr : Nat) (s : State) : State :=
  let s := s.resultAt .engine (s.cycle + 1) i.srcs c.r.d.toNat (BitVec.ofNat 64 pr)
  if c.r.pm && pr ≠ 0 then
    s.modMe (fun a => { a with promises := a.promises ++ [⟨c.id, c.bar, c.phase, pr⟩] })
  else s

/-- The earliest cycle in which a load's first unit may land (R213). -/
def State.firstDue (s : State) (c : Cmd) : Nat :=
  let (_, h) := s.core.translateHits (s.asidOf c) c
  s.cycle + 5 + 2 * s.firstLatency s.me.agent h

/-- Place a load command. -/
def placeLoad (i : Instr) (c : Cmd) (y : Nat) (s : State) : Eff :=
  let c := { c with due := s.firstDue c }
  let pr := s.promise c c.r.d
  accept c [⟨c.id, y, c.len, true⟩] (State.setPromise i c pr) s

/-! ## Tile and linear copies (R201-R204) -/

/-- Tensor id: SrcB()[15:0]. -/
def State.tidB (s : State) (r : R) : Nat := (s.me.srcB r).toNat % 2 ^ 16

/-- `cpy` (R201). -/
def execCpy (r : R) (s : State) : Host.Outcome State Fault Refusal :=
  issue (.cpy r) s (fun s =>
    let tid := s.tidB r
    let y := (s.me.g r.a.toNat).toNat
    let c := { s.newCmd .cpy r with tid := tid }
    checked [ckBar 0 r, ckDesc tid, ckWith tid (fun d => ckLocal 0 true y d.ll), ckBarAlign r tid,
      ckWith tid (fun d => ckFault (d.outside c.opC.toNat c.opE.toNat) 2 0 tid)]
      (fun s => match s.descOf tid with
        | none => .hold s
        | some d => placeLoad (.cpy r) { c with desc := some d, len := d.ll } y s) s)

/-- Whether an update is defined on a format (R201): none on block-scaled ones. -/
def redOk (op fmt : Nat) : Bool := !isBlock fmt && (op ≠ 0)

/-- `cpyst` (R201). -/
def execCpyst (r : R) (s : State) : Host.Outcome State Fault Refusal :=
  issue (.cpyst r) s (fun s =>
    let tid := s.tidB r
    let y := (s.me.g r.a.toNat).toNat
    let c := { s.newCmd .cpyst r with tid := tid }
    checked [ckBar 1 r, ckDesc tid, ckWith tid (fun d => ckLocal 1 false y d.ll), ckBarAlign r tid,
      ckWith tid (fun d => ckFault (d.outside c.opC.toNat c.opE.toNat) 2 0 tid),
      ckWith tid (fun d => ckFault d.ro 8 0 tid),
      ckWith tid (fun d => ckFault (r.redOp ≠ 0 && !redOk r.redOp d.fmt) 4 0 tid)]
      (fun s => match s.descOf tid with
        | none => .hold s
        | some d => placeWrite { c with desc := some d, len := d.ll } y d.ll s) s)

/-- The length conditions of a linear copy (R202). -/
def ckLinear (y off n tid : Nat) : List Check :=
  [ckFault (n = 0) 6 0 tid, ckFault (n % 32 ≠ 0 || n > 32768 || y % 32 ≠ 0 || off % 32 ≠ 0) 5 0 tid]

/-- `cpyl` without `.st` (R202). -/
def execCpyl (r : R) (s : State) : Host.Outcome State Fault Refusal :=
  issue (.cpyl r) s (fun s =>
    let tid := s.tidB r
    let y := (s.me.g r.a.toNat).toNat
    let n := (s.me.g r.e.toNat).toNat
    let c := { s.newCmd .cpyl r with tid := tid, len := n }
    checked ([ckLocal 2 true y n, ckBar 2 r, ckDesc tid, ckBarAlign r tid] ++ ckLinear y c.opC.toNat n tid)
      (fun s => match s.descOf tid with
        | none => .hold s
        | some d => placeLoad (.cpyl r) { c with desc := some d } y s) s)

/-- `cpyl.st` (R202). READONLY is tested after COUNT and ALIGN (DESIGN CHOICE, log 18). -/
def execCpylSt (r : R) (s : State) : Host.Outcome State Fault Refusal :=
  issue (.cpylSt r) s (fun s =>
    let tid := s.tidB r
    let y := (s.me.g r.a.toNat).toNat
    let n := (s.me.g r.e.toNat).toNat
    let c := { s.newCmd .cpylSt r with tid := tid, len := n }
    checked ([ckLocal 2 false y n, ckBar 2 r, ckDesc tid, ckBarAlign r tid] ++ ckLinear y c.opC.toNat n tid ++
      [ckWith tid (fun d => ckFault d.ro 8 0 tid)])
      (fun s => match s.descOf tid with
        | none => .hold s
        | some d => placeWrite { c with desc := some d } y n s) s)

/-- `pfx` (R203). -/
def execPfx (r : R) (s : State) : Host.Outcome State Fault Refusal :=
  issue (.pfx r) s (fun s =>
    let tid := s.tidB r
    let c := { s.newCmd .pfx r with tid := tid }
    checked [ckDesc tid, ckWith tid (fun d => ckFault (d.outside c.opC.toNat c.opE.toNat) 2 0 tid)]
      (fun s => accept { c with desc := s.descOf tid } [] id s) s)

/-- `tflush` (R204). -/
def execTflush (r : R) (s : State) : Host.Outcome State Fault Refusal :=
  issue (.tflush r) s (fun s =>
    let tid := s.tidB r
    let c := { s.newCmd .tflush r with tid := tid }
    checked [ckBar 0 r, ckDesc tid, ckBarAlign r tid]
      (fun s => placeWrite { c with desc := s.descOf tid } 0 0 s) s)

/-! ## Gather, scatter, reduction (R205, R206) -/

/-- The index list: n INT32 values. -/
def State.indexList (s : State) (y n : Nat) : List Int :=
  (List.range n).map (fun k => sextNat 32 (ofBytes (s.readLocal (y + 4 * k) 4)))

/-- The first position whose index is out of range. -/
def badIndex (nr : Nat) (idx : List Int) : Option Nat :=
  ((idx.zipIdx).find? (fun (x, _) => x < 0 || x ≥ (nr : Int))).map (fun p => p.2)

/-- A command that waits while it reads its list, or with the list read, keeps the entries of the list and of the data. -/
def keepList (l : Nat × Nat × Nat) (e : Eff) : Eff :=
  match e with
  | .hold t => .hold (t.modMe (fun a => { a with listRead := some l }))
  | e => e

/-- The checks and the two steps of R205, with what to do with the rows. The entries of the list and of the data are taken before the list
is read (R23); the list of a `.u` command is read without waiting, and it takes none (R24). READONLY is tested after COUNT, ALIGN and FORMAT
(DESIGN CHOICE, log 18). -/
def effRows (k : CmdKind) (f : Nat) (r : R) (defined : Desc → Bool) (place : Cmd → Desc → State → Eff) (s : State) : Eff :=
  let tid := s.tidB r
  let y := (s.me.g r.a.toNat).toNat
  let l := (s.me.g r.c.toNat).toNat
  let n := (s.me.g r.e.toNat).toNat
  let write := k = .gath
  let c := { s.newCmd k r with tid := tid }
  let countBad : Bool := n = 0 || n > 1024
  checked [ckLocal f false l (4 * n), ckBar f r, ckDesc tid,
    ckWith tid (fun d => if countBad || d.rb > 2048 || isBlock d.fmt then (fun _ => none) else ckLocal f write y (n * d.rbp)),
    ckBarAlign r tid, ckFault countBad 6 0 tid, ckFault (l % 4 ≠ 0) 5 0 tid,
    ckWith tid (fun d => ckFault (isBlock d.fmt || d.rb > 2048) 4 0 tid),
    ckWith tid (fun d => ckFault (!defined d) 4 0 tid),
    ckWith tid (fun d => ckFault (!write && d.ro) 8 0 tid)]
    (fun s =>
      let list := (l, 4 * n, if c.u then 0 else 2)
      let full := s.me.listRead.isNone && s.scoreUsed s.me.agent + 2 > scoreSize s.me.agent.kind
      if !c.u && (s.me.rangeBusy s.nextCmd false l (4 * n) || full) then
        .hold (s.modMe (fun a => { a with firstTry := some (s.cycle + 1), listRead := none }))
      else if s.cycle < s.me.firstTry.getD s.cycle + (4 * n + 63) / 64 + 2 then
        keepList list (.hold s)
      else match s.descOf tid with
        | none => .hold s
        | some d =>
          let idx := s.indexList l n
          let go := keepList list (place { c with desc := some d, idx := idx, len := n * d.rbp } d
            (s.modMe (fun a => { a with listRead := none })))
          match badIndex d.nr idx with
          | some p => if r.zfill then go else .fault 3 p tid
          | none => go) s

/-- `gath` (R205). -/
def execGath (r : R) (s : State) : Host.Outcome State Fault Refusal :=
  issue (.gath r) s (effRows .gath 0 r (fun _ => true) (fun c _ s =>
    accept { c with due := s.firstDue c } [⟨c.id, c.opA.toNat, c.len, true⟩] id s))

/-- `scat` (R205). -/
def execScat (r : R) (s : State) : Host.Outcome State Fault Refusal :=
  issue (.scat r) s (effRows .scat 1 r (fun _ => true) (fun c _ s => placeWrite c c.opA.toNat c.len s))

/-- `red` (R201, R205). -/
def execRed (r : R) (s : State) : Host.Outcome State Fault Refusal :=
  issue (.red r) s (effRows .red 2 r (fun d => redOk r.redOp d.fmt) (fun c _ s =>
    placeWrite c c.opA.toNat c.len s))

/-! ## Code load, windows, programs (R207-R210) -/

/-- `codeld` (R207): every page of the image is translated before any word is written, through the copy engine's cache (R194); the job's
activities on the core are held until it is done. It waits for verdicts (R359). -/
def execCodeld (r : R) (s : State) : Host.Outcome State Fault Refusal :=
  issue (.codeld r) s (fun s =>
    let va := (s.me.srcB r).toNat
    let w := (s.me.g r.c.toNat).toNat
    let vd := s.me.job.vd
    let c := { s.newCmd .codeld r with len := 4 * w }
    checked [ckFault (va % 2048 ≠ 0) 5 0 0, ckFault (w = 0 || 4 * w > s.me.xb) 6 0 0,
      fun s => if s.me.speculative then some (.hold s) else none,
      fun s => if (pagesOf c.spans).any (fun p => s.walkHeld vd (s.asidOf c) (p * pageBytes)) then some (.hold s) else none,
      fun s => if (s.translateAll c).isNone then some (.fault 9) else none]
      (fun s => match s.translateAll c with
        | none => .hold s
        | some (t, c) => accept c [] (State.modCore (fun k => { k with segs := k.segs.map (fun g =>
            if g.jid = s.me.job.jid && g.vd = vd then { g with held := true } else g) })) t) s)

/-- Whether a window range meets another registered window of an activity (R208). -/
def Activity.windowMeets (a : Activity) (w base len : Nat) : Bool :=
  a.windows.any (fun (v, x) => v ≠ w && base < x.base + x.len && x.base < base + len)

/-- Whether a spindle program streams into a window, or is asked for. -/
def Activity.windowBusy (a : Activity) (w : Nat) : Bool :=
  match a.windows.find w with
  | some x => x.prog.isSome || x.asked
  | none => false

/-- `pwin` (R208). -/
def execPwin (r : R) (s : State) : Host.Outcome State Fault Refusal :=
  issue (.pwin r) s (fun s =>
    let w := (s.me.g r.a.toNat).toNat
    let base := (s.me.g r.c.toNat).toNat
    let n := (s.me.srcB r).toNat
    checked [ckLocal 0 true base n, ckFault (base % 32 ≠ 0 || n % 32 ≠ 0 || n > 65536) 5 0 0,
      ckFault (n ≠ 0 && s.me.windowMeets w base n) 7 0 0, ckFault (s.me.windowBusy w) 7 0 0, ckFault (w > 3) 7 0 0,
      fun s => if s.me.speculative then some (.hold s) else none]
      (fun s => .done (s.modMe (fun a => { a with
        windows := if n = 0 then a.windows.del w else a.windows.put w ⟨base, n, none, false⟩ }))) s)

/-- `pwret` (R210, R287): it enters the queue and is performed once earlier accesses to the window are done. -/
def execPwret (r : R) (s : State) : Host.Outcome State Fault Refusal :=
  issue (.pwret r) s (fun s =>
    let w := (s.me.g r.a.toNat).toNat
    let streaming := w ≤ 3 && s.me.windowBusy w
    checked [ckFault (!streaming) 7 0 0, fun s => if s.me.speculative then some (.hold s) else none]
      (accept (s.newCmd .pwret r) [] id) s)

/-- `cpy.prog` (R209): the request waits in the copy queue until the spindle's program request queue has room (R452). -/
def execCpyProg (r : R) (s : State) : Host.Outcome State Fault Refusal :=
  issue (.cpyProg r) s (fun s =>
    let w := (s.me.g r.a.toNat).toNat
    let free := w ≤ 3 && (match s.me.windows.find w with
      | some x => x.prog.isNone && !x.asked
      | none => false)
    checked [ckBar 0 r, ckBarAlign r 0, ckFault (!free) 7 0 0,
      fun s => if s.me.speculative then some (.hold s) else none]
      (accept (s.newCmd .cpyProg r) [] (State.modMe (fun a => { a with windows := a.windows.map (fun (v, x) =>
        (v, if v = w then { x with asked := true } else x)) }))) s)

/-- `fence` (R223): a command of the queue with no range; a release fence waits for verdicts (R359). -/
def execFence (r : R) (s : State) : Host.Outcome State Fault Refusal :=
  issue (.fence r) s (fun s =>
    if s.me.speculative && r.sem ≠ 1 then .hold s
    else accept { s.newCmd .fence r with bar := 0 } [] id s)

end Sys2Proof.Machine
end

