-- ==== Sys2Proof/Machine/Arbiters.lean ====
section
/-! DEFINITION. The arbiters (R396-R405): their buckets and surplus pools, and the order in which they grant the requests that wait at
them. -/

namespace Sys2Proof.Machine

/-! ## Arbiters (R396) -/

/-- The class code of an arbiter. -/
def arbClass : Arbiter → Nat
  | .issue _ => 0
  | .slice _ => 1
  | .channel _ => 2
  | .port _ _ => 3
  | .boundary _ _ => 4
  | .link _ _ => 5

/-- CAP of a class. -/
def shareCap : Nat → Nat
  | 0 => 1024
  | 1 => 1024
  | 2 => 1807
  | 3 => 1024
  | 4 => 376470
  | 5 => 4216
  | _ => 0

/-- SDEPTH of a class. -/
def surplusDepth : Nat → Nat
  | 0 => 16
  | 1 => 32
  | 2 => 64
  | 3 => 16
  | 4 => 8192
  | 5 => 64
  | _ => 0

/-- RATE and DEPTH of a VD for a class (R397). -/
def Vd.shareOf (v : Vd) (c : Nat) : Nat × Nat := (v.shr.find c).getD (0, 0)

/-- The enabled VDs, in increasing order. -/
def State.enabledVds (s : State) : List (Nat × Vd) := s.vds.filter (fun v => v.2.en)

/-- The sum of RATE over the enabled VDs but one (R398). -/
def State.rateSum (s : State) (c : Nat) (but : Nat) : Nat :=
  sumOf ((s.enabledVds.filter (fun v => v.1 ≠ but)).map (fun v => (v.2.shareOf c).1))

/-! ## Refilling (R399) -/

/-- An arbiter's buckets before its first cycle. -/
def Share.empty : Share := ⟨[], 0, 63, 63⟩

/-- One VD's bucket is refilled; what it cannot hold goes to the surplus. -/
def Share.add (h : Share) (v rate depth : Nat) : Share :=
  let b := (h.tokens.find v).getD 0 + rate
  if b > depth * 1024 then { h with tokens := h.tokens.put v (depth * 1024), surplus := h.surplus + (b - depth * 1024) }
  else { h with tokens := h.tokens.put v b }

/-- An arbiter of a class is refilled for a cycle (R399). -/
def State.refillShare (s : State) (c : Nat) (h : Share) : Share :=
  let h := s.enabledVds.foldl (fun (h : Share) v => h.add v.1 (v.2.shareOf c).1 (v.2.shareOf c).2) h
  { h with surplus := min (h.surplus + (shareCap c - s.rateSum c 64)) (surplusDepth c * 1024) }

/-- The buckets of an arbiter: those of its class while it has granted nothing. -/
def State.share (s : State) (a : Arbiter) : Share :=
  match s.arbs.find? (fun x => x.1 = a) with
  | some x => x.2
  | none => (s.idle.find (arbClass a)).getD Share.empty

/-- Set the buckets of an arbiter that grants. -/
def State.setShare (a : Arbiter) (h : Share) (s : State) : State :=
  { s with arbs := if s.arbs.any (fun x => x.1 = a) then s.arbs.map (fun x => if x.1 = a then (a, h) else x) else s.arbs ++ [(a, h)] }

/-- Whether an activity's requests count as speculative (R405). -/
def State.borrowsOnly (s : State) (a : Activity) : Bool := a.speculative && !(s.vd a.job.vd).spown

/-! ## Requests and grants (R400, R403) -/

/-- What waits at arbiters: the traveller, its VD, whether it counts as speculative, the cycle in which it set out, and the tokens that its
way takes, in order. -/
structure Request where
  who : Traveller
  vd : Nat
  spec : Bool
  since : Nat
  needs : List (Arbiter × Nat)
deriving DecidableEq, Repr

/-- The passage of a traveller, which began in a cycle. -/
def State.passage (s : State) (who : Traveller) (since : Nat) : Passage :=
  (s.passing.find? (fun p => p.who = who)).getD ⟨who, since, []⟩

/-- The tokens that a traveller has not drawn yet, in the order of its way. -/
def State.owed (s : State) (who : Traveller) (needs : List (Arbiter × Nat)) : List (Arbiter × Nat) :=
  let drawn := (s.passage who 0).drawn
  needs.filterMap (fun x =>
    let n := ((drawn.find? (fun y => y.1 = x.1)).map (fun y => y.2)).getD 0
    if n < x.2 then some (x.1, x.2 - n) else none)

/-- Whether a traveller has drawn every token of its way. -/
def State.hasPassed (s : State) (who : Traveller) (needs : List (Arbiter × Nat)) : Bool := s.owed who needs = []

/-- The requests of the accesses that the machine made for itself (R403). -/
def State.transitRequests (s : State) : List Request := s.transits.map (fun t => ⟨.transit t.num, t.vd, false, t.since, t.needs⟩)

/-- Accesses of the machine's own that have drawn the tokens of their ways, and those of VDs that are no longer enabled, are over. -/
def State.endTransits (s : State) : State :=
  { s with transits := s.transits.filter (fun t => (s.vd t.vd).en && !s.hasPassed (.transit t.num) t.needs) }

/-- The arbiter at which a request waits: the first of its way that it has not passed. -/
def State.waitsAt (s : State) (r : Request) : Option Arbiter := (s.owed r.who r.needs).head?.map (fun x => x.1)

/-- Of two lists of one length, whether the first is not greater in lexicographic order. -/
def lexLe : List Nat → List Nat → Bool
  | x :: xs, y :: ys => x < y || (x = y && lexLe xs ys)
  | _, _ => true

/-- A number for a traveller, by which those that came in one cycle are told apart. -/
def Traveller.key : Traveller → List Nat
  | .unit c u => [0, c, u]
  | .shuttle u => [1, u, 0]
  | .luggage u => [2, u, 0]
  | .walk c p => [3, c, p]
  | .result u => [4, u, 0]
  | .transit n => [5, n, 0]

/-- The place of a VD in the turn that follows another's (R400). -/
def turnAfter (last vd : Nat) : Nat := (vd + 63 - last) % 64

/-- The request with the least key. -/
def firstRequest (key : Request → List Nat) : List Request → Option Request
  | [] => none
  | r :: rs => some (rs.foldl (fun b c => if lexLe (key b) (key c) then b else c) r)

/-- A request's place in the order of arrival. -/
def State.arrivalKey (s : State) (r : Request) : List Nat := (s.passage r.who r.since).since :: r.who.key

/-- Whether the VD of a request holds a bucket token that it may draw (R400, R405). -/
def Share.owns (h : Share) (r : Request) : Bool := !r.spec && 1024 ≤ (h.tokens.find r.vd).getD 0

/-- The request that an arbiter grants next, and whether it borrows: bucket tokens first, VDs in turn; then the surplus, non-speculative
requests first; within a VD in the order of arrival (R400). -/
def State.nextGrant (s : State) (a : Arbiter) (rs : List Request) : Option (Request × Bool) :=
  let h := s.share a
  let rs := rs.filter (fun r => (s.vd r.vd).en && s.waitsAt r = some a)
  match firstRequest (fun r => turnAfter h.lastOwn r.vd :: s.arrivalKey r) (rs.filter h.owns) with
  | some r => some (r, false)
  | none =>
    if h.surplus < 1024 then none
    else (firstRequest (fun r => (if r.spec then 1 else 0) :: turnAfter h.lastBorrow r.vd :: s.arrivalKey r) rs).map (fun r => (r, true))

/-- A grant to a VD costs it a token of its bucket, or one of the surplus (R399). -/
def Share.spend (h : Share) (vd : Nat) (borrow : Bool) : Share :=
  if borrow then { h with surplus := h.surplus - 1024, lastBorrow := vd }
  else { h with tokens := h.tokens.put vd ((h.tokens.find vd).getD 0 - 1024), lastOwn := vd }

/-- An arbiter grants a request: a token is drawn, and a traveller that has drawn all that it needs there goes on. -/
def State.grant (a : Arbiter) (r : Request) (borrow : Bool) (s : State) : State :=
  let p := s.passage r.who r.since
  let p : Passage := { p with drawn := sumNeeds (p.drawn ++ [(a, 1)]) }
  let s : State := { s.setShare a ((s.share a).spend r.vd borrow) with passing := s.passing.filter (fun q => q.who ≠ r.who) ++ [p] }
  if s.waitsAt r = some a then s
  else { s with passing := s.passing.map (fun q => if q.who = r.who then { q with since := s.cycle } else q) }

/-- The grants of an arbiter in a cycle: at most ⌈CAP/1,024⌉, each with the buckets as those before it left them (R399; log 60). -/
def State.grantsAt (a : Arbiter) (rs : List Request) : Nat → State → State
  | 0, s => s
  | fuel + 1, s =>
    match s.nextGrant a rs with
    | none => s
    | some (r, borrow) => State.grantsAt a rs fuel (s.grant a r borrow)

/-- Every arbiter grants what waits at it in a cycle; what a traveller has passed before is forgotten once it is not under way. -/
def State.grants (rs : List Request) (s : State) : State :=
  let here := rs.filterMap (fun r => (s.waitsAt r).map (fun a => (a, r)))
  let s := ((here.map (fun x => x.1)).eraseDups).foldl (fun s a =>
    s.grantsAt a ((here.filter (fun x => x.1 = a)).map (fun x => x.2)) ((shareCap (arbClass a) + 1023) / 1024)) s
  { s with passing := s.passing.filter (fun p => rs.any (fun r => r.who = p.who)) }

/-! ## Issue tokens (R390, R403, R405), and the traps that come before an issue (R154) -/

/-- Whether an activity's VD has a bucket token for it at its issue arbiter. -/
def State.ownToken (s : State) (a : Activity) : Bool :=
  (s.vd a.job.vd).en && !s.borrowsOnly a && 1024 ≤ ((s.share (.issue a.agent)).tokens.find a.job.vd).getD 0

/-- Whether an activity can draw an issue token (R390, R394). -/
def State.canDraw (s : State) (a : Activity) : Bool :=
  s.ownToken a || ((s.vd a.job.vd).en && 1024 ≤ (s.share (.issue a.agent)).surplus)

/-- Draw an issue token for an activity. -/
def State.drawIssue (a : Activity) (s : State) : State :=
  let arb : Arbiter := .issue a.agent
  let h := s.share arb
  s.setShare arb (h.spend a.job.vd (!s.ownToken a))

/-- Whether an activity may take an asynchronous trap: it is live, and not in a handler (R155). -/
def Activity.takesAsync (a : Activity) : Bool := a.life = .live && !a.trap.inh

/-- The refused journal entry of an activity that was refused first, the lower entry number first of two refused in one cycle, with its
number and its agent (R212). -/
def State.firstRefused (s : State) (uid : Nat) : Option (Agent × Nat × JEntry) :=
  let es := s.allCores.flatMap (fun c => (c.journal.filter (fun e => e.2.owner = uid && e.2.code ≠ 0)).map (fun e => (c.agent, e.1, e.2)))
  match es with
  | [] => none
  | e :: rest => some (rest.foldl (fun b c =>
    if c.2.2.order < b.2.2.order || (c.2.2.order = b.2.2.order && c.2.1 < b.2.1) then c else b) e)

/-- The cause of the asynchronous trap that an activity takes when it next issues, if one is pending: in the order 0x09, 0x0B, 0x08 (R154). -/
def State.asyncCause (s : State) (a : Activity) : Option Nat :=
  if !a.takesAsync then none
  else if a.trap.prb then some 9
  else if a.trap.prs && (s.firstRefused a.uid).isSome then some 0xB
  else if a.trap.pmp && a.trap.missed ≠ [] then some 8
  else none

end Sys2Proof.Machine
end

