-- ==== Sys2Proof/Machine/CopyQueue.lean ====
section
/-! DEFINITION. The copy queue at work (R200-R215, R223, R227-R233, R244, R296): starting commands, page walks, line fills, units
that land, writes that are performed, the posted-store journal and promises. -/

namespace Sys2Proof.Machine

/-! ## Finding and changing a command -/

/-- A command of some copy queue, with the agent it stands on. -/
def State.cmd? (s : State) (id : Nat) : Option (Agent × Cmd) :=
  s.allCores.findSome? (fun k => (k.copyq.find? (fun c => c.id = id)).map (fun c => (k.agent, c)))

/-- Act on a command with its owner and its agent in focus; nothing when it is gone. -/
def State.onCmd (id : Nat) (f : Cmd → State → State) (s : State) : State :=
  match s.cmd? id with
  | none => s
  | some (ag, c) =>
    let s := if (s.act? c.owner).isSome then s.focus c.owner else s
    f c (s.focusCore ag)

/-- Replace a command of the core in focus. -/
def State.putCmd (c : Cmd) (s : State) : State :=
  s.modCore (fun k => { k with copyq := k.copyq.map (fun d => if d.id = c.id then c else d) })

/-- Send a message that arrives at a cycle. -/
def State.send (k : MsgKind) (due : Nat) (s : State) : State :=
  { s with msgs := s.msgs ++ [⟨s.nextMsg, k, due⟩], nextMsg := s.nextMsg + 1 }

/-! ## Starting (R200, R223, R229, R231) -/

/-- Earlier commands of the same activity in the queue. -/
def Core.earlier (k : Core) (c : Cmd) : List Cmd := k.copyq.filter (fun d => d.owner = c.owner && d.id < c.id)

/-- Whether a command has recorded an outcome for every page it needs. -/
def Cmd.translated (c : Cmd) : Bool := (pagesOf c.spans).all (fun p => (AMap.find c.xlat p).isSome)

/-- The physical ranges of a translated command, page by page. -/
def Cmd.physSpans (c : Cmd) : List (Nat × Nat) :=
  c.spans.flatMap (fun (a, n) =>
    (pagesOf [(a, n)]).filterMap (fun p =>
      match AMap.find c.xlat p with
      | some (some (pa, _)) =>
        let lo := max a (p * pageBytes)
        let hi := min (a + n) ((p + 1) * pageBytes)
        some (pa + (lo - p * pageBytes), hi - lo)
      | _ => none))

/-- Whether a command moves raw bytes through address lines, which R240 treats as aliases of the tile lines (R231, R453). -/
def CmdKind.linear (k : CmdKind) : Bool := k = .cpyl || k = .cpylSt

/-- The physical addresses of a block-scaled command's scale bytes (R192, R291). -/
def State.scalePas (s : State) (c : Cmd) : List Nat :=
  match c.target with
  | none => []
  | some t =>
    if !isBlock t.desc.fmt || c.kind.linear then []
    else ((List.range c.units).flatMap c.unitSrc).filterMap (fun (_, x) => match x with
      | .scale _ _ => (s.resolve t c.xlat false x).toOption.join.map (fun l => l.pa)
      | .band _ _ _ => (s.resolve t c.xlat false x).toOption.join.map (fun l => l.pa)
      | _ => none)

/-- Whether two commands overlap (R231): they name the same tensor and share a byte of physical memory, of its rows or of its scales; one
that is not translated yet may share any. A linear copy and a command of tiles or rows do not. -/
def State.overlaps (s : State) (c d : Cmd) : Bool :=
  c.tid = d.tid && c.tid ≠ 0 &&
  (c.kind = .tflush || d.kind = .tflush ||
   (c.kind.linear = d.kind.linear &&
    (!c.translated || !d.translated ||
     c.physSpans.any (fun (a, n) => d.physSpans.any (fun (b, m) => a < b + m && b < a + n)) ||
     (s.scalePas c).any (fun pa => pa ∈ s.scalePas d))))

/-- Whether the scoreboard lets a command start: none of its ranges waits for an earlier access (R22). -/
def Activity.rangesFree (a : Activity) (c : Cmd) : Bool :=
  (a.claims.filter (fun x => x.cmd = c.id)).all (fun x => !a.rangeBusy c.id x.write x.start x.len)

/-- The physical addresses of the bytes of an image that a `codeld` reads, each with its outcome (R207, R453). -/
def Cmd.imagePas (c : Cmd) : List (Except Nat Nat) := (List.range c.len).map (fun k => PageMap.apply c.xlat false (c.opB.toNat + k))

/-- The lines of a unit; those of an image are address lines (R453). -/
def State.unitLines (s : State) (c : Cmd) (u : Nat) : List LineKey :=
  match c.target with
  | none => if c.kind = .codeld then addrKeys c.vd (c.imagePas.filterMap (fun r => r.toOption)) else []
  | some t => s.linesOf t c.xlat c.kind.isWrite ((c.unitSrc u).map (fun p => p.2))

/-- What a fill of a command's line brings in. -/
def State.lineSet (s : State) (c : Cmd) (k : LineKey) : FillSet :=
  match c.target with
  | none => k.addrFill
  | some t => s.fillSet t c.xlat k

/-- Whether the last beat of a write has left its fabric port (R228). -/
def Cmd.leftPort (c : Cmd) (cycle : Nat) : Bool := c.started && c.due ≤ cycle

/-- The latency from an agent to a boundary of its die (R17). -/
def boundaryLatency : Nat := 13

/-- Whether a write of an agent's queue is performed at a scope (R228): for `.sys`, host, CXL and peer lines are then to be written
through. -/
def State.performedAt (s : State) (scope : Nat) (ag : Agent) (c : Cmd) : Bool :=
  match scope with
  | 0 => c.leftPort s.cycle
  | 1 => c.leftPort s.cycle && (c.kind ≠ .tflush || c.todo = []) &&
      c.todo.all (fun u => (s.unitLines c u).all (fun k => s.homeSlice k / 96 ≠ agentDie ag)) &&
      (c.todo = [] || c.due + boundaryLatency ≤ s.cycle)
  | _ => c.started && c.todo = []

/-- Whether writes are performed at a scope: those that are in no queue any more are. -/
def State.allPerformed (s : State) (scope : Nat) (ids : List Nat) : Bool :=
  ids.all (fun id => match s.cmd? id with
    | some (ag, d) => s.performedAt scope ag d
    | none => true)

/-- Those of some writes that are not performed at their home slices. -/
def State.unperformed (s : State) (ids : List Nat) : List Nat := (ids.eraseDups).filter (fun id => !s.allPerformed 2 [id])

/-- The writes that an activity has observed before a command (R235) and that are not performed at their home slices: its own earlier ones,
and those it has learned of. -/
def State.observed (s : State) (k : Core) (a : Activity) (mark : Nat) : List Nat :=
  s.unperformed (((k.copyq.filter (fun d => d.owner = a.uid && d.id < mark && d.kind.isWrite)).map (fun d => d.id)) ++ a.seen)

/-- Whether a fence, or an earlier strong command, holds a command (R223, R229). -/
def Core.fenced (k : Core) (c : Cmd) : Bool :=
  (k.earlier c).any (fun d => d.kind = .fence || d.sem = 1 || d.sem = 3)

/-- Whether a command reads, and has not delivered: the rows of `scat` and `red` are reads too (R226). -/
def Cmd.reading (c : Cmd) : Bool := c.kind.isRead || (c.kind.readsRows && c.todo ≠ [])

/-- Whether what a release at a scope waits for is done: earlier reads are delivered, and the writes that the activity has issued or observed
are performed there (R229, R235). -/
def State.released (s : State) (scope : Nat) (a : Activity) (before : List Cmd) : Bool :=
  before.all (fun d => !d.reading && (!d.kind.isWrite || s.performedAt scope s.core.agent d)) && s.allPerformed scope a.seen

/-- The owner of a command of the core in focus. -/
def State.ownerOf (s : State) (c : Cmd) : Activity := (s.act? c.owner).getD s.me

/-- Whether the order of commands of one activity holds a command (R229, R231): a release waits for reads that have not delivered and for
writes that are not performed at its scope. -/
def State.ordered (s : State) (c : Cmd) : Bool :=
  let before := s.core.earlier c
  ((c.sem = 2 || c.sem = 3) && !s.released c.scope (s.ownerOf c) before) ||
  (c.kind.isWrite && before.any (fun d => d.kind.isRead)) ||
  before.any (fun d => (c.kind.isWrite || d.kind.isWrite) && (d.kind.isRead || d.kind.isWrite) &&
    (c.kind.isRead || c.kind.isWrite) && s.overlaps c d)

/-- Whether a fence is complete: reads are delivered, and for a release or sc fence writes are performed at its scope (R223, R229). -/
def State.fenceDone (s : State) (c : Cmd) : Bool :=
  let before := s.core.earlier c
  !before.any (fun d => d.kind = .fence) && (if c.sem = 1 then before.all (fun d => !d.reading) else s.released c.scope (s.ownerOf c) before)

/-- Whether the scope instances of two agents are one (R226). -/
def sameInstance (scope : Nat) (a b : Agent) : Bool :=
  match scope with
  | 0 => a = b
  | 1 => agentDie a = agentDie b
  | _ => true

/-- Whether an `.sc` command waits for another of its scope instance that has started: each of them takes its place in one order when it
starts, and is served whole before the next (R230; DEDUCED, log 128). -/
def State.scHeld (s : State) (c : Cmd) : Bool :=
  c.sem = 3 && s.allCores.any (fun k => k.copyq.any (fun d =>
    d.id ≠ c.id && d.sem = 3 && d.scope = c.scope && sameInstance c.scope k.agent s.core.agent && d.started && d.todo ≠ []))

/-- Whether an earlier command of the activity that has not started names a range that meets one of a command: it lets only commands on
other ranges pass (R200). -/
def State.rangesPassed (s : State) (a : Activity) (c : Cmd) : Bool :=
  (s.core.earlier c).any (fun d => !d.started && a.claims.any (fun x => x.cmd = d.id &&
    a.claims.any (fun y => y.cmd = c.id && beatsOverlap x.start x.len y.start y.len)))

/-- Whether an earlier `.u` command of the activity may still read a window (R24, R287). -/
def Core.readsWindow (k : Core) (c : Cmd) (w : Window) : Bool :=
  (k.earlier c).any (fun d => d.u && d.kind.isWrite && d.todo ≠ [] && beatsOverlap d.base d.len w.base w.len)

/-- Whether some page of a command lies in the memory of a peer module. -/
def Cmd.towards (c : Cmd) (p : Nat) : Bool :=
  c.xlat.any (fun x => match x.2 with
    | some (pa, _) => (match paKind pa with
      | .peer q _ _ => q = p
      | _ => false)
    | none => false)

/-- The module whose route is being changed (R436). -/
def State.routing (s : State) : Option Nat :=
  match s.svc.run with
  | some r => if r.op = 6 && !r.done then some (r.arg % 512) else none
  | none => none

/-- Whether a command waits for a change of the route that it would take (R436). -/
def State.routeHeld (s : State) (c : Cmd) : Bool := s.routing.any c.towards

/-- Whether a command of the core in focus could start in this cycle. -/
def State.startable (s : State) (c : Cmd) : Bool :=
  let k := s.core
  let a := (s.act? c.owner).getD s.me
  !c.started && !c.held && c.issued ≤ s.cycle &&
  (match c.kind with
   | .fence => s.fenceDone c
   | .pwret =>
     !k.fenced c && (match a.windows.find c.opA.toNat with
       | some w => !a.rangeBusy c.id true w.base w.len && !k.readsWindow c w
       | none => true)
   | _ => !k.fenced c && a.rangesFree c && !s.rangesPassed a c && !s.ordered c && !s.scHeld c && !s.routeHeld c && c.translated)

/-- Lines of host, CXL and peer memory that are dirty are written through (R228). -/
def State.writeThrough (s : State) : State :=
  s.cleanLines (fun l => l.sects.any (fun t => t.2.cells.any (fun c => !(paKind c.1 = .device))))

/-- Send the return update of `pwret` (R210, R287); a window whose program has named no return barrier takes none. -/
def State.returnWindow (w : Nat) (s : State) : State :=
  match (s.me.windows.find w).bind (fun x => x.prog) with
  | none => s
  | some u =>
    match (s.act? u).bind (fun p => p.prog) with
    | some p => if p.ret = 0 then s else s.send (.update u p.ret 0 1 0) (s.cycle + 1)
    | none => s

/-- Whether a spindle takes no program: it is retired, being retired, or on a die that takes a warm reset (R431, R433, R438). -/
def State.spindleOut (s : State) (n : Nat) : Bool :=
  n ∈ s.svc.spindlesRetired ||
  (match s.svc.run with
   | some r => r.op = 2 && r.arg = n && !r.done
   | none => false) ||
  (match s.svc.warm with
   | some (d, _) => n / 96 = d
   | none => false)

/-- The spindle that serves core k's requests (R280); a retired one's go to the next (R431). -/
def State.programSpindle (s : State) (core : Nat) : Nat :=
  let quad := core / 256
  let i := ((List.range 24).find? (fun n => !s.spindleOut (quad * 24 + (core + n) % 24))).getD 0
  quad * 24 + (core % 24 + i) % 24

/-- Whether a command could go now: it may start, and a program request finds room in its spindle's queue (R280, R452). -/
def State.canGo (s : State) (c : Cmd) : Bool :=
  s.startable c && (c.kind ≠ .cpyProg || (s.coreOf ⟨.spindle, s.programSpindle s.core.agent.num⟩).progq.length < 64)

/-- Whether it is a command's turn to start: at most one starts in a cycle, in issue order; one that waits lets later ones pass (R200). -/
def State.turnOf (s : State) (c : Cmd) : Bool :=
  s.core.startedAt ≠ s.cycle + 1 && s.canGo c && !s.core.copyq.any (fun d => d.id < c.id && s.canGo d)

/-! ## Lines (R297, R407) -/

/-- Whether a command's reads may be served by replicas (R232). -/
def Cmd.weakRead (c : Cmd) : Bool := c.kind.isRead && c.kind ≠ .pfx && c.sem = 0

/-- The replica that a command reads a line through, if any. -/
def State.replicaFor (s : State) (c : Cmd) (k : LineKey) : Option Nat :=
  if c.weakRead && s.core.agent.kind ≠ .spindle then s.replicaSlice k (agentDie s.core.agent) else none

/-- Whether a line is where a command meets it. -/
def State.atHand (s : State) (c : Cmd) (k : LineKey) : Bool :=
  match s.replicaFor c k with
  | some r => s.cache.lines.any (fun l => l.key = k && l.replica && l.slice = r)
  | none => (s.cache.home k).isSome

/-- Whether a read's unit comes behind a write that has left the same port, or the same die's boundary: a read served from then on returns
it (R18, R228). -/
def State.fifoHeld (s : State) (c : Cmd) (u : Nat) : Bool :=
  let ag := s.core.agent
  let ks := s.unitLines c u
  c.kind.isRead && s.allCores.any (fun k => agentDie k.agent = agentDie ag && k.copyq.any (fun d =>
    d.id ≠ c.id && d.kind.isWrite && d.started && (if k.agent = ag then d.due ≤ s.cycle else d.due + boundaryLatency ≤ s.cycle) &&
    d.todo.any (fun v => (s.unitLines d v).any (fun x => x ∈ ks && (k.agent = ag || s.homeSlice x / 96 ≠ agentDie ag)))))

/-- Whether a unit whose request a bucket move has held waits for an earlier one of the same issuer: they are sent in issue order (R296). -/
def State.heldBehind (s : State) (c : Cmd) (u : Nat) : Bool :=
  u ∈ c.heldUnits && (s.core.copyq.any (fun d => d.id < c.id && d.heldUnits.any (fun v => v ∈ d.todo)) ||
    (c.heldUnits.filter (fun v => v ∈ c.todo)).head? ≠ some u)

/-- Whether a line of a unit lies in a bucket that is moving, and no replica serves it (R296). -/
def State.onHold (s : State) (c : Cmd) (u : Nat) : Bool :=
  (s.unitLines c u).any (fun k => (s.bucket k.bucket).hold && !((s.replicaFor c k).isSome && s.atHand c k))

/-- Whether some source of a unit lies at an address that meets a test. -/
def State.unitAt (s : State) (c : Cmd) (u : Nat) (p : Nat → Bool) : Bool :=
  match c.target with
  | none => c.kind = .codeld && c.imagePas.any (fun r => match r with
      | .ok pa => p pa
      | .error _ => false)
  | some t => (c.unitSrc u).any (fun x => match s.resolve t c.xlat c.kind.isWrite x.2 with
    | .ok (some l) => p l.pa
    | _ => false)

/-- Whether a request waits without a timeout for a die that takes a warm reset: its channels are in self-refresh, and its CXL ports do not
answer (R438, steps 5 to 10). -/
def State.warmHeld (s : State) (pa : Nat) : Bool :=
  match s.svc.warm with
  | some (d, 4) => (match paKind pa with
      | .device => channelOf pa / 96 = d
      | .cxl w _ => w / 2 = d
      | _ => false)
  | _ => false

/-- Whether an address is CXL memory whose port is expected to answer (R414, R438). -/
def State.cxlAt (s : State) (pa : Nat) : Bool :=
  match paKind pa with
  | .cxl _ _ => !s.warmHeld pa
  | _ => false

/-- The cycles after which a request to CXL memory, or over a link that is down, completes with REFUSED (R414, R436). -/
def requestLimit : Nat := 170000

/-- Whether a request of a command to CXL memory has waited too long to be served any more (R414). -/
def State.tooLate (s : State) (c : Cmd) (u : Nat) : Bool :=
  c.started && c.startedAt + requestLimit ≤ s.cycle && s.unitAt c u s.cxlAt

/-- Whether a unit's lines are at hand, or were filled and not kept (R407), or it lies in switch space, which the tile cache does not hold
(R419); a bucket move does not hold it (R296), nothing that has to come first is outstanding, and it has not waited too long (R414). -/
def State.unitReady (s : State) (c : Cmd) (u : Nat) : Bool :=
  let ks := s.unitLines c u
  !(u ∈ c.heldUnits && s.onHold c u) &&
  (u ∈ c.filled || s.unitAt c u isSwitch || ks.all (fun k => s.atHand c k)) && !s.fifoHeld c u && !s.heldBehind c u && !s.tooLate c u

/-! ## Starts and ways (R200, R403) -/

/-- A command starts; a write's last beat leaves the port after as many cycles as it has beats (R18, R228). -/
def Cmd.start (c : Cmd) (cycle : Nat) : Cmd :=
  { c with started := true, startedAt := cycle, due := if c.kind.isWrite then cycle + (c.len + 63) / 64 else c.due }

/-- The units of a command that starts while a bucket of their lines is moving are held (R296). -/
def State.holdUnits (s : State) (c : Cmd) : Cmd := { c with heldUnits := c.todo.filter (s.onHold c) }

/-- COPY_START: the queue starts a command (R200). A fence that is complete and a `pwret` end here; a release or sc command at `.sys` first
has host, CXL and peer memory written through (R228, R235). -/
def execCopyStart (cmd : Nat) (s : State) : Host.Outcome State Fault Refusal :=
  .next (s.onCmd cmd (fun c s =>
    if c.kind = .cpyProg || !s.turnOf c then s
    else
      let s := s.modCore (fun k => { k with startedAt := s.cycle + 1 })
      let s := if (c.sem = 2 || c.sem = 3) && c.scope = 3 then s.writeThrough else s
      match c.kind with
      | .fence => s.dropCmd c
      | .pwret => (s.returnWindow c.opA.toNat).dropCmd c
      | _ =>
        let covers := if c.kind.isWrite && 2 ≤ c.sem then s.observed s.core (s.ownerOf c) c.id else []
        s.putCmd { s.holdUnits (c.start s.cycle) with covers := covers }))

/-- What is under way for a command: its units, or the whole of a stream command that moves local bytes only. -/
def Cmd.trips (c : Cmd) : List Nat :=
  match c.kind with
  | .sfmt => [0]
  | .sfill => [0]
  | .fence => []
  | .pwret => []
  | .cpyProg => []
  | _ => c.todo

/-- The bursts that filling a line takes, those of writing its victim back among them (R396, R407). -/
def State.lineBursts (s : State) (c : Cmd) (k : LineKey) : List (Arbiter × Nat) :=
  let f := s.lineSet c k
  burstsOf (f.sects.flatMap (fun x => x.2.1 ++ x.2.2) ++ f.band) ++
  (match s.allocWay c.vd (s.homeSlice k) k.set with
   | some (_, _, some l) => l.backBursts
   | _ => [])

/-- The slice that serves a line for a command. -/
def State.sliceNear (s : State) (c : Cmd) (k : LineKey) : Nat := (s.replicaFor c k).getD (s.homeSlice k)

/-- The physical bytes of a unit with their lines. -/
def State.unitLocs (s : State) (c : Cmd) (u : Nat) : List Loc :=
  match c.target with
  | none => if c.kind = .codeld then c.imagePas.filterMap (fun r => r.toOption.map (addrLoc c.vd)) else []
  | some t => (c.unitSrc u).filterMap (fun x => (s.resolve t c.xlat c.kind.isWrite x.2).toOption.join)

/-- The lines of a tensor, in every slice and replica. -/
def State.tensorLines (s : State) (c : Cmd) : List Line := s.cache.lines.filter (fun l => l.key.vd = c.vd && l.key.tid = c.tid)

/-- The tokens that a unit of a command of the core in focus draws on its way: of the slices of its lines, of the channels of those that
are to be filled or written back, of the die boundaries and the ports that its bytes pass, and of the link to a peer module (R403). Switch
space has no slice (R419). -/
def State.unitNeeds (s : State) (c : Cmd) (u : Nat) : List (Arbiter × Nat) :=
  if c.kind = .tflush then sumNeeds ((s.tensorLines c).flatMap (fun l => (.slice l.slice, 1) :: l.backBursts))
  else
    let direct := s.unitAt c u isSwitch
    let ks := if direct then [] else s.unitLines c u
    let locs := s.unitLocs c u
    let beats (k : LineKey) : Nat := if c.kind = .pfx then 0 else ((locs.filter (fun l => l.key = k)).length + 63) / 64
    let way (k : LineKey) : List (Arbiter × Nat) :=
      let sl : Agent := ⟨.spindle, s.sliceNear c k⟩
      if sl = s.core.agent then [] else if c.kind.isWrite then s.wayTo s.core.agent sl (beats k) else s.wayTo sl s.core.agent (beats k)
    let links := locs.filterMap (fun l => match paKind l.pa with
      | .peer p _ _ => s.svc.routes.find p
      | _ => none)
    sumNeeds (ks.map (fun k => (.slice (s.sliceNear c k), 1)) ++
      (if u ∈ c.filled then [] else (ks.filter (fun k => !s.atHand c k)).flatMap (s.lineBursts c)) ++
      (links.eraseDups).map (fun l => (.link l c.kind.isWrite, ((links.filter (fun m => m = l)).length + 63) / 64)) ++
      (if direct then (links.eraseDups).flatMap (fun l => s.wayTo s.core.agent ⟨.gateway, l⟩ ((locs.length + 63) / 64)) else ks.flatMap way))

/-- Whether a unit has drawn what it needs up to the lines that are to be filled for it. -/
def State.mayFill (s : State) (c : Cmd) (u : Nat) : Bool :=
  (s.owed (.unit c.id u) (s.unitNeeds c u)).all (fun x => arbClass x.1 ≠ 1 && arbClass x.1 ≠ 2)

/-- Whether the rows of a tensor do not overlap, and begin at multiples of 32 bytes. -/
def Desc.rowsApart (d : Desc) : Bool :=
  d.base % 32 = 0 && (d.d1 = 1 || (d.s1 % 32 = 0 && d.rb ≤ d.s1)) && (d.d2 = 1 || (d.s2 % 32 = 0 && d.d1 * d.s1 ≤ d.s2)) &&
  (d.d3 = 1 || (d.s3 % 32 = 0 && d.d2 * d.s2 ≤ d.s3))

/-- Whether no two units of a command share an aligned beat of local memory, nor, for a write, an aligned sector of memory. -/
def Cmd.apart (c : Cmd) : Bool :=
  c.base % 32 = 0 && (match c.desc with
    | none => true
    | some d =>
      if c.kind.linear then !c.kind.isWrite || d.base % 32 = 0
      else !isBlock d.fmt && (!c.kind.isWrite || (d.rowsApart && c.idx.eraseDups.length = c.idx.length)))

/-- The units that are served together with one: a sector that one command writes is written at once (R227), and a beat of its local source
is carried whole (R242); where units of a write share one, all that are left are served in one step (DEDUCED, log 116). -/
def Cmd.batch (c : Cmd) (u : Nat) : List Nat := if c.apart || !c.kind.isWrite then [u] else c.todo

/-- Copy the home line of a tag into a replica slice (R297). -/
def State.fillReplica (vd : Nat) (k : LineKey) (slice : Nat) (s : State) : State :=
  match s.cache.home k, s.allocWay vd slice k.set with
  | some h, some (way, borrowed, victim) =>
    let s := match victim with
      | some l => s.evictLine l
      | none => s
    let l := { h with slice := slice, way := way, replica := true, borrowed := borrowed, bandDirty := false,
                      sects := h.sects.map (fun (i, t) => (i, { t with dirty := false })) }
    { s with cache := { s.cache with lines := s.cache.lines ++ [l] } }
  | _, _ => s

/-- The earliest cycle of a fill (R213): the request's way, and the memory's. -/
def State.fillTime (s : State) (c : Cmd) (ks : List LineKey) : Nat :=
  match ks.head? with
  | some k =>
    let sl := s.sliceAgent k
    let pa := ((s.lineSet c k).sects.findSome? (fun x => x.2.1.head?)).getD 0
    c.issued + 5 + 2 * levelLatency s.core.agent sl + s.memoryTime sl pa
  | none => c.issued

/-- Whether a unit waits behind another that a warm reset of a die has held: these are released in the order in which they arrived at each
slice (R438, step 10). -/
def State.warmBehind (s : State) (c : Cmd) (u : Nat) : Bool :=
  u ∈ c.warmUnits && s.allCores.any (fun k => k.copyq.any (fun d => d.warmUnits.any (fun v =>
    lexLe [d.startedAt, d.id, v] [c.startedAt, c.id, u] && (d.id, v) ≠ (c.id, u) && v ∈ d.todo && v ∉ d.filled &&
    (s.unitLines d v).any (fun x => (s.unitLines c u).any (fun y => s.homeSlice x = s.homeSlice y)))))

/-- LINE_FILL: the lines of a unit that are not at hand are filled, each allocating a way in its slice, at the home slices or
(for `replica`) from there into the replica slices, which fill from nowhere else. -/
def execLineFill (cmd unit : Nat) (replica : Bool) (s : State) : Host.Outcome State Fault Refusal :=
  .next (s.onCmd cmd (fun c s =>
    let ks := s.unitLines c unit
    let home := ks.filter (fun k => (s.cache.home k).isNone)
    if !c.started || unit ∉ c.todo || unit ∈ c.filled || ks.all (fun k => s.atHand c k) || s.unitAt c unit isSwitch ||
        (unit ∈ c.heldUnits && s.onHold c unit) || s.unitAt c unit s.warmHeld || s.warmBehind c unit || !s.mayFill c unit then s
    else if !replica then
      if s.cycle < s.fillTime c home then s
      else
        let s := home.foldl (fun s k => s.fill c.vd k (s.homeSlice k) false (s.lineSet c k)) s
        let more := ks.any (fun k => (s.replicaFor c k).isSome) && ks.all (fun k => (s.cache.home k).isSome)
        s.putCmd { c with filled := if more then c.filled else setInsert c.filled unit, due := max c.due s.cycle }
    else if ks.any (fun k => (s.replicaFor c k).isSome && (s.cache.home k).isNone) then s
    else
      let s := ks.foldl (fun s k =>
        match s.replicaFor c k with
        | some r => if s.atHand c k then s else s.fillReplica c.vd k r
        | none => s) s
      s.putCmd { c with filled := setInsert c.filled unit }))

/-! ## Translations (R194, R298) -/

/-- The spindle that walks for an agent (R194, R420): core k's is k mod 24 of its quadrant, a gateway core's the first that is not retired;
a retired one's walks go to the next (R431), and a spindle walks for itself. -/
def State.walker (s : State) (ag : Agent) : Agent :=
  match ag.kind with
  | .compute => ⟨.spindle, s.programSpindle ag.num⟩
  | .spindle => ag
  | .gateway =>
    let q := ag.num * 24
    ⟨.spindle, q + ((List.range 24).find? (fun i => q + i ∉ s.svc.spindlesRetired)).getD 0⟩

/-- The first page of a command with no outcome yet. -/
def Cmd.pageOwed (c : Cmd) : Option Nat := (pagesOf c.spans).find? (fun p => (AMap.find c.xlat p).isNone)

/-- The tokens that a walk draws on its way: at the slices of the entries, at the channels of those that are to be filled, and for the
entries' and the answer's beats (R299, R403). -/
def State.walkNeeds (s : State) (ag : Agent) (vd asid va : Nat) : List (Arbiter × Nat) :=
  let w := s.walker ag
  let way (a b : Agent) : List (Arbiter × Nat) := if a = b then [] else s.wayTo a b 1
  sumNeeds (((addrKeys vd (s.walkReads vd asid va)).flatMap (fun k =>
    (.slice (s.homeSlice k), 1) :: ((if (s.cache.home k).isSome then [] else burstsOf (k.addrFill.sects.flatMap (fun x => x.2.1))) ++
      way (s.sliceAgent k) w))) ++ way w ag)

/-- The requests of the walks of commands of an agent. -/
def State.walkRequests (s : State) (k : Core) : List Request :=
  k.copyq.filterMap (fun c => c.pageOwed.bind (fun p =>
    if (k.tlbFind c.vd (s.asidOf c) (p * pageBytes)).isSome then none
    else some ⟨.walk c.id p, c.vd, false, c.issued, s.walkNeeds k.agent c.vd (s.asidOf c) (p * pageBytes)⟩))

/-- PAGE_WALK: the first page of a command with no outcome yet is looked up, or walked by the agent's spindle (R194, R420): its request
takes the way there and back, and a walk fills the cache. A walk of lines in a bucket that moves waits (R296). -/
def execPageWalk (cmd : Nat) (s : State) : Host.Outcome State Fault Refusal :=
  .next (s.onCmd cmd (fun c s =>
    match c.pageOwed with
    | none => s
    | some p =>
      let va := p * pageBytes
      let asid := s.asidOf c
      match s.core.tlbFind c.vd asid va with
      | some x => (s.modCore (fun k => k.tlbFill x)).putCmd { c with xlat := AMap.put c.xlat p (some (x.apply va, x.writable)) }
      | none =>
        if s.walkHeld c.vd asid va || s.cycle < c.issued + 2 * levelLatency s.core.agent (s.walker s.core.agent) ||
            !s.hasPassed (.walk c.id p) (s.walkNeeds s.core.agent c.vd asid va) then s
        else
          let found := s.walk c.vd asid va
          let s := s.fetchWalk c.vd asid va
          match found with
          | some x => (s.modCore (fun k => k.tlbFill x)).putCmd
              { c with xlat := AMap.put c.xlat p (some (x.apply va, x.writable)) }
          | none => s.putCmd { c with xlat := AMap.put c.xlat p none }))

/-- DESCRIPTOR_READ: the tensor descriptor that an activity waits for is read, and kept for the job (R193). A read of a line in a bucket that
moves waits (R296). -/
def execDescriptorRead (uid : Nat) (s : State) : Host.Outcome State Fault Refusal :=
  .next (match s.act? uid with
    | none => s
    | some a =>
      match a.descWait with
      | none => s
      | some tid =>
        let s := s.focus uid
        let vd := a.job.vd
        let pa := s.tableAddr vd tid
        let since := a.firstTry.getD s.cycle
        if s.cycle + 1 < since + 6 + 2 * levelLatency a.agent (s.sliceAgent (addrKey vd pa)) || s.addrHeld vd [pa] then s
        else
          (if (s.findDesc tid).isSome then s else s.readDesc vd a.descJob tid).modMe (fun a => { a with descWait := none }))

/-! ## Units of loads (R201-R205, R211, R244) -/

/-- Whether an address is peer memory behind a link that is down: such a request ends by LINK_DOWN_TIMEOUT (R436); on a link of a die that takes
a warm reset it is refused at once (R438, step 5). -/
def State.linkWaits (s : State) (pa : Nat) : Bool :=
  match paKind pa with
  | .peer p _ _ =>
    (match s.svc.routes.find p with
     | some l => l ∉ s.svc.linksUp && s.cutDie ≠ some (l / 4)
     | none => false)
  | _ => false

/-- The machine as a command sees it: with the number that the module had at its issue (R417). -/
def State.asModule (m : BitVec 9) (s : State) : State := { s with svc := { s.svc with modid := m } }

/-- A read of one source byte, refused where a test says so; at the replica that serves the command, if any (R232, R297). -/
def State.readOne (s : State) (c : Cmd) (t : Target) (refuse : Nat → Bool) (x : Src) : Except Nat Byte :=
  match s.resolve t c.xlat false x with
  | .error e => .error e
  | .ok none => .ok 0
  | .ok (some l) => if refuse l.pa then .error errRefused else s.loadVia (s.replicaFor c l.key) t.vd l

/-- A read of a source: the scale bytes of a sector that fails fail with it (R286, R289). -/
def State.readSrc (s : State) (c : Cmd) (t : Target) (refuse : Nat → Bool) (x : Src) : Except Nat Byte :=
  match x with
  | .scale r b =>
    let lo := b / 32 * 32
    let sector := [lo, min (lo + 31) (t.desc.rb - 1)].findSome? (fun k => match s.readOne c t refuse (.cell r k) with
      | .error e => some e
      | .ok _ => none)
    (match sector with
     | some e => .error e
     | none => s.readOne c t refuse x)
  | x => s.readOne c t refuse x

/-- Whether a unit of a gather holds a row whose index is out of range (R206). -/
def Cmd.zeroFilled (c : Cmd) (xs : List (Nat × Src)) : Bool :=
  match c.kind, c.desc with
  | .gath, some d => xs.any (fun (o, _) =>
      let r : Int := c.idx.getD (o / d.rbp) 0
      r < 0 || r ≥ (d.nr : Int))
  | _, _ => false

/-- The end of a list of outcomes: the first error. -/
def firstError (xs : List (Nat × Except Nat Byte)) : Nat :=
  (xs.findSome? (fun x => match x.2 with
    | .error e => some e
    | .ok _ => none)).getD 0

/-- Count the accesses of a command to lines where they are served: at a replica, or at home (R294). -/
def State.countServed (c : Cmd) (ks : List LineKey) (s : State) : State :=
  s.countAt (ks.map (fun k => ((s.replicaFor c k).getD (s.homeSlice k), k)))

/-- Local bytes of an activity land, each with its byte or, where it could not be delivered, none. -/
def State.landCells (uid : Nat) (cells : List (Nat × Option Byte)) (s : State) : State :=
  s.modAct uid (fun a => { a with lm := a.lm.land cells })

/-- The bytes of a unit of a load with their local addresses, and the first error met in them. -/
def State.unitCells (s : State) (c : Cmd) (t : Target) (refuse : Nat → Bool) (xs : List (Nat × Src)) : List (Nat × Option Byte) × Nat :=
  let out := xs.map (fun (o, x) => (o, (s.asModule c.modid).readSrc c t refuse x))
  (out.map (fun (o, r) => (c.base + o, r.toOption)), firstError out)

/-- The beats of a unit that have landed, and the error met in them. -/
def Cmd.landed (c : Cmd) (u : Nat) : Nat × Nat := (c.landing.find u).getD (0, 0)

/-- Whether beat k of a unit has passed the agent's port (R403): nothing is owed but beats behind it there. -/
def State.beatPassed (s : State) (c : Cmd) (u k : Nat) : Bool :=
  let port (xs : List (Arbiter × Nat)) : Nat := sumOf ((xs.filter (fun x => x.1 = portTo s.core.agent)).map (fun x => x.2))
  let needs := s.unitNeeds c u
  let left := s.owed (.unit c.id u) needs
  left = [] || (left.all (fun x => x.1 = portTo s.core.agent) && k + port left < port needs)

/-- Whether a byte of a load that has not come yet lands in a 32-byte beat of local memory. -/
def Cmd.owes (c : Cmd) (beat : Nat) : Bool :=
  c.todo.any (fun u => ((c.unitSrc u).drop (64 * (c.landed u).1)).any (fun x => (c.base + x.1) / 32 = beat))

/-- Bytes of a load come: they land with their whole beat of local memory, and wait for the rest of it where units share one (R24). -/
def State.landWhole (c : Cmd) (cells : List (Nat × Option Byte)) (s : State) : State × Cmd :=
  let cells := c.staged ++ cells
  if c.apart || c.todo = [] then (s.landCells c.owner cells, { c with staged := [] })
  else (s.landCells c.owner (cells.filter (fun x => !c.owes (x.1 / 32))), { c with staged := cells.filter (fun x => c.owes (x.1 / 32)) })

/-- A read of an acquire or sc command of the core in focus that returns the value of a release write synchronises its activity with the
writer, when the instances of both scopes hold both (R234): it has then observed what that release covers (R235). -/
def State.acquire (c : Cmd) (xs : List (Nat × Src)) (s : State) : State :=
  if (c.sem ≠ 1 && c.sem ≠ 3) || s.cache.released = [] then s
  else match c.target with
    | none => s
    | some t =>
      let pas := xs.filterMap (fun x => (s.resolve t c.xlat false x.2).toOption.join.map (fun l => l.pa))
      let ag := s.core.agent
      let ids := (s.cache.released.filter (fun r => sameInstance r.scope r.agent ag && sameInstance c.scope r.agent ag &&
        r.pas.any (fun pa => pa ∈ pas))).flatMap (fun r => r.covers)
      s.modAct c.owner (fun a => { a with seen := s.unperformed (a.seen ++ ids) })

/-- The next beat of a unit of a load, but for the last, lands uncounted (R244, step 2). -/
def State.landBeat (cmd u : Nat) (s : State) : State :=
  s.onCmd cmd (fun c s =>
    match c.target with
    | none => s
    | some t =>
      let (k, e) := c.landed u
      let xs := (c.unitSrc u).drop (64 * k)
      if !c.started || !c.kind.isLoad || u ∉ c.todo || s.cycle < c.due || xs.length ≤ 64 || !s.unitReady c u ||
          !s.beatPassed c u k || s.unitAt c u s.linkWaits || s.unitAt c u s.warmHeld then s
      else
        let (cells, e2) := s.unitCells c t (fun _ => false) (xs.take 64)
        let s := s.acquire c (xs.take 64)
        let (s, c) := s.landWhole { c with landing := AMap.put c.landing u (k + 1, if e = 0 then e2 else e) } cells
        s.putCmd c)

/-- Deliver the rest of a unit of a load: its good bytes land, the words of the others land poisoned, the barrier counts them all (R211,
R244, R450). The command counts toward the phase that its bytes are counted in. -/
def State.landUnit (c : Cmd) (u : Nat) (refuse : Nat → Bool) (s : State) : State :=
  match c.target with
  | none => s.dropCmd c
  | some t =>
    let xs := c.unitSrc u
    let (k, e) := c.landed u
    let (cells, e2) := s.unitCells c t refuse (xs.drop (64 * k))
    let e := if e = 0 then e2 else e
    let code := if e ≠ 0 then e else if c.zeroFilled xs then 1 else 0
    let n := xs.length
    let phase := ((s.act? c.owner).map (fun a => (a.bar c.bar).phase)).getD c.phase
    let s := s.acquire c (xs.drop (64 * k))
    let (s, c) := (s.countServed c (s.unitLines c u)).landWhole { c with todo := c.todo.erase u, landing := c.landing.del u } cells
    let s := (s.barNote c.owner c.bar n 0 code).modCore (fun k => { k with portFree := s.cycle })
    let c : Cmd := { c with
      kept := c.kept + 1
      counted := if c.bar = 0 then 0 else if phase = c.phase then c.counted + n else n
      phase := if c.bar = 0 then c.phase else phase
      err := if c.err = 0 then code else c.err }
    if c.todo = [] then s.dropCmd c else s.putCmd c

/-- Deliver a unit of a load with those that are served together with it. -/
def State.landBatch (c : Cmd) (u : Nat) (refuse : Nat → Bool) (s : State) : State :=
  (c.batch u).foldl (fun s v => s.onCmd c.id (fun c s => s.landUnit c v refuse)) s

/-! ## Units of writes (R201, R205, R227, R450) -/

/-- The new element of a reduction (R201). -/
def redElem (op fmt old x : Nat) : Nat :=
  let w := fmtBits fmt
  let f := floatFmt fmt
  let u := f.decode old
  let v := f.decode x
  match op with
  | 1 => if isInt fmt then truncInt w (sextNat w old + sextNat w x) else f.roundRne (u.add false v)
  | 2 => if isInt fmt then (if sextNat w x < sextNat w old then x else old)
    else if u.isNan || v.isNan then f.canonNan else if u.lt v then old else if v.lt u then x
    else if old.testBit f.sign then old else x
  | 3 => if isInt fmt then (if sextNat w old < sextNat w x then x else old)
    else if u.isNan || v.isNan then f.canonNan else if u.lt v then x else if v.lt u then old
    else if old.testBit f.sign then x else old
  | 4 => old &&& x
  | 5 => old ||| x
  | _ => old ^^^ x

/-- A byte of a command's local source: from its copied payload, else from its activity in focus; with its poison. -/
def State.localByte (s : State) (c : Cmd) (y : Nat) : Byte × Bool :=
  match c.payload with
  | some m => (m.bytes.read y, y / 8 ∈ m.poison)
  | none => ((s.readLocal y 1).headD 0, (s.poisonAt y 1).isSome)

/-- A byte to be written: where, what, and whether its source is poisoned. -/
structure OutByte where
  loc : Loc
  byte : Byte
  bad : Bool
deriving DecidableEq, Repr

/-- Write bytes, sector by sector; poisoned sources poison the sector (R301; log 19). -/
def State.writeOut (vd : Nat) (xs : List OutByte) (s : State) : State :=
  let sectors := (xs.map (fun x => (x.loc.key, x.loc.sect, x.loc.part))).eraseDups
  sectors.foldl (fun s (k, i, p) =>
    let mine := xs.filter (fun x => x.loc.key = k && x.loc.sect = i && x.loc.part = p)
    let s := s.storeCells vd k i p (mine.map (fun x => (x.loc.pa, x.byte)))
    match mine.find? (fun x => x.bad) with
    | some x => s.poisonLoc vd x.loc
    | none => s) s

/-- The locations of a unit of a write, with the source bytes, or the errors; bytes outside the tensor are skipped, and the band
scale unless TR = 64 (R191, R192). -/
def State.outBytes (s : State) (c : Cmd) (t : Target) (refuse : Nat → Bool) (xs : List (Nat × Src)) :
    List (Except Nat (Src × OutByte)) :=
  xs.filterMap (fun (o, x) =>
    let skip := match x with
      | .zero => true
      | .band _ _ _ => t.desc.tr ≠ 64
      | _ => false
    if skip then none
    else match s.resolve t c.xlat true x with
      | .error e => some (.error e)
      | .ok none => none
      | .ok (some l) =>
        let e := if refuse l.pa then errRefused else (s.asModule c.modid).paError t.vd l.pa
        if e ≠ 0 then some (.error e)
        else
          let (b, bad) := s.localByte c (c.base + o)
          some (.ok (x, ⟨l, b, bad⟩)))

/-- The bytes of an element, when all of them can be reached. -/
def elemBytes : List (Except Nat (Src × OutByte)) → Option (List OutByte)
  | [] => some []
  | .ok x :: rest => (elemBytes rest).map (fun ys => x.2 :: ys)
  | .error _ :: _ => none

/-- Update elements one by one (R201): each element's bytes are consecutive in the list. An element of which a part cannot be reached is not
updated (R450; log 117). -/
def State.redOut (c : Cmd) (t : Target) (n : Nat) : Nat → List (Except Nat (Src × OutByte)) → Nat → State → State × Nat
  | 0, _, e, s => (s, e)
  | _ + 1, [], e, s => (s, e)
  | fuel + 1, out, e, s =>
    match elemBytes (out.take n) with
    | none => State.redOut c t n fuel (out.drop n) e s
    | some xs =>
      match allOk (xs.map (fun y => (s.asModule c.modid).loadByte t.vd y.loc)) with
      | .error e' => State.redOut c t n fuel (out.drop n) (if e = 0 then e' else e) s
      | .ok old =>
        let v := redElem c.r.redOp t.desc.fmt (ofBytes old) (ofBytes (xs.map (fun y => y.byte)))
        let ys := (xs.zip (toBytes n v)).map (fun (y, b) => { y with byte := b })
        State.redOut c t n fuel (out.drop n) e (s.writeOut t.vd ys)

/-- Perform a unit of a write command; its first error, 0 for none. -/
def State.performUnit (c : Cmd) (u : Nat) (refuse : Nat → Bool) (s : State) : State × Nat :=
  match c.target with
  | none => (s, 0)
  | some t =>
    let out := s.outBytes c t refuse (c.unitSrc u)
    let err := (out.findSome? (fun r => match r with
      | .error e => some e
      | .ok _ => none)).getD 0
    let good := out.filterMap (fun r => match r with
      | .ok p => some p
      | .error _ => none)
    let err := if err = 0 && good.any (fun p => p.2.bad) then errPoison else err
    let s := s.countLines (s.unitLines c u)
    if c.kind = .red || (c.kind = .cpyst && c.r.redOp ≠ 0) then s.redOut c t (fmtBits t.desc.fmt / 8) out.length out err
    else (s.writeOut t.vd (good.map (fun p => p.2)), err)

/-- The end of a write command whose units are performed: its barrier takes an arrival, or its journal entry is now
acknowledged by JOURNAL_ACK; its source is read no more (R23). -/
def State.endWrite (c : Cmd) (s : State) : State :=
  let s := if c.sem ≥ 2 && c.scope = 3 then s.writeThrough else s
  if c.journal.isSome then (s.putCmd c).modAct c.owner (fun a => a.release c.id)
  else (s.barNote c.owner c.bar 0 1 c.err).dropCmd c

/-- A unit of a release write is performed: while writes that it covers are outstanding, an acquire that returns its value observes them
(R234, R235). -/
def State.noteRelease (c : Cmd) (u : Nat) (s : State) : State :=
  match s.unperformed c.covers with
  | [] => s
  | left => { s with cache := { s.cache with released :=
      s.cache.released ++ [⟨c.id, c.scope, s.core.agent, (s.unitLocs c u).map (fun l => l.pa), left⟩] } }

/-- Perform units of a write command, in order; the first error, 0 for none. -/
def State.performUnits (c : Cmd) (us : List Nat) (refuse : Nat → Bool) (s : State) : State × Nat :=
  us.foldl (fun (s, e) u =>
    let (s, e2) := s.performUnit c u refuse
    (s.noteRelease c u, if e = 0 then e2 else e)) (s, 0)

/-- Perform a unit, with those that are served together with it, and end the command with the last one. -/
def State.performNext (c : Cmd) (u : Nat) (refuse : Nat → Bool) (s : State) : State :=
  let us := c.batch u
  let (s, e) := s.performUnits c us refuse
  let c : Cmd := { c with todo := c.todo.filter (fun v => v ∉ us), err := if c.err = 0 then e else c.err }
  if c.todo = [] then s.endWrite c else s.putCmd c

/-- JOURNAL_ACK: the write behind a journal entry is performed at its scope: the entry is freed, or marked refused with its code
(R212). -/
def execJournalAck (agent : Agent) (entry : Nat) (s : State) : Host.Outcome State Fault Refusal :=
  .next (match (s.coreOf agent).journal.find entry with
    | none => s
    | some e =>
      match s.cmd? e.cmd with
      | none => s
      | some (_, c) =>
        if !c.started || c.todo ≠ [] then s
        else
          let s := (s.focusCore agent).dropCmd c
          if c.err = 0 || ((s.act? c.owner).isNone && !s.saved.any (fun z => z.act.uid = c.owner)) then
            s.modCore (fun k => { k with journal := k.journal.del entry })
          else
            let s := s.modCore (fun k => { k with
              journal := AMap.put k.journal entry { e with code := c.err, order := s.cycle } })
            s.modAct c.owner (fun a => { a with trap := { a.trap with prs := true } }))

/-! ## Code loads (R207) -/

/-- The start map of code (R91): the positions that a sweep reaches from position 0, by the lengths of LEN; words from CODELEN on
are not swept. -/
def sweep (bytes : Memory) (len : Nat) : Nat → Nat → List Nat
  | 0, _ => []
  | fuel + 1, p =>
    if p < len then p :: sweep bytes len fuel (p + lenBytes ((bytes.read (4 * p)).toNat % 4) / 4) else []

/-- A code segment with an image of W words written over `pages` code pages. -/
def CodeSeg.load (g : CodeSeg) (image : List Byte) (w : Nat) : CodeSeg :=
  let bytes := Memory.writeN [] 0 image
  { g with bytes := bytes, len := w, starts := sweep bytes w w 0, held := false }

/-! ## Promises (R215) -/

/-- MISSED_PROMISE: CYCLE has reached a promised cycle and the phase is not complete: XSTAT.PMP is set. -/
def execMissedPromise (cmd : Nat) (s : State) : Host.Outcome State Fault Refusal :=
  .next (match s.allActs.find? (fun a => a.promises.any (fun p => p.cmd = cmd && p.cycle ≤ s.cycle)) with
    | none => s
    | some a => s.modAct a.uid (fun a =>
        match a.promises.find? (fun p => p.cmd = cmd) with
        | none => a
        | some p => { a with
            promises := a.promises.filter (fun q => q.cmd ≠ cmd)
            trap := { a.trap with pmp := true, missed := a.trap.missed ++ [(p.bar, p.cycle)] } }))

end Sys2Proof.Machine
end

