-- ==== Sys2Proof/Machine/Vector.lean ====
section
/-! DEFINITION. The vector engine's instructions that work on registers (R167-R184). An `op…` gives one element from its draw and
the elements of the sources; the shared effects below apply it under the mask and queue the result. -/

namespace Sys2Proof.Machine

/-! ## Elements as numbers -/

/-- Decode an element in the instruction's floating-point format. -/
def decF (r : R) (x : Nat) : Val := (floatFmt r.fmt).decode x

/-- Round to the instruction's format (R66): RM, OVF and one draw. -/
def roundF (r : R) (d : Nat) (v : Val) : Nat := (floatFmt r.fmt).round (RMode.of r.rm) r.ovf d v

/-- Whether RM is RDN, which decides the sign of an exact zero sum (R61). -/
def isRdn (r : R) : Bool := r.rm = 2

/-- The canonical NaN of the instruction's format. -/
def nanF (r : R) : Nat := (floatFmt r.fmt).canonNan

/-- Sext of an element of the instruction's format. -/
def sx (r : R) (x : Nat) : Int := sextNat (fmtWidth r.fmt) x

/-- IntOut (R174). -/
def intOut (r : R) (v : Int) : Nat :=
  truncInt (fmtWidth r.fmt) (if r.ovf = 1 then satInt (fmtWidth r.fmt) v else v)

/-- The sign bit of a floating-point element. -/
def signF (r : R) (x : Nat) : Bool := x.testBit (floatFmt r.fmt).sign

/-- An element operation: the draw, then the elements of V[A], V[B] and V[C]. -/
abbrev ElemOp := Nat → Nat → Nat → Nat → Nat

/-! ## Arithmetic (R173, R174) -/

/-- a + b. -/
def opAdd (r : R) : ElemOp := fun d a b _ =>
  if isFp r.fmt then roundF r d ((decF r a).add (isRdn r) (decF r b)) else intOut r (sx r a + sx r b)
/-- a - b. -/
def opSub (r : R) : ElemOp := fun d a b _ =>
  if isFp r.fmt then roundF r d ((decF r a).add (isRdn r) (decF r b).neg) else intOut r (sx r a - sx r b)
/-- a · b. -/
def opMul (r : R) : ElemOp := fun d a b _ =>
  if isFp r.fmt then roundF r d ((decF r a).mul (decF r b)) else intOut r (sx r a * sx r b)
/-- a · b + c. -/
def opFma (r : R) : ElemOp := fun d a b c =>
  if isFp r.fmt then roundF r d (((decF r a).mul (decF r b)).add (isRdn r) (decF r c))
  else intOut r (sx r a * sx r b + sx r c)
/-- a · b - c. -/
def opFms (r : R) : ElemOp := fun d a b c =>
  if isFp r.fmt then roundF r d (((decF r a).mul (decF r b)).add (isRdn r) (decF r c).neg)
  else intOut r (sx r a * sx r b - sx r c)
/-- -(a · b) + c. -/
def opFnma (r : R) : ElemOp := fun d a b c =>
  if isFp r.fmt then roundF r d (((decF r a).mul (decF r b)).neg.add (isRdn r) (decF r c))
  else intOut r (-(sx r a * sx r b) + sx r c)
/-- The smaller, NaN if one is NaN, -0 of two zeros of different sign. -/
def opMin (r : R) : ElemOp := fun _ a b _ =>
  if isFp r.fmt then
    let x := decF r a
    let y := decF r b
    if x.isNan || y.isNan then nanF r else if x.lt y then a else if y.lt x then b else if signF r a then a else b
  else if sx r b < sx r a then b else a
/-- The larger, NaN if one is NaN, +0 of two zeros of different sign. -/
def opMax (r : R) : ElemOp := fun _ a b _ =>
  if isFp r.fmt then
    let x := decF r a
    let y := decF r b
    if x.isNan || y.isNan then nanF r else if x.lt y then b else if y.lt x then a else if signF r a then b else a
  else if sx r a < sx r b then b else a
/-- The unsigned smaller. -/
def opMinu (_ : R) : ElemOp := fun _ a b _ => min a b
/-- The unsigned larger. -/
def opMaxu (_ : R) : ElemOp := fun _ a b _ => max a b
/-- |a|. -/
def opAbs (r : R) : ElemOp := fun _ a _ _ =>
  if isFp r.fmt then (if (decF r a).isNan then nanF r else a % 2 ^ (floatFmt r.fmt).sign) else intOut r (sx r a).natAbs
/-- -a. -/
def opNeg (r : R) : ElemOp := fun _ a _ _ =>
  if isFp r.fmt then (if (decF r a).isNan then nanF r else a ^^^ 2 ^ (floatFmt r.fmt).sign) else intOut r (-(sx r a))

/-! ## Logic, shifts and compares (R175, R176) -/

/-- a & b. -/
def opAnd (_ : R) : ElemOp := fun _ a b _ => a &&& b
/-- a | b. -/
def opOr (_ : R) : ElemOp := fun _ a b _ => a ||| b
/-- a ^ b. -/
def opXor (_ : R) : ElemOp := fun _ a b _ => a ^^^ b
/-- a & ~b. -/
def opAndn (r : R) : ElemOp := fun _ a b _ => a &&& (2 ^ fmtWidth r.fmt - 1 - b)
/-- a << b; 0 from the width on. -/
def opShl (r : R) : ElemOp := fun _ a b _ => if b ≥ fmtWidth r.fmt then 0 else a * 2 ^ b % 2 ^ fmtWidth r.fmt
/-- Zext(a) >> b; 0 from the width on. -/
def opShr (r : R) : ElemOp := fun _ a b _ => if b ≥ fmtWidth r.fmt then 0 else a / 2 ^ b
/-- Sext(a) >> min(b, w - 1). -/
def opSar (r : R) : ElemOp := fun _ a b _ =>
  truncInt (fmtWidth r.fmt) (sx r a / 2 ^ (min b (fmtWidth r.fmt - 1)))

/-- x = y. -/
def condEq (r : R) (a b : Nat) : Bool := if isFp r.fmt then (decF r a).eq (decF r b) else sx r a = sx r b
/-- x < y. -/
def condLt (r : R) (a b : Nat) : Bool := if isFp r.fmt then (decF r a).lt (decF r b) else sx r a < sx r b
/-- x ≤ y. -/
def condLe (r : R) (a b : Nat) : Bool := condLt r a b || condEq r a b
/-- One side is NaN. -/
def condUn (r : R) (a b : Nat) : Bool := (decF r a).isNan || (decF r b).isNan
/-- Zext(a) < Zext(b). -/
def condLtu (_ : R) (a b : Nat) : Bool := a < b

/-! ## Functions of R180 -/

/-- 1/x. -/
def fnRcp : Val → Val
  | .nan => .nan
  | .inf s => .fin s 0 1
  | .fin s p q => if p = 0 then .inf s else .fin s q p
/-- 1/√x. -/
def fnRsqrt : Val → Val
  | .nan => .nan
  | .inf s => if s then .nan else .fin false 0 1
  | .fin s p q => if p = 0 then .inf s else if s then .nan else sqrtVal q p
/-- 2^x. -/
def fnExp2 : Val → Val
  | .nan => .nan
  | .inf s => if s then .fin false 0 1 else .inf false
  | .fin s p q => exp2Val s p q
/-- log₂ x. -/
def fnLog2 : Val → Val
  | .nan => .nan
  | .inf s => if s then .nan else .inf false
  | .fin s p q => if p = 0 then .inf true else if s then .nan else log2Val p q
/-- √x. -/
def fnSqrt : Val → Val
  | .nan => .nan
  | .inf s => if s then .nan else .inf false
  | .fin s p q => if p = 0 then .fin s 0 1 else if s then .nan else sqrtVal p q

/-- A function rounded to BF16, and widened into the element (R180). -/
def opBf16 (r : R) (f : Val → Val) : ElemOp := fun _ a _ _ =>
  let b := fBf16.round (RMode.of r.rm) r.ovf 0 (f (decF r a))
  if r.fmt = 0 then b * 2 ^ 16 else b
/-- √x rounded to the instruction's format. -/
def opSqrt (r : R) : ElemOp := fun d a _ _ => roundF r d (fnSqrt (decF r a))

/-! ## Shared effects -/

/-- The draws of an instruction: n of them when its mode is RS, with SEED advanced (R69, R70). -/
def State.draw (rs : Bool) (n : Nat) (s : State) : State × List Nat :=
  if rs then
    let (seed, ds) := srDraws s.me.seed n
    (s.modMe (fun a => { a with seed := seed }), ds)
  else (s, [])

/-- Whether M[6:4] is RS. -/
def R.rs (r : R) : Bool := r.rm = 4

/-- An element-wise instruction with a vector destination (R168). `op` takes the draw and the element index. -/
def effElems (i : Instr) (r : R) (rs : Bool) (op : Activity → Nat → Nat → Nat) (s : State) : Eff :=
  let a := s.me
  let w := fmtWidth r.fmt
  let n := fmtCount r.fmt
  let (s, ds) := s.draw rs n
  .done (s.resultV i r.d (maskedElems w n (a.k r.km) r.zm (a.v r.d.toNat) (fun j => op a (ds.getD j 0) j)))

/-- An element-wise instruction on V[A], V[B] and V[C] that may draw. -/
def effArith (i : Instr) (r : R) (op : ElemOp) (s : State) : Eff :=
  let w := fmtWidth r.fmt
  effElems i r (R.rs r) (fun a d j => op d (elem w (a.v r.a.toNat) j) (elem w (a.v r.b.toNat) j) (elem w (a.v r.c.toNat) j)) s

/-- An element-wise instruction that ignores RM (it is 0, or the result is not rounded with draws). -/
def effPlain (i : Instr) (r : R) (op : ElemOp) (s : State) : Eff :=
  let w := fmtWidth r.fmt
  effElems i r false (fun a d j => op d (elem w (a.v r.a.toNat) j) (elem w (a.v r.b.toNat) j) (elem w (a.v r.c.toNat) j)) s

/-- A mask from a test of each bit number. -/
def maskOf (f : Nat → Bool) : Mask := BitVec.ofNat 128 ((List.range 128).foldr (fun i acc => acc * 2 + (if f i then 1 else 0)) 0)

/-- A compare (R176). -/
def effCompare (i : Instr) (r : R) (cond : Nat → Nat → Bool) (s : State) : Eff :=
  let a := s.me
  let w := fmtWidth r.fmt
  let n := fmtCount r.fmt
  .done (s.resultK i r.d (maskOf (fun j =>
    j < n && (a.k r.km).getLsbD j && cond (elem w (a.v r.a.toNat) j) (elem w (a.v r.b.toNat) j))))

/-- A mask instruction on K[A] and K[B] (R177). -/
def effMask (i : Instr) (r : R) (f : Mask → Mask → Mask) (s : State) : Eff :=
  .done (s.resultK i r.d (f (s.me.k r.a.toNat) (s.me.k r.b.toNat)))

/-- One level of the reduction tree (R179): neighbours combined, with a draw each. -/
def pairUp (f : Nat → Nat → Nat → Nat) : List Nat → List Nat → List Nat
  | a :: b :: rest, ds => f (ds.headD 0) a b :: pairUp f rest ds.tail
  | _, _ => []

/-- The reduction tree of R179. -/
def treeReduce (f : Nat → Nat → Nat → Nat) : Nat → List Nat → List Nat → Nat
  | 0, l, _ => l.headD 0
  | fuel + 1, l, ds =>
    if l.length ≤ 1 then l.headD 0 else treeReduce f fuel (pairUp f l ds) (ds.drop (l.length / 2))

/-- A reduction (R179): its result is ready 8 cycles after issue. -/
def effReduce (i : Instr) (r : R) (rs : Bool) (ident : Nat) (op : ElemOp) (s : State) : Eff :=
  let a := s.me
  let w := fmtWidth r.fmt
  let n := fmtCount r.fmt
  let (s, ds) := s.draw rs (n - 1)
  let leaves := (List.range n).map (fun j => if (a.k r.km).getLsbD j then elem w (a.v r.a.toNat) j else ident)
  let t := treeReduce (fun d x y => op d x y 0) 8 leaves ds
  .done (s.resultAt .engine (s.cycle + 8) i.srcs r.d.toNat (if isFp r.fmt then BitVec.ofNat 64 t else BitVec.ofInt 64 (sx r t)))

/-- Ident of `vrsum` (R179). -/
def identSum (r : R) : Nat := if isFp r.fmt && !isRdn r then 2 ^ (floatFmt r.fmt).sign else 0
/-- Ident of `vrmax`. -/
def identMax (r : R) : Nat := if isFp r.fmt then (floatFmt r.fmt).infBits true else 2 ^ (fmtWidth r.fmt - 1)
/-- Ident of `vrmin`. -/
def identMin (r : R) : Nat := if isFp r.fmt then (floatFmt r.fmt).infBits false else 2 ^ (fmtWidth r.fmt - 1) - 1

/-! ## Instructions -/

/-- `vadd`: a + b (R172). -/
def execVadd (r : R) (s : State) : Host.Outcome State Fault Refusal :=
  issue (.vadd r) s (effArith (.vadd r) r (opAdd r))

/-- `vsub`: a - b (R172). -/
def execVsub (r : R) (s : State) : Host.Outcome State Fault Refusal :=
  issue (.vsub r) s (effArith (.vsub r) r (opSub r))

/-- `vmul`: a · b (R172). -/
def execVmul (r : R) (s : State) : Host.Outcome State Fault Refusal :=
  issue (.vmul r) s (effArith (.vmul r) r (opMul r))

/-- `vfma`: a · b + c (R172). -/
def execVfma (r : R) (s : State) : Host.Outcome State Fault Refusal :=
  issue (.vfma r) s (effArith (.vfma r) r (opFma r))

/-- `vfms`: a · b - c (R172). -/
def execVfms (r : R) (s : State) : Host.Outcome State Fault Refusal :=
  issue (.vfms r) s (effArith (.vfms r) r (opFms r))

/-- `vfnma`: -(a · b) + c (R172). -/
def execVfnma (r : R) (s : State) : Host.Outcome State Fault Refusal :=
  issue (.vfnma r) s (effArith (.vfnma r) r (opFnma r))

/-- `vmin`: signed smaller (R172). -/
def execVmin (r : R) (s : State) : Host.Outcome State Fault Refusal :=
  issue (.vmin r) s (effPlain (.vmin r) r (opMin r))

/-- `vmax`: signed larger (R172). -/
def execVmax (r : R) (s : State) : Host.Outcome State Fault Refusal :=
  issue (.vmax r) s (effPlain (.vmax r) r (opMax r))

/-- `vminu`: unsigned smaller (R172). -/
def execVminu (r : R) (s : State) : Host.Outcome State Fault Refusal :=
  issue (.vminu r) s (effPlain (.vminu r) r (opMinu r))

/-- `vmaxu`: unsigned larger (R172). -/
def execVmaxu (r : R) (s : State) : Host.Outcome State Fault Refusal :=
  issue (.vmaxu r) s (effPlain (.vmaxu r) r (opMaxu r))

/-- `vabs`: magnitude (R172). -/
def execVabs (r : R) (s : State) : Host.Outcome State Fault Refusal :=
  issue (.vabs r) s (effPlain (.vabs r) r (opAbs r))

/-- `vneg`: negation (R172). -/
def execVneg (r : R) (s : State) : Host.Outcome State Fault Refusal :=
  issue (.vneg r) s (effPlain (.vneg r) r (opNeg r))

/-- `vand`: bitwise and (R175). -/
def execVand (r : R) (s : State) : Host.Outcome State Fault Refusal :=
  issue (.vand r) s (effPlain (.vand r) r (opAnd r))

/-- `vor`: bitwise or (R175). -/
def execVor (r : R) (s : State) : Host.Outcome State Fault Refusal :=
  issue (.vor r) s (effPlain (.vor r) r (opOr r))

/-- `vxor`: bitwise exclusive or (R175). -/
def execVxor (r : R) (s : State) : Host.Outcome State Fault Refusal :=
  issue (.vxor r) s (effPlain (.vxor r) r (opXor r))

/-- `vandn`: bitwise and with the complement (R175). -/
def execVandn (r : R) (s : State) : Host.Outcome State Fault Refusal :=
  issue (.vandn r) s (effPlain (.vandn r) r (opAndn r))

/-- `vshl`: shift left (R175). -/
def execVshl (r : R) (s : State) : Host.Outcome State Fault Refusal :=
  issue (.vshl r) s (effPlain (.vshl r) r (opShl r))

/-- `vshr`: logical shift right (R175). -/
def execVshr (r : R) (s : State) : Host.Outcome State Fault Refusal :=
  issue (.vshr r) s (effPlain (.vshr r) r (opShr r))

/-- `vsar`: arithmetic shift right (R175). -/
def execVsar (r : R) (s : State) : Host.Outcome State Fault Refusal :=
  issue (.vsar r) s (effPlain (.vsar r) r (opSar r))

/-- `vsel`: K[KM] selects between V[A] and V[B], element by element (R175). -/
def execVsel (r : R) (s : State) : Host.Outcome State Fault Refusal :=
  issue (.vsel r) s (fun s =>
    let w := fmtWidth r.fmt
    let a := s.me
    .done (s.resultV (.vsel r) r.d (packElems w ((List.range (fmtCount r.fmt)).map (fun j =>
      if (a.k r.km).getLsbD j then elem w (a.v r.a.toNat) j else elem w (a.v r.b.toNat) j)))))

/-- `vceq`: equal (R175). -/
def execVceq (r : R) (s : State) : Host.Outcome State Fault Refusal :=
  issue (.vceq r) s (effCompare (.vceq r) r (condEq r))

/-- `vclt`: less (R175). -/
def execVclt (r : R) (s : State) : Host.Outcome State Fault Refusal :=
  issue (.vclt r) s (effCompare (.vclt r) r (condLt r))

/-- `vcle`: less or equal (R175). -/
def execVcle (r : R) (s : State) : Host.Outcome State Fault Refusal :=
  issue (.vcle r) s (effCompare (.vcle r) r (condLe r))

/-- `vcun`: unordered (R175). -/
def execVcun (r : R) (s : State) : Host.Outcome State Fault Refusal :=
  issue (.vcun r) s (effCompare (.vcun r) r (condUn r))

/-- `vcltu`: unsigned less (R175). -/
def execVcltu (r : R) (s : State) : Host.Outcome State Fault Refusal :=
  issue (.vcltu r) s (effCompare (.vcltu r) r (condLtu r))

/-- `kand`: and (R177). -/
def execKand (r : R) (s : State) : Host.Outcome State Fault Refusal :=
  issue (.kand r) s (effMask (.kand r) r (fun x y => x &&& y))

/-- `kor`: or (R177). -/
def execKor (r : R) (s : State) : Host.Outcome State Fault Refusal :=
  issue (.kor r) s (effMask (.kor r) r (fun x y => x ||| y))

/-- `kxor`: exclusive or (R177). -/
def execKxor (r : R) (s : State) : Host.Outcome State Fault Refusal :=
  issue (.kxor r) s (effMask (.kxor r) r (fun x y => x ^^^ y))

/-- `kandn`: and with the complement (R177). -/
def execKandn (r : R) (s : State) : Host.Outcome State Fault Refusal :=
  issue (.kandn r) s (effMask (.kandn r) r (fun x y => x &&& ~~~y))

/-- `kpopc`: the number of one bits (R177). -/
def execKpopc (r : R) (s : State) : Host.Outcome State Fault Refusal :=
  issue (.kpopc r) s (fun s => .done (s.resultG (.kpopc r) r.d (BitVec.ofNat 64 (popcount (s.me.k r.a.toNat).toNat 128))))

/-- `kfirst`: the lowest one bit, or 128 (R177). -/
def execKfirst (r : R) (s : State) : Host.Outcome State Fault Refusal :=
  issue (.kfirst r) s (fun s =>
    .done (s.resultG (.kfirst r) r.d (BitVec.ofNat 64 (((List.range 128).find? (fun j => (s.me.k r.a.toNat).getLsbD j)).getD 128))))

/-- `kset`: a mask from two words (R177). -/
def execKset (r : R) (s : State) : Host.Outcome State Fault Refusal :=
  issue (.kset r) s (fun s => .done (s.resultK (.kset r) r.d (BitVec.ofNat 128 ((s.me.g r.a.toNat).toNat + (s.me.srcB r).toNat * 2 ^ 64))))

/-- `kget`: a word of a mask (R177). -/
def execKget (r : R) (s : State) : Host.Outcome State Fault Refusal :=
  issue (.kget r) s (fun s =>
    .done (s.resultG (.kget r) r.d ((s.me.k r.a.toNat).extractLsb' (if r.m.getLsbD 0 then 64 else 0) 64)))

/-- `vbcast`: SrcB() to every element (R178). -/
def execVbcast (r : R) (s : State) : Host.Outcome State Fault Refusal :=
  issue (.vbcast r) s (effElems (.vbcast r) r false (fun a _ _ => (a.srcB r).toNat % 2 ^ fmtWidth r.fmt))

/-- The element that SrcB() names: Zext(SrcB()) mod n (R178). -/
def Activity.pick (a : Activity) (r : R) : Nat := (a.srcB r).toNat % fmtCount r.fmt

/-- `vext`: one element to a general register (R178). -/
def execVext (r : R) (s : State) : Host.Outcome State Fault Refusal :=
  issue (.vext r) s (fun s =>
    let x := elem (fmtWidth r.fmt) (s.me.v r.a.toNat) (s.me.pick r)
    .done (s.resultG (.vext r) r.d (if isInt r.fmt then BitVec.ofInt 64 (sx r x) else BitVec.ofNat 64 x)))

/-- `vins`: one element from a general register (R178). -/
def execVins (r : R) (s : State) : Host.Outcome State Fault Refusal :=
  issue (.vins r) s (fun s =>
    let w := fmtWidth r.fmt
    let a := s.me
    .done (s.resultV (.vins r) r.d (packElems w ((List.range (fmtCount r.fmt)).map (fun j =>
      if j = a.pick r then (a.g r.a.toNat).toNat % 2 ^ w else elem w (a.v r.d.toNat) j)))))

/-- `vidx`: the element numbers (R178). -/
def execVidx (r : R) (s : State) : Host.Outcome State Fault Refusal :=
  issue (.vidx r) s (effElems (.vidx r) r false (fun _ _ j => if isInt r.fmt then j else (floatFmt r.fmt).roundRne (Val.ofInt j)))

/-- `vperm`: elements picked by V[B] (R178). -/
def execVperm (r : R) (s : State) : Host.Outcome State Fault Refusal :=
  issue (.vperm r) s (effElems (.vperm r) r false (fun a _ j =>
    let w := fmtWidth r.fmt
    elem w (a.v r.a.toNat) (elem w (a.v r.b.toNat) j % fmtCount r.fmt)))

/-- `vrot`: elements rotated by SrcB() (R178). -/
def execVrot (r : R) (s : State) : Host.Outcome State Fault Refusal :=
  issue (.vrot r) s (effElems (.vrot r) r false (fun a _ j =>
    elem (fmtWidth r.fmt) (a.v r.a.toNat) ((j + a.pick r) % fmtCount r.fmt)))

/-- `vcmpr`: the active elements, packed (R178). -/
def execVcmpr (r : R) (s : State) : Host.Outcome State Fault Refusal :=
  issue (.vcmpr r) s (fun s =>
    let w := fmtWidth r.fmt
    let a := s.me
    .done (s.resultV (.vcmpr r) r.d (packElems w
      (((List.range (fmtCount r.fmt)).filter (fun j => (a.k r.km).getLsbD j)).map (fun j => elem w (a.v r.a.toNat) j)))))

/-- `vrsum`: sum of the active elements over the fixed tree (R179). -/
def execVrsum (r : R) (s : State) : Host.Outcome State Fault Refusal :=
  issue (.vrsum r) s (effReduce (.vrsum r) r (R.rs r) (identSum r) (opAdd r))

/-- `vrmax`: largest active element (R179). -/
def execVrmax (r : R) (s : State) : Host.Outcome State Fault Refusal :=
  issue (.vrmax r) s (effReduce (.vrmax r) r false (identMax r) (opMax r))

/-- `vrmin`: smallest active element (R179). -/
def execVrmin (r : R) (s : State) : Host.Outcome State Fault Refusal :=
  issue (.vrmin r) s (effReduce (.vrmin r) r false (identMin r) (opMin r))

/-- `vrcp`: reciprocal (R180). -/
def execVrcp (r : R) (s : State) : Host.Outcome State Fault Refusal :=
  issue (.vrcp r) s (effPlain (.vrcp r) r (opBf16 r fnRcp))

/-- `vrsqrt`: reciprocal square root (R180). -/
def execVrsqrt (r : R) (s : State) : Host.Outcome State Fault Refusal :=
  issue (.vrsqrt r) s (effPlain (.vrsqrt r) r (opBf16 r fnRsqrt))

/-- `vexp2`: power of 2 (R180). -/
def execVexp2 (r : R) (s : State) : Host.Outcome State Fault Refusal :=
  issue (.vexp2 r) s (effPlain (.vexp2 r) r (opBf16 r fnExp2))

/-- `vlog2`: binary logarithm (R180). -/
def execVlog2 (r : R) (s : State) : Host.Outcome State Fault Refusal :=
  issue (.vlog2 r) s (effPlain (.vlog2 r) r (opBf16 r fnLog2))

/-- `vsqrt`: square root (R180). -/
def execVsqrt (r : R) (s : State) : Host.Outcome State Fault Refusal :=
  issue (.vsqrt r) s (effPlain (.vsqrt r) r (opSqrt r))

/-- Conv of `vcvt` (R181): an element of format `src` converted to `dst`. -/
def convElem (src dst : Nat) (rm : RMode) (ovf d x : Nat) : Nat :=
  let wd := fmtWidth dst
  match isInt src, isInt dst with
  | false, false => (floatFmt dst).round rm ovf d ((floatFmt src).decode x)
  | false, true => truncInt wd (toIntSat wd rm d ((floatFmt src).decode x))
  | true, false => (floatFmt dst).round rm ovf d (Val.ofInt (sextNat (fmtWidth src) x))
  | true, true => truncInt wd (satInt wd (sextNat (fmtWidth src) x))

/-- The effect of `vcvt` (R181). -/
def effVcvt (r : R) (s : State) : Eff :=
  let a := s.me
  let ws := fmtWidth r.fmt
  let wd := fmtWidth r.xfmt
  let ns := fmtCount r.fmt
  let nd := fmtCount r.xfmt
  let src := a.v r.a.toNat
  let old := a.v r.d.toNat
  let conv (d x : Nat) : Nat := convElem r.fmt r.xfmt (RMode.of r.rm) r.ovf d x
  if ws ≤ wd then
    let (s, ds) := s.draw (R.rs r) nd
    .done (s.resultV (.vcvt r) r.d (maskedElems wd nd (a.k r.km) r.zm old
      (fun i => conv (ds.getD i 0) (elem ws src (r.xpart * nd + i)))))
  else
    let (s, ds) := s.draw (R.rs r) ns
    .done (s.resultV (.vcvt r) r.d (packElems wd ((List.range nd).map (fun j =>
      if r.xpart * ns ≤ j && j < r.xpart * ns + ns then
        let i := j - r.xpart * ns
        if (a.k r.km).getLsbD j then conv (ds.getD i 0) (elem ws src i) else if r.zm then 0 else elem wd old j
      else elem wd old j))))

/-- `vcvt`: conversion (R181). -/
def execVcvt (r : R) (s : State) : Host.Outcome State Fault Refusal :=
  issue (.vcvt r) s (effVcvt r)

/-- The divisor of R72 step 4 for a block-scaled format (R72, R183). -/
def blockTop : Nat → Nat
  | 5 => 448
  | 6 => 57344
  | _ => 6

/-- The bytes of 8 codes of a block (R65). -/
def packBlock (bfmt : Nat) (codes : List Nat) : List Byte :=
  if bfmt = 7 then toBytes 4 (codes.foldr (fun c acc => c % 16 + 16 * acc) 0) else codes.map (BitVec.ofNat 8)

/-- The 8 codes that a block's bytes hold (R65). -/
def unpackBlock (bfmt : Nat) (bs : List Byte) : List Nat :=
  if bfmt = 7 then (List.range 8).map (fun i => ofBytes bs / 16 ^ i % 16) else bs.map BitVec.toNat

/-- Whether an FP8 block holds a NaN element (R64). -/
def blockHasNan (bfmt : Nat) (codes : List Nat) : Bool := bfmt ≠ 7 && codes.any (fun c => ((floatFmt bfmt).decode c).isNan)

/-- Blocks in a vector of the wide format (R182). -/
def blockCount (r : R) : Nat := fmtCount r.fmt / 8

/-- The effect of `vqnt` (R183). -/
def effVqnt (r : R) (s : State) : Eff :=
  let a := s.me
  let w := fmtWidth r.fmt
  let nb := blockCount r
  let bb := blockBytes r.xfmt
  let band := fBf16.decode ((a.srcB r).toNat % 2 ^ 16)
  let src := a.v r.a.toNat
  let (s, ds) := s.draw (R.rs r) (8 * nb)
  let blocks := (List.range nb).map (fun j =>
    requantise (floatFmt r.xfmt) (blockTop r.xfmt) (RMode.of r.rm) ((ds.drop (8 * j)).take 8) band
      ((List.range 8).map (fun i => decF r (elem w src (8 * j + i)))))
  let bytes := blocks.flatMap (fun b => packBlock r.xfmt b.2)
  let scales := blocks.foldr (fun b acc => b.1 % 256 + 256 * acc) 0
  let s := s.resultV (.vqnt r) r.d (setVecBytes (a.v r.d.toNat) (r.xpart * (nb * bb)) bytes)
  .done (s.resultG (.vqnt r) r.e (BitVec.ofNat 64 scales))

/-- `vqnt`: requantisation to a block-scaled format (R183). -/
def execVqnt (r : R) (s : State) : Host.Outcome State Fault Refusal :=
  issue (.vqnt r) s (effVqnt r)

/-- The effect of `vdqnt` (R184). -/
def effVdqnt (r : R) (s : State) : Eff :=
  let a := s.me
  let w := fmtWidth r.fmt
  let nb := blockCount r
  let bb := blockBytes r.xfmt
  let scales := (a.srcB r).toNat
  let band := fBf16.decode ((a.g r.c.toNat).toNat % 2 ^ 16)
  let (s, ds) := s.draw (R.rs r) (8 * nb)
  let vals := (List.range nb).flatMap (fun j =>
    let codes := unpackBlock r.xfmt (vecBytes (a.v r.a.toNat) (r.xpart * (nb * bb) + bb * j) bb)
    codes.map (fun c => blockElem (floatFmt r.xfmt) (blockHasNan r.xfmt codes) c (scales / 256 ^ j % 256) band))
  .done (s.resultV (.vdqnt r) r.d (packElems w ((vals.zipIdx).map (fun (v, i) => roundF r (ds.getD i 0) v))))

/-- `vdqnt`: values of a block-scaled vector (R184). -/
def execVdqnt (r : R) (s : State) : Host.Outcome State Fault Refusal :=
  issue (.vdqnt r) s (effVdqnt r)

end Sys2Proof.Machine
end

