-- ==== Sys2Proof/Machine/Matrix.lean ====
section
/-! DEFINITION. The matrix engine (R249-R276): tile registers and their shapes, accumulators, the matrix queue with its two units, the
exact K-step sum, banks, spills and the tile pool. -/

namespace Sys2Proof.Machine

/-! ## Shapes and tiles (R249-R251) -/

/-- A tile shape: what a TS register that is not 0 holds. -/
structure Shape where
  rows : Nat
  rby : Nat
  fmt : Nat
deriving DecidableEq, Repr

/-- The shape that a TS value gives, none for 0. -/
def Shape.of (w : Word) : Option Shape :=
  if w = 0 then none else some ⟨w.toNat / 2 ^ 16 % 256, w.toNat / 2 ^ 8 % 256, w.toNat % 16⟩

/-- Payload bytes. -/
def Shape.payload (h : Shape) : Nat := h.rows * h.rby
/-- SC (R192), 0 for a format that is not block-scaled. -/
def Shape.sc (h : Shape) : Nat := if isBlock h.fmt then h.payload / blockBytes h.fmt else 0
/-- LL (R251). -/
def Shape.ll (h : Shape) : Nat := if isBlock h.fmt then h.payload + h.sc + 32 else h.payload
/-- Elements of a row. -/
def Shape.elems (h : Shape) : Nat := h.rby * 8 / fmtBits h.fmt

/-- TSn of an activity. -/
def Activity.tsv (a : Activity) (n : Nat) : Word := (a.ts.find n).getD 0

/-- The tile that bytes in the layout of R251 hold: what lies beyond the shape is zero (R257). -/
def Tile.parse (h : Shape) (bs : List Byte) (bad : Bool) : Tile :=
  { payload := Memory.writeN [] 0 (bs.take h.payload)
    scales := Memory.writeN [] 0 ((bs.drop h.payload).take h.sc)
    band := BitVec.ofNat 16 (if isBlock h.fmt then ofBytes ((bs.drop (h.payload + h.sc)).take 2) else 0)
    poison := bad }

/-- The bytes of a tile in the layout of R251 (R258). -/
def Tile.layout (h : Shape) (t : Tile) : List Byte :=
  t.payload.readN 0 h.payload ++
  (if isBlock h.fmt then t.scales.readN 0 h.sc ++ toBytes 2 t.band.toNat ++ toBytes 30 0 else [])

/-- The tile that an unbound register reads as. -/
def Tile.zero : Tile := ⟨[], [], 0, false⟩

/-- A tile register in a physical register, or unbound. -/
def Activity.tile (a : Activity) (n : Nat) : Tile := (a.tiles.find n).getD Tile.zero

/-- The code of element e of row i. -/
def Tile.code (t : Tile) (h : Shape) (i e : Nat) : Nat :=
  let w := fmtBits h.fmt
  if w = 4 then (t.payload.read (i * h.rby + e / 2)).toNat / 16 ^ (e % 2) % 16
  else ofBytes (t.payload.readN (i * h.rby + e * w / 8) (w / 8))

/-- The scale byte of row i, block k (R251). -/
def Tile.scale (t : Tile) (h : Shape) (i k : Nat) : Nat := (t.scales.read (i * h.rby / blockBytes h.fmt + k)).toNat

/-- An element decoded by itself, without its scales. -/
def Tile.plain (t : Tile) (h : Shape) (i e : Nat) : Val :=
  if isInt h.fmt then Val.ofInt (sextNat (fmtBits h.fmt) (t.code h i e)) else (floatFmt h.fmt).decode (t.code h i e)

/-- The value of an element, with block scale and band scale where the format has them (R64). -/
def Tile.val (t : Tile) (h : Shape) (i e : Nat) : Val :=
  if isBlock h.fmt then
    let codes := (List.range 8).map (fun q => t.code h i (e / 8 * 8 + q))
    blockElem (floatFmt h.fmt) (blockHasNan h.fmt codes) (t.code h i e) (t.scale h i (e / 8)) (fBf16.decode t.band.toNat)
  else t.plain h i e

/-! ## Commands -/

/-- The instruction of a command (R273). -/
def MatKind.instr (k : MatKind) (r : R) : Instr :=
  match k with
  | .tld => .tld r
  | .tst => .tst r
  | .tzero => .tzero r
  | .tmov => .tmov r
  | .tcvt => .tcvt r
  | .tfree => .tfree r
  | .mma => .mma r
  | .accst => .accst r
  | .azero => .azero r
  | .afree => .afree r
  | .accrd => .accrd r

/-- Entries of the matrix queue (R20). -/
def matQueueSize : Nat := 8

/-- The accumulator that a command names. -/
def MatCmd.acc (c : MatCmd) : Option Nat :=
  match c.kind with
  | .mma => some c.r.d.toNat
  | .azero => some c.r.d.toNat
  | .afree => some c.r.d.toNat
  | .accrd => some c.r.a.toNat
  | .accst => some c.r.c.toNat
  | _ => none

/-- The tiles that a command reads. -/
def MatCmd.tileReads (c : MatCmd) : List Nat :=
  match c.kind with
  | .tst => [c.r.b.toNat]
  | .tmov => [c.r.a.toNat]
  | .tcvt => [c.r.a.toNat]
  | .mma => if c.r.lb then [c.r.a.toNat] else [c.r.a.toNat, c.r.b.toNat]
  | _ => []

/-- The tiles that a command writes or unbinds. -/
def MatCmd.tileWrites (c : MatCmd) : List Nat :=
  match c.kind with
  | .tld => [c.r.d.toNat]
  | .tzero => [c.r.d.toNat]
  | .tmov => [c.r.d.toNat]
  | .tcvt => [c.r.d.toNat]
  | .tfree => [c.r.a.toNat]
  | _ => []

/-- Whether a command must wait until an earlier one is complete: they share a tile that one writes, or an accumulator (R256,
R267, R275). -/
def MatCmd.conflicts (c e : MatCmd) : Bool :=
  c.tileWrites.any (fun n => n ∈ e.tileReads ++ e.tileWrites) || c.tileReads.any (fun n => n ∈ e.tileWrites) ||
  (c.acc.isSome && c.acc = e.acc)

/-- Whether the program order of its activity lets a command start (R256): `accrd` waits for no `mma` (R264). -/
def Core.matOrdered (k : Core) (c : MatCmd) : Bool :=
  (k.matq.filter (fun e => e.owner = c.owner && e.id < c.id)).all (fun e =>
    (c.kind = .accrd && e.kind = .mma) || (e.started.isSome && !c.conflicts e))

/-- The barrier test of R256 in a cycle. -/
def Activity.matBarrier (a : Activity) (c : MatCmd) (cycle : Nat) : Bool :=
  c.r.bar = 0 ||
  (let b := a.bar c.r.bar
   let d := b.ahead c.opE.toNat
   d > 1 || (d = 1 && (match a.barEnds.find c.r.bar with
     | some t => decide (t < cycle)
     | none => true)))

/-- Whether the scoreboard lets a command read or write its range. -/
def Activity.matRange (a : Activity) (c : MatCmd) : Bool :=
  (a.claims.filter (fun x => x.cmd = c.id)).all (fun x => !a.rangeBusy c.id x.write x.start x.len)

/-! ## The matrix spill area (R270-R272) -/

/-- The save-pool blocks of a VD that nothing holds (R377). -/
def State.poolFree (s : State) (vd : Nat) : List Nat :=
  let used := (s.allActs.filter (fun a => a.job.vd = vd)).flatMap (fun a => a.spillArea) ++
    (s.saved.filter (fun z => z.act.job.vd = vd)).flatMap (fun z => z.blocks)
  (List.range ((s.vd vd).spool.toNat / 2 ^ 32 % 2 ^ 20)).filter (fun b => b ∉ used)

/-- The physical address of a save-pool block. -/
def State.poolAddr (s : State) (vd block : Nat) : Nat := ((s.vd vd).spool.toNat % 2 ^ 32 + block) * 2048

/-- Write bytes at a sector-aligned physical address, n sectors. -/
def State.storeRun (vd pa : Nat) : Nat → List Byte → State → State
  | 0, _, s => s
  | n + 1, bs, s => State.storeRun vd (pa + 32) n (bs.drop 32)
      (s.storeCells vd (addrKey vd pa) (pa / 32 % 16) .cell (((bs.take 32).zipIdx).map (fun (b, i) => (pa + i, b))))

/-- The addresses of the lines of blocks of a save pool. -/
def State.blockAddrs (s : State) (vd : Nat) (blocks : List Nat) : List Nat :=
  blocks.flatMap (fun b => (List.range 4).map (fun i => s.poolAddr vd b + 512 * i))

/-- The lines of blocks of a save pool are brought in (R453). A spill or a refill names the core whose fabric port its beats pass, and whether
they leave it: all its tokens are drawn in the VD of the blocks, and the matrix engine there waits for them (R270, R403). -/
def State.keepBlocks (port : Option (Agent × Bool)) (vd : Nat) (blocks : List Nat) (s : State) : State :=
  match port with
  | none => s.keepAddrs vd (s.blockAddrs vd blocks)
  | some (ag, out) =>
    let ks := addrKeys vd (s.blockAddrs vd blocks)
    let way (k : LineKey) : List (Arbiter × Nat) := if out then s.wayTo ag (s.sliceAgent k) 8 else s.wayTo (s.sliceAgent k) ag 8
    ks.foldl (fun s k => s.fetchLine vd k) (s.charge vd (some ag) (ks.flatMap (fun k => s.lineNeeds vd k ++ way k)))

/-- Write 2 KiB blocks of a save pool in turn. -/
def State.poolWrite (port : Option (Agent × Bool)) (vd : Nat) : List Nat → List Byte → State → State
  | [], _, s => s
  | b :: rest, bs, s =>
    State.poolWrite port vd rest (bs.drop 2048) ((s.keepBlocks port vd [b]).storeRun vd (s.poolAddr vd b) 64 (bs.take 2048))

/-- Whether a spill or a refill of the core in focus is still on its way. -/
def State.spillBusy (s : State) : Bool := s.transits.any (fun t => t.port = some s.core.agent)

/-- Read blocks of a save pool: the bytes, and whether one was lost. -/
def State.poolRead (s : State) (vd : Nat) (blocks : List Nat) : List Byte × Bool :=
  let xs := blocks.flatMap (fun b => (List.range 2048).map (fun i => s.loadByte vd (addrLoc vd (s.poolAddr vd b + i))))
  (xs.map (fun x => x.toOption.getD 0), xs.any (fun x => x.toOption.isNone))

/-- Bytes padded with zeros to a length. -/
def padTo (n : Nat) (bs : List Byte) : List Byte := bs ++ List.replicate (n - bs.length) 0

/-- The three blocks of a tile (R272). -/
def Tile.image (t : Tile) : List Byte :=
  t.payload.readN 0 4096 ++ padTo 2048 (t.scales.readN 0 1024 ++ toBytes 2 t.band.toNat)

/-- The tile that three blocks hold. -/
def Tile.ofImage (bs : List Byte) (bad : Bool) : Tile :=
  { payload := Memory.writeN [] 0 (bs.take 4096), scales := Memory.writeN [] 0 ((bs.drop 4096).take 1024)
    band := BitVec.ofNat 16 (ofBytes ((bs.drop 5120).take 2)), poison := bad }

/-- Entry (i, j) of an accumulator, as k = 64·i + j. -/
def Acc.entry (a : Acc) (k : Nat) : BitVec 40 := (a.entries.find k).getD 0

/-- Accumulator entries from their values, those that are 0 left out. -/
def accEntries (f : Nat → BitVec 40) : AMap (BitVec 40) :=
  (List.range 2048).filterMap (fun k => if f k = 0 then none else some (k, f k))

/-- Blocks of an accumulator's image (R272). -/
def AccView.blocks : AccView → Nat
  | .fp => 4
  | .int => 8

/-- An accumulator's image: FP32 by RoundRNE, or INT64 (R270). -/
def Acc.image (a : Acc) : List Byte :=
  (List.range 2048).flatMap (fun k =>
    match a.view with
    | .fp => toBytes 4 (fFp32.roundRne (wideDecode (a.entry k)))
    | .int => toBytes 8 (BitVec.ofInt 64 (a.entry k).toInt).toNat)

/-- The accumulator that an image holds: FP32 widened exactly. -/
def Acc.ofImage (z : SpilledAcc) (bs : List Byte) (bad : Bool) : Acc :=
  { entries := accEntries (fun k => match z.view with
      | .fp => roundWide (fFp32.decode (ofBytes ((bs.drop (4 * k)).take 4)))
      | .int => BitVec.ofNat 40 (ofBytes ((bs.drop (8 * k)).take 8)))
    view := z.view, steps := z.steps, poison := z.poison || bad }

/-- Bits for the numbers that meet a test. -/
def bitsFor (n : Nat) (p : Nat → Bool) : Nat := ((List.range n).filter p).foldl (fun acc i => acc + 2 ^ i) 0

/-- The directory block (R272). -/
def Activity.matDirectory (a : Activity) : List Byte :=
  let tileBad (n : Nat) : Bool := match a.tspilled.find n with
    | some p => p
    | none => (a.tile n).poison
  let acc (n : Nat) : Option (AccView × Nat × Bool) := match a.aspilled.find n, a.accs.find n with
    | some z, _ => some (z.view, z.steps, z.poison)
    | none, some c => some (c.view, c.steps, c.poison)
    | none, none => none
  let w := bitsFor 8 (fun n => (a.tiles.find n).isSome || (a.tspilled.find n).isSome) + bitsFor 8 tileBad * 2 ^ 8 +
    bitsFor 2 (fun n => (acc n).isSome) * 2 ^ 16 + bitsFor 2 (fun n => (acc n).any (fun x => x.1 = .int)) * 2 ^ 18 +
    bitsFor 2 (fun n => (acc n).any (fun x => x.2.2)) * 2 ^ 20
  let steps (n : Nat) : Nat := ((acc n).map (fun x => x.2.1)).getD 0
  padTo 2048 (toBytes 8 w ++ toBytes 8 (steps 0) ++ toBytes 8 (steps 1) ++
    (List.range 8).flatMap (fun n => toBytes 8 (a.tsv n).toNat))

/-- The state with a matrix spill area for an activity: none while the pool has too few free blocks (R271, R377). -/
def State.spillRoom (uid : Nat) (s : State) : Option State :=
  match s.act? uid with
  | none => none
  | some a =>
    if a.spillArea ≠ [] then some s
    else
      let free := s.poolFree a.job.vd
      if free.length < 41 then none else some (s.modAct uid (fun a => { a with spillArea := free.take 41 }))

/-- The blocks of an area from one on. -/
def areaBlocks (area : List Nat) (first n : Nat) : List Nat := (area.drop first).take n

/-- Write the directory of an activity's spill area. -/
def State.writeDirectory (uid : Nat) (s : State) : State :=
  match s.act? uid with
  | none => s
  | some a => s.poolWrite (some (a.agent, true)) a.job.vd (areaBlocks a.spillArea 0 1) a.matDirectory

/-- Spill the accumulators of an activity (R270). -/
def State.spillAccs (uid : Nat) (s : State) : Option State :=
  (s.spillRoom uid).map (fun s =>
    match s.act? uid with
    | none => s
    | some a =>
      let s := a.accs.foldl (fun (s : State) (n, c) =>
        s.poolWrite (some (a.agent, true)) a.job.vd (areaBlocks a.spillArea (25 + 8 * n) c.view.blocks) c.image) s
      (s.modAct uid (fun a => { a with
        accs := [], aspilled := a.accs.foldl (fun m (n, c) => m.put n ⟨c.view, c.steps, c.poison⟩) a.aspilled })).writeDirectory uid)

/-- Refill the accumulators of the activity in focus. -/
def State.refillAccs (s : State) : State :=
  let a := s.me
  let accs := a.aspilled.foldl (fun (m : AMap Acc) (n, z) =>
    let (bs, bad) := s.poolRead a.job.vd (areaBlocks a.spillArea (25 + 8 * n) z.view.blocks)
    m.put n (Acc.ofImage z bs bad)) a.accs
  let read := a.aspilled.flatMap (fun x => areaBlocks a.spillArea (25 + 8 * x.1) x.2.view.blocks)
  (s.keepBlocks (some (a.agent, false)) a.job.vd read).modMe (fun a => { a with accs := accs, aspilled := [] })

/-- The state in which the activity in focus may use its accumulators: they stand in its bank, or a bank is free for them, taken
from a victim if need be (R269); of victims of one class whose last matrix commands completed in the same cycle, or that completed none, the
first in the list of residents (DESIGN CHOICE, log 103). None while the command must wait. -/
def State.needBank (s : State) : Option State :=
  if s.me.accs ≠ [] then some s.refillAccs
  else
    let holders := (s.residents s.me.agent).filter (fun a => a.accs ≠ [])
    if holders.length < 2 then some s.refillAccs
    else
      let cands := holders.filter (fun a => a.job.cls < s.me.job.cls ||
        (a.job.cls = s.me.job.cls && !s.core.matq.any (fun c => c.owner = a.uid)))
      match cands with
      | [] => none
      | c :: cs =>
        let v := cs.foldl (fun b c => if b.job.cls < c.job.cls || (b.job.cls = c.job.cls && b.matDone ≤ c.matDone) then b else c) c
        (s.spillAccs v.uid).map State.refillAccs

/-- Note that a tile was used. -/
def Activity.touchTile (a : Activity) (n : Nat) : Activity := { a with torder := a.torder.filter (· ≠ n) ++ [n] }

/-- The activity with a tile unbound. -/
def Activity.dropTile (a : Activity) (n : Nat) : Activity :=
  { a with tiles := a.tiles.del n, tspilled := a.tspilled.del n, torder := a.torder.filter (· ≠ n) }

/-- Spill a tile of an activity to its spill area (R271). -/
def State.spillTile (uid n : Nat) (s : State) : Option State :=
  (s.spillRoom uid).map (fun s =>
    match s.act? uid with
    | none => s
    | some a =>
      let t := a.tile n
      ((s.poolWrite (some (a.agent, true)) a.job.vd (areaBlocks a.spillArea (1 + 3 * n) 3) t.image).modAct uid (fun a =>
        let b := a.dropTile n
        { b with tspilled := b.tspilled.put n t.poison })).writeDirectory uid)

/-- Physical tile registers of a core (R19). -/
def tilePool : Nat := 12

/-- The state with a physical tile register free on the core in focus, one spilled if need be (R271); none while there is no
candidate. -/
def State.tileRoom (s : State) : Option State :=
  let here := s.residents s.core.agent
  if (here.map (fun a => a.tiles.length)).foldl (· + ·) 0 < tilePool then some s
  else
    let idle (a : Activity) (n : Nat) : Bool :=
      !s.core.matq.any (fun c => c.owner = a.uid && (n ∈ c.tileReads || n ∈ c.tileWrites))
    let cands := here.filterMap (fun a => (a.torder.find? (fun n => (a.tiles.find n).isSome && idle a n)).map (fun n => (a, n)))
    match cands with
    | [] => none
    | c :: cs =>
      let best := cs.foldl (fun b c => if victimBefore b.1 c.1 then b else c) c
      s.spillTile best.1.uid best.2

/-- The state with a tile of the activity in focus ready for a command: refilled when it was spilled, bound when the command
writes it. -/
def State.needTile (n : Nat) (write : Bool) (s : State) : Option State :=
  if (s.me.tiles.find n).isSome then some (s.modMe (fun a => a.touchTile n))
  else match s.me.tspilled.find n with
    | some bad => (s.tileRoom).map (fun s =>
        let blocks := areaBlocks s.me.spillArea (1 + 3 * n) 3
        let (bs, lost) := s.poolRead s.me.job.vd blocks
        (s.keepBlocks (some (s.me.agent, false)) s.me.job.vd blocks).modMe (fun a =>
          let b := a.touchTile n
          { b with tiles := b.tiles.put n (Tile.ofImage bs (bad || lost)), tspilled := b.tspilled.del n }))
    | none =>
      if write then (s.tileRoom).map (fun s => s.modMe (fun a =>
        let b := a.touchTile n
        { b with tiles := b.tiles.put n Tile.zero }))
      else some s

/-- Every tile of a command ready. -/
def State.needTiles (c : MatCmd) (s : State) : Option State :=
  let s := c.tileReads.foldl (fun (s : Option State) n => s.bind (State.needTile n false)) (some s)
  if c.kind = .tfree || (c.kind = .tmov && c.r.d = c.r.a) then s
  else c.tileWrites.foldl (fun (s : Option State) n => s.bind (State.needTile n true)) s

/-! ## Format pairs and the K-step (R261, R262) -/

/-- Elements of a K-step and the view, for the formats that `mma` pairs. -/
def mmaPair (fa fb : Nat) : Option (Nat × AccView) :=
  if (fa = 1 && fb = 1) || (fa = 2 && fb = 2) then some (16, .fp)
  else if 3 ≤ fa && fa ≤ 6 && 3 ≤ fb && fb ≤ 6 then some (32, .fp)
  else if fa = 7 && fb = 7 then some (64, .fp)
  else if fa = 8 && fb = 8 then some (32, .int)
  else if (fa = 1 || fa = 2) && 3 ≤ fb && fb ≤ 7 then some (16, .fp)
  else none

/-- The operands of an `mma`. -/
structure MmaOps where
  ha : Shape
  hb : Shape
  a : Tile
  b : Tile
  koff : Nat
  ka : Nat
deriving DecidableEq, Repr

/-- K-steps of an `mma`. -/
def MmaOps.steps (o : MmaOps) : Nat := o.ha.rby / 32

/-- The scale of a block, 1 for a format that is not block-scaled. -/
def Tile.blockScale (t : Tile) (h : Shape) (i e : Nat) : Val :=
  if isBlock h.fmt then fE3m5.decode (t.scale h i (e / 8)) else Val.ofInt 1

/-- The band scale, 1 for a format that is not block-scaled; one that is not finite makes every element NaN (R64). -/
def Tile.bandScale (t : Tile) (h : Shape) : Val :=
  if isBlock h.fmt then (if (fBf16.decode t.band.toNat).isFinite then fBf16.decode t.band.toNat else .nan) else Val.ofInt 1

/-- The exact sum T of entry (i, j) in a K-step (R76, R262). The zero that the sums of R76 start from is no addend, so a sum of −0 alone is −0
(DESIGN CHOICE, log 112). -/
def MmaOps.sum (o : MmaOps) (step i j : Nat) : Val :=
  Val.sum false ((List.range (o.ka / 8)).map (fun q =>
    let e := step * o.ka + 8 * q
    let f := 16 * o.koff + e
    let b := Val.sum false ((List.range 8).map (fun n => (o.a.plain o.ha i (e + n)).mul (o.b.plain o.hb j (f + n))))
    (b.mul (o.a.blockScale o.ha i e)).mul (o.b.blockScale o.hb j f)))

/-- The exact integer sum of entry (i, j) in a K-step. -/
def MmaOps.intSum (o : MmaOps) (step i j : Nat) : Int :=
  ((List.range o.ka).map (fun n =>
    sextNat 8 (o.a.code o.ha i (step * o.ka + n)) * sextNat 8 (o.b.code o.hb j (16 * o.koff + step * o.ka + n)))).foldl (· + ·) 0

/-- The new value of an entry (R73, R75, R262). -/
def MmaOps.entry (o : MmaOps) (view : AccView) (step i j : Nat) (old : BitVec 40) : BitVec 40 :=
  match view with
  | .fp => roundWide ((wideDecode old).add false (((o.sum step i j).mul (o.a.bandScale o.ha)).mul (o.b.bandScale o.hb)))
  | .int => BitVec.ofInt 40 (satInt 40 (old.toInt + o.intSum step i j))

/-- The accumulator after a K-step: every entry changes at once. -/
def Acc.kstep (c : Acc) (o : MmaOps) (step : Nat) : Acc :=
  { c with
    entries := accEntries (fun k => o.entry c.view step (k / 64) (k % 64) (c.entry k))
    steps := (c.steps + 1) % 2 ^ 64 }

/-! ## Issue (R255, R256) -/

/-- A command of the activity in focus. -/
def State.newMat (s : State) (k : MatKind) (r : R) : MatCmd :=
  let a := s.me
  { id := s.nextCmd, owner := a.uid, kind := k, r := r, pc := a.pc.toNat, issued := s.cycle, y := 0, len := 0,
    ta := a.tsv r.a.toNat, tb := a.tsv (if k = .mma && r.lb then r.bsh else r.b.toNat), td := a.tsv r.d.toNat,
    opA := a.g r.a.toNat, opB := a.srcB r, opC := a.g r.c.toNat, opE := a.g r.e.toNat, seed := a.seed, started := none, step := 0,
    latch := ⟨[], [], false, []⟩, bad := false, stale := false }

/-- The view of an accumulator as the commands already queued leave it (DEDUCED, log 20): none while unbound. -/
def State.viewAhead (s : State) (n : Nat) : Option AccView :=
  let now : Option AccView := match s.me.accs.find n, s.me.aspilled.find n with
    | some c, _ => some c.view
    | none, some z => some z.view
    | none, none => none
  (s.core.matq.filter (fun c => c.owner = s.me.uid && c.acc = some n)).foldl (fun v c =>
    match c.kind with
    | .mma => v.orElse (fun _ => (mmaPair (c.ta.toNat % 16) (c.tb.toNat % 16)).map (fun p => p.2))
    | .azero => some (if c.r.lb then .int else .fp)
    | .afree => none
    | .accst => if c.r.clr then none else v
    | _ => v) now

/-- Queue a matrix command of the activity in focus: it waits for a queue entry and a scoreboard entry (R20, R23). -/
def acceptMat (c : MatCmd) (write : Bool) (after : State → State) (s : State) : Eff :=
  if s.core.matq.length ≥ matQueueSize then .hold s
  else if c.len ≠ 0 && s.scoreUsed s.me.agent + 1 > scoreSize s.me.agent.kind then .hold s
  else match (if c.len ≠ 0 && !write then s.readTaint c.y c.len else some s) with
    | none => .hold s
    | some s =>
      let s := { s.modCore (fun k => { k with matq := k.matq ++ [c] }) with nextCmd := s.nextCmd + 1 }
      let s := if c.len = 0 then s else s.claim [⟨c.id, c.y, c.len, write⟩]
      .done (after s)

/-- A local range whose length a TS value gives: no check when it is 0 (R255). -/
def ckShape (f : Nat) (write : Bool) (y : Nat) (h : Option Shape) : Check :=
  match h with
  | some h => ckLocal f write y h.ll
  | none => fun _ => none

/-- `tld` (R257). -/
def execTld (r : R) (s : State) : Host.Outcome State Fault Refusal :=
  issue (.tld r) s (fun s =>
    let c := s.newMat .tld r
    let y := c.opA.toNat
    let h := Shape.of c.td
    checked [ckShape 0 false y h, ckBar 0 r, ckFault (y % 32 ≠ 0) 5 0 0, ckBarAlign r 0, ckFault h.isNone 4 0 0]
      (acceptMat { c with y := y, len := (h.map Shape.ll).getD 0 } false id) s)

/-- `tst` (R258). -/
def execTst (r : R) (s : State) : Host.Outcome State Fault Refusal :=
  issue (.tst r) s (fun s =>
    let c := s.newMat .tst r
    let y := c.opA.toNat
    let h := Shape.of c.tb
    checked [ckShape 1 true y h, ckFault (y % 32 ≠ 0) 5 0 0, ckFault h.isNone 4 0 0]
      (acceptMat { c with y := y, len := (h.map Shape.ll).getD 0 } true id) s)

/-- `tzero` (R259). -/
def execTzero (r : R) (s : State) : Host.Outcome State Fault Refusal :=
  issue (.tzero r) s (fun s => acceptMat (s.newMat .tzero r) false id s)

/-- `tmov` (R259): TS[D] takes TS[A] at issue. -/
def execTmov (r : R) (s : State) : Host.Outcome State Fault Refusal :=
  issue (.tmov r) s (fun s =>
    let c := s.newMat .tmov r
    checked [ckFault (c.ta = 0) 4 0 0]
      (acceptMat c false (State.modMe (fun a => { a with ts := a.ts.put r.d.toNat c.ta }))) s)

/-- Whether the operands of `tcvt` do not agree (R260). OVF = 2 with an FP4 or integer destination, which only TS[D] tells, takes FORMAT as
R260 has it, not the illegal-instruction trap of R67 (DESIGN CHOICE, log 111). -/
def tcvtBad (r : R) (opB : Word) (ha hd : Option Shape) : Bool :=
  match ha, hd with
  | some a, some d =>
    a.rows ≠ d.rows || a.elems ≠ d.elems || (r.ovfM = 2 && (isInt d.fmt || d.fmt = 7)) ||
    (!isBlock d.fmt && (r.b ≠ 0 || opB ≠ 0))
  | _, _ => true

/-- SEED after a number of draws of `.rs` at issue (R70). -/
def State.drawAhead (rs : Bool) (n : Nat) (s : State) : State :=
  if rs then s.modMe (fun a => { a with seed := (srDraws a.seed n).1 }) else s

/-- `tcvt` (R260). -/
def execTcvt (r : R) (s : State) : Host.Outcome State Fault Refusal :=
  issue (.tcvt r) s (fun s =>
    let c := s.newMat .tcvt r
    let ha := Shape.of c.ta
    checked [ckFault (tcvtBad r c.opB ha (Shape.of c.td)) 4 0 0]
      (acceptMat c false (State.drawAhead (r.rmM = 4) ((ha.map (fun h => h.rows * h.elems)).getD 0))) s)

/-- `tfree` (R259). -/
def execTfree (r : R) (s : State) : Host.Outcome State Fault Refusal :=
  issue (.tfree r) s (fun s => acceptMat (s.newMat .tfree r) false id s)

/-- Whether the operands of `mma` are refused (R261). -/
def mmaBad (koff : Nat) (bound : Option AccView) (ha hb : Option Shape) : Bool :=
  match ha, hb with
  | some a, some b =>
    match mmaPair a.fmt b.fmt with
    | some (ka, view) =>
      a.rows ≠ 32 || b.rows ≠ 64 || 16 * koff + a.rby / 32 * ka > b.elems || (bound.isSome && bound ≠ some view)
    | none => true
  | _, _ => true

/-- `mma` (R261). -/
def execMma (r : R) (s : State) : Host.Outcome State Fault Refusal :=
  issue (.mma r) s (fun s =>
    let c := s.newMat .mma r
    let y := c.opB.toNat
    let hb := Shape.of c.tb
    checked [if r.lb then ckShape 0 false y hb else fun _ => none, ckBar 0 r, ckFault (r.lb && y % 32 ≠ 0) 5 0 0, ckBarAlign r 0,
      ckFault (mmaBad r.koff (s.viewAhead r.d.toNat) (Shape.of c.ta) hb) 4 0 0]
      (acceptMat (if r.lb then { c with y := y, len := (hb.map Shape.ll).getD 0 } else c) false id) s)

/-- `accrd` (R264): its registers interlock from issue on. -/
def execAccrd (r : R) (s : State) : Host.Outcome State Fault Refusal :=
  issue (.accrd r) s (fun s => acceptMat (s.newMat .accrd r) false
    (fun s => (s.claimReg ⟨.v, r.d.toNat⟩).claimReg ⟨.g, r.e.toNat⟩) s)

/-- Bytes of an element that `accst` writes. -/
def accWidth (r : R) : Nat := if r.fmt = 1 then 2 else 4

/-- The row stride of `accst`. -/
def MatCmd.stride (c : MatCmd) : Nat := if c.opE = 0 then 64 * accWidth c.r else c.opE.toNat

/-- `accst` (R265). -/
def execAccst (r : R) (s : State) : Host.Outcome State Fault Refusal :=
  issue (.accst r) s (fun s =>
    let c := s.newMat .accst r
    let y := c.opA.toNat
    let n := 31 * c.stride + 64 * accWidth r
    checked [ckLocal 1 true y n, ckFault (y % 32 ≠ 0 || c.stride % 32 ≠ 0 || c.stride < 64 * accWidth r) 5 0 0]
      (acceptMat { c with y := y, len := n } true (State.drawAhead (r.rmM = 4) 2048)) s)

/-- `azero` (R266). -/
def execAzero (r : R) (s : State) : Host.Outcome State Fault Refusal :=
  issue (.azero r) s (fun s => acceptMat (s.newMat .azero r) false id s)

/-- `afree` (R266). -/
def execAfree (r : R) (s : State) : Host.Outcome State Fault Refusal :=
  issue (.afree r) s (fun s => acceptMat (s.newMat .afree r) false id s)

/-! ## The units at work (R256, R263, R264) -/

/-- A command of some matrix queue, with the agent it stands on. -/
def State.mat? (s : State) (id : Nat) : Option (Agent × MatCmd) :=
  s.allCores.findSome? (fun k => (k.matq.find? (fun c => c.id = id)).map (fun c => (k.agent, c)))

/-- Replace a command of the matrix queue in focus. -/
def State.putMat (c : MatCmd) (s : State) : State :=
  s.modCore (fun k => { k with matq := k.matq.map (fun d => if d.id = c.id then c else d) })

/-- A command completes: it leaves the queue and the scoreboard (R274). -/
def State.endMat (c : MatCmd) (s : State) : State :=
  (s.modCore (fun k => { k with matq := k.matq.filter (fun d => d.id ≠ c.id) })).modAct c.owner
    (fun a => { a.release c.id with matDone := s.cycle })

/-- A local range as it stands, with its poison. -/
def State.latch (s : State) (y n : Nat) : LMem :=
  ⟨Memory.writeN [] y (s.readLocal y n), (wordsOf y n).filter (fun w => (s.poisonAt (8 * w) 8).isSome), true, []⟩

/-- The operands of a running `mma`, none for shapes that were refused at issue. -/
def State.mmaOps (s : State) (c : MatCmd) : Option MmaOps :=
  match Shape.of c.ta, Shape.of c.tb with
  | some ha, some hb =>
    (mmaPair ha.fmt hb.fmt).map (fun p =>
      { ha := ha, hb := hb, a := s.me.tile c.r.a.toNat
        b := if c.r.lb then Tile.parse hb (c.latch.read c.y hb.ll) (c.latch.poison ≠ []) else s.me.tile c.r.b.toNat
        koff := c.r.koff, ka := p.1 })
  | _, _ => none

/-- K-steps of an `mma`. -/
def MatCmd.steps (c : MatCmd) : Nat := ((Shape.of c.ta).map (fun h => h.rby / 32)).getD 0

/-- A K-step begins: its operand in local memory is read, and the last such read frees the range (R262, R23). -/
def State.beginStep (c : MatCmd) (s : State) : State :=
  let s := s.putMat (if c.r.lb then { c with latch := s.latch c.y c.len } else c)
  if c.step + 1 ≥ c.steps then s.modMe (fun a => a.release c.id) else s

/-- A command reads its local operand, which is one of the partner's state when it lies in the partner window: none when it has to wait for
the partner's verdicts (R361). -/
def State.matTaint (c : MatCmd) (s : State) : Option State :=
  if c.kind = .tld || (c.kind = .mma && c.r.lb) then s.readTaint c.y c.len else some s

/-- The command in focus with the tiles and the bank it needs; none while it is not ready, or while a spill or a refill is on its way. -/
def State.readyMat (c : MatCmd) (s : State) : Option State :=
  if c.started.isSome || s.cycle < c.issued + 1 || s.spillBusy || !s.core.matOrdered c || !s.me.matBarrier c s.cycle || !s.me.matRange c then none
  else
    let s := (s.needTiles c).bind (State.matTaint c)
    match c.kind with
    | .mma => s.bind State.needBank
    | .accst => s.bind State.needBank
    | .azero => s.bind State.needBank
    | .accrd => s.bind State.needBank
    | _ => s

/-- A ready command starts, in the next cycle. `azero` sets its accumulator anew, one that is bound and poisoned too (DESIGN CHOICE, log
131). -/
def State.beginMat (c : MatCmd) (s : State) : State :=
  let c := { c with started := some (s.cycle + 1) }
  let n := c.r.d.toNat
  match c.kind with
  | .mma =>
    let view := ((mmaPair (c.ta.toNat % 16) (c.tb.toNat % 16)).map (fun p => p.2)).getD .fp
    let s := if (s.me.accs.find n).isSome then s
      else s.modMe (fun a => { a with accs := a.accs.put n ⟨[], view, 0, false⟩ })
    s.beginStep c
  | .azero =>
    (s.modMe (fun a => { a with accs := a.accs.put n ⟨[], if c.r.lb then .int else .fp, 0, false⟩ })).putMat c
  | _ => s.putMat c

/-- The command in focus started in this cycle; none while it is not ready. -/
def State.startMat (c : MatCmd) (s : State) : Option State := (s.readyMat c).map (State.beginMat c)

/-- What a command of the core in focus does once it is ready: nothing while what it made the core spill or refill is on its way. -/
def State.whenReady (c : MatCmd) (f : State → State) (s : State) : State :=
  match s.readyMat c with
  | none => s
  | some t => if t.spillBusy then t else f t

/-- Whether a unit's older command is ready, which then starts first (R256). -/
def State.olderReady (s : State) (c : MatCmd) : Bool :=
  s.core.matq.any (fun e => e.id < c.id && (e.kind = .mma) = (c.kind = .mma) && e.owner ∉ s.disp.evicting &&
    ((s.focus e.owner).readyMat e).isSome)

/-- Whether the unit of a command is free. -/
def Core.unitFree (k : Core) (c : MatCmd) : Bool :=
  !k.matq.any (fun e => e.started.isSome && (e.kind = .mma) = (c.kind = .mma))

/-- Start a command of the core in focus on its unit, when it is the oldest that is ready; not once its activity's eviction is
accepted (R273). -/
def State.tryStart (c : MatCmd) (s : State) : State :=
  if !s.core.unitFree c || s.olderReady c || c.owner ∈ s.disp.evicting then s else s.whenReady c (State.beginMat c)

/-- Act on a matrix command with its owner in focus. -/
def State.onMat (id : Nat) (f : MatCmd → State → State) (s : State) : State :=
  match s.mat? id with
  | none => s
  | some (ag, c) => f c ((s.focus c.owner).focusCore ag)

/-- MMA_START: the oldest ready `mma` passes its barrier test and starts on the array in the next cycle (R256, R263). -/
def execMmaStart (cmd : Nat) (s : State) : Host.Outcome State Fault Refusal :=
  .next (s.onMat cmd (fun c s => if c.kind = .mma then s.tryStart c else s))

/-- Whether a K-step's results are due at the end of this cycle (R263). -/
def MatCmd.stepDue (c : MatCmd) (cycle : Nat) : Bool :=
  match c.started with
  | some b => c.kind = .mma && b + 16 * (c.step + 1) ≤ cycle + 1
  | none => false

/-- Apply a K-step of a running `mma` to its accumulator; the last one ends it and records poison (R262, R268). -/
def State.applyStep (c : MatCmd) (s : State) : State :=
  match s.mmaOps c, s.me.accs.find c.r.d.toNat with
  | some o, some acc =>
    let n := c.r.d.toNat
    let bad := c.bad || o.a.poison || o.b.poison || acc.poison
    let c := { c with step := c.step + 1, bad := bad }
    let acc := acc.kstep o (c.step - 1)
    if c.step < c.steps then (s.modMe (fun a => { a with accs := a.accs.put n acc })).beginStep c
    else
      let s := s.modMe (fun a => { a with accs := a.accs.put n { acc with poison := bad } })
      let s := s.endMat c
      if bad then
        if c.r.bar ≠ 0 then s.barNote c.owner c.r.bar 0 0 errPoison else s.reportMe 2 0 errPoison
      else s
  | _, _ => s.endMat c

/-- KSTEP_END: a K-step's results are in the accumulator from the next cycle on. An accumulator that was spilled comes back
first. -/
def execKstepEnd (cmd : Nat) (s : State) : Host.Outcome State Fault Refusal :=
  .next (s.onMat cmd (fun c s =>
    if !c.stepDue s.cycle || s.spillBusy then s
    else match ((s.needBank).bind (State.needTiles c)).bind (State.matTaint c) with
      | none => s
      | some t => if t.spillBusy then t else t.applyStep c))

/-- Cycles that a tile-port command takes from its start (R263, R265); for `azero` and `afree`, to which no rule gives a time, one (DESIGN
CHOICE, log 132). -/
def MatCmd.portTime (c : MatCmd) : Nat :=
  match c.kind with
  | .tld => 2 + (c.len + 127) / 128
  | .tst => 2 + (c.len + 127) / 128
  | .tmov => 2 + 4096 / 128
  | .tcvt => 2 + 4096 / 128
  | .accst => 2 + 32 * accWidth c.r / 4
  | _ => 1

/-- Write local bytes; with `bad`, every word written is poisoned (R143). -/
def State.writePoison (y : Nat) (bs : List Byte) (bad : Bool) (s : State) : State :=
  let s := s.writeLocal y bs
  if bad then s.modMe (fun a => { a with lm := a.lm.taint (wordsOf y bs.length) }) else s

/-- Bind a tile of the activity in focus to contents. -/
def State.setTile (n : Nat) (t : Tile) (s : State) : State :=
  s.modMe (fun a =>
    let b := a.touchTile n
    { b with tiles := b.tiles.put n t })

/-- The tile that `tcvt` writes (R260). Blocks are requantised to nearest even but under `.rs` (R72). Bytes beyond the shape, and the scales and
the band scale of a destination that is not block-scaled, are 0 (DESIGN CHOICE, log 130). -/
def tcvtTile (c : MatCmd) (ha hd : Shape) (t : Tile) : Tile :=
  let rm := if isBlock hd.fmt && c.r.rmM ≠ 4 then .rne else RMode.of c.r.rmM
  let draws := if c.r.rmM = 4 then (srDraws c.seed (ha.rows * ha.elems)).2 else []
  let band := c.opB.toNat % 2 ^ 16
  let rows := List.range hd.rows
  if isBlock hd.fmt then
    let blocks := rows.flatMap (fun i => (List.range (hd.elems / 8)).map (fun k =>
      requantise (floatFmt hd.fmt) (blockTop hd.fmt) rm ((draws.drop (i * hd.elems + 8 * k)).take 8) (fBf16.decode band)
        ((List.range 8).map (fun q => t.val ha i (8 * k + q)))))
    { payload := Memory.writeN [] 0 (blocks.flatMap (fun b => packBlock hd.fmt b.2))
      scales := Memory.writeN [] 0 (blocks.map (fun b => BitVec.ofNat 8 b.1))
      band := BitVec.ofNat 16 band, poison := t.poison }
  else
    let w := fmtBits hd.fmt
    let code (i e : Nat) : Nat :=
      let d := draws.getD (i * hd.elems + e) 0
      if isInt hd.fmt then truncInt w (toIntSat w rm d (t.val ha i e))
      else (floatFmt hd.fmt).round rm c.r.ovfM d (t.val ha i e)
    { payload := Memory.writeN [] 0 (rows.flatMap (fun i => (List.range hd.elems).flatMap (fun e => toBytes (w / 8) (code i e))))
      scales := [], band := 0, poison := t.poison }

/-- The value of an entry (R265). -/
def Acc.value (a : Acc) (k : Nat) : Val :=
  match a.view with
  | .fp => wideDecode (a.entry k)
  | .int => Val.ofInt (a.entry k).toInt

/-- An accumulator that is not bound (R252). -/
def Acc.unbound : Acc := ⟨[], .fp, 0, false⟩

/-- The rows that `accst` writes. -/
def accstRow (c : MatCmd) (a : Acc) (draws : List Nat) (i : Nat) : List Byte :=
  let rm := RMode.of c.r.rmM
  (List.range 64).flatMap (fun j =>
    let k := 64 * i + j
    let v := if c.r.lb then (a.value k).mul (fFp32.decode (c.opB.toNat % 2 ^ 32)) else a.value k
    let d := draws.getD k 0
    toBytes (accWidth c.r) (if c.r.fmt = 9 then truncInt 32 (toIntSat 32 rm d v) else (floatFmt c.r.fmt).round rm c.r.ovfM d v))

/-- The element of half a row that `accrd` reads (R264). -/
def accrdElem (r : R) (a : Acc) (k : Nat) : Nat :=
  let rm := RMode.of r.rmM
  if r.fmt = 9 then truncInt 32 (toIntSat 32 rm 0 (a.value k)) else fFp32.round rm 0 0 (a.value k)

/-- `accrd` reads at one cycle (R264): its results are ready 4 cycles later; a poisoned accumulator acts at its own PC. One of a run that was
restarted or squashed writes nothing (R160). -/
def State.accRead (c : MatCmd) (s : State) : State :=
  let a := (s.me.accs.find c.r.a.toNat).getD Acc.unbound
  let s := s.endMat c
  let v : Reg := ⟨.v, c.r.d.toNat⟩
  let e : Reg := ⟨.g, c.r.e.toNat⟩
  let s := if c.stale then s else s.modMe (fun m => { m with claimed := (m.claimed.erase v).erase e })
  if c.stale then s
  else if a.poison then (s.modMe (fun m => { m with pc := BitVec.ofNat 64 c.pc })).takePoison 3 0
  else
    let sel := c.opB.toNat
    let base := 64 * (sel % 32) + 32 * (sel / 32 % 2)
    let s := s.pendWrite .engine (s.cycle + 5) [] v (packElems 32 ((List.range 32).map (fun j => accrdElem c.r a (base + j))))
    s.pendWrite .engine (s.cycle + 5) [] e (BitVec.ofNat 1024 a.steps)

/-- The effect of a tile-port command as it completes. -/
def State.portEffect (c : MatCmd) (s : State) : State :=
  let a := s.me
  let d := c.r.d.toNat
  match c.kind with
  | .tld =>
    (match Shape.of c.td with
     | none => s
     | some h =>
       let bad := (s.poisonAt c.y c.len).isSome
       let s := s.setTile d (Tile.parse h (s.readLocal c.y c.len) bad)
       if bad then (if c.r.bar ≠ 0 then s.barNote c.owner c.r.bar 0 0 errPoison else s.reportMe 2 c.y errPoison) else s)
  | .tst =>
    (match Shape.of c.tb with
     | none => s
     | some h => s.writePoison c.y ((a.tile c.r.b.toNat).layout h) (a.tile c.r.b.toNat).poison)
  | .tzero => s.setTile d Tile.zero
  | .tmov => if c.r.d = c.r.a then s else s.setTile d (a.tile c.r.a.toNat)
  | .tcvt =>
    (match Shape.of c.ta, Shape.of c.td with
     | some ha, some hd => s.setTile d (tcvtTile c ha hd (a.tile c.r.a.toNat))
     | _, _ => s)
  | .tfree => s.modMe (fun a => a.dropTile c.r.a.toNat)
  | .accst =>
    let n := c.r.c.toNat
    let acc := (a.accs.find n).getD Acc.unbound
    let draws := if c.r.rmM = 4 then (srDraws c.seed 2048).2 else []
    let s := (List.range 32).foldl (fun (s : State) i =>
      s.writePoison (c.y + i * c.stride) (accstRow c acc draws i) acc.poison) s
    let s := if acc.poison then s.reportMe 2 c.y errPoison else s
    if c.r.clr then s.modMe (fun a => { a with accs := a.accs.del n, aspilled := a.aspilled.del n }) else s
  | .afree => s.modMe (fun a => { a with accs := a.accs.del d, aspilled := a.aspilled.del d })
  | _ => s

/-- TILE_PORT_COMPLETE: the tile port takes up a command, and later completes it; `accrd` does both in the cycle of its read, once
every K-step that has ended is applied. -/
def execTilePortComplete (cmd : Nat) (s : State) : Host.Outcome State Fault Refusal :=
  .next (s.onMat cmd (fun c s =>
    match c.kind, c.started with
    | .mma, _ => s
    | .accrd, none =>
      if !s.core.unitFree c || s.olderReady c ||
          s.core.matq.any (fun e => e.owner = c.owner && e.acc = c.acc && e.stepDue s.cycle) then s
      else s.whenReady c (State.accRead c)
    | _, none => s.tryStart c
    | k, some b =>
      if s.cycle + 1 < b + c.portTime || s.spillBusy then s
      else match ((if k = .accst then s.needBank else some s).bind (State.needTiles c)).bind (State.matTaint c) with
        | none => s
        | some t => if t.spillBusy then t else (t.portEffect c).endMat c))

end Sys2Proof.Machine
end

