-- ==== Sys2Proof/Machine/Scalar.lean ====
section
/-! DEFINITION. The scalar instructions that compute (R126-R133). Each value is a function of its operands, named `val…`; each
meaning queues that value for the destination under the latency of the instruction's class (R122). -/

namespace Sys2Proof

/-- POS of a bit-field instruction (R131). -/
def R.pos (r : R) : Nat := (r.m.extractLsb' 0 6).toNat
/-- The width of its field (R131). -/
def R.width (r : R) : Nat := (r.m.extractLsb' 6 6).toNat + 1

namespace Machine

/-- A result computed from G[A] and SrcB(). -/
def effBinary (i : Instr) (r : R) (f : Word → Word → Word) (s : State) : Eff :=
  .done (s.resultG i r.d (f (s.me.g r.a.toNat) (s.me.srcB r)))

/-- A result computed from G[A]. -/
def effUnary (i : Instr) (r : R) (f : Word → Word) (s : State) : Eff :=
  .done (s.resultG i r.d (f (s.me.g r.a.toNat)))

/-- A result computed from G[A] and the sign-extended IMM8 (R128). -/
def effImm (i : Instr) (d a : BitVec 6) (imm : BitVec 8) (f : Word → Word → Word) (s : State) : Eff :=
  .done (s.resultG i d (f (s.me.g a.toNat) (imm.signExtend 64)))

/-- A division: it waits for the core's divider, whose result comes 20 cycles after issue (R122, R123). -/
def effDivide (r : R) (f : Word → Word → Word) (s : State) : Eff :=
  if s.cycle < s.core.divBusy then .hold s
  else
    let v := f (s.me.g r.a.toNat) (s.me.srcB r)
    .done ((s.resultAt .divide (s.cycle + 20) [] r.d.toNat v).modCore (fun c => { c with divBusy := s.cycle + 20 }))

/-- Add: sum (R127). -/
def valAdd (a b : Word) : Word := a + b

/-- `add`: sum (R127). -/
def execAdd (r : R) (s : State) : Host.Outcome State Fault Refusal :=
  issue (.add r) s (effBinary (.add r) r valAdd)

/-- Sub: difference (R127). -/
def valSub (a b : Word) : Word := a - b

/-- `sub`: difference (R127). -/
def execSub (r : R) (s : State) : Host.Outcome State Fault Refusal :=
  issue (.sub r) s (effBinary (.sub r) r valSub)

/-- Adds: signed sum, saturated (R127). -/
def valAdds (a b : Word) : Word := BitVec.ofInt 64 (satInt 64 (a.toInt + b.toInt))

/-- `adds`: signed sum, saturated (R127). -/
def execAdds (r : R) (s : State) : Host.Outcome State Fault Refusal :=
  issue (.adds r) s (effBinary (.adds r) r valAdds)

/-- Subs: signed difference, saturated (R127). -/
def valSubs (a b : Word) : Word := BitVec.ofInt 64 (satInt 64 (a.toInt - b.toInt))

/-- `subs`: signed difference, saturated (R127). -/
def execSubs (r : R) (s : State) : Host.Outcome State Fault Refusal :=
  issue (.subs r) s (effBinary (.subs r) r valSubs)

/-- And: bitwise and (R127). -/
def valAnd (a b : Word) : Word := a &&& b

/-- `and`: bitwise and (R127). -/
def execAnd (r : R) (s : State) : Host.Outcome State Fault Refusal :=
  issue (.and_ r) s (effBinary (.and_ r) r valAnd)

/-- Or: bitwise or (R127). -/
def valOr (a b : Word) : Word := a ||| b

/-- `or`: bitwise or (R127). -/
def execOr (r : R) (s : State) : Host.Outcome State Fault Refusal :=
  issue (.or_ r) s (effBinary (.or_ r) r valOr)

/-- Xor: bitwise exclusive or (R127). -/
def valXor (a b : Word) : Word := a ^^^ b

/-- `xor`: bitwise exclusive or (R127). -/
def execXor (r : R) (s : State) : Host.Outcome State Fault Refusal :=
  issue (.xor r) s (effBinary (.xor r) r valXor)

/-- Andn: bitwise and with the complement (R127). -/
def valAndn (a b : Word) : Word := a &&& ~~~b

/-- `andn`: bitwise and with the complement (R127). -/
def execAndn (r : R) (s : State) : Host.Outcome State Fault Refusal :=
  issue (.andn r) s (effBinary (.andn r) r valAndn)

/-- Shl: shift left by bits [5:0] (R127). -/
def valShl (a b : Word) : Word := a <<< (b.toNat % 64)

/-- `shl`: shift left by bits [5:0] (R127). -/
def execShl (r : R) (s : State) : Host.Outcome State Fault Refusal :=
  issue (.shl r) s (effBinary (.shl r) r valShl)

/-- Shr: logical shift right (R127). -/
def valShr (a b : Word) : Word := a >>> (b.toNat % 64)

/-- `shr`: logical shift right (R127). -/
def execShr (r : R) (s : State) : Host.Outcome State Fault Refusal :=
  issue (.shr r) s (effBinary (.shr r) r valShr)

/-- Sar: arithmetic shift right (R127). -/
def valSar (a b : Word) : Word := a.sshiftRight (b.toNat % 64)

/-- `sar`: arithmetic shift right (R127). -/
def execSar (r : R) (s : State) : Host.Outcome State Fault Refusal :=
  issue (.sar r) s (effBinary (.sar r) r valSar)

/-- Ror: rotate right (R127). -/
def valRor (a b : Word) : Word := a.rotateRight (b.toNat % 64)

/-- `ror`: rotate right (R127). -/
def execRor (r : R) (s : State) : Host.Outcome State Fault Refusal :=
  issue (.ror r) s (effBinary (.ror r) r valRor)

/-- Mul: low 64 bits of the product (R127). -/
def valMul (a b : Word) : Word := a * b

/-- `mul`: low 64 bits of the product (R127). -/
def execMul (r : R) (s : State) : Host.Outcome State Fault Refusal :=
  issue (.mul r) s (effBinary (.mul r) r valMul)

/-- Mulh: high 64 bits of the signed product (R127). -/
def valMulh (a b : Word) : Word := BitVec.ofInt 64 (a.toInt * b.toInt / 2 ^ 64)

/-- `mulh`: high 64 bits of the signed product (R127). -/
def execMulh (r : R) (s : State) : Host.Outcome State Fault Refusal :=
  issue (.mulh r) s (effBinary (.mulh r) r valMulh)

/-- Mulhu: high 64 bits of the unsigned product (R127). -/
def valMulhu (a b : Word) : Word := BitVec.ofNat 64 (a.toNat * b.toNat / 2 ^ 64)

/-- `mulhu`: high 64 bits of the unsigned product (R127). -/
def execMulhu (r : R) (s : State) : Host.Outcome State Fault Refusal :=
  issue (.mulhu r) s (effBinary (.mulhu r) r valMulhu)

/-- Ceq: equal (R129). -/
def valCeq (a b : Word) : Word := boolWord (a == b)

/-- `ceq`: equal (R129). -/
def execCeq (r : R) (s : State) : Host.Outcome State Fault Refusal :=
  issue (.ceq r) s (effBinary (.ceq r) r valCeq)

/-- Cne: not equal (R129). -/
def valCne (a b : Word) : Word := boolWord (a != b)

/-- `cne`: not equal (R129). -/
def execCne (r : R) (s : State) : Host.Outcome State Fault Refusal :=
  issue (.cne r) s (effBinary (.cne r) r valCne)

/-- Clt: signed less (R129). -/
def valClt (a b : Word) : Word := boolWord (ltS a b)

/-- `clt`: signed less (R129). -/
def execClt (r : R) (s : State) : Host.Outcome State Fault Refusal :=
  issue (.clt r) s (effBinary (.clt r) r valClt)

/-- Cltu: unsigned less (R129). -/
def valCltu (a b : Word) : Word := boolWord (ltU a b)

/-- `cltu`: unsigned less (R129). -/
def execCltu (r : R) (s : State) : Host.Outcome State Fault Refusal :=
  issue (.cltu r) s (effBinary (.cltu r) r valCltu)

/-- Min: signed smaller (R129). -/
def valMin (a b : Word) : Word := if ltS b a then b else a

/-- `min`: signed smaller (R129). -/
def execMin (r : R) (s : State) : Host.Outcome State Fault Refusal :=
  issue (.min r) s (effBinary (.min r) r valMin)

/-- Max: signed larger (R129). -/
def valMax (a b : Word) : Word := if ltS a b then b else a

/-- `max`: signed larger (R129). -/
def execMax (r : R) (s : State) : Host.Outcome State Fault Refusal :=
  issue (.max r) s (effBinary (.max r) r valMax)

/-- Minu: unsigned smaller (R129). -/
def valMinu (a b : Word) : Word := if ltU b a then b else a

/-- `minu`: unsigned smaller (R129). -/
def execMinu (r : R) (s : State) : Host.Outcome State Fault Refusal :=
  issue (.minu r) s (effBinary (.minu r) r valMinu)

/-- Maxu: unsigned larger (R129). -/
def valMaxu (a b : Word) : Word := if ltU a b then b else a

/-- `maxu`: unsigned larger (R129). -/
def execMaxu (r : R) (s : State) : Host.Outcome State Fault Refusal :=
  issue (.maxu r) s (effBinary (.maxu r) r valMaxu)

/-- Adx2: scaled add (R133). -/
def valAdx2 (a b : Word) : Word := a + BitVec.ofNat 64 (2 * b.toNat)

/-- `adx2`: scaled add (R133). -/
def execAdx2 (r : R) (s : State) : Host.Outcome State Fault Refusal :=
  issue (.adx2 r) s (effBinary (.adx2 r) r valAdx2)

/-- Adx4: scaled add (R133). -/
def valAdx4 (a b : Word) : Word := a + BitVec.ofNat 64 (4 * b.toNat)

/-- `adx4`: scaled add (R133). -/
def execAdx4 (r : R) (s : State) : Host.Outcome State Fault Refusal :=
  issue (.adx4 r) s (effBinary (.adx4 r) r valAdx4)

/-- Adx8: scaled add (R133). -/
def valAdx8 (a b : Word) : Word := a + BitVec.ofNat 64 (8 * b.toNat)

/-- `adx8`: scaled add (R133). -/
def execAdx8 (r : R) (s : State) : Host.Outcome State Fault Refusal :=
  issue (.adx8 r) s (effBinary (.adx8 r) r valAdx8)

/-- Adx16: scaled add (R133). -/
def valAdx16 (a b : Word) : Word := a + BitVec.ofNat 64 (16 * b.toNat)

/-- `adx16`: scaled add (R133). -/
def execAdx16 (r : R) (s : State) : Host.Outcome State Fault Refusal :=
  issue (.adx16 r) s (effBinary (.adx16 r) r valAdx16)

/-- Div: signed quotient, toward zero (R127); by zero, all ones or the dividend. -/
def valDiv (a b : Word) : Word := if b = 0 then BitVec.allOnes 64 else BitVec.ofInt 64 (Int.tdiv a.toInt b.toInt)

/-- `div`: signed quotient, toward zero (R127). -/
def execDiv (r : R) (s : State) : Host.Outcome State Fault Refusal :=
  issue (.div r) s (effDivide r valDiv)

/-- Divu: unsigned quotient (R127); by zero, all ones or the dividend. -/
def valDivu (a b : Word) : Word := if b = 0 then BitVec.allOnes 64 else BitVec.ofNat 64 (a.toNat / b.toNat)

/-- `divu`: unsigned quotient (R127). -/
def execDivu (r : R) (s : State) : Host.Outcome State Fault Refusal :=
  issue (.divu r) s (effDivide r valDivu)

/-- Rem: signed remainder (R127); by zero, all ones or the dividend. -/
def valRem (a b : Word) : Word := if b = 0 then a else BitVec.ofInt 64 (Int.tmod a.toInt b.toInt)

/-- `rem`: signed remainder (R127). -/
def execRem (r : R) (s : State) : Host.Outcome State Fault Refusal :=
  issue (.rem r) s (effDivide r valRem)

/-- Remu: unsigned remainder (R127); by zero, all ones or the dividend. -/
def valRemu (a b : Word) : Word := if b = 0 then a else BitVec.ofNat 64 (a.toNat % b.toNat)

/-- `remu`: unsigned remainder (R127). -/
def execRemu (r : R) (s : State) : Host.Outcome State Fault Refusal :=
  issue (.remu r) s (effDivide r valRemu)

/-- Bfxu: unsigned bit field (R131). -/
def valBfxu (r : R) (a : Word) : Word := BitVec.ofNat 64 (a.toNat / 2 ^ r.pos % 2 ^ r.width)

/-- `bfxu`: unsigned bit field (R131). -/
def execBfxu (r : R) (s : State) : Host.Outcome State Fault Refusal :=
  issue (.bfxu r) s (effUnary (.bfxu r) r (valBfxu r))

/-- Bfxs: signed bit field (R131). -/
def valBfxs (r : R) (a : Word) : Word := BitVec.ofInt 64 (sextNat r.width (a.toNat / 2 ^ r.pos))

/-- `bfxs`: signed bit field (R131). -/
def execBfxs (r : R) (s : State) : Host.Outcome State Fault Refusal :=
  issue (.bfxs r) s (effUnary (.bfxs r) r (valBfxs r))

/-- Clz: zero bits above the highest one (R132). -/
def valClz (a : Word) : Word := BitVec.ofNat 64 (clzW a)

/-- `clz`: zero bits above the highest one (R132). -/
def execClz (r : R) (s : State) : Host.Outcome State Fault Refusal :=
  issue (.clz r) s (effUnary (.clz r) r valClz)

/-- Ctz: zero bits below the lowest one (R132). -/
def valCtz (a : Word) : Word := BitVec.ofNat 64 (ctzW a)

/-- `ctz`: zero bits below the lowest one (R132). -/
def execCtz (r : R) (s : State) : Host.Outcome State Fault Refusal :=
  issue (.ctz r) s (effUnary (.ctz r) r valCtz)

/-- Popc: one bits (R132). -/
def valPopc (a : Word) : Word := BitVec.ofNat 64 (popcount a.toNat 64)

/-- `popc`: one bits (R132). -/
def execPopc (r : R) (s : State) : Host.Outcome State Fault Refusal :=
  issue (.popc r) s (effUnary (.popc r) r valPopc)

/-- Bswap: bytes reversed (R132). -/
def valBswap (a : Word) : Word := BitVec.ofNat 64 (ofBytes (toBytes 8 a.toNat).reverse)

/-- `bswap`: bytes reversed (R132). -/
def execBswap (r : R) (s : State) : Host.Outcome State Fault Refusal :=
  issue (.bswap r) s (effUnary (.bswap r) r valBswap)

/-- Addi: sum with IMM8 (R128). -/
def valAddi (a m : Word) : Word := a + m

/-- `addi`: sum with IMM8 (R128). -/
def execAddi (stl : BitVec 3) (d a : BitVec 6) (imm : BitVec 8) (s : State) : Host.Outcome State Fault Refusal :=
  issue (.addi stl d a imm) s (effImm (.addi stl d a imm) d a imm valAddi)

/-- Andi: and with IMM8 (R128). -/
def valAndi (a m : Word) : Word := a &&& m

/-- `andi`: and with IMM8 (R128). -/
def execAndi (stl : BitVec 3) (d a : BitVec 6) (imm : BitVec 8) (s : State) : Host.Outcome State Fault Refusal :=
  issue (.andi stl d a imm) s (effImm (.andi stl d a imm) d a imm valAndi)

/-- Ori: or with IMM8 (R128). -/
def valOri (a m : Word) : Word := a ||| m

/-- `ori`: or with IMM8 (R128). -/
def execOri (stl : BitVec 3) (d a : BitVec 6) (imm : BitVec 8) (s : State) : Host.Outcome State Fault Refusal :=
  issue (.ori stl d a imm) s (effImm (.ori stl d a imm) d a imm valOri)

/-- Xori: exclusive or with IMM8 (R128). -/
def valXori (a m : Word) : Word := a ^^^ m

/-- `xori`: exclusive or with IMM8 (R128). -/
def execXori (stl : BitVec 3) (d a : BitVec 6) (imm : BitVec 8) (s : State) : Host.Outcome State Fault Refusal :=
  issue (.xori stl d a imm) s (effImm (.xori stl d a imm) d a imm valXori)

/-- Shli: shift left by IMM8 (R128). -/
def valShli (a m : Word) : Word := a <<< (m.toNat % 64)

/-- `shli`: shift left by IMM8 (R128). -/
def execShli (stl : BitVec 3) (d a : BitVec 6) (imm : BitVec 8) (s : State) : Host.Outcome State Fault Refusal :=
  issue (.shli stl d a imm) s (effImm (.shli stl d a imm) d a imm valShli)

/-- Shri: logical shift right by IMM8 (R128). -/
def valShri (a m : Word) : Word := a >>> (m.toNat % 64)

/-- `shri`: logical shift right by IMM8 (R128). -/
def execShri (stl : BitVec 3) (d a : BitVec 6) (imm : BitVec 8) (s : State) : Host.Outcome State Fault Refusal :=
  issue (.shri stl d a imm) s (effImm (.shri stl d a imm) d a imm valShri)

/-- Sari: arithmetic shift right by IMM8 (R128). -/
def valSari (a m : Word) : Word := a.sshiftRight (m.toNat % 64)

/-- `sari`: arithmetic shift right by IMM8 (R128). -/
def execSari (stl : BitVec 3) (d a : BitVec 6) (imm : BitVec 8) (s : State) : Host.Outcome State Fault Refusal :=
  issue (.sari stl d a imm) s (effImm (.sari stl d a imm) d a imm valSari)

/-- Ceqi: equal to IMM8 (R128). -/
def valCeqi (a m : Word) : Word := boolWord (a == m)

/-- `ceqi`: equal to IMM8 (R128). -/
def execCeqi (stl : BitVec 3) (d a : BitVec 6) (imm : BitVec 8) (s : State) : Host.Outcome State Fault Refusal :=
  issue (.ceqi stl d a imm) s (effImm (.ceqi stl d a imm) d a imm valCeqi)

/-- Clti: signed less than IMM8 (R128). -/
def valClti (a m : Word) : Word := boolWord (ltS a m)

/-- `clti`: signed less than IMM8 (R128). -/
def execClti (stl : BitVec 3) (d a : BitVec 6) (imm : BitVec 8) (s : State) : Host.Outcome State Fault Refusal :=
  issue (.clti stl d a imm) s (effImm (.clti stl d a imm) d a imm valClti)

/-- Cltui: unsigned less than IMM8 (R128). -/
def valCltui (a m : Word) : Word := boolWord (ltU a m)

/-- `cltui`: unsigned less than IMM8 (R128). -/
def execCltui (stl : BitVec 3) (d a : BitVec 6) (imm : BitVec 8) (s : State) : Host.Outcome State Fault Refusal :=
  issue (.cltui stl d a imm) s (effImm (.cltui stl d a imm) d a imm valCltui)

/-- Bfi: the low bits of a put into the field of the old destination (R131). -/
def valBfi (r : R) (old a : Word) : Word :=
  BitVec.ofNat 64 (old.toNat % 2 ^ r.pos + a.toNat % 2 ^ r.width * 2 ^ r.pos +
    old.toNat / 2 ^ (r.pos + r.width) * 2 ^ (r.pos + r.width))

/-- `bfi`: insert a bit field (R131). -/
def execBfi (r : R) (s : State) : Host.Outcome State Fault Refusal :=
  issue (.bfi r) s (fun s => .done (s.resultG (.bfi r) r.d (valBfi r (s.me.g r.d.toNat) (s.me.g r.a.toNat))))

/-- `sel`: G[A] when G[C] is not 0, else SrcB() (R130). -/
def execSel (r : R) (s : State) : Host.Outcome State Fault Refusal :=
  issue (.sel r) s (fun s => .done (s.resultG (.sel r) r.d
    (if s.me.g r.c.toNat ≠ 0 then s.me.g r.a.toNat else s.me.srcB r)))

end Machine

end Sys2Proof
end

