-- ==== Sys2Proof/Machine/Start.lean ====
section
/-! DEFINITION. Job cards and program descriptors (R35, R279), and the state in which an activity starts (R42, R148, R280). -/

namespace Sys2Proof.Machine

/-! ## Cards (R35) -/

/-- The card that 64 bytes hold. -/
def Card.parse (bs : List Byte) : Card :=
  let w (i : Nat) : Nat := ofBytes ((bs.drop (8 * i)).take 8)
  { span := w 0, code := w 1 % 2 ^ 56, ovle := w 2 / 2 ^ 48, trape := w 2 / 2 ^ 32 % 2 ^ 16, entry := w 2 / 2 ^ 16 % 2 ^ 16,
    cwords := w 2 % 2 ^ 16, rcount := w 3 / 2 ^ 32, rsize := w 3 / 2 ^ 16 % 256, argt := w 3 % 2 ^ 16, keysp := w 4 / 2 ^ 48,
    tmask := w 4 / 2 ^ 40 % 16, gmask := w 4 / 2 ^ 36 % 16, spages := w 4 / 2 ^ 32 % 16, dpages := w 4 / 2 ^ 24 % 256,
    cmin := w 4 / 2 ^ 16 % 256, vd := w 4 / 2 ^ 10 % 64, cls := w 4 / 2 ^ 8 % 4, stage := w 4 % 256,
    preds := (List.range 4).map (fun i => w 5 / 2 ^ (16 * i) % 2 ^ 16), runb := w 6 % 2 ^ 32, ctgt := w 7 % 2 ^ 56,
    clean := w 1 / 2 ^ 56 = 0 && w 3 / 2 ^ 24 % 256 = 0 && w 4 / 2 ^ 44 % 16 = 0 && w 6 / 2 ^ 32 = 0 && w 7 / 2 ^ 56 = 0 }

/-- The code pages c (R36). -/
def Card.pages (c : Card) : Nat := (c.cwords * 4 + 2047) / 2048

/-- Pages that one activity takes with its code. -/
def Card.footprint (c : Card) : Nat := c.pages + c.dpages + c.spages

/-! ## Starting an activity (R42) -/

/-- An activity as it starts in a slot, with no register bound. -/
def Activity.start (uid : Nat) (agent : Agent) (slot gen cycle : Nat) (job : JobCtx) : Activity :=
  { uid := uid, life := .live, agent := agent, home := agent.num, slot := slot, gen := gen, job := job
    pc := BitVec.ofNat 64 (4 * job.entry), nextIssue := cycle, lastIssue := 0, regs := ⟨[], [], [], [], []⟩, pend := [], claimed := []
    tiles := [], accs := [], tspilled := [], aspilled := [], torder := [], spillArea := [], matDone := 0, barEnds := [], ts := []
    schk := false, seed := BitVec.ofNat 64 (seedDefault.toNat ^^^ job.record), runc := 0, overrun := false
    trap := ⟨0, 0, 0, false, false, false, false, []⟩, region := ⟨BitVec.allOnes 64, 0, 0, false, false, 0, none⟩, psjpc := 0
    lm := ⟨[], [], false, []⟩, frames := (List.range job.dpages).map (fun i => job.codePages + i), reserve := ⟨[], [], false, []⟩, claims := []
    block := .none, firstTry := none, listRead := none, descWait := none, windows := [], prog := none, party := none
    settling := none, doom := 0, fresh := true, tags := [], taints := [], coll := none, lastPc := 0, blockAt := 0, helds := [], promises := []
    quiet := none, trapping := none, seen := [] }

/-- The job fields that a card gives an activity of record i. -/
def Card.ctx (c : Card) (jid i : Nat) : JobCtx :=
  { vd := c.vd, jid := jid, cls := c.cls, stage := c.stage, keysp := c.keysp, runb := c.runb, codePages := c.pages,
    dpages := c.dpages, spages := c.spages, trape := c.trape, ovle := c.ovle, entry := c.entry, record := i }

/-- g63 at start: the top of the data pages. -/
def JobCtx.top (j : JobCtx) : Nat := (j.codePages + j.dpages) * 0x800

/-- The next generation of a slot (R33). -/
def nextGen (n : Nat) : Nat := if n ≥ 0xFFFF then 1 else n + 1

/-- Whether a slot of an agent is taken: by an activity at home there, or by a party of a meeting that is placed there (R313). -/
def State.slotTaken (s : State) (a : Agent) (k : Nat) : Bool :=
  s.allActs.any (fun b => (b.home = a.num && b.agent.kind = a.kind && b.slot = k) ||
    (match b.party with
     | some p => a.kind = .compute && p.place = some a.num && p.vslot = k && (p.travels || p.away)
     | none => false))

/-- The lowest free slot of an agent, of a number of slots. -/
def State.freeSlot (s : State) (a : Agent) (n : Nat) : Option Nat := lowest (fun k => !s.slotTaken a k) n

/-- Place an activity in a slot of its agent: the slot's generation advances, the activity comes into focus, and general registers
are bound to their start values. -/
def State.place (a : Activity) (regs : List (Nat × Word)) (s : State) : State :=
  let gen := nextGen ((((s.coreOf a.agent).slotGen).find a.slot).getD 0)
  let a := { a with gen := gen }
  let s := (s.modCoreOf a.agent (fun c => { c with slotGen := AMap.put c.slotGen a.slot gen })).focusCore a.agent
  let s := { s with me := a, acts := if s.me.life = .absent then s.acts else s.me :: s.acts, nextUid := max s.nextUid (a.uid + 1) }
  regs.foldl (fun (s : State) (n, v) => s.writeReg ⟨.g, n⟩ (v.setWidth 1024) []) s

/-- A core without an activity's monitor entry, queue place and vector accesses. -/
def Core.leaveSlot (c : Core) (u : Nat) : Core :=
  { c with monitors := c.monitors.filter (· ≠ u), monitorQueue := c.monitorQueue.filter (· ≠ u)
           vecq := c.vecq.filter (fun v => v.owner ≠ u) }

/-- Give up the activity in focus: its registers, pages and slot are free, and no activity is in focus until the next. -/
def State.vacate (s : State) : State :=
  let u := s.me.uid
  { s with
    me := { s.me with life := .absent, uid := 0, block := .none, regs := ⟨[], [], [], [], []⟩, tiles := [], accs := [], frames := [],
                      claims := [], pend := [], claimed := [], spillArea := [] }
    core := { (s.core.leaveSlot u) with segs := if s.core.agent.kind = .compute then s.core.segs
                                                 else s.core.segs.filter (fun g => g.jid ≠ u) } }

end Sys2Proof.Machine
end

