-- ==== Sys2Proof/Machine/System.lean ====
section
/-! DEFINITION. System registers, the return from a trap, `yield`, `free` and regions (R147-R162). -/

namespace Sys2Proof.Machine

/-- ACTID (R32). -/
def Activity.actid (a : Activity) : Nat := a.home % 2 ^ 12 * 2 ^ 20 + a.slot % 16 * 2 ^ 16 + a.gen % 2 ^ 16

/-- XSTAT (R151). -/
def TrapRegs.xstat (t : TrapRegs) : Nat :=
  (if t.inh then 1 else 0) + (if t.prs then 2 ^ 8 else 0) + (if t.pmp then 2 ^ 9 else 0) + (if t.prb then 2 ^ 10 else 0)

/-- RGSTAT (R157). -/
def Region.rgstat (g : Region) : Nat :=
  (if g.open_ then 1 else 0) + (if g.pin then 2 else 0) + g.try_ % 4 * 4 + g.rcnt % 2 ^ 16 * 2 ^ 8

/-- The value of a system register (R148). -/
def State.sysRead (s : State) (n : Nat) : Word :=
  let a := s.me
  match n with
  | 0x00 => BitVec.ofNat 64 s.cycle
  | 0x01 => BitVec.ofNat 64 a.actid
  | 0x02 => boolWord a.schk
  | 0x03 => BitVec.ofNat 64 a.xb
  | 0x04 => BitVec.ofNat 64 s.codeLen
  | 0x05 => a.seed
  | 0x06 => BitVec.ofNat 64 a.runc
  | 0x07 => BitVec.ofNat 64 (a.job.jid % 2 ^ 16 * 2 ^ 48 + a.job.vd % 64 * 2 ^ 10 + a.job.cls % 4 * 2 ^ 8 + a.job.stage % 256)
  | 0x08 => BitVec.ofNat 64 (a.regs.boundG % 256 + a.regs.boundV % 256 * 256)
  | 0x10 => a.trap.xpc
  | 0x11 => a.trap.xcause
  | 0x12 => a.trap.xinfo
  | 0x13 => BitVec.ofNat 64 a.trap.xstat
  | 0x18 => a.region.pc
  | 0x19 => BitVec.ofNat 64 a.region.rgstat
  | 0x40 => a.psjpc
  | 0x41 => s.svc.gwavail.setWidth 64
  | 0x42 => s.svc.modid.setWidth 64
  | n => if 0x20 ≤ n && n ≤ 0x27 then (a.ts.find (n - 0x20)).getD 0 else 0

/-- Whether a value is a valid tile shape (R250). -/
def tsValid (v : Word) : Bool :=
  let rows := v.toNat / 2 ^ 16 % 256
  let rby := v.toNat / 2 ^ 8 % 256
  v = 0 || (v.toNat / 2 ^ 24 = 0 && v.toNat / 16 % 16 = 0 && (rows = 16 || rows = 32 || rows = 64) &&
    (rby = 32 || rby = 64) && v.toNat % 16 ≤ 9)

/-- Write the RW field of a system register of the activity in focus (R150); RO and reserved bits are ignored. -/
def Activity.sysWrite (a : Activity) (n : Nat) (v : Word) : Activity :=
  match n with
  | 0x02 => { a with schk := v.getLsbD 0 }
  | 0x05 => { a with seed := if v = 0 then seedDefault else v }
  | 0x10 => { a with trap := { a.trap with xpc := v } }
  | 0x13 => { a with trap := { a.trap with inh := v.getLsbD 0 } }
  | n => if 0x20 ≤ n && n ≤ 0x27 then { a with ts := if v = 0 then a.ts.del (n - 0x20) else a.ts.put (n - 0x20) v } else a

/-- `mfs` (R150). -/
def execMfs (r : R) (s : State) : Host.Outcome State Fault Refusal :=
  issue (.mfs r) s (fun s => .done (s.resultG (.mfs r) r.d (s.sysRead r.x.toNat)))

/-- `mts` (R150): in effect before the next instruction issues. An invalid tile shape takes the copy fault FORMAT (R250). -/
def execMts (r : R) (s : State) : Host.Outcome State Fault Refusal :=
  issue (.mts r) s (fun s =>
    let n := r.x.toNat
    let v := s.me.srcB r
    if 0x20 ≤ n && n ≤ 0x27 && !tsValid v then .fault 4 n
    else .done (s.modMe (fun a => a.sysWrite n v)))

/-- `xret` (R155). -/
def execXret (r : R) (s : State) : Host.Outcome State Fault Refusal := issue (.xret r) s (State.returnTrap (.xret r))

/-- `yield`: a blocking point until the issue choice next selects the activity (R162). -/
def execYield (r : R) (s : State) : Host.Outcome State Fault Refusal :=
  issue (.yield_ r) s (fun s => .done (s.flushPending.modMe (fun a => { a with block := .yielded })))

/-- The effect of `free` (R161): it waits for a pending write of the register and for a command that will write it. -/
def effFree (x : Reg) (s : State) : Eff :=
  if s.me.interlocked x || (s.me.pendOf x).isSome then .hold s
  else if !x.binds then .done s
  else .done (s.modMe (fun a => { a with regs := a.regs.drop x }))

/-- `free gA` (R161). -/
def execFreeG (r : R) (s : State) : Host.Outcome State Fault Refusal := issue (.freeG r) s (effFree ⟨.g, r.a.toNat⟩)
/-- `free vA` (R161). -/
def execFreeV (r : R) (s : State) : Host.Outcome State Fault Refusal := issue (.freeV r) s (effFree ⟨.v, r.a.toNat⟩)
/-- `free kA` (R161). -/
def execFreeK (r : R) (s : State) : Host.Outcome State Fault Refusal := issue (.freeK r) s (effFree ⟨.k, r.a.toNat⟩)

/-- Close the open region, as `rend` does (R156). -/
def Region.close (g : Region) : Region := { g with open_ := false, pin := false, try_ := 0, pc := BitVec.allOnes 64, closing := none }

/-- The snapshot of R158: its bytes from reserve offset 0x1800 on. -/
def Activity.snapshot (a : Activity) (gm vm km : Nat) (pc : Word) : List Byte :=
  let gs := (bitsOf gm 64).filter (· ≠ 0)
  let ks := (bitsOf km 8).filter (· ≠ 0)
  let vs := bitsOf vm 32
  let mask (c : Cls) (n : Nat) : Nat :=
    ((List.range n).filter (fun i => a.regs.bound ⟨c, i⟩)).foldl (fun acc i => acc + 2 ^ i) 0
  toBytes 8 gm ++ toBytes 4 vm ++ toBytes 4 km ++ toBytes 8 (mask .g 64) ++ toBytes 4 (mask .v 32) ++
  toBytes 4 (mask .k 8) ++ toBytes 8 a.seed.toNat ++ toBytes 8 pc.toNat ++ toBytes 16 0 ++
  gs.flatMap (fun n => toBytes 8 (a.g n).toNat) ++ ks.flatMap (fun n => toBytes 16 (a.k n).toNat) ++
  vs.flatMap (fun n => toBytes 128 (a.v n).toNat)

/-- The live-in registers that masks name (R158). -/
def liveIns (gm vm km : Nat) : List Reg :=
  ((bitsOf gm 64).filter (· ≠ 0)).map (fun n => ⟨.g, n⟩) ++ ((bitsOf km 8).filter (· ≠ 0)).map (fun n => ⟨.k, n⟩) ++
  (bitsOf vm 32).map (fun n => ⟨.v, n⟩)

/-- The effect of `region` (R156): the size check; then pending results are waited for (R90, R123, R188), those that engines owe to live-ins
too (R87), and, under speculation, verdicts (R359); spilled live-ins are refilled (R44, R160); an open region is closed; the snapshot is written. -/
def effRegion (i : Instr) (r : R) (s : State) : Eff :=
  let a := s.me
  let gm := (a.srcB r).toNat / 2 * 2
  let vm := r.x.toNat
  let km := (r.m.extractLsb' 0 8).toNat
  let size := 64 + 8 * popcount gm 64 + 16 * popcount km 8 + 128 * popcount vm 32
  let away := match a.party with
    | some p => p.away
    | none => false
  if away || size > (a.job.spages - 3) * 2048 then .trap 6 (BitVec.ofNat 64 (size + 2 ^ 51))
  else if a.pend ≠ [] || a.speculative || s.vecBusy || (liveIns gm vm km).any (fun x => x ∈ a.claimed) then .hold s
  else match a.badHome (liveIns gm vm km) with
  | some w => .poison 2 w
  | none =>
    let next := a.pc + BitVec.ofNat 64 i.bytes
    .done ((s.refillAll (liveIns gm vm km)).modMe (fun a => { a with
      reserve := a.reserve.write 0x1800 (a.snapshot gm vm km next)
      region := { a.region with pc := next, open_ := true, pin := false, try_ := 0, cmdMark := s.nextCmd }
      nextIssue := s.cycle + 1 + (size + 255) / 256 }))

/-- `region` (R156). -/
def execRegion (r : R) (s : State) : Host.Outcome State Fault Refusal := issue (.region r) s (effRegion (.region r) r)

/-- `rend`: it waits for the activity's forecast tags, and is completed in the cycle of the last verdict (R372); else it closes the region
(R156). -/
def execRend (r : R) (s : State) : Host.Outcome State Fault Refusal :=
  issue (.rend r) s (fun s =>
    if s.me.speculative then
      .hold (s.modMe (fun a => { a with region := { a.region with closing := some (Instr.bytes (.rend r), Instr.stl (.rend r)) } }))
    else if s.me.region.open_ then .done (s.modMe (fun a => { a with region := a.region.close }))
    else .done s)

end Sys2Proof.Machine
end

