-- ==== Sys2Proof/Machine/Stream.lean ====
section
/-! DEFINITION. Spindle programs (R209, R277-R282) and stream instructions (R283-R288). -/

namespace Sys2Proof.Machine

/-! ## The requester -/

/-- An activity wherever it is, saved or not; and whether it is saved. -/
def State.anyAct? (s : State) (uid : Nat) : Option (Activity × Bool) :=
  match (s.act? uid).filter (fun a => a.life ≠ .absent) with
  | some a => some (a, false)
  | none => (s.saved.find? (fun z => z.act.uid = uid)).map (fun z => (z.act, true))

/-- The requester of the program in focus. -/
def State.requester (s : State) : Option (Activity × Bool) := (s.me.prog.bind (fun p => p.requester)).bind s.anyAct?

/-- The stream window of the program in focus (R209). -/
def State.streamWindow (s : State) : Option (Activity × Bool × Window) :=
  match s.requester, s.me.prog with
  | some (a, z), some p => (a.windows.find p.window).map (fun w => (a, z, w))
  | _, _ => none

/-! ## Checks (R285) -/

/-- Wait for a tensor's descriptor, without judging it. -/
def ckDescRead (tid : Nat) : Check := fun s =>
  if tid = 0 || (s.findDesc tid).isSome then none else some (.hold (s.modMe (fun a => { a with descWait := some tid })))

/-- The window step: the window is registered, holds the range, and the requester's barrier lies in its data pages. -/
def ckWindow (off n bar tid : Nat) : Check := fun s =>
  match s.streamWindow with
  | none => some (.fault 7 0 tid)
  | some (a, _, w) =>
    if off + n ≤ w.len && (bar = 0 || (List.range 16).all (fun i => (bar + i) / 0x800 ∈ a.frames)) then none else some (.fault 7 0 tid)

/-- A stream instruction interlocks while the requester is saved (R282); RUNC does not count then (R281). -/
def ckAway : Check := fun s =>
  match s.streamWindow with
  | some (_, true, _) => some (.hold (s.modMe (fun a => { a with quiet := some s.cycle })))
  | _ => none

/-- The checks of R285 for a range of n bytes at a window offset, or a tile (`tile` gives its tensor, row and column). A tile's length comes from
its descriptor: for one that is not valid, which a later step finds, the window step takes a length of 0 (DESIGN CHOICE, log 133). -/
def ckStream (f : Nat) (r : R) (off n rbar : Nat) (write : Option Bool) (a : Nat) (tile : Option (Nat × Nat × Nat)) : List Check :=
  let tid := (tile.map (fun t => t.1)).getD 0
  [match write with
     | some w => ckLocal f w a n
     | none => fun _ => none,
   ckBar f r,
   ckFault (off % 32 ≠ 0 || r.bar % 16 ≠ 0 || rbar % 16 ≠ 0 || (write.isSome && (n % 32 ≠ 0 || a % 32 ≠ 0))) 5 0 tid,
   ckDescRead tid,
   fun s => ckWindow off (if tile.isSome then ((s.descOf tid).map Desc.ll).getD 0 else n) rbar tid s,
   ckFault (write.isSome && (n < 32 || n > 65536)) 6 0 0,
   match tile with
     | some (t, i, j) => fun s => match s.descOf t with
         | none => some (.fault 1 0 t)
         | some d => if d.outside i j then some (.fault 2 0 t) else none
     | none => fun _ => none]

/-- The local base of a range at a window offset. -/
def State.windowBase (s : State) (off : Nat) : Nat := ((s.streamWindow).map (fun x => x.2.2.base + off)).getD 0

/-- A stream command of the program in focus. -/
def State.newStream (s : State) (k : CmdKind) (r : R) : Cmd :=
  { s.newCmd k r with base := s.windowBase (s.me.g r.d.toNat).toNat }

/-- The window's return barrier is the one now named (R286). -/
def State.nameReturn (bar : Nat) (s : State) : State :=
  s.modMe (fun a => { a with prog := a.prog.map (fun p => { p with ret := bar }) })

/-- `spush` (R286). -/
def execSpush (r : R) (s : State) : Host.Outcome State Fault Refusal :=
  issue (.spush r) s (fun s =>
    let tid := (s.me.g r.e.toNat).toNat % 2 ^ 16
    let i := (s.me.g r.a.toNat).toNat
    let j := (s.me.g r.c.toNat).toNat
    checked (ckStream 0 r (s.me.g r.d.toNat).toNat 0 (s.me.srcB r).toNat none 0 (some (tid, i, j)) ++ [ckAway])
      (fun s => match s.descOf tid with
        | none => .hold s
        | some d => accept { s.newStream .spush r with tid := tid, desc := some d, len := d.ll, bar := 0, sem := 0, scope := 0 } []
            (State.nameReturn r.bar) s) s)

/-- `sfmt` (R286). -/
def execSfmt (r : R) (s : State) : Host.Outcome State Fault Refusal :=
  issue (.sfmt r) s (fun s =>
    let y := (s.me.g r.a.toNat).toNat
    let n := (s.me.g r.c.toNat).toNat
    checked (ckStream 1 r (s.me.g r.d.toNat).toNat n (s.me.srcB r).toNat (some false) y none ++ [ckAway])
      (fun s =>
        let c := { s.newStream .sfmt r with len := n, bar := 0, sem := 0, scope := 0 }
        accept c [⟨c.id, y, n, false⟩] (State.nameReturn r.bar) s) s)

/-- `sfill` (R286). -/
def execSfill (r : R) (s : State) : Host.Outcome State Fault Refusal :=
  issue (.sfill r) s (fun s =>
    let y := (s.me.g r.a.toNat).toNat
    let n := (s.me.g r.c.toNat).toNat
    checked (ckStream 2 r (s.me.g r.d.toNat).toNat n (s.me.srcB r).toNat (some true) y none ++ [ckAway])
      (fun s =>
        let c := { s.newStream .sfill r with len := n, sem := 0, scope := 0 }
        accept c [⟨c.id, y, n, true⟩] id s) s)

/-- `swb` (R286). -/
def execSwb (r : R) (s : State) : Host.Outcome State Fault Refusal :=
  issue (.swb r) s (fun s =>
    let tid := (s.me.g r.e.toNat).toNat % 2 ^ 16
    let i := (s.me.g r.a.toNat).toNat
    let j := (s.me.g r.c.toNat).toNat
    checked (ckStream 3 r (s.me.g r.d.toNat).toNat 0 (s.me.srcB r).toNat none 0 (some (tid, i, j)) ++
        [ckWith tid (fun d => ckFault d.ro 8 0 tid), ckAway])
      (fun s => match s.descOf tid with
        | none => .hold s
        | some d => accept { s.newStream .swb r with tid := tid, desc := some d, len := d.ll } [] id s) s)

/-! ## Streams at work (R282, R286, R288) -/

/-- The requester that a stream command serves, while it exists and is not saved: none while its bytes wait (R225). -/
def State.streamEnd (s : State) : Option (Option Activity) :=
  match s.requester with
  | none => some none
  | some (a, saved) => if saved then none else some (some a)

/-- The tokens of a command's unit on its whole way: a stream command's bytes also pass between its spindle and its requester (R286,
R403). -/
def State.tripNeeds (s : State) (c : Cmd) (u : Nat) : List (Arbiter × Nat) :=
  let ag := s.core.agent
  let n := if c.kind = .sfmt || c.kind = .sfill then c.len else (c.unitSrc u).length
  let stream := match s.streamEnd with
    | some (some a) =>
      if c.kind = .spush || c.kind = .sfmt then s.wayTo ag a.agent ((n + 63) / 64)
      else if c.kind = .sfill || c.kind = .swb then s.wayTo a.agent ag ((n + 63) / 64)
      else []
    | _ => []
  sumNeeds (s.unitNeeds c u ++ stream)

/-- Whether a unit of a command has drawn all the tokens of its way. -/
def State.tripDone (s : State) (c : Cmd) (u : Nat) : Bool := s.hasPassed (.unit c.id u) (s.tripNeeds c u)

/-- The requests of the copy commands under way. Those of a command that was held count as non-speculative (R405). -/
def State.cmdRequests (s : State) : List Request :=
  s.allCores.flatMap (fun k => (k.copyq.filter (fun c => c.started)).flatMap (fun c =>
    let f := (if (s.act? c.owner).isSome then s.focus c.owner else s).focusCore k.agent
    let spec := c.payload.isNone && (s.act? c.owner).any s.borrowsOnly
    c.trips.map (fun u => ⟨.unit c.id u, c.vd, spec, c.startedAt, f.tripNeeds c u⟩)))

/-- Whether a range of the requester is being read as an index list (R206). -/
def Activity.listMeets (a : Activity) (y n : Nat) : Bool :=
  match a.listRead with
  | some (l, m, _) => y < l + m && l < y + n
  | none => false

/-- The bytes of a push with their window offsets: none for one that could not be delivered. A unit that has waited too long is in the queue
no more, and what it asked for is refused (R414, R436). -/
def State.pushCells (s : State) (c : Cmd) : List (Nat × Option Byte) × Nat :=
  match c.kind, c.target with
  | .spush, some t =>
    let out := (List.range c.units).flatMap (fun u => (c.unitSrc u).map (fun (o, x) =>
      (o, (s.asModule c.modid).readSrc c t (fun pa => u ∉ c.todo && (s.cxlAt pa || s.linkWaits pa)) x)))
    (out.map (fun (o, r) => (c.base + o, r.toOption)), firstError out)
  | .sfmt, _ =>
    let y := c.opA.toNat
    let cells := (List.range c.len).map (fun k =>
      (c.base + k, if (s.poisonAt (y + k) 1).isSome then none else (s.readLocal (y + k) 1).head?))
    (cells, if cells.any (fun x => x.2.isNone) then errPoison else 0)
  | _, _ => ([], 0)

/-- What lines that are filled from DRAM add to a time (R213, R288): the most that one adds. -/
def State.dramTime (s : State) (c : Cmd) (ks : List LineKey) : Nat :=
  match c.target with
  | none => 0
  | some t => ks.foldl (fun m k =>
      let pa := ((s.fillSet t c.xlat k).sects.findSome? (fun x => x.2.1.head?)).getD 0
      max m (s.memoryTime (s.sliceAgent k) pa)) 0

/-- The earliest cycle in which a push may land (R288). -/
def State.pushDue (s : State) (c : Cmd) (a : Activity) : Nat :=
  let l := levelLatency s.core.agent a.agent
  let beats := (c.len + 63) / 64
  let first := if c.kind = .sfmt then c.issued + 4
    else
      let ks := (List.range c.units).flatMap (s.unitLines c)
      c.issued + 16 + 2 * ks.foldl (fun m k => max m (levelLatency s.core.agent (s.sliceAgent k))) 0 + 4 * c.units +
        s.dramTime c (c.filled.flatMap (s.unitLines c))
  max first s.core.pushFree + beats + l

/-- PUSH_LANDED: a push lands its last byte in the window and updates the requester's barrier; pushes of a spindle land in issue
order. One that meets an index list being read waits, and its barrier then takes CONFLICT (R206). A push for a requester that
was killed is dropped. -/
def execPushLanded (push : Nat) (s : State) : Host.Outcome State Fault Refusal :=
  .next (s.onCmd push (fun c s =>
    if !(c.kind = .spush || c.kind = .sfmt) || !c.started ||
        s.core.copyq.any (fun d => d.id < c.id && (d.kind = .spush || d.kind = .sfmt)) then s
    else match s.streamEnd with
      | none => s
      | some none => s.dropCmd c
      | some (some a) =>
        if c.kind = .spush && !c.todo.all (fun u => s.unitReady c u && !s.unitAt c u s.linkWaits) then s
        else if !c.trips.all (s.tripDone c) then s
        else if s.cycle < s.pushDue c a then s
        else if a.listMeets c.base c.len then (if c.err = errConflict then s else s.putCmd { c with err := errConflict })
        else
          let (cells, e) := s.pushCells c
          let code := if c.err ≠ 0 then c.err else e
          let s := (s.countLines ((List.range c.units).flatMap (s.unitLines c))).landCells a.uid cells
          let s := s.modCore (fun k => { k with pushFree := s.cycle - levelLatency s.core.agent a.agent })
          (s.barNote a.uid c.opB.toNat c.len 0 code).dropCmd c))

/-- Land an `sfill` in the spindle's local memory (R286). -/
def State.landFill (c : Cmd) (a : Activity) (s : State) : State :=
  let cells := (List.range c.len).map (fun k =>
    (c.opA.toNat + k, if (a.lm.poisoned (c.base + k) 1).isSome then none else (a.lm.read (c.base + k) 1).head?))
  let code := if cells.any (fun x => x.2.isNone) then errPoison else 0
  let s := s.modMe (fun m => { m with lm := m.lm.land cells })
  ((s.barNote a.uid c.opB.toNat 0 1 0).barNote c.owner c.bar c.len 0 code).dropCmd c

/-- Perform a unit of `swb` from the requester's window, with those that are served together with it; the last ends it (R286). -/
def State.performBack (c : Cmd) (u : Nat) (a : Activity) (refuse : Nat → Bool) (s : State) : State :=
  let us := c.batch u
  let (s, e) := s.performUnits { c with payload := some a.lm } us refuse
  let c : Cmd := { c with todo := c.todo.filter (fun v => v ∉ us), err := if c.err = 0 then e else c.err }
  if c.todo ≠ [] then s.putCmd c
  else
    let s := if c.sem ≥ 2 && c.scope = 3 then s.writeThrough else s
    ((s.barNote a.uid c.opB.toNat 0 1 c.err).barNote c.owner c.bar 0 1 c.err).dropCmd c

/-- The steps of a stream command that reads the requester's window: `sfill` lands whole, `swb` unit by unit. -/
def State.streamUnit (unit : Nat) (c : Cmd) (s : State) : State :=
  if !c.started then s
  else match s.streamEnd with
    | none => s
    | some none => s.dropCmd c
    | some (some a) =>
      if c.kind = .sfill then
        if s.cycle < c.issued + 5 + 2 * levelLatency s.core.agent a.agent + (c.len + 63) / 64 || !s.tripDone c 0 then s else s.landFill c a
      else if unit ∈ c.todo && (c.batch unit).all (fun v => s.unitReady c v && !s.unitAt c v s.linkWaits && s.tripDone c v) then
        s.performBack c unit a (fun _ => false)
      else s

/-! ## Flushes and code loads (R204, R207) -/

/-- TFLUSH_DONE: every line of the tensor is written back and invalidated, in every slice and replica (R204); while lines of it stand in a
bucket that moves, after step 3 of the move (R296). -/
def execTflushDone (cmd : Nat) (s : State) : Host.Outcome State Fault Refusal :=
  .next (s.onCmd cmd (fun c s =>
    if !c.started || c.kind ≠ .tflush || c.todo = [] || (s.tensorLines c).any (fun l => (s.bucket l.key.bucket).hold) || !s.tripDone c 0 then s
    else (s.flushLines (fun l => l.key.vd = c.vd && l.key.tid = c.tid)).endWrite { c with todo := [] }))

/-- A code load of the core in focus ends: the image is written, CODELEN set, the start map rebuilt, the hold released. An error in the
image kills every activity of the job on the core, with CODEERR. Bytes at addresses that meet a test are refused. -/
def State.endCodeld (c : Cmd) (refuse : Nat → Bool) (s : State) : State :=
  let mine (g : CodeSeg) : Bool := g.jid = c.jid && g.vd = c.vd
  let image := allOk (c.imagePas.map (fun r => r.bind (fun pa =>
    let l := addrLoc c.vd pa
    if refuse pa then .error errRefused else (s.asModule c.modid).loadVia (s.replicaFor c l.key) c.vd l)))
  let s := s.countServed c (s.unitLines c 0)
  match image with
  | .ok image =>
    (s.modCore (fun k => { k with segs := k.segs.map (fun g => if mine g then g.load image (c.len / 4) else g) })).dropCmd c
  | .error _ =>
    let s := s.dropCmd c
    let doomed := (s.residents s.core.agent).filter (fun a => a.job.jid = c.jid && a.job.vd = c.vd)
    doomed.foldl (fun s a => { s.modAct a.uid (fun a => { a with doom := 4 }) with agenda := .kill a.uid :: s.agenda }) s

/-- CODELD_DONE: the lines of the image are at hand, and its beats have come: the load ends. -/
def execCodeldDone (cmd : Nat) (s : State) : Host.Outcome State Fault Refusal :=
  .next (s.onCmd cmd (fun c s =>
    if !c.started || c.kind ≠ .codeld || !s.unitReady c 0 || s.unitAt c 0 s.linkWaits || !s.tripDone c 0 then s
    else s.endCodeld c (fun _ => false)))

/-! ## Requests that time out (R414, R436) -/

/-- A request of a command that has waited 170,000 cycles at addresses that meet a test completes with REFUSED. -/
def State.timeout (cmd : Nat) (p : State → Nat → Bool) (s : State) : State :=
  s.onCmd cmd (fun c s =>
    match c.todo.find? (fun u => s.unitAt c u (p s)) with
    | none => s
    | some u =>
      if !c.started || s.cycle < c.startedAt + requestLimit then s
      else if c.kind.isLoad then s.landBatch c u (p s)
      else if c.kind = .codeld then s.endCodeld c (p s)
      else if c.kind = .pfx then
        let c : Cmd := { c with todo := c.todo.erase u }
        if c.todo = [] then s.dropCmd c else s.putCmd c
      else if c.kind = .spush then s.putCmd { c with todo := c.todo.filter (fun v => !s.unitAt c v (p s)) }
      else if c.kind = .swb then
        match s.streamEnd with
        | none => s
        | some none => s.dropCmd c
        | some (some a) => s.performBack c u a (p s)
      else if c.kind.isWrite then s.performNext c u (p s)
      else s)

/-- CXL_TIMEOUT: a request to CXL memory that is not completed within 170,000 cycles gives REFUSED (R414). -/
def execCxlTimeout (cmd : Nat) (s : State) : Host.Outcome State Fault Refusal := .next (s.timeout cmd State.cxlAt)

/-- LINK_DOWN_TIMEOUT: a request on a link that is down completes with REFUSED (R436). -/
def execLinkDownTimeout (cmd : Nat) (s : State) : Host.Outcome State Fault Refusal := .next (s.timeout cmd State.linkWaits)

/-! ## Contributions to switch space (R419) -/

/-- Whether a command contributes to a reduction in the switch: an addition of FP32, BF16 or INT32. -/
def Cmd.contributes (c : Cmd) : Bool :=
  (c.kind = .red || c.kind = .cpyst) && c.r.redOp = 1 && (match c.desc with
    | some d => d.fmt = 0 || d.fmt = 1 || d.fmt = 9
    | none => false)

/-- The place of a module among the members of a group, if it is one. -/
def SwGroup.memberIndex (g : SwGroup) (modid : BitVec 9) : Option Nat := g.members.findIdx? (fun m => m.1 = modid.toNat)

/-- Whether a round is of a sector: the group, the kind of address and the offset of the sector; and of a VD. -/
def SwRound.isOf (r : SwRound) (vd g off : Nat) (all : Bool) : Bool := r.vd = vd && r.group = g && r.all = all && r.off = off

/-- The bytes of a unit that contribute, by sector of switch space: the address of the sector and the cells by offset in it. -/
def State.switchSectors (s : State) (c : Cmd) (u : Nat) : List (Nat × List Host.Cell) :=
  match c.target with
  | none => []
  | some t =>
    let cells : List (Nat × Byte) := (s.outBytes c t (fun _ => false) (c.unitSrc u)).filterMap (fun r => match r with
      | .ok (_, o) => if isSwitch o.loc.pa then some (o.loc.pa, o.byte) else none
      | .error _ => none)
    ((cells.map (fun x => x.1 / 32)).eraseDups).map (fun q =>
      (32 * q, (cells.filter (fun x => x.1 / 32 = q)).map (fun x => (x.1 % 32, x.2))))

/-- Send a sector of a unit to the switch: it opens the sector's round or joins it. -/
def State.addPart (vd fmt member cmd unit pa : Nat) (cells : List Host.Cell) (s : State) : State :=
  let off := pa % 2 ^ 40
  let g := off / 2 ^ 32
  let o := off % 2 ^ 32
  let all := pa / 2 ^ 40 % 2 = 1
  let w := s.switch
  let p : SwPart := ⟨member, cells, some (cmd, unit)⟩
  if w.rounds.any (fun r => r.isOf vd g o all) then
    { s with switch := { w with rounds := w.rounds.map (fun (r : SwRound) =>
      if r.isOf vd g o all then { r with parts := r.parts ++ [p] } else r) } }
  else { s with switch := { w with
    rounds := w.rounds ++ [⟨w.nextRound, vd, g, all, o, fmt, s.cycle, [p]⟩], nextRound := w.nextRound + 1 } }

/-- A unit of a write into switch space (R419), once it has drawn the tokens of its way (R403): a contribution is sent to the switch, as of the
module number of its command's issue (R417), and waits for its round; anything else, and a second contribution to a sector, is refused. -/
def State.contribute (c : Cmd) (u : Nat) (s : State) : State :=
  if u ∈ c.filled || !s.tripDone c u then s
  else
    let qs := s.switchSectors c u
    let fmt := (c.desc.map (fun d => d.fmt)).getD 0
    let ready := qs.all (fun (pa, _) => match s.switch.groups.find (pa % 2 ^ 40 / 2 ^ 32) with
      | none => false
      | some g => match g.memberIndex c.modid with
        | none => false
        | some m => !s.switch.rounds.any (fun r =>
            r.isOf c.vd (pa % 2 ^ 40 / 2 ^ 32) (pa % 2 ^ 32) (pa / 2 ^ 40 % 2 = 1) && r.parts.any (fun p => p.member = m)))
    if qs = [] || !c.contributes || !ready then s.performNext c u isSwitch
    else
      let s := qs.foldl (fun (s : State) (pa, cells) =>
        let m := ((s.switch.groups.find (pa % 2 ^ 40 / 2 ^ 32)).bind (fun g => g.memberIndex c.modid)).getD 0
        s.addPart c.vd fmt m c.id u pa cells) s
      s.putCmd { c with filled := setInsert c.filled u }

/-- STORE_PERFORMED: a unit of a write is performed at its home slices; rows of `scat` and `red` in index order (R206). -/
def execStorePerformed (cmd unit : Nat) (s : State) : Host.Outcome State Fault Refusal :=
  .next (s.onCmd cmd (fun c s =>
    if c.kind = .swb then s.streamUnit unit c
    else
    let rows := c.kind = .scat || c.kind = .red
    if !c.started || !c.kind.isWrite || c.kind = .tflush || unit ∉ c.todo || (rows && c.todo.head? ≠ some unit) then s
    else if s.unitAt c unit isSwitch && !s.unitAt c unit s.linkWaits then s.contribute c unit
    else if (c.batch unit).any (fun v => !s.unitReady c v || s.unitAt c v s.linkWaits || !s.tripDone c v) then s
    else s.performNext c unit (fun _ => false)))

/-! ## Requests and programs (R279-R281, R452) -/

/-- PROGRAM_REQUEST_QUEUED: the request enters the spindle's queue when it has room, and the command completes. -/
def execProgramRequestQueued (cmd : Nat) (s : State) : Host.Outcome State Fault Refusal :=
  .next (s.onCmd cmd (fun c s =>
    let sp : Agent := ⟨.spindle, s.programSpindle s.core.agent.num⟩
    if c.kind ≠ .cpyProg || !s.turnOf c then s
    else
      let a := (s.act? c.owner).getD s.me
      ((s.modCore (fun k => { k with startedAt := s.cycle + 1 })).dropCmd c).modCoreOf sp (fun k => { k with
        progq := k.progq ++ [⟨c.owner, c.opA.toNat, c.opB.toNat, c.opC, c.opE, c.bar, c.vd, a.job.cls, c.issued⟩] })))

/-- A program descriptor or a code image at a virtual address: cached, or read under the VD's default ASID; whether it was cached,
or the error of its read. -/
def State.progRead (s : State) (vd va n : Nat) (cached : Option (List Byte)) : Except Nat (List Byte × Bool) :=
  match cached with
  | some bs => .ok (bs, true)
  | none =>
    match allOk (s.readVirt vd (s.dasid vd) va n) with
    | .ok bs => .ok (bs, false)
    | .error e => .error e

/-- The program descriptor that a spindle holds. -/
def Core.cardAt (c : Core) (vd va : Nat) : Option (List Byte) :=
  (c.descs.find? (fun e => e.vd = vd && e.tid = 0 && e.va = va)).map (fun e => e.card)

/-- The code image that a spindle holds. -/
def Core.imageAt (c : Core) (vd va n : Nat) : Option (List Byte) :=
  (c.images.find? (fun e => e.vd = vd && e.va = va && n ≤ e.bytes.length)).map (fun e => e.bytes.take n)

/-- Keep a program descriptor, used last, of at most 64 descriptors. -/
def Core.keepCard (c : Core) (vd va : Nat) (bs : List Byte) : Core :=
  let rest := c.descs.filter (fun e => !(e.vd = vd && e.tid = 0 && e.va = va))
  { c with descs := (if rest.length < 64 then rest else rest.tail) ++ [⟨vd, 0, 0, va, none, bs⟩] }

/-- Keep a code image, used last, of at most 8. -/
def Core.keepImage (c : Core) (vd va : Nat) (bs : List Byte) : Core :=
  let rest := c.images.filter (fun e => !(e.vd = vd && e.va = va))
  { c with images := (if rest.length < 8 then rest else rest.tail) ++ [⟨vd, va, bs⟩] }

/-- Whether a descriptor passes on an agent with a number of pages (R279, R420). -/
def Card.passes (c : Card) (pages vd : Nat) : Bool :=
  1 ≤ c.cwords && c.cwords ≤ 16384 && c.entry < c.cwords && c.code % 2048 = 0 && c.footprint ≤ pages && c.vd = vd

/-- Cycles that a read of n bytes at a virtual address adds on a miss: the time of a `cpyl` of its length, with what a line that is not
resident adds (R213, R280). -/
def State.missTime (s : State) (a : Agent) (vd va n : Nat) : Nat :=
  match s.xlateWalk vd (s.dasid vd) va false with
  | .error _ => 5 + (n + 63) / 64
  | .ok pa =>
    let k := addrKey vd pa
    let far := if (s.cache.home k).isSome then 0 else s.memoryTime (s.sliceAgent k) pa
    5 + 2 * levelLatency a (s.sliceAgent k) + (n + 63) / 64 + far

/-- Pages in use on a spindle. -/
def State.pagesUsed (s : State) (a : Agent) : Nat :=
  ((s.residents a).map (fun b => b.job.codePages + b.job.dpages + b.job.spages)).foldl (· + ·) 0

/-- The window of the requester is free again, and not asked for. -/
def Activity.freeWindow (a : Activity) (w : Nat) : Activity :=
  { a with windows := a.windows.map (fun (v, x) => (v, if v = w then { x with prog := none, asked := false } else x)) }

/-- Change an activity wherever it is. -/
def State.modAny (uid : Nat) (f : Activity → Activity) (s : State) : State :=
  if (s.act? uid).isSome then s.modAct uid f
  else { s with saved := s.saved.map (fun z => if z.act.uid = uid then { z with act := f z.act } else z) }

/-- Refuse the request at the head of a spindle's queue: the requester's BAR takes an arrival with the code in the next cycle. -/
def State.refuseProgram (q : ProgReq) (code : Nat) (s : State) : State :=
  let s := s.modCore (fun k => { k with progq := k.progq.tail })
  (s.modAny q.owner (fun a => a.freeWindow q.window)).send (.update q.owner q.bar 0 1 code) (s.cycle + 1)

/-- Start the program of the request at the head of the queue (R280). -/
def State.startProgram (q : ProgReq) (c : Card) (image : List Byte) (slot : Nat) (s : State) : State :=
  let uid := s.nextUid
  let req := (s.anyAct? q.owner).map (fun p => p.1)
  let job := { c.ctx 0 0 with vd := q.vd, cls := q.cls, stage := 0, keysp := 0, trape := 0, ovle := 0 }
  let a := { Activity.start uid s.core.agent slot 0 s.cycle job with
    prog := some ⟨some q.owner, q.window, q.bar, 0, none, []⟩ }
  let s := s.modCore (fun k => { k with
    progq := k.progq.tail
    segs := k.segs ++ [CodeSeg.load ⟨uid, q.vd, [], 0, [], false, c.pages, none, 0⟩ image c.cwords] })
  let s := s.modAny q.owner (fun a => { a with windows := a.windows.map (fun (v, x) =>
    (v, if v = q.window then { x with prog := some uid, asked := false } else x)) })
  s.place a [(1, q.argC), (2, q.argE), (3, BitVec.ofNat 64 ((req.map Activity.actid).getD 0)), (63, BitVec.ofNat 64 job.top)]

/-- SPINDLE_PROGRAM_START: the request at the head of a spindle's queue: its descriptor is read and checked, and its code read;
then the program starts once a slot and pages are free (R279, R280). A request of a killed requester is dropped. A read of a line in a bucket
that moves waits (R296). -/
def execSpindleProgramStart (spindle : Nat) (s : State) : Host.Outcome State Fault Refusal :=
  .next (
    let ag : Agent := ⟨.spindle, spindle⟩
    match (s.coreOf ag).progq.head? with
    | none => s
    | some q =>
      let f := s.focusCore ag
      match s.anyAct? q.owner with
      | none => f.modCore (fun k => { k with progq := k.progq.tail })
      | some (req, _) =>
        let from_ : Agent := if req.agent.kind = .compute then req.agent else ag
        let base := q.issued + 4 + levelLatency from_ ag
        if (f.core.cardAt q.vd q.va).isNone && s.virtHeld q.vd (s.dasid q.vd) q.va 64 then s
        else match s.progRead q.vd q.va 64 (f.core.cardAt q.vd q.va) with
        | .error e => if s.cycle + 1 < base + s.missTime ag q.vd q.va 64 then s else f.refuseProgram q e
        | .ok (bs, hit) =>
          let c := Card.parse bs
          let t := base + if hit then 0 else s.missTime ag q.vd q.va 64
          let keep (s : State) : State := (if hit then s else s.keepVirt q.vd (s.dasid q.vd) q.va 64).modCore (fun k => k.keepCard q.vd q.va bs)
          if !c.passes 64 q.vd then (if s.cycle + 1 < t then s else (keep f).refuseProgram q errRefused)
          else
            let n := 4 * c.cwords
            if (f.core.imageAt q.vd c.code n).isNone && s.virtHeld q.vd (s.dasid q.vd) c.code n then s
            else match s.progRead q.vd c.code n (f.core.imageAt q.vd c.code n) with
            | .error e => if s.cycle + 1 < t + s.missTime ag q.vd c.code n then s else (keep f).refuseProgram q e
            | .ok (image, hit2) =>
              if s.cycle + 1 < (t + if hit2 then 0 else s.missTime ag q.vd c.code n) then s
              else match s.freeSlot ag 8 with
                | none => s
                | some slot =>
                  if s.spindleOut spindle || s.pagesUsed ag + c.footprint > 64 then s
                  else
                    let f := if hit2 then keep f else (keep f).keepVirt q.vd (f.dasid q.vd) c.code n
                    (f.modCore (fun k => k.keepImage q.vd c.code image)).startProgram q c image slot)

/-- Whether an activity has a command, a vector access or a journal entry of its own left on its agent (R53, step 3). -/
def Core.busyWith (k : Core) (uid : Nat) : Bool :=
  k.copyq.any (fun c => c.owner = uid) || k.matq.any (fun c => c.owner = uid) || k.vecq.any (fun c => c.owner = uid) ||
  k.journal.any (fun e => e.2.owner = uid && e.2.code = 0)

/-- Refused journal entries of an activity that no trap has reported. -/
def State.refusedOf (s : State) (uid : Nat) : Nat :=
  sumOf (s.allCores.map (fun c => (c.journal.filter (fun e => e.2.owner = uid && e.2.code ≠ 0)).length))

/-- Free the refused journal entries of an activity. -/
def State.freeRefused (uid : Nat) (s : State) : State :=
  let f (c : Core) : Core := { c with journal := c.journal.filter (fun e => !(e.2.owner = uid && e.2.code ≠ 0)) }
  { s with core := f s.core, cores := s.cores.map f }

/-- The window number that the program in focus streams into is free again, once it streams to it no more. -/
def State.leaveWindow (p : ProgCtx) (s : State) : State :=
  match p.requester with
  | none => s
  | some u => (s.modAny u (fun a => a.freeWindow p.window)).send
      (.update u p.bar 0 1 (if p.fault.isSome then errRefused else 0)) (s.cycle + 1)

/-- SPINDLE_PROGRAM_END: a program that has ended, or faulted, retires once its commands are done; its requester's BAR takes an
arrival in the next cycle, and a fault is reported (R281). -/
def execSpindleProgramEnd (uid : Nat) (s : State) : Host.Outcome State Fault Refusal :=
  .next (match s.act? uid with
    | none => s
    | some a =>
      match a.prog with
      | none => s
      | some p =>
        if a.agent.kind ≠ .spindle || a.life ≠ .ending || (s.coreOf a.agent).busyWith uid then s
        else
          let f := s.focus uid
          let f := match p.fault with
            | some (cause, info) => f.report 1 a.agent.num 8 (some a.job.vd) cause info.toNat
            | none => f
          ((f.leaveWindow p).freeRefused uid).vacate)

/-- RETURN_UPDATE: an update sent by `pwret`, or at a program's end, reaches its barrier (R281, R287). For a saved activity it waits
until the activity is restored. -/
def execReturnUpdate (msg : Nat) (s : State) : Host.Outcome State Fault Refusal :=
  .next (match s.msgs.find? (fun m => m.id = msg) with
    | none => s
    | some m =>
      match m.kind with
      | .update uid bar bytes arrivals code =>
        if s.cycle + 1 < m.due || (s.saved.any (fun z => z.act.uid = uid)) then s
        else ({ s with msgs := s.msgs.filter (fun n => n.id ≠ msg) }).barNote uid bar bytes arrivals code
      | _ => s)

end Sys2Proof.Machine
end

