-- ==== Sys2Proof/Machine/Place.lean ====
section
/-! DEFINITION. Room on the compute cores (R37, R40, R313): slots, pages, code segments and their loading (R387), and the search for
a core; and what counts as a blocking point (R46). -/

namespace Sys2Proof.Machine

/-! ## Blocking points (R46) -/

/-- Whether an activity is at a blocking point: a party of a meeting only while queued or parked (R320). -/
def Activity.atBlocking (a : Activity) : Bool :=
  match a.block with
  | .none => false
  | .meet => (match a.party with
      | some p => p.phase = .parked || p.phase = .queued
      | none => false)
  | _ => true

/-! ## Slots and pages -/

/-- Slots of a compute core (R19). -/
def coreSlots : Nat := 16
/-- Pages of a compute core's local memory (R19). -/
def corePages : Nat := 96

/-- A compute core. -/
def coreAgent (n : Nat) : Agent := ⟨.compute, n⟩

/-- Whether an activity holds a slot of compute core n reserved by a placement, or visits there (R313). -/
def Activity.visits (a : Activity) (n : Nat) : Bool :=
  match a.party with
  | some p => p.place = some n && (p.travels || p.away)
  | none => false

/-- Whether an activity's home is compute core n. -/
def Activity.livesAt (a : Activity) (n : Nat) : Bool := a.agent.kind = .compute && a.home = n

/-- Pages that an activity takes on compute core n, without code: its data pages and reserve at home, all kept while it is away
(R321); its luggage and a reserve where it visits. -/
def Activity.pagesOn (a : Activity) (n : Nat) : Nat :=
  let atHome := if a.livesAt n then
      (match a.party with
       | some p => if p.away then p.homeFrames.length else a.frames.length
       | none => a.frames.length) + a.job.spages
    else 0
  let away := if a.visits n then ((a.party.map (fun p => p.ln)).getD 0) + a.job.spages else 0
  atHome + away

/-- Local pages in use on compute core n. -/
def State.pagesTaken (s : State) (n : Nat) : Nat :=
  sumOf ((s.coreOf (coreAgent n)).segs.map (fun g => g.pages)) + sumOf (s.allActs.map (fun a => a.pagesOn n))

/-- Slots of compute core n that no activity takes. -/
def State.openSlots (s : State) (n : Nat) : Nat :=
  ((List.range coreSlots).filter (fun k => !s.slotTaken (coreAgent n) k)).length

/-- Whether a service command or a warm reset is emptying compute core n of every activity (R433, R438). -/
def State.draining (s : State) (n : Nat) : Bool :=
  (match s.svc.run with
   | some r => r.op = 1 && r.arg % 2 ^ 12 = n && !r.done
   | none => false) ||
  (match s.svc.warm with
   | some (d, _) => n / 1024 = d
   | none => false)

/-- Whether activities of a VD may use compute core n (R15, R378). -/
def State.usableCore (s : State) (vd n : Nat) : Bool :=
  let c := s.coreOf (coreAgent n)
  n < Config.computeCores && !c.retired && !s.draining n && (!c.selRes || c.selVd = vd)

/-- Whether the code of a job is on compute core n, or being loaded. -/
def State.codeOn (s : State) (vd jid n : Nat) : Bool :=
  (s.coreOf (coreAgent n)).segs.any (fun g => g.jid = jid && g.vd = vd)

/-- What an activity asks of a core: its job, its pages without code, and its code pages. -/
structure Footprint where
  vd : Nat
  jid : Nat
  pages : Nat
  code : Nat
deriving DecidableEq, Repr

/-- The card of an uncompleted job. -/
def State.jobOf (s : State) (vd jid : Nat) : Option Job := s.disp.jobs.find? (fun j => j.vd = vd && j.jid = jid)

/-- Whether a compute core lies in the span of a card (R37). -/
def Card.inSpan (c : Card) (n : Nat) : Bool :=
  c.span.testBit (n / 64) && c.gmask.testBit (n / 16 % 4) && c.tmask.testBit (n / 4 % 4)

/-- What an activity of a job asks of its home (R40). -/
def Job.footprint (j : Job) : Footprint := ⟨j.vd, j.jid, j.card.dpages + j.card.spages, j.card.pages⟩

/-- What a saved activity asks of the core it is restored on (R329). -/
def Saved.footprint (z : Saved) : Footprint :=
  ⟨z.act.job.vd, z.act.job.jid, z.act.frames.length + z.act.job.spages, z.act.job.codePages⟩

/-- The footprints to which compute core n is reserved: of activities pushed there that have not started (R391), and of matched parties
that are to be restored there (R313, R329). -/
def State.reservedOn (s : State) (n : Nat) : List Footprint :=
  (s.disp.unstarted.filter (fun u => u.reserved && u.core = n)).filterMap (fun u => (s.jobOf u.vd u.jid).map Job.footprint) ++
  (s.saved.filter (fun z => z.at_ = some n)).map Saved.footprint

/-- Free slots of compute core n: not taken, and not reserved. -/
def State.freeSlots (s : State) (n : Nat) : Nat := s.openSlots n - (s.reservedOn n).length

/-- Code pages of the distinct jobs among footprints that a test picks. -/
def codeSum (p : Footprint → Bool) (fs : List Footprint) : Nat :=
  sumOf (((fs.filter p).map (fun f => (f.vd, f.jid, f.code))).eraseDups.map (fun f => f.2.2))

/-- Whether compute core n has room for footprints beside others that it is reserved to (R313). -/
def State.hasRoom (s : State) (n : Nat) (fs held : List Footprint) : Bool :=
  fs.all (fun f => s.usableCore f.vd n) && (fs ++ held).length ≤ s.openSlots n &&
  s.pagesTaken n + sumOf ((fs ++ held).map (fun f => f.pages)) + codeSum (fun f => !s.codeOn f.vd f.jid n) (fs ++ held) ≤ corePages

/-- Whether compute core n can accept footprints at once (R313). -/
def State.canAccept (s : State) (n : Nat) (fs : List Footprint) : Bool := s.hasRoom n fs (s.reservedOn n)

/-- Whether compute core n can take an activity, to which it may be reserved (R329, R391). -/
def State.canTake (s : State) (n : Nat) (f : Footprint) (reserved : Bool) : Bool :=
  s.hasRoom n [f] (if reserved then (s.reservedOn n).erase f else s.reservedOn n)

/-- The core of a list with the greatest measure, the first among equals. -/
def bestCore (f : Nat → Nat) : List Nat → Option Nat
  | [] => none
  | n :: ns => some (ns.foldl (fun b c => if f b < f c then c else b) n)

/-- Cores of the smallest tile, group, super-group, quadrant or die that holds two compute cores, 4,096 when no die does (R313). -/
def commonUnit (a b : Nat) : Nat := ([4, 16, 64, 256, 1024].find? (fun u => a / u = b / u)).getD 4096

/-- The core with the most free slots that can accept footprints, other than excluded ones: in the smallest unit that holds two homes,
and then in the module (R313, step 2). -/
def State.meetingCore (s : State) (a b : Nat) (fs : List Footprint) (exclude : List Nat) : Option Nat :=
  [commonUnit a b, 4096].findSome? (fun u =>
    bestCore s.freeSlots (((List.range u).map (fun i => a / u * u + i)).filter (fun n => n ∉ exclude && s.canAccept n fs)))

/-! ## Dispatch units (R373) -/

/-- The level latency between a dispatch unit and a core (R373). -/
def unitLatency (die core : Nat) : Nat := 13 + 24 * dieHops die (core / 1024)

/-! ## Code segments (R40, R53, R387) -/

/-- The segment of a job on compute core n: when its code is not there, its load begins. -/
def State.ensureSeg (vd jid pages n : Nat) (s : State) : State :=
  if s.codeOn vd jid n then s
  else s.modCoreOf (coreAgent n) (fun c => { c with
    segs := c.segs ++ [⟨jid, vd, [], 0, [], true, pages, some s.cycle, 0⟩] })

/-- Free the code pages and the descriptors of the jobs that have no activity on compute core n. -/
def State.sweepCode (n : Nat) (s : State) : State :=
  let used (vd jid : Nat) : Bool := s.allActs.any (fun a => a.job.vd = vd && a.job.jid = jid && a.prog.isNone &&
    (a.livesAt n || a.visits n))
  let c := s.coreOf (coreAgent n)
  if c.segs.all (fun g => used g.vd g.jid) then s
  else s.modCoreOf (coreAgent n) (fun c => { c with
    segs := c.segs.filter (fun g => used g.vd g.jid), descs := c.descs.filter (fun e => used e.vd e.jid) })

/-- Mark an activity to be killed with a job status, and kill it next (R50, R392). -/
def State.condemnAct (uid stat : Nat) (s : State) : State :=
  { s.modAct uid (fun a => { a with doom := stat }) with agenda := .kill uid :: s.agenda }

/-- The job status of a code image that cannot be read (R392). -/
def statCodeErr : Nat := 4

/-- Whether the code of a job is on compute core n and loaded. -/
def State.codeLoaded (s : State) (vd jid n : Nat) : Bool :=
  (s.coreOf (coreAgent n)).segs.any (fun g => g.jid = jid && g.vd = vd && g.loading.isNone)

/-- What loading the code of an activity's job adds to its travel to compute core n: the landing time of a `cpyl` of CWORDS·4 bytes, 0
where the code is resident (R314). -/
def State.codeTime (s : State) (a : Activity) (n : Nat) : Nat :=
  if s.codeLoaded a.job.vd a.job.jid n then 0
  else match s.jobOf a.job.vd a.job.jid with
    | some j => s.missTime (coreAgent n) a.job.vd j.card.code (4 * j.card.cwords)
    | none => 0

/-- The first n bytes of a job's image are read, and come into its segment on an agent, with the start map; an image with a byte that cannot be
read kills every activity of the job that waits for it there, with CODEERR (R387). -/
def State.loadImage (agent : Agent) (j : Job) (n : Nat) (s : State) : State :=
  let mine (g : CodeSeg) : Bool := g.jid = j.jid && g.vd = j.vd
  let read := allOk (s.readVirt j.vd (s.dasid j.vd) j.card.code n)
  let s := s.keepVirt j.vd (s.dasid j.vd) j.card.code n
  match read with
  | .ok image =>
    s.modCoreOf agent (fun c => { c with segs := c.segs.map (fun h =>
      if mine h then { h.load (image.take (4 * j.card.cwords)) j.card.cwords with loading := none, ready := s.cycle + 1 } else h) })
  | .error _ =>
    let doomed := s.allActs.filter (fun a => a.job.vd = j.vd && a.job.jid = j.jid && a.prog.isNone &&
      (a.agent = agent || a.visits agent.num))
    let s := s.modCoreOf agent (fun c => { c with segs := c.segs.filter (fun h => !mine h) })
    doomed.foldl (fun s a => s.condemnAct a.uid statCodeErr) s

/-- The code of a job is on an agent once a shuttle has brought an activity of it there: where it was not, CWORDS·4 bytes of its image were loaded
on the way (R314). -/
def State.finishLoad (agent : Agent) (vd jid : Nat) (s : State) : State :=
  if s.codeLoaded vd jid agent.num then s
  else match s.jobOf vd jid with
    | some j => s.loadImage agent j (4 * j.card.cwords)
    | none => s

/-- CODE_LOAD: a job's image is loaded into its segment on a core, and the start map built; the segment's pages are read whole (R387). A read of a
line in a bucket that moves waits (R296). `job` is vd·65,536 + id. -/
def execCodeLoad (agent : Agent) (job : Nat) (s : State) : Host.Outcome State Fault Refusal :=
  .next (
    let vd := job / 65536
    let jid := job % 65536
    match (s.coreOf agent).segs.find? (fun g => g.jid = jid && g.vd = vd && g.loading.isSome), s.jobOf vd jid with
    | some g, some j =>
      let n := 2048 * j.card.pages
      if s.cycle + 1 < g.loading.getD 0 + s.missTime agent vd j.card.code n || s.virtHeld vd (s.dasid vd) j.card.code n then s
      else s.loadImage agent j n
    | _, _ => s)

/-! ## Moving an activity's registers -/

/-- Every bound register of an activity with its value: general, mask, vector, by number (R315). -/
def Activity.boundRegs (a : Activity) : List (Reg × Vec) :=
  let regs (c : Cls) (n : Nat) : List Reg := (List.range n).map (fun i => ⟨c, i⟩)
  ((regs .g 64 ++ regs .k 8 ++ regs .v 32).filter (fun x => a.regs.bound x)).map (fun x => (x, a.raw x))

/-- The activity in focus stands on another agent from now on, with its registers bound again there; spilled ones first come
back. -/
def State.carry (dest : Agent) (reserve : LMem) (s : State) : State :=
  let rs := s.me.boundRegs
  let s := s.modMe (fun a => { a with agent := dest, regs := ⟨[], [], [], [], []⟩, reserve := reserve })
  rs.foldl (fun s x => s.writeReg x.1 x.2 []) (s.focusCore dest)

/-- The next generation of a slot of a compute core, taken. -/
def State.takeGen (n slot : Nat) (s : State) : State × Nat :=
  let gen := nextGen (((s.coreOf (coreAgent n)).slotGen.find slot).getD 0)
  (s.modCoreOf (coreAgent n) (fun c => { c with slotGen := AMap.put c.slotGen slot gen }), gen)

end Sys2Proof.Machine
end

