-- ==== Sys2Proof/Machine/Meeting.lean ====
section
/-! DEFINITION. The meeting engine (R302-R332): the instructions, the directories, shuttles, and leaving a meeting. -/

namespace Sys2Proof.Machine

/-! ## Keys and directories (R302-R304, R317) -/

/-- The bucket of a key (R303). -/
def keyBucket (key : Word) (keysp vd : Nat) : Nat := fold12 8 (key.toNat + keysp % 2 ^ 16 * 2 ^ 64 + vd % 64 * 2 ^ 80)

/-- An entry of the key bucket table (R304). -/
def State.keyEntry (s : State) (b : Nat) : KeyBucket := (s.dirs.buckets.find b).getD ⟨false, b % 256⟩

/-- The directory of an activity's key. -/
def State.dirOf (s : State) (key : Word) (keysp vd : Nat) : Nat := (s.keyEntry (keyBucket key keysp vd)).dir

/-- The level latency between an agent and the router of a group (R17). -/
def dirLatency (a : Agent) (dir : Nat) : Nat :=
  if a.kind = .compute && a.num / 16 = dir then 3 else levelLatency a (coreAgent (16 * dir))

/-- Entries of a directory (R307). -/
def dirSize : Nat := 256

/-- The directory of a waiter. -/
def State.waiterDir (s : State) (w : Waiter) : Nat := s.dirOf w.key w.keysp w.vd

/-- The directory of a group. -/
def State.groupDir (s : State) (g : Group) : Nat := s.dirOf g.key g.keysp g.vd

/-- Entries in use in a directory (R307, R349). -/
def State.dirUsed (s : State) (d : Nat) : Nat :=
  (s.dirs.waiters.filter (fun w => !w.queued && s.waiterDir w = d)).length +
  (s.dirs.groups.filter (fun g => !g.queued && g.complete.isNone && s.groupDir g = d)).length

/-- Change every activity with a handle, saved or not. -/
def State.modParty (uid : Nat) (f : Party → Party) (s : State) : State :=
  s.modAny uid (fun a => { a with party := a.party.map f })

/-- The least of some numbers. -/
def leastOf : List Nat → Option Nat
  | [] => none
  | n :: ns => some (ns.foldl min n)

/-- The number of the oldest arrival that is queued at a directory, of a `meet` or of a `coll` (R307, R338). -/
def State.oldestQueued (s : State) (d : Nat) : Option Nat :=
  leastOf (((s.dirs.waiters.filter (fun w => w.queued && !w.gone && s.waiterDir w = d)).map Waiter.num) ++
    (s.dirs.groups.filter (fun g => g.queued && g.complete.isNone && s.groupDir g = d)).map Group.id)

/-- A freed entry of a directory goes to the oldest queued arrival, which becomes parked (R307). -/
def State.promote (d : Nat) (s : State) : State :=
  if s.dirUsed d < dirSize then
    match s.oldestQueued d with
    | none => s
    | some n =>
      let parked := s.dirs.waiters.filter (fun w => w.num = n)
      let s : State := { s with dirs := { s.dirs with
        waiters := s.dirs.waiters.map (fun (w : Waiter) => if w.num = n then { w with queued := false } else w)
        groups := s.dirs.groups.map (fun (g : Group) => if g.id = n then { g with queued := false } else g) } }
      parked.foldl (fun s w => s.modParty w.uid (fun p => { p with phase := if p.phase = .queued then .parked else p.phase })) s
  else s

/-- A directory without the entry of a party. -/
def State.dropWaiter (uid : Nat) (s : State) : State :=
  match s.dirs.waiters.find? (fun w => w.uid = uid) with
  | none => s
  | some w =>
    let d := s.waiterDir w
    ({ s with dirs := { s.dirs with waiters := s.dirs.waiters.filter (fun v => v.uid ≠ uid) } }).promote d

/-- Whether a directory can process something in this cycle (R307). -/
def State.dirFree (s : State) (d : Nat) : Bool := (s.dirs.busy.find d).getD 0 ≠ s.cycle + 1

/-- A directory has processed something in this cycle. -/
def State.dirBusy (d : Nat) (s : State) : State := { s with dirs := { s.dirs with busy := s.dirs.busy.put d (s.cycle + 1) } }

/-- Count an arrival for the key rebalancer (R305). -/
def State.countArrival (d b : Nat) (s : State) : State :=
  { s with dirs := { s.dirs with
    hits := s.dirs.hits.put d ((s.dirs.hits.find d).getD 0 + 1)
    bucketHits := s.dirs.bucketHits.put b ((s.dirs.bucketHits.find b).getD 0 + 1) } }

/-- The key bucket of a message to a directory, and the agent that issued it; none for another message, and for an arrival whose party or
rank is gone. -/
def State.msgKey (s : State) (m : Msg) : Option (Nat × Agent) :=
  match m.kind with
  | .meet u sender => (s.anyAct? u).bind (fun (a, _) => a.party.map (fun p => (keyBucket p.key a.job.keysp a.job.vd, sender)))
  | .coll u sender => (s.anyAct? u).bind (fun (a, _) => a.coll.map (fun c => (keyBucket c.key a.job.keysp a.job.vd, sender)))
  | .cancel _ _ vd keysp key _ sender => some (keyBucket key keysp vd, sender)
  | .quit vd _ keysp key _ _ _ _ sender => some (keyBucket key keysp vd, sender)
  | _ => none

/-- Whether a message to a directory waits in its core's rendezvous port: its bucket is on HOLD, and it was issued after the move began
(R306). -/
def State.heldInPort (s : State) (m : Msg) (bucket : Nat) : Bool :=
  match s.dirs.move with
  | some (b, _, mark) => b = bucket && mark ≤ m.id
  | none => false

/-- Whether a deadline has passed. -/
def passed (deadline : Option Nat) (cycle : Nat) : Bool :=
  match deadline with
  | some e => decide (e < cycle)
  | none => false

/-- The passed deadlines that a directory has still to decide: the cycle in which each reached it, the one after its deadline cycle, and the
number of its party or group. Those of a bucket on HOLD wait for the end of its move (R306, R319, R339). -/
def State.deadlinesAt (s : State) (d : Nat) : List (Nat × Nat) :=
  (s.dirs.waiters.filter (fun w => passed w.deadline s.cycle && s.waiterDir w = d &&
    !(s.keyEntry (keyBucket w.key w.keysp w.vd)).hold)).map (fun w => (w.deadline.getD 0 + 1, w.num)) ++
  (s.dirs.groups.filter (fun g => g.complete.isNone && passed g.deadline s.cycle && s.groupDir g = d &&
    !(s.keyEntry (keyBucket g.key g.keysp g.vd)).hold)).map (fun g => (g.deadline.getD 0 + 1, g.id))

/-- The messages that have reached a directory, and are not held back: the cycle of each, the number of its sender, and its own (R306, R349). -/
def State.arrivedAt (s : State) (d : Nat) : List (Nat × Nat × Nat) :=
  s.msgs.filterMap (fun n => match s.msgKey n with
    | some (b, a) => if n.due ≤ s.cycle && !s.heldInPort n b && (s.keyEntry b).dir = d then some (n.due, a.num, n.id) else none
    | none => none)

/-- Whether a message may be processed: it has reached its directory, the directory is free, it is not held back (R306), and nothing that
reached the directory before it waits there (R307): of two messages that arrive in one cycle, that of the lower core number comes first
(R349), and a deadline comes before a message (DEDUCED, log 121). -/
def State.msgReady (s : State) (m : Msg) (bucket : Nat) (sender : Agent) : Bool :=
  let d := (s.keyEntry bucket).dir
  m.due ≤ s.cycle && !s.heldInPort m bucket && s.dirFree d && !(s.deadlinesAt d).any (fun x => decide (x.1 ≤ m.due)) &&
  !(s.arrivedAt d).any (fun x => x.2.2 ≠ m.id && lexLe [x.1, x.2.1, x.2.2] [m.due, sender.num, m.id])

/-- Whether a directory may decide a passed deadline e of the party or group of a number: it is free, and nothing that reached it before waits
there (R307); of two deadlines of one cycle, that of the older party or group comes first. -/
def State.deadlineReady (s : State) (d e num : Nat) : Bool :=
  decide (e < s.cycle) && s.dirFree d && !(s.deadlinesAt d).any (fun x => x.2 ≠ num && lexLe [x.1, x.2] [e + 1, num]) &&
  !(s.arrivedAt d).any (fun x => decide (x.1 ≤ e))

/-- Entries of the rendezvous port queue of a compute core (R20); a gateway core has one (R420). -/
def portQueue : AKind → Nat
  | .compute => 16
  | _ => 4

/-- Entries of an agent's rendezvous port that are in use: by arrivals and cancellations that a move holds back (R306), and by queued
arrivals, which stay in the port (R307). Any other leaves in the cycle after its issue (DEDUCED, log 123). -/
def State.portUsed (s : State) (a : Agent) : Nat :=
  (s.msgs.filter (fun m => match s.msgKey m with
    | some (b, sender) => sender = a && s.heldInPort m b
    | none => false)).length +
  (s.dirs.waiters.filter (fun w => w.queued && !w.gone && (match s.act? w.uid with
    | some b => b.agent = a
    | none => false))).length +
  (s.dirs.groups.filter (fun g => g.queued && g.complete.isNone && (match g.members with
    | m :: _ => m.home = a
    | [] => false))).length

/-- Whether the rendezvous port of the agent in focus takes no more: its issuer stalls (R20). -/
def State.portFull (s : State) : Bool := portQueue s.me.agent.kind ≤ s.portUsed s.me.agent

/-- The state without a message. -/
def State.dropMsg (id : Nat) (s : State) : State := { s with msgs := s.msgs.filter (fun m => m.id ≠ id) }

/-! ## Statuses (R318) -/

def stMet : Nat := 0
def stAlone : Nat := 1
def stCancelled : Nat := 2
def stLost : Nat := 3
def stAbandoned : Nat := 4
def stRefused : Nat := 5

/-- The value that `meet` writes (R318). -/
def meetWord (status partnerAct side : Nat) (moved : Bool) : Word :=
  BitVec.ofNat 64 (status + (if moved then 2 ^ 9 else 0) +
    (if status = stMet then partnerAct % 2 ^ 32 * 2 ^ 32 + side % 2 * 2 ^ 8 else 0))

/-- The directory decides a status for a party: it reaches the party Ld cycles later (R317). -/
def State.sendStatus (uid status : Nat) (s : State) : State :=
  match s.anyAct? uid with
  | none => s
  | some (a, _) =>
    s.modParty uid (fun p => { p with
      status := some status
      decided := some (s.cycle + dirLatency a.agent (s.dirOf p.key a.job.keysp a.job.vd)) })

/-- The job status of an activity that is lost (R392). -/
def statLost : Nat := 5

/-! ## `meet` (R311, R312) -/

/-- Whether the activity in focus has write commands numbered below `mark`, or journal entries of such that are not refused,
outstanding; or has observed writes that are not performed at `.dev` (R235, R236, R238). -/
def State.writesQueued (mark : Nat) (s : State) : Bool :=
  !s.allPerformed 2 s.me.seen ||
  s.core.copyq.any (fun c => c.owner = s.me.uid && c.kind.isWrite && c.id < mark) ||
  s.core.journal.any (fun e => e.2.owner = s.me.uid && e.2.code = 0 && e.2.cmd < mark)

/-- The same, with effects that were released and have not left the held-effects buffer, which come before (R364). -/
def State.writesBefore (mark : Nat) (s : State) : Bool := s.me.helds.any (fun h => h.released) || s.writesQueued mark

/-- Whether the activity in focus has write commands, or journal entries that are not refused, outstanding. -/
def State.writesOut (s : State) : Bool := s.writesBefore s.nextCmd

/-- Whether the activity in focus has a command in the queue of an engine. -/
def State.cmdsOut (s : State) : Bool :=
  let u := s.me.uid
  s.me.helds ≠ [] || s.core.copyq.any (fun c => c.owner = u) || s.core.matq.any (fun c => c.owner = u) || s.core.locq.any (fun c => c.owner = u)

/-- Whether the activity in focus has an engine command outstanding, or a window that a program streams into (R312, step 4). -/
def State.engineOut (s : State) : Bool := s.cmdsOut || s.me.windows.any (fun w => w.2.prog.isSome || w.2.asked)

/-- Bound tiles and accumulators, as XINFO of the travel-bound trap gives them (R153). -/
def Activity.boundMask (a : Activity) : Nat :=
  bitsFor 8 (fun n => (a.tiles.find n).isSome || (a.tspilled.find n).isSome) +
  bitsFor 2 (fun n => (a.accs.find n).isSome || (a.aspilled.find n).isSome) * 2 ^ 8

/-- XINFO of the travel-bound trap (R153). -/
def State.travelInfo (s : State) : Word := BitVec.ofNat 64 (s.me.boundMask + if s.engineOut then 2 ^ 10 else 0)

/-- The first bad luggage address (R312, step 5): LB when it is misaligned, else the first frame that is code, unmapped or too
high. -/
def Activity.badLuggage (a : Activity) (lb ln : Nat) : Option Nat :=
  if ln = 0 then none
  else if lb % 0x800 ≠ 0 then some lb
  else (((List.range ln).map (fun i => lb / 0x800 + i)).find? (fun f => f ∉ a.frames)).map (fun f => f * 0x800)

/-- A party as its arrival leaves. -/
def Party.arrive (key : Word) (deadline : Option Nat) (dst lf ln : Nat) : Party :=
  { phase := .arriving, key := key, deadline := deadline, dst := dst, lf := lf, ln := ln, status := none, partner := none,
    partnerAct := 0, side := 0, moved := false, place := none, vslot := 0, travels := false, decided := none, lands := none,
    syncs := 0, inSync := none, parting := none, partAt := 0, replaced := false, away := false, homeFrames := [], homeReserve := ⟨[], [], false, []⟩,
    waited := false, codeTime := 0, damaged := false }

/-- The effect of `meet` (R312). -/
def effMeet (r : R) (s : State) : Eff :=
  let a := s.me
  let lug := (a.g r.c.toNat).toNat
  let lb := lug % 2 ^ 24
  let ln := lug / 2 ^ 32 % 32
  if a.party.isSome || a.coll.isSome then .fault 0xA
  else if a.speculative || a.pend ≠ [] || a.claimed ≠ [] || s.vecBusy || s.writesOut then .hold s
  else if a.boundMask ≠ 0 || s.engineOut then .trap 7 s.travelInfo
  else match a.badLuggage lb ln with
    | some y => .trap 6 (localInfo y 0)
    | none =>
      if ln > 16 then .done (s.pinRegion.resultAt .engine (s.cycle + 1) (Instr.srcs (.meet r)) r.d.toNat (meetWord stRefused 0 0 false))
      else if s.portFull then .hold s
      else
        let key := a.g r.a.toNat
        let t := (a.srcB r).toNat % 2 ^ 32
        let ld := dirLatency a.agent (s.dirOf key a.job.keysp a.job.vd)
        let p := Party.arrive key (if t = 0 then none else some (s.cycle + t)) r.d.toNat (lb / 0x800) ln
        .done (((s.pinRegion.claimReg ⟨.g, r.d.toNat⟩).modMe (fun a => { a with party := some p, block := .meet })).send
          (.meet a.uid a.agent) (s.cycle + 2 + ld))

/-- `meet` (R312). -/
def execMeet (r : R) (s : State) : Host.Outcome State Fault Refusal := issue (.meet r) s (effMeet r)

/-! ## Placement (R313) -/

/-- The footprint of a party (R312, step 6). -/
def Activity.footprint (a : Activity) : Footprint :=
  ⟨a.job.vd, a.job.jid, ((a.party.map (fun p => p.ln)).getD 0) + a.job.spages, a.job.codePages⟩

/-- A party that is to travel to a core: its slot and pages there are taken, and its code is loaded if need be, which adds to its travel
(R314). -/
def State.reserve (uid n side : Nat) (s : State) : State :=
  match s.act? uid with
  | none => s
  | some a =>
    match s.freeSlot (coreAgent n) coreSlots with
    | none => s
    | some k =>
      (s.modParty uid (fun p => { p with
        phase := .matched, side := side, place := some n, vslot := k, travels := true, codeTime := s.codeTime a n
        decided := some (s.cycle + dirLatency a.agent (s.dirOf p.key a.job.keysp a.job.vd)) })).ensureSeg
        a.job.vd a.job.jid a.job.codePages n

/-- A party that stays where it is. -/
def State.stay (uid n side : Nat) (moved : Bool) (s : State) : State :=
  match s.act? uid with
  | none => s
  | some a => s.modParty uid (fun p => { p with
      phase := .matched, side := side, place := some n, travels := false, moved := moved
      decided := some (s.cycle + dirLatency a.agent (s.dirOf p.key a.job.keysp a.job.vd)) })

/-- Two parties of one meeting, known to each other: P waited at the directory, Q arrived. -/
def State.pair (p q : Nat) (s : State) : State :=
  match s.anyAct? p, s.anyAct? q with
  | some (a, _), some (b, _) =>
    (s.modParty p (fun x => { x with phase := .matched, partner := some q, partnerAct := b.actid, waited := true })).modParty q
      (fun x => { x with phase := .matched, partner := some p, partnerAct := a.actid, waited := false })
  | _, _ => s

/-- Place a meeting of the waiting party P with the arrival Q (R313), never on an excluded core. A queued P is parked on no core, but
shares one with Q when that is the home of both; `restored` says that P has been restored where it stands (R329). -/
def State.placeMeeting (p q : Nat) (exclude : List Nat) (restored : Bool) (s : State) : State :=
  match s.act? p, s.act? q with
  | some a, some b =>
    let fa := a.footprint
    let fb := b.footprint
    let s := s.pair p q
    let parked := !a.party.any (fun x => x.phase = .queued) || a.home = b.home
    if parked && a.agent = coreAgent a.home && a.home ∉ exclude && s.canAccept a.home [fb] then
      (s.stay p a.home 0 restored).reserve q a.home 1
    else if fa.pages + fb.pages + codeSum (fun _ => true) [fa, fb] > corePages then (s.sendStatus p stRefused).sendStatus q stRefused
    else match s.meetingCore a.home b.home [fa, fb] exclude with
      | some n =>
        let low := a.actid < b.actid
        (s.reserve p n (if low then 0 else 1)).reserve q n (if low then 1 else 0)
      | none => (s.sendStatus p stRefused).sendStatus q stRefused
  | _, _ => s

/-! ## Arrivals (R302, R307, R329) -/

/-- The parties of a triple (R302) whose deadlines have not passed (R319), the oldest first. -/
def State.ofTriple (s : State) (vd keysp : Nat) (key : Word) : List Waiter :=
  s.dirs.waiters.filter (fun w => w.vd = vd && w.keysp = keysp && w.key = key && !passed w.deadline s.cycle)

/-- The oldest waiting party of a triple: parked, queued or saved (R302, R329, R384; log 124). -/
def State.waiting (s : State) (vd keysp : Nat) (key : Word) : Option Waiter := (s.ofTriple vd keysp key).head?

/-- A party that has not been matched waits: with an entry, parked, or queued (R307). -/
def State.park (a : Activity) (p : Party) (s : State) : State :=
  let w : Waiter := ⟨s.dirs.nextNum, a.uid, a.job.vd, a.job.keysp, p.key, p.deadline, false, false⟩
  let full := s.dirUsed (s.waiterDir w) ≥ dirSize
  ({ s with dirs := { s.dirs with
      waiters := s.dirs.waiters ++ [{ w with queued := full }], nextNum := s.dirs.nextNum + 1 } }).modParty a.uid
    (fun p => { p with phase := if full then .queued else .parked })

/-- Whether the home core of an arrival can take a saved party back (R329, step 1). -/
def State.restoreHome (s : State) (z : Saved) (q : Activity) : Bool :=
  (match s.jobOf z.act.job.vd z.act.job.jid with
   | some j => j.card.inSpan q.home
   | none => false) && s.canAccept q.home [z.footprint]

/-- Match the waiting party P with the arrival Q: a saved P is restored first, on Q's home when that can take it, with room there
reserved to it (R329). -/
def State.matchParties (p q : Nat) (s : State) : State :=
  match s.saved.find? (fun z => z.act.uid = p), s.act? q with
  | some z, some b =>
    let s := s.pair p q
    let at_ := if s.restoreHome z b then some b.home else none
    { s with saved := s.saved.map (fun y => if y.act.uid = p then { y with at_ := at_ } else y) }
  | _, _ => s.placeMeeting p q [] false

/-- DIRECTORY_ARRIVAL: a directory processes the arrival of a `meet`: matched with the waiting party of its triple, or else waiting
itself (R302, R307). -/
def execDirectoryArrival (msg : Nat) (s : State) : Host.Outcome State Fault Refusal :=
  .next (match s.msgs.find? (fun m => m.id = msg) with
    | none => s
    | some m =>
      match m.kind with
      | .meet uid _ =>
        (match s.act? uid, s.msgKey m with
         | some a, some (b, sender) =>
           if !s.msgReady m b sender then s
           else
             (match a.party with
              | none => s.dropMsg msg
              | some p =>
                let d := (s.keyEntry b).dir
                let t := ((s.dropMsg msg).dirBusy d).countArrival d b
                match s.waiting a.job.vd a.job.keysp p.key with
                | none => t.park a p
                | some w => (t.dropWaiter w.uid).matchParties w.uid uid)
         | _, _ => if m.due ≤ s.cycle then s.dropMsg msg else s)
      | _ => s)

/-- MEET_DEADLINE: a party still waiting after its deadline cycle is removed, and ALONE is sent (R319). -/
def execMeetDeadline (uid : Nat) (s : State) : Host.Outcome State Fault Refusal :=
  .next (match s.dirs.waiters.find? (fun w => w.uid = uid) with
    | none => s
    | some w =>
      match w.deadline with
      | none => s
      | some e =>
        let d := s.waiterDir w
        if !s.deadlineReady d e w.num || (s.keyEntry (keyBucket w.key w.keysp w.vd)).hold then s
        else ((s.dirBusy d).dropWaiter uid).sendStatus uid stAlone)

/-- The count of a cancellation goes back to its issuer, which still waits for it, from a directory (R328, R340). -/
def State.cancelCount (uid dst n d : Nat) (sender : Agent) (s : State) : State :=
  match s.act? uid with
  | none => s
  | some _ =>
    let f := s.focus uid
    if (⟨.g, dst⟩ : Reg) ∈ f.me.claimed then
      (f.modMe (fun a => { a with claimed := a.claimed.erase ⟨.g, dst⟩ })).resultAt .engine (s.cycle + dirLatency sender d) [] dst
        (BitVec.ofNat 64 n)
    else s

/-- DIRECTORY_CANCEL: `mcancel` is processed: the waiting party of the key receives CANCELLED, and the count goes back (R328). -/
def execDirectoryCancel (msg : Nat) (s : State) : Host.Outcome State Fault Refusal :=
  .next (match s.msgs.find? (fun m => m.id = msg) with
    | none => s
    | some m =>
      match m.kind with
      | .cancel uid dst vd keysp key false sender =>
        let b := keyBucket key keysp vd
        if !s.msgReady m b sender then s
        else
          let d := (s.keyEntry b).dir
          let t := (s.dropMsg msg).dirBusy d
          (match s.waiting vd keysp key with
           | some w => ((t.dropWaiter w.uid).sendStatus w.uid stCancelled).cancelCount uid dst 1 d sender
           | none => t.cancelCount uid dst 0 d sender)
      | _ => s)

/-! ## Decisions and shuttles (R314-R317) -/

/-- The extension list of a shuttle: each register's value, by EXT bit, with its value at start (R315). -/
def Activity.extList (a : Activity) : List (Nat × Word × Word) :=
  [(0, a.trap.xpc, 0), (1, a.trap.xcause, 0), (2, a.trap.xinfo, 0), (3, a.region.pc, BitVec.allOnes 64), (4, a.psjpc, 0)] ++
  (List.range 8).map (fun t => (5 + t, (a.ts.find t).getD 0, 0))

/-- The extension words that a shuttle carries: registers that differ from their values at start, in increasing EXT bit (R315). -/
def Activity.extCarried (a : Activity) : List (Nat × Word) :=
  (a.extList.filter (fun x => x.2.1 ≠ x.2.2)).map (fun x => (x.1, x.2.1))

/-- E (R314). -/
def Activity.extWords (a : Activity) : Nat := a.extCarried.length

/-- The header of an activity's shuttle, as one number of 64 bytes (R315). -/
def Activity.shuttleHeader (a : Activity) : Nat :=
  let bound (c : Cls) (n : Nat) : Nat := bitsFor n (fun i => a.regs.bound ⟨c, i⟩)
  let lf := (a.party.map (fun p => p.lf)).getD 0
  let ln := (a.party.map (fun p => p.ln)).getD 0
  a.pc.toNat + a.seed.toNat * 2 ^ 64 +
  ((if a.schk then 1 else 0) + a.trap.xstat % 2 ^ 16 * 2 ^ 8 + a.region.rgstat % 2 ^ 24 * 2 ^ 24 +
    sumOf (a.extCarried.map (fun x => 2 ^ (48 + x.1)))) * 2 ^ 128 +
  a.runc % 2 ^ 64 * 2 ^ 192 + bound .g 64 * 2 ^ 256 + (bound .v 32 + bound .k 8 * 2 ^ 32) * 2 ^ 320 +
  (ln % 2 ^ 5 + lf % 2 ^ 8 * 2 ^ 8) * 2 ^ 384 + a.actid % 2 ^ 32 * 2 ^ 448

/-- The bytes of an activity's shuttle: the header, the extension words, the bound registers by class and number, and the luggage pages in
frame order (R315). -/
def Activity.shuttleBytes (a : Activity) : List Byte :=
  let luggage := match a.party with
    | some p => a.lm.bytes.readN (p.lf * 0x800) (p.ln * 0x800)
    | none => []
  toBytes 64 a.shuttleHeader ++ a.extCarried.flatMap (fun x => toBytes 8 x.2.toNat) ++
  a.boundRegs.flatMap (fun x => toBytes x.1.size x.2.toNat) ++ luggage

/-- The size of a shuttle with a number of luggage pages (R314). -/
def Activity.shuttle (a : Activity) (pages : Nat) : Nat :=
  64 + 8 * a.extWords + 8 * a.regs.boundG + 128 * a.regs.boundV + 2048 * pages

/-- The travel time of an activity's shuttle to a core, without a load of code there (R314). -/
def Activity.travel (a : Activity) (n : Nat) : Nat :=
  16 + levelLatency a.agent (coreAgent n) + (a.shuttle ((a.party.map (fun p => p.ln)).getD 0) + 63) / 64

/-- The activity in focus leaves `meet` with a status. -/
def State.endMeet (status : Nat) (s : State) : State :=
  match s.me.party with
  | none => s
  | some p =>
    (s.modMe (fun a => { a with party := none, block := .none, nextIssue := max a.nextIssue (s.cycle + 1) })).deliver p.dst
      (meetWord status 0 0 p.moved)

/-- Both parties of a matched meeting are at its place: `meet` returns MET to both (R317). -/
def State.tryMet (uid : Nat) (s : State) : State :=
  let here (a : Activity) : Bool := match a.party with
    | some p => p.phase = .matched && p.decided.isNone && p.lands.isNone && !p.travels && p.status.isNone
    | none => false
  match s.act? uid with
  | none => s
  | some a =>
    match (a.party.bind (fun p => p.partner)).bind s.act? with
    | none => s
    | some b =>
      if here a && here b then
        [a, b].foldl (fun (s : State) (x : Activity) =>
          let f := s.focus x.uid
          match f.me.party with
          | none => f
          | some p =>
            (f.modMe (fun m => { m with
              party := some { p with phase := .met, syncs := 0, partnerAct := (if x.uid = a.uid then b else a).actid }
              block := .none, nextIssue := max m.nextIssue (s.cycle + 1) })).deliver
              p.dst (meetWord stMet (if x.uid = a.uid then b else a).actid p.side p.moved)) s
      else s

/-- The activity in focus is at home again, out of its meeting: its pages and its reserve are those it left there. -/
def State.returnHome (s : State) : State :=
  match s.me.party with
  | none => s
  | some p =>
    if p.away then
      let s := s.carry (coreAgent s.me.home) p.homeReserve
      s.modMe (fun a => { a with frames := p.homeFrames, party := none, nextIssue := max a.nextIssue (s.cycle + 1) })
    else s.modMe (fun a => { a with party := none, nextIssue := max a.nextIssue (s.cycle + 1) })

/-- The return shuttle of the activity in focus, away from home, leaves: it draws the tokens of its way anew (R327, R403). -/
def State.setOut (p : Party) (s : State) : State :=
  let s := s.modMe (fun a => { a with party := some { p with
    phase := .leaving, partner := none, decided := none, place := none, travels := false, codeTime := 0
    lands := some (s.cycle + 1 + a.travel a.home) } })
  { s with passing := s.passing.filter (fun q => q.who ≠ .shuttle s.me.uid) }

/-- A party that has travelled, and whose meeting will not be, goes home in a shuttle; another party leaves `meet` at once. -/
def State.sendHome (status : Nat) (s : State) : State :=
  match s.me.party with
  | none => s
  | some p =>
    if p.away then s.setOut { p with status := some status } else s.endMeet status

/-- DECISION_ARRIVES: the directory's decision reaches a party: a status ends its `meet`, and a traveller's shuttle leaves in the
next cycle (R317). -/
def execDecisionArrives (uid : Nat) (s : State) : Host.Outcome State Fault Refusal :=
  .next (match s.act? uid with
    | none => s
    | some a =>
      match a.party with
      | none => s
      | some p =>
        match p.decided with
        | none => s
        | some d =>
          if s.cycle < d then s
          else
            let f := s.focus uid
            match p.status, p.place with
            | some st, _ => f.sendHome st
            | none, some n =>
              if p.travels then f.modMe (fun a => { a with party := some { p with
                decided := none, lands := some (s.cycle + 1 + a.travel n + p.codeTime) } })
              else (f.modMe (fun a => { a with party := some { p with decided := none } })).tryMet uid
            | none, none => s)

/-- The activity in focus boards the place of its meeting with its luggage (R321). -/
def State.board (n : Nat) (s : State) : State :=
  let old := s.me
  let s := s.carry (coreAgent n) ⟨[], [], false, []⟩
  s.modMe (fun a => { a with
    frames := match old.party with
      | some p => (List.range p.ln).map (fun i => p.lf + i)
      | none => a.frames
    party := old.party.map (fun p =>
      if p.away then { p with travels := false, lands := none, moved := true }
      else { p with travels := false, lands := none, moved := true, away := true, homeFrames := old.frames, homeReserve := old.reserve }) })

/-- The activity in focus takes a slot on compute core n as its home, with its luggage pages only (R327, R34): a new slot and generation,
also where core n was its home before (DESIGN CHOICE, log 105). -/
def State.settle (n slot : Nat) (fresh : Bool) (s : State) : State :=
  let old := s.me
  let (s, gen) := s.takeGen n slot
  let s := if fresh then s.carry (coreAgent n) ⟨[], [], false, []⟩ else s
  let s := s.modMe (fun a => { a with
    home := n, slot := slot, gen := gen, party := none
    frames := match old.party with
      | some p => (List.range p.ln).map (fun i => p.lf + i)
      | none => a.frames
    nextIssue := max a.nextIssue (s.cycle + 1) })
  s.sweepCode old.home

/-- Whether the activity in focus may make compute core n its home (R327). -/
def State.mayMoveTo (s : State) (n : Nat) : Bool :=
  (match s.jobOf s.me.job.vd s.me.job.jid with
   | some j => j.card.inSpan n
   | none => false) && s.canAccept n [s.me.footprint]

/-- The activity in focus has left a meeting for compute core n, where a shuttle brings it: its code is loaded by then (R314, R327). -/
def State.arriveTo (n slot dst : Nat) (s : State) : State :=
  let vd := s.me.job.vd
  let jid := s.me.job.jid
  let s := ((((s.ensureSeg vd jid s.me.job.codePages n).finishLoad (coreAgent n) vd jid).focus s.me.uid).settle n slot true).deliver dst 0
  if s.codeLoaded vd jid n then s else s.condemnAct s.me.uid statCodeErr

/-- A shuttle that leaves a meeting is accepted where it goes: `.to` another core when that can be; else the party goes home, in a shuttle if it
is away (R327). -/
def State.landLeaving (p : Party) (s : State) : State :=
  let out (dst v : Nat) (s : State) : State := s.deliver dst (BitVec.ofNat 64 v)
  match p.parting with
  | some (2, n, dst) =>
    (match (if s.mayMoveTo n then s.freeSlot (coreAgent n) coreSlots else none) with
     | some k => s.arriveTo n k dst
     | none => if p.away then s.setOut { p with parting := some (0, n, dst), replaced := true } else out dst 1 s.returnHome)
  | some (_, _, dst) => out dst (if p.replaced then 1 else 0) s.returnHome
  | none =>
    let s := s.returnHome
    (s.modMe (fun a => { a with block := .none })).deliver p.dst (meetWord (p.status.getD stLost) 0 0 p.moved)

/-- Where the shuttle of a party under way goes: the core named by `.to`, its home, or the place of its meeting (R314, R327). -/
def Activity.bound (a : Activity) : Option Agent :=
  a.party.bind (fun p =>
    if p.lands.isNone then none
    else match p.phase, p.parting with
      | .leaving, some (2, n, _) => some (coreAgent n)
      | .leaving, _ => some (coreAgent a.home)
      | _, _ => p.place.map coreAgent)

/-- The tokens that a party's shuttle draws on its way, in the VD of the party (R403). -/
def State.shuttleNeeds (s : State) (a : Activity) : List (Arbiter × Nat) :=
  match a.bound with
  | some b => s.wayTo a.agent b ((a.shuttle ((a.party.map (fun p => p.ln)).getD 0) + 63) / 64)
  | none => []

/-- The requests of the shuttles under way. -/
def State.shuttleRequests (s : State) : List Request :=
  s.allActs.filterMap (fun a => match a.bound, a.party.bind (fun p => p.lands.map (fun l => l - p.codeTime)) with
    | some b, some l => some ⟨.shuttle a.uid, a.job.vd, false, l - a.travel b.num, s.shuttleNeeds a⟩
    | _, _ => none)

/-- Whether the code that a shuttle needs where it goes cannot be read yet: a line of it lies in a bucket that moves (R296). -/
def State.codeHeld (s : State) (a : Activity) (n : Nat) : Bool :=
  !s.codeLoaded a.job.vd a.job.jid n && (s.jobOf a.job.vd a.job.jid).any (fun j => s.virtHeld a.job.vd (s.dasid a.job.vd) j.card.code (4 * j.card.cwords))

/-- SHUTTLE_LANDED: a shuttle's last beat lands: the party is at the place of its meeting, where its code is loaded by then (R314), or back from
one; a party that was killed in its meeting retires at home (R330). A core that is being switched or is retired refuses the shuttle, and the
meeting is placed again elsewhere (R316). A party whose shuttle holds an uncorrectable error is lost (R330). -/
def execShuttleLanded (uid : Nat) (s : State) : Host.Outcome State Fault Refusal :=
  .next (match s.act? uid with
    | none => s
    | some a =>
      match a.party with
      | none => s
      | some p =>
        match p.lands with
        | none => s
        | some l =>
          if s.cycle < l || !s.hasPassed (.shuttle uid) (s.shuttleNeeds a) || a.bound.any (fun b => s.codeHeld a b.num) then s
          else if p.damaged then s.condemnAct uid statLost
          else
            let f := s.focus uid
            if p.phase = .leaving then
              let g := f.landLeaving p
              (if a.agent.kind = .compute then g.sweepCode a.agent.num else g)
            else match p.place, p.partner with
              | some n, some q =>
                if !s.usableCore a.job.vd n then
                  let back (u : Nat) : Bool := ((s.act? u).bind (fun b => b.party)).any (fun x => x.moved && !x.away)
                  let f := (f.modParty uid (fun p => { p with lands := none })).modParty q (fun p => { p with lands := none })
                  if p.waited then f.placeMeeting uid q [n] (back uid) else f.placeMeeting q uid [n] (back q)
                else
                  let g := (f.finishLoad (coreAgent n) a.job.vd a.job.jid).focus uid
                  if g.codeLoaded a.job.vd a.job.jid n then (g.board n).tryMet uid else g
              | _, _ => s)

/-! ## Inside a meeting (R323-R326) -/

/-- Whether the activity in focus is in an established meeting that it is not leaving. -/
def State.inMeeting (s : State) : Bool :=
  match s.me.party with
  | some p => p.phase = .met && p.parting.isNone
  | none => false

/-- An activity beside the one in focus, on the same agent, refills a spilled register (R44). -/
def State.refillOf (uid : Nat) (x : Reg) (s : State) : State := ((s.focus uid).refill x []).focus s.me.uid

/-- The effect of a read of a partner's register (R323): zero when the partner is gone. A spilled one is refilled first, and the reader
waits. -/
def effPartnerRead (x : Reg) (deliver : Vec → State → State) (s : State) : Eff :=
  if !s.inMeeting then .fault 0xA
  else match s.partner with
    | none => .done (deliver 0 s)
    | some p =>
      match p.badHome [x] with
      | some w => .poison 2 w
      | none =>
        if x ∈ p.regs.spilled then .hold (s.refillOf p.uid x)
        else match s.readPartner with
          | none => .hold s
          | some s => .done (deliver (p.raw x) s)

/-- `mget`: read two cycles after issue, ready two cycles later (R323). -/
def execMget (r : R) (s : State) : Host.Outcome State Fault Refusal :=
  issue (.mget r) s (effPartnerRead ⟨.g, r.a.toNat⟩ (fun v s =>
    s.pendWrite .engine (s.cycle + 4) [] ⟨.g, r.d.toNat⟩ v))

/-- `mgetv` (R323). -/
def execMgetv (r : R) (s : State) : Host.Outcome State Fault Refusal :=
  issue (.mgetv r) s (effPartnerRead ⟨.v, r.a.toNat⟩ (fun v s =>
    s.pendWrite .engine (s.cycle + 4) [] ⟨.v, r.d.toNat⟩ v))

/-- Whether a range meets the luggage of a party. -/
def Party.holds (p : Party) (y n : Nat) : Bool := y < (p.lf + p.ln) * 0x800 && p.lf * 0x800 < y + n

/-- Whether the writes of the activity in focus that `msync` waits for are complete (R324). -/
def State.syncReady (s : State) (p : Party) : Bool :=
  let u := s.me.uid
  s.me.pend = [] && s.me.claimed = [] && !s.vecBusy && !s.core.locq.any (fun c => c.owner = u) &&
  !s.core.copyq.any (fun c => c.owner = u && c.kind.isLoad && p.holds c.base c.len) &&
  !s.core.matq.any (fun c => c.owner = u && (c.kind = .tst || c.kind = .accst) && p.holds c.y c.len)

/-- Complete the `msync` in which an activity waits, if it waits in one (R324). -/
def State.finishSync (uid : Nat) (s : State) : State :=
  s.modAct uid (fun a =>
    match a.party with
    | some p =>
      (match p.inSync with
       | some (n, stl) => { a with
           party := some { p with inSync := none, syncs := p.syncs + 1 }
           pc := a.pc + BitVec.ofNat 64 n, lastPc := a.pc, nextIssue := s.cycle + 1 + stl, lastIssue := s.cycle, firstTry := none }
       | none => a)
    | none => a)

/-- Whether an activity could issue in this cycle once the activity in focus has: it holds a token, and no asynchronous trap comes first (R154,
R399). -/
def State.mayIssue (s : State) (q : Activity) : Bool := (s.asyncCause q).isNone && (s.drawIssue s.me).canDraw q

/-- The `msync` in which an activity waits is complete, if the activity could issue it now; else the activity tries it again in its turn. -/
def State.endSync (uid : Nat) (s : State) : State :=
  match s.act? uid with
  | some q => if s.mayIssue q then s.finishSync uid else s.modParty uid (fun p => { p with inSync := none })
  | none => s

/-- The effect of `msync` (R324): it completes together with the partner's, which takes an issue slot too, in a cycle in which both can
issue. -/
def effMsync (i : Instr) (s : State) : Eff :=
  match s.me.party with
  | none => .fault 0xA
  | some p =>
    if !s.inMeeting then .fault 0xA
    else if !s.syncReady p then .hold s
    else
      let count (s : State) : State := s.modMe (fun a => { a with party := a.party.map (fun p => { p with
        syncs := p.syncs + 1, inSync := none }) })
      match s.partner with
      | none => .done (count s)
      | some q =>
        match q.party with
        | none => .done (count s)
        | some z =>
          if z.parting.isSome then .done (count s)
          else if z.inSync.isSome && s.mayIssue q then .done (count (s.finishSync q.uid))
          else .hold (s.modMe (fun a => { a with party := some { p with inSync := some (i.bytes, i.stl) } }))

/-- `msync` (R324). -/
def execMsync (r : R) (s : State) : Host.Outcome State Fault Refusal := issue (.msync r) s (effMsync (.msync r))

/-- `mcpy` (R325): a command of the copy queue with no barrier; its operand checks come in the order of its entry (R100, step 8). -/
def execMcpy (r : R) (s : State) : Host.Outcome State Fault Refusal :=
  issue (.mcpy r) s (fun s =>
    let y := (s.me.g r.a.toNat).toNat
    let w := (s.me.srcB r).toNat
    let n := (s.me.g r.c.toNat).toNat
    let id := s.nextCmd
    checked [fun s => if s.inMeeting then none else some (.fault 0xA), ckFault (y % 32 ≠ 0 || w % 32 ≠ 0 || n % 32 ≠ 0) 5 0 0,
        ckFault (n = 0 || n > 32768) 6 0 0, ckLocal 0 true y n, ckLocal 0 false w n]
      (fun s =>
        if s.core.copyFull then .hold s
        else if s.scoreUsed s.me.agent + 2 > scoreSize s.me.agent.kind then .hold s
        else match s.readTaint w n with
          | none => .hold s
          | some s =>
            let c : LocCmd := ⟨id, s.me.uid, .mcpy, w, 0, y, n, 0, 0, 0, 0, 2 + (n + 127) / 128, none⟩
            .done ((({ s with nextCmd := id + 1 }).modCore (fun k => { k with locq := k.locq ++ [c] })).claim
              [⟨id, y, n, true⟩, ⟨id, w, n, false⟩])) s)

/-- Perform a copy within local memory: bytes, and poison with them. -/
def State.copyLocal (src dst n : Nat) (s : State) : State :=
  let cells := (List.range n).map (fun k =>
    (dst + k, if (s.poisonAt (src + k) 1).isSome then none else (s.readLocal (src + k) 1).head?))
  s.modMe (fun a => { a with lm := a.lm.land cells })

/-- Exchange a page of one memory with a page of another, poison included (R326). -/
def swapPage (m : LMem) (f : Nat) (n : LMem) (g : Nat) : LMem × LMem :=
  let side (a : LMem) (x : Nat) (b : LMem) (y : Nat) : LMem :=
    { bytes := a.bytes.writeN (x * 0x800) (b.bytes.readN (y * 0x800) 0x800)
      soft := ((b.soft.filter (fun w => w / 256 = y)).map (fun w => w - y * 256 + x * 256)).foldl setInsert
        (a.soft.filter (fun w => w / 256 ≠ x))
      poison := ((b.poison.filter (fun w => w / 256 = y)).map (fun w => w - y * 256 + x * 256)).foldl setInsert
        (a.poison.filter (fun w => w / 256 ≠ x))
      touched := true }
  (side m f n g, side n g m f)

/-- The first page that `mswap` may not exchange: its address (R326). -/
def State.badSwap (s : State) (p : Party) (a w m : Nat) : Option Nat :=
  let own := (List.range m).map (fun k => a / 0x800 + k)
  match own.find? (fun f => f < p.lf || p.lf + p.ln ≤ f) with
  | some f => some (f * 0x800)
  | none =>
    match ((List.range m).map (fun i => w + 0x800 * i)).find? (fun y =>
      y < 0x400000 || (match s.partner with
        | some q => (windowFrame q y).isNone
        | none => true)) with
    | some y => some y
    | none => none

/-- `mswap` (R326): it waits until no earlier access of either party to the pages is outstanding. -/
def execMswap (r : R) (s : State) : Host.Outcome State Fault Refusal :=
  issue (.mswap r) s (fun s =>
    let a := (s.me.g r.a.toNat).toNat
    let w := (s.me.srcB r).toNat
    let m := (s.me.g r.c.toNat).toNat
    match s.me.party with
    | none => .fault 0xA
    | some p =>
      if !s.inMeeting then .fault 0xA
      else if a % 0x800 ≠ 0 || w % 0x800 ≠ 0 then .fault 5
      else if m = 0 || m > 16 then .fault 6
      else match s.badSwap p a w m with
        | some y => .trap 6 (localInfo y 0)
        | none =>
          match s.partner with
          | none => .hold s
          | some q =>
            let base := (windowFrame q w).getD 0
            let mine := 0x400000 + (a / 0x800 - p.lf) * 0x800
            let n := m * 0x800
            if s.me.speculative || q.speculative || s.me.rangeBusy s.nextCmd true a n || s.me.rangeBusy s.nextCmd true w n ||
                q.rangeBusy s.nextCmd true base n || q.rangeBusy s.nextCmd true mine n then .hold s
            else
              let (x, y) := (List.range m).foldl (fun (xy : LMem × LMem) i =>
                swapPage xy.1 (a / 0x800 + i) xy.2 (base / 0x800 + i)) (s.me.lm, q.lm)
              .done ((s.pinRegion.modMe (fun b => { b with lm := x })).modAct q.uid (fun b => { b with lm := y })))

/-! ## `part` and `mcancel` (R327, R328) -/

/-- Whether the partner of a party passed step 2 of `part` before this cycle, or is not there any more (R327, step 3). -/
def State.partnerParts (s : State) (p : Party) : Bool :=
  match p.partner.bind s.act? with
  | some q => (match q.party with
      | some z => (z.parting.isSome && decide (z.partAt < s.cycle)) || z.partner ≠ some s.me.uid
      | none => true)
  | none => true

/-- `part` (R327): the steps before the meeting barrier. -/
def execPart (r : R) (s : State) : Host.Outcome State Fault Refusal :=
  issue (.part r) s (fun s =>
    let mode := (r.m.extractLsb' 0 2).toNat
    match s.me.party with
    | none => .fault 0xA
    | some p =>
      if !s.inMeeting then .fault 0xA
      else if s.me.speculative || s.cmdsOut || s.writesOut || s.vecBusy || s.me.pend ≠ [] || s.me.claimed ≠ [] then .hold s
      else if ((p.away && mode = 0) || mode = 2) && s.me.boundMask ≠ 0 then .trap 7 s.travelInfo
      else
        let n := (s.me.g r.a.toNat).toNat % 2 ^ 12
        let s := (s.pinRegion.claimReg ⟨.g, r.d.toNat⟩).modMe (fun a => { a with
          party := some { p with parting := some (mode, n, r.d.toNat), partAt := s.cycle } })
        .done (match p.partner with
          | some q => s.endSync q
          | none => s))

/-- The activity in focus leaves its meeting once the barrier is complete (R327); `.stay` makes the meeting core its home also outside the
span of its job (DESIGN CHOICE between R327 and R37, log 106). What loading the job's code adds to the way of `.to` is that of R314. -/
def State.leave (s : State) : State :=
  match s.me.party with
  | none => s
  | some p =>
    match p.parting with
    | none => s
    | some (mode, n, dst) =>
      if mode = 2 then
        let code := s.codeTime s.me n
        s.modMe (fun a => { a with party := some { p with
          phase := .leaving, partner := none, place := none, travels := false, codeTime := code, lands := some (s.cycle + 1 + a.travel n + code) } })
      else if !p.away then (s.returnHome).deliver dst 0
      else if mode = 1 then
        (s.settle ((p.place).getD s.me.home) p.vslot false).deliver dst 0
      else s.setOut p

/-- PART_BARRIER: both parties have passed step 2 of `part` in an earlier cycle, or the other is gone: each leaves in the next cycle
(R327). -/
def execPartBarrier (uid : Nat) (s : State) : Host.Outcome State Fault Refusal :=
  .next (match s.act? uid with
    | none => s
    | some a =>
      match a.party with
      | none => s
      | some p =>
        let f := s.focus uid
        if p.phase ≠ .met || p.parting.isNone || s.cycle ≤ p.partAt || !f.partnerParts p then s
        else
          let other := (p.partner.bind s.act?).filter (fun q => (match q.party with
            | some z => z.phase = .met && z.partner = some uid
            | none => false))
          let s := f.leave
          match other with
          | some q => ((s.focus q.uid).leave).focus uid
          | none => s)

/-- The effect of `mcancel` and `ccancel` (R328, R340); only `mcancel` pins an open region (R159), and only it takes STATE while a meeting
or collective is outstanding (R310). -/
def effCancel (r : R) (isColl : Bool) (s : State) : Eff :=
  let a := s.me
  if !isColl && (a.party.isSome || a.coll.isSome) then .fault 0xA
  else if a.speculative || s.portFull then .hold s
  else
    let key := a.g r.a.toNat
    let ld := dirLatency a.agent (s.dirOf key a.job.keysp a.job.vd)
    .done (((if isColl then s else s.pinRegion).claimReg ⟨.g, r.d.toNat⟩).send
      (.cancel a.uid r.d.toNat a.job.vd a.job.keysp key isColl a.agent) (s.cycle + 2 + ld))

/-- `mcancel` (R328). -/
def execMcancel (r : R) (s : State) : Host.Outcome State Fault Refusal := issue (.mcancel r) s (effCancel r false)

end Sys2Proof.Machine
end

