-- ==== Sys2Proof/Machine/Coll.lean ====
section
/-! DEFINITION. The collective engine (R333-R351). -/

namespace Sys2Proof.Machine

/-! ## The group descriptor (R335, R336) -/

/-- A group descriptor. -/
structure GroupDesc where
  key : Word
  root : Nat
  rank : Nat
  n : Nat
  src : Nat
  ch : Nat
  dst : Nat
  /-- Every reserved field is 0. -/
  clean : Bool
deriving DecidableEq, Repr

/-- The descriptor that 32 bytes hold. -/
def GroupDesc.parse (bs : List Byte) : GroupDesc :=
  let w (i : Nat) : Nat := ofBytes ((bs.drop (8 * i)).take 8)
  { key := BitVec.ofNat 64 (w 0), root := w 1 / 2 ^ 32 % 2 ^ 16, rank := w 1 / 2 ^ 16 % 2 ^ 16, n := w 1 % 2 ^ 16, src := w 2 % 2 ^ 24
    ch := w 3 / 2 ^ 32 % 2 ^ 16, dst := w 3 % 2 ^ 24
    clean := w 1 / 2 ^ 48 = 0 && w 2 / 2 ^ 24 = 0 && w 3 / 2 ^ 48 = 0 && w 3 / 2 ^ 24 % 256 = 0 }

/-- The operation of a `coll` with a descriptor. -/
def GroupDesc.op (d : GroupDesc) (r : R) : CollOp := ⟨d.n, r.cop, r.rop, r.acc, r.fmt, d.ch, d.root⟩

/-- SL of a rank (R336). -/
def CollOp.sl (o : CollOp) (rank : Nat) : Nat :=
  match o.cop with
  | 0 => 0
  | 1 => if rank = o.root then o.ch else 0
  | 4 => o.n * o.ch
  | 6 => o.n * o.ch
  | _ => o.ch

/-- DL of a rank (R336). -/
def CollOp.dl (o : CollOp) (rank : Nat) : Nat :=
  match o.cop with
  | 0 => 0
  | 2 => if rank = o.root then o.n * o.ch else 0
  | 3 => o.n * o.ch
  | 6 => o.n * o.ch
  | _ => o.ch

/-- The copy fault of a descriptor's fields, 0 for none (R337, step 3). -/
def GroupDesc.fault (d : GroupDesc) (o : CollOp) : Nat :=
  let sl := o.sl d.rank
  let dl := o.dl d.rank
  let rootBad := if o.cop = 1 || o.cop = 2 then d.root ≥ d.n else d.root ≠ 0
  if !d.clean || d.n < 2 || d.n > 4096 || (o.cop = 7 && d.n ≠ 2) || d.rank ≥ d.n || rootBad ||
      (sl ≠ 0 && dl ≠ 0 && d.src < d.dst + dl && d.dst < d.src + sl) then 0xB
  else if (sl ≠ 0 && d.src % 32 ≠ 0) || (dl ≠ 0 && d.dst % 32 ≠ 0) || d.ch % 32 ≠ 0 then 5
  else if (if o.cop = 0 then d.ch ≠ 0 else d.ch < 32 || d.ch > 32768) || sl > 32768 || dl > 32768 then 6
  else 0

/-! ## Issue (R337) -/

/-- The status word (R344). -/
def collWord (status arrived : Nat) : Word := BitVec.ofNat 64 (status + arrived * 2 ^ 32)

/-- Queue a checked collective: its claims, its arrival. -/
def placeColl (r : R) (d : GroupDesc) (o : CollOp) (s : State) : Eff :=
  let a := s.me
  let sl := o.sl d.rank
  let dl := o.dl d.rank
  let claims := (if sl = 0 then [] else [(⟨s.nextCmd, d.src, sl, false⟩ : Claim)]) ++
    (if dl = 0 then [] else [⟨s.nextCmd + 1, d.dst, dl, true⟩])
  if s.portFull || s.scoreUsed a.agent + claims.length > scoreSize a.agent.kind then .hold s
  else
    let t := (a.srcB r).toNat % 2 ^ 32
    let c : CollRank := ⟨s.nextCmd, s.nextCmd + 1, d.key, o, d.rank, d.src, d.dst, r.bar, r.d.toNat,
      if t = 0 then none else some (s.cycle + t), none, false, none, false⟩
    let ld := dirLatency a.agent (s.dirOf d.key a.job.keysp a.job.vd)
    .done ((((({ s with nextCmd := s.nextCmd + 2 }).claim claims).pinRegion.claimReg ⟨.g, r.d.toNat⟩).modMe
      (fun a => { a with coll := some c })).send (.coll a.uid a.agent) (s.cycle + 2 + ld))

/-- `coll` (R337). -/
def execColl (r : R) (s : State) : Host.Outcome State Fault Refusal :=
  issue (.coll r) s (fun s =>
    let y := (s.me.g r.a.toNat).toNat
    checked [ckLocal 0 false y 32, ckBar 0 r, ckFault (y % 32 ≠ 0 || r.bar % 16 ≠ 0) 5 0 0,
        fun s => if s.me.rangeBusy s.nextCmd false y 32 then some (.hold s) else none,
        fun s => (s.poisonAt y 32).map (fun w => .poison 0 w)]
      (fun s =>
        let d := GroupDesc.parse (s.readLocal y 32)
        let o := d.op r
        let e := d.fault o
        checked [ckFault (e ≠ 0) e 0 0, fun s => if o.sl d.rank = 0 then none else ckLocal 0 false d.src (o.sl d.rank) s,
            fun s => if o.dl d.rank = 0 then none else ckLocal 0 true d.dst (o.dl d.rank) s,
            ckFault (s.me.party.isSome || s.me.coll.isSome) 0xA 0 0,
            fun s => if s.me.speculative then some (.hold s) else none]
          (placeColl r d o) s) s)

/-- `ccancel` (R340). -/
def execCcancel (r : R) (s : State) : Host.Outcome State Fault Refusal := issue (.ccancel r) s (effCancel r true)

/-! ## Forming groups (R338-R340) -/

/-- Change the collective of an activity, saved or not. -/
def State.modColl (uid : Nat) (f : CollRank → CollRank) (s : State) : State :=
  s.modAny uid (fun a => { a with coll := a.coll.map f })

/-- A status other than MET is on its way to a rank (R351). -/
def State.collStatus (uid status arrived at_ : Nat) (s : State) : State :=
  s.modColl uid (fun c => { c with status := some (status, arrived, at_) })

/-- The forming group of a triple whose deadline has not passed (R338, R339). -/
def State.forming (s : State) (vd keysp : Nat) (key : Word) : Option Group :=
  s.dirs.groups.find? (fun g => g.complete.isNone && g.vd = vd && g.keysp = keysp && g.key = key && !passed g.deadline s.cycle)

/-- Replace a group. -/
def State.putGroup (g : Group) (s : State) : State :=
  { s with dirs := { s.dirs with groups := s.dirs.groups.map (fun (h : Group) => if h.id = g.id then g else h) } }

/-- The state without a group. -/
def State.dropGroup (g : Group) (s : State) : State :=
  let d := s.groupDir g
  ({ s with dirs := { s.dirs with groups := s.dirs.groups.filter (fun (h : Group) => h.id ≠ g.id) } }).promote d

/-- The earlier of two deadlines. -/
def earlier : Option Nat → Option Nat → Option Nat
  | none, b => b
  | a, none => a
  | some x, some y => some (min x y)

/-- A rank of an activity. -/
def Activity.member (a : Activity) (c : CollRank) : Member :=
  ⟨c.rank, a.uid, a.agent, a.job.vd, a.job.jid, none, false, 0, []⟩

/-- A rank joins a group; the last one completes it. -/
def State.joinGroup (g : Group) (a : Activity) (c : CollRank) (s : State) : State :=
  let ms := g.members ++ [a.member c]
  let full := ms.length = g.op.n
  let g' : Group := { g with
    members := ms, deadline := if full then none else earlier g.deadline c.deadline, complete := if full then some s.cycle else none
    queued := g.queued && !full }
  let s := (s.putGroup g').modColl a.uid (fun c => { c with group := some g.id })
  if full then s.promote (s.groupDir g) else s

/-- Open a group with its first rank (R338). -/
def State.openGroup (a : Activity) (c : CollRank) (s : State) : State :=
  let id := s.dirs.nextNum
  let g : Group := ⟨id, a.job.vd, a.job.keysp, c.key, c.op, [a.member c], c.deadline, false, none⟩
  let g := { g with queued := s.dirUsed (s.groupDir g) ≥ dirSize }
  ({ s with dirs := { s.dirs with groups := s.dirs.groups ++ [g], nextNum := id + 1 } }).modColl a.uid
    (fun c => { c with group := some id })

/-- Dissolve a forming group: every rank of `ms` receives a status (R351). -/
def State.dissolve (g : Group) (ms : List Member) (status : Nat) (s : State) : State :=
  let d := s.groupDir g
  ms.foldl (fun (s : State) (m : Member) =>
    s.collStatus m.uid status g.members.length (s.cycle + dirLatency m.home d)) (s.dropGroup g)

/-- The ranks of a group that have a status to receive when one of them leaves it: with `spare`, not those of its own job (R346). -/
def Group.others (g : Group) (uid vd jid : Nat) (spare : Bool) : List Member :=
  g.members.filter (fun m => m.uid ≠ uid && !m.done && !(spare && m.vd = vd && m.jid = jid))

/-- COLL_ARRIVAL: a directory processes a rank's arrival: it opens, joins or completes a group, or is refused (R338). The arrival of a
rank that has gone since dissolves the group that it would join (R346; DEDUCED, log 120); where it would be refused it changes nothing, and
where it would open a group no other rank is in it. -/
def execCollArrival (msg : Nat) (s : State) : Host.Outcome State Fault Refusal :=
  .next (match s.msgs.find? (fun m => m.id = msg) with
    | none => s
    | some m =>
      match m.kind with
      | .coll uid _ =>
        (match s.anyAct? uid, s.msgKey m with
         | some (a, _), some (b, sender) =>
           if !s.msgReady m b sender then s
           else
             (match a.coll with
              | none => s.dropMsg msg
              | some c =>
                let d := (s.keyEntry b).dir
                let t := ((s.dropMsg msg).dirBusy d).countArrival d b
                match s.forming a.job.vd a.job.keysp c.key with
                | none => t.openGroup a c
                | some g =>
                  if g.op ≠ c.op || g.members.any (fun x => x.rank = c.rank) then
                    t.collStatus uid stRefused 0 (s.cycle + dirLatency a.agent d)
                  else t.joinGroup g a c)
         | _, _ => if m.due ≤ s.cycle then s.dropMsg msg else s)
      | .quit vd jid keysp key op rank status spare sender =>
        let b := keyBucket key keysp vd
        if !s.msgReady m b sender then s
        else
          let t := (s.dropMsg msg).dirBusy (s.keyEntry b).dir
          (match s.forming vd keysp key with
           | some g => if g.op ≠ op || g.members.any (fun x => x.rank = rank) then t else t.dissolve g (g.others 0 vd jid spare) status
           | none => t)
      | _ => s)

/-- COLL_DEADLINE: a group still forming after its deadline cycle is dissolved: every rank that has arrived receives ALONE (R339). -/
def execCollDeadline (group : Nat) (s : State) : Host.Outcome State Fault Refusal :=
  .next (match s.dirs.groups.find? (fun g => g.id = group && g.complete.isNone) with
    | none => s
    | some g =>
      match g.deadline with
      | none => s
      | some e =>
        let d := s.groupDir g
        if !s.deadlineReady d e g.id || (s.keyEntry (keyBucket g.key g.keysp g.vd)).hold then s
        else (s.dirBusy d).dissolve g g.members stAlone)

/-- COLL_CANCEL: `ccancel` is processed: the forming group of the key is dissolved, and the count of its ranks goes back (R340). -/
def execCollCancel (msg : Nat) (s : State) : Host.Outcome State Fault Refusal :=
  .next (match s.msgs.find? (fun m => m.id = msg) with
    | none => s
    | some m =>
      match m.kind with
      | .cancel uid dst vd keysp key true sender =>
        let b := keyBucket key keysp vd
        if !s.msgReady m b sender then s
        else
          let d := (s.keyEntry b).dir
          let t := (s.dropMsg msg).dirBusy d
          (match s.forming vd keysp key with
           | some g => (t.dissolve g g.members stCancelled).cancelCount uid dst g.members.length d sender
           | none => t.cancelCount uid dst 0 d sender)
      | _ => s)

/-! ## Luggage and results (R341-R345) -/

/-- The complete group of an activity's collective, with its own place in it. -/
def State.collGroup (s : State) (uid : Nat) : Option (Group × Member) :=
  (s.dirs.groups.find? (fun g => g.complete.isSome && g.members.any (fun m => m.uid = uid))).bind (fun g =>
    (g.members.find? (fun m => m.uid = uid)).map (fun m => (g, m)))

/-- The scope of a group: the smallest that contains every rank's home (R226, R341). -/
def Group.scope (g : Group) : Nat :=
  match g.members with
  | [] => 0
  | m :: ms => if ms.all (fun x => x.home = m.home) then 0 else if ms.all (fun x => agentDie x.home = agentDie m.home) then 1 else 2

/-- Whether what the rank in focus has written before its collective, and the writes it has observed, are performed at a scope (R229, R235,
R237). -/
def State.releasedRank (scope mark : Nat) (s : State) : Bool :=
  if scope = 2 then !s.writesBefore mark
  else !s.me.helds.any (fun h => h.released) && s.allPerformed scope s.me.seen &&
    s.core.copyq.all (fun d => !(d.owner = s.me.uid && d.kind.isWrite && d.id < mark) || s.performedAt scope s.core.agent d)

/-- The beats of a rank's source. -/
def CollRank.beats (c : CollRank) : Nat := (c.op.sl c.rank + 63) / 64

/-- The home of rank 0 of a group: luggage meets, and results start, on its die (DEDUCED, log 60). -/
def Group.seat (g : Group) (m : Member) : Agent := ((g.members.find? (fun x => x.rank = 0)).getD m).home

/-- The tokens that the luggage of a rank draws at the die boundaries it crosses (R345, R403). -/
def State.luggageNeeds (s : State) (g : Group) (m : Member) : List (Arbiter × Nat) :=
  let beats := (g.op.sl m.rank + 63) / 64
  if beats = 0 then [] else (boundaries s.cutDie (agentDie m.home) (agentDie (g.seat m))).map (fun x => (x, beats))

/-- The rank in focus is released, and its source is read and sent (R341). -/
def State.sendLuggage (g : Group) (c : CollRank) (s : State) : State :=
  let n := c.op.sl c.rank
  let lug : LMem := ⟨Memory.writeN [] 0 (s.readLocal c.src n),
    ((wordsOf c.src n).filter (fun w => (s.poisonAt (8 * w) 8).isSome)).map (fun w => w - c.src / 8), true, []⟩
  let g' : Group := { g with members := g.members.map (fun (m : Member) => if m.uid = s.me.uid then
    { m with luggage := some lug, sentAt := s.cycle, covers := s.observed s.core s.me c.srcCmd } else m) }
  (s.putGroup g').modMe (fun a => { a with coll := some { c with sent := true } })

/-- The last beat of the source of the rank in focus has left: its range is free (R341). -/
def State.leftSource (c : CollRank) (s : State) : State := s.modMe (fun a => { (a.release c.srcCmd) with coll := some { c with left := true } })

/-- The units around a home, from its tile to the module, by level (R17, R226); a home that is no compute core counts as placed in its
quadrant. -/
def homeUnits (a : Agent) : List (Nat × Nat) :=
  let (d, q, p) := agentPlace a
  (match p with
    | some _ => [(1, a.num / 4), (2, a.num / 16), (3, a.num / 64)]
    | none => []) ++ [(4, 4 * d + q), (5, d), (6, 0)]

/-- The reeds along the routes of a group's luggage and results (R341, R342): those of the units around each rank's home, up to the
least unit around every home, the group unit (DEDUCED, log 50). -/
def Group.reeds (g : Group) : List (Nat × Nat) :=
  let all := g.members.map (fun m => homeUnits m.home)
  let top := (((all.headD []).filter (fun u => all.all (fun us => u ∈ us))).map Prod.fst).headD 6
  all.flatten.filter (fun u => u.1 ≤ top)

/-- Whether a complete group comes before another in the order of completion. -/
def Group.ahead (g h : Group) : Bool :=
  match g.complete, h.complete with
  | some a, some b => decide (a < b) || (a = b && decide (g.id < h.id))
  | _, _ => false

/-- Whether a complete group still waits at its directory: a reed on its route serves, or is awaited by, 16 groups that completed
before it (R341). -/
def State.reedFull (s : State) (g : Group) : Bool :=
  g.reeds.any (fun r => decide (16 ≤ ((s.dirs.groups.filter (fun h => h.ahead g)).filter (fun h => r ∈ h.reeds)).length))

/-- COLL_GO: GO has reached a rank: once its writes are performed at the scope of the group (R237) and the scoreboard lets it read its source,
its luggage leaves, a beat a cycle. A group waits for its reeds (R341); a saved rank's luggage leaves after its restore (R346). -/
def execCollGo (uid : Nat) (s : State) : Host.Outcome State Fault Refusal :=
  .next (match s.act? uid, s.collGroup uid with
    | some a, some (g, m) =>
      (match a.coll, g.complete with
       | some c, some e =>
         let f := s.focus uid
         if c.sent then
           if c.left || s.cycle < m.sentAt + c.beats || !s.hasPassed (.luggage uid) (s.luggageNeeds g m) then s else f.leftSource c
         else if s.cycle < e + dirLatency a.agent (s.groupDir g) || s.reedFull g || !f.releasedRank g.scope c.srcCmd ||
             f.me.rangeBusy c.srcCmd false c.src (c.op.sl c.rank) then s
         else f.sendLuggage g c
       | _, _ => s)
    | _, _ => s)

/-- A byte of the luggage of rank j, none in a poisoned word. -/
def Group.byte (g : Group) (j off : Nat) : Option Byte :=
  match (g.members.find? (fun m => m.rank = j)).bind (fun m => m.luggage) with
  | some l => if off / 8 ∈ l.poison then none else some (l.bytes.read off)
  | none => some 0

/-- One level of the tree (R342). -/
def treeLevel (comb : Nat → Nat → Nat) : List Nat → List Nat
  | a :: b :: rest => comb a b :: treeLevel comb rest
  | l => l

/-- The reduction by the fixed tree. -/
def collTree (comb : Nat → Nat → Nat) : Nat → List Nat → Nat
  | 0, l => l.headD 0
  | fuel + 1, l => if l.length ≤ 1 then l.headD 0 else collTree comb fuel (treeLevel comb l)

/-- The element of a result (R342): codes of the ranks in rank order to the code of the result. -/
def CollOp.reduce (o : CollOp) (xs : List Nat) : Nat :=
  let op := o.rop + 1
  if o.acc then
    let ys := xs.map (fun x => fFp32.roundRne ((floatFmt o.fmt).decode x))
    (floatFmt o.fmt).roundRne (fFp32.decode (collTree (redElem op 0) 13 ys))
  else collTree (redElem op o.fmt) 13 xs

/-- What rank r receives: its destination offsets with the bytes, none for one that poison reaches (R336, R342, R346). -/
def Group.result (g : Group) (r : Nat) : List (Nat × Option Byte) :=
  let o := g.op
  let ch := o.ch
  let whole (j from_ dst : Nat) : List (Nat × Option Byte) := (List.range ch).map (fun k => (dst + k, g.byte j (from_ + k)))
  match o.cop with
  | 1 => whole o.root 0 0
  | 2 => if r = o.root then (List.range o.n).flatMap (fun j => whole j 0 (j * ch)) else []
  | 3 => (List.range o.n).flatMap (fun j => whole j 0 (j * ch))
  | 6 => (List.range o.n).flatMap (fun j => whole j (r * ch) (j * ch))
  | 7 => whole (1 - r) 0 0
  | 0 => []
  | cop =>
    let w := fmtBits o.fmt / 8
    let start := if cop = 4 then r * ch else 0
    (List.range (ch / w)).flatMap (fun e =>
      let cols := (List.range o.n).map (fun j => (List.range w).map (fun b => g.byte j (start + e * w + b)))
      let bad := cols.any (fun c => c.any Option.isNone)
      let v := o.reduce (cols.map (fun c => ofBytes (c.map (fun b => b.getD 0))))
      ((toBytes w v).zipIdx).map (fun (b, i) => (e * w + i, if bad then none else some b)))

/-- The group unit's level latency Lg: that of the smallest unit around every home, which is the quadrant for a gateway core (R17, R341). -/
def Group.span (g : Group) : Nat :=
  (g.members.flatMap (fun a => g.members.map (fun b => levelLatency a.home b.home))).foldl max
    (if g.members.all (fun a => a.home.kind = .compute) then 1 else 9)

/-- ⌈log₂ n⌉ (R345). -/
def log2Up (n : Nat) : Nat := if n ≤ 1 then 0 else Nat.log2 (n - 1) + 1

/-- The earliest cycle in which the results of a member land, on the count of R345 from the cycle in which the last luggage was sent: at GO,
or later where a rank's writes were pending or it was saved; ranks that share a core share its port, in rank order. -/
def Group.due (g : Group) (me : Member) : Nat :=
  let sent := g.members.foldl (fun m a => max m a.sentAt) 0
  let h := if g.op.cop = 4 || g.op.cop = 5 then log2Up g.op.n else 0
  let b := g.members.foldl (fun m a => max m (max (g.op.sl a.rank) (g.op.dl a.rank))) 0
  let ahead := (g.members.filter (fun m => m.home = me.home && m.rank < me.rank)).length
  sent + 1 + 2 * g.span + 4 * h + (1 + ahead) * ((b + 63) / 64)

/-- The tokens that the results of a rank draw, at the die boundaries they cross and at the port of its core (R345, R403). -/
def State.resultNeeds (s : State) (g : Group) (me : Member) : List (Arbiter × Nat) :=
  s.wayTo (g.seat me) me.home ((g.op.dl me.rank + 63) / 64)

/-- Whether the luggage of a member has left its core whole; that of a rank that is gone has. -/
def State.luggageLeft (s : State) (m : Member) : Bool :=
  m.luggage.isSome && (match (s.anyAct? m.uid).bind (fun x => x.1.coll) with
    | some c => c.left
    | none => true)

/-- Whether every rank's luggage has left. -/
def State.allLeft (s : State) (g : Group) : Bool := g.members.all s.luggageLeft

/-- Whether what travels for a member counts as speculative (R362, R405). -/
def State.memberSpec (s : State) (m : Member) : Bool :=
  match s.anyAct? m.uid with
  | some (a, _) => s.borrowsOnly a
  | none => false

/-- The requests of luggage and of results on their way. -/
def State.collRequests (s : State) : List Request :=
  (s.dirs.groups.filter (fun g => g.complete.isSome)).flatMap (fun g =>
    (if s.allLeft g then (g.members.filter (fun m => !m.done)).map (fun m =>
        (⟨.result m.uid, m.vd, s.memberSpec m, g.complete.getD 0, s.resultNeeds g m⟩ : Request))
      else (g.members.filter (fun m => m.luggage.isSome && !s.luggageLeft m)).map (fun m =>
        ⟨.luggage m.uid, m.vd, s.memberSpec m, m.sentAt, s.luggageNeeds g m⟩)))

/-- A rank of a group is done; with the last one the group is gone. -/
def State.leaveGroup (gid uid : Nat) (s : State) : State :=
  let mark (g : Group) : Group :=
    if g.id = gid then { g with members := g.members.map (fun (m : Member) => if m.uid = uid then { m with done := true } else m) } else g
  let gs := (s.dirs.groups.map mark).filter (fun (g : Group) => g.complete.isNone || g.members.any (fun m => !m.done))
  { s with dirs := { s.dirs with groups := gs } }

/-- The collective of the activity in focus ends: G[D] is written, its ranges are free (R344, R350). -/
def State.endColl (c : CollRank) (status arrived : Nat) (s : State) : State :=
  (s.modMe (fun a => { ((a.release c.srcCmd).release c.dstCmd) with coll := none })).deliver c.reg (collWord status arrived)

/-- COLL_RESULTS_LANDED: a rank's results have landed: the collective ends with MET for it (R343), and it has observed what the other ranks
had written or observed when they were released (R235, R237). -/
def execCollResultsLanded (uid : Nat) (s : State) : Host.Outcome State Fault Refusal :=
  .next (match s.act? uid, s.collGroup uid with
    | some a, some (g, me) =>
      (match a.coll, g.complete with
       | some c, some _ =>
         let f := s.focus uid
         let dl := c.op.dl c.rank
         if !s.allLeft g || s.cycle < g.due me || !s.hasPassed (.result uid) (s.resultNeeds g me) || c.status.isSome ||
             f.me.rangeBusy c.dstCmd true c.dst dl then s
         else
           let cells := (g.result c.rank).map (fun x => (c.dst + x.1, x.2))
           let bad := cells.any (fun x => x.2.isNone)
           let seen := f.me.seen ++ (g.members.filter (fun m => m.uid ≠ uid)).flatMap (fun m => m.covers)
           let f := f.modMe (fun a => { a with lm := a.lm.land cells, seen := f.unperformed seen })
           let f := (f.barNote uid c.bar dl 0 0).barNote uid c.bar 0 1 (if bad then errPoison else 0)
           (f.endColl c stMet g.op.n).leaveGroup g.id uid
       | _, _ => s)
    | _, _ => s)

/-- GROUP_DISSOLVED_STATUS: a status other than MET has reached a rank: G[D] is written, and BAR takes Update(DL, 1, REFUSED)
(R343, R351). -/
def execGroupDissolvedStatus (uid : Nat) (s : State) : Host.Outcome State Fault Refusal :=
  .next (match s.act? uid with
    | none => s
    | some a =>
      match a.coll with
      | none => s
      | some c =>
        match c.status with
        | none => s
        | some (st, n, t) =>
          if s.cycle < t then s
          else
            let f := (s.focus uid).barNote uid c.bar (c.op.dl c.rank) 1 errRefused
            let f := f.endColl c st n
            (match c.group with
             | some g => f.leaveGroup g uid
             | none => f))

/-! ## Ranks that are lost (R346) -/

/-- The rank of an activity leaves its collective for good, with `status` for the others when its luggage has not left (R346), except for
those of its own job when `spare` says so, which are removed without a status. An arrival that is still on its way carries the
status instead. -/
def State.abandonColl (uid status : Nat) (spare : Bool) (s : State) : State :=
  match s.dirs.groups.find? (fun g => g.members.any (fun m => m.uid = uid && !m.done)) with
  | none =>
    (match (s.anyAct? uid).bind (fun (a, _) => a.coll.map (fun c => (a, c))) with
     | none => s
     | some (a, c) => { s with msgs := s.msgs.map (fun (m : Msg) => match m.kind with
         | .coll u sender => if u = uid then
             { m with kind := .quit a.job.vd a.job.jid a.job.keysp c.key c.op c.rank status spare sender } else m
         | _ => m) })
  | some g =>
    match g.members.find? (fun m => m.uid = uid) with
    | none => s
    | some me =>
      if me.luggage.isSome then s.leaveGroup g.id uid
      else s.dissolve g (g.others uid me.vd me.jid spare) status

end Sys2Proof.Machine
end

