-- ==== Sys2Proof/Machine/VecMem.lean ====
section
/-! DEFINITION. Vector loads and stores of local memory (R185-R188). -/

namespace Sys2Proof.Machine

/-- The queue of the vector engine for loads and stores (R20). -/
def vecQueueSize : Nat := 16

/-- The access cycles of elements of `bytes` bytes at addresses (R188): in element order, up to 16 a cycle, an element whose
bank is already used in a cycle starting the next one (DEDUCED, log 17). Banks are those of the local address (R21). -/
def accessCycles (bytes : Nat) : List Nat → List Nat → Nat → Nat
  | [], _, _ => 1
  | y :: ys, used, n =>
    let banks := (wordsOf y bytes).map (fun w => w % 192)
    if n = 16 || banks.any (fun b => b ∈ used) then accessCycles bytes ys banks 1 + 1
    else accessCycles bytes ys (banks ++ used) (n + 1)

/-- The first element whose bytes fail CheckLocal, with the cause and XINFO (R186). -/
def State.checkElems (s : State) (store : Bool) (f : Nat) : List (Nat × Int) → Option (Nat × Word)
  | [] => none
  | (i, y) :: rest =>
    match s.checkLocal store y (fmtWidth f / 8) with
    | some (z, c) =>
      some (c, localInfo z ((if store then 1 else 0) + 2 * Nat.log2 (fmtWidth f / 8) + 16 * i + 2 ^ 11))
    | none => s.checkElems store f rest

/-- The range that elements name: from their lowest to their highest byte (R187). -/
def elemRange (bytes : Nat) (es : List (Nat × Nat)) : Nat × Nat :=
  match es with
  | [] => (0, 0)
  | (_, y) :: rest =>
    let lo := rest.foldl (fun m e => min m e.2) y
    let hi := rest.foldl (fun m e => max m e.2) y
    (lo, hi + bytes - lo)

/-- A load's value: the active elements from local memory, the others under R168. -/
def State.vecLoad (s : State) (c : VecCmd) : Vec :=
  let w := fmtWidth c.fmt
  maskedElems w (fmtCount c.fmt) c.mask c.zm c.data (fun i =>
    match c.elems.find? (fun e => e.1 = i) with
    | some (_, y) => ofBytes (s.readLocal y (w / 8))
    | none => 0)

/-- A load of elements corrects the correctable errors in the words it reads (R143, R186). -/
def State.correctElems (bytes : Nat) (es : List (Nat × Nat)) (s : State) : State := es.foldl (fun s e => s.correct e.2 bytes) s

/-- The first poisoned word that elements touch. -/
def State.vecPoison (s : State) (bytes : Nat) (es : List (Nat × Nat)) : Option Nat :=
  es.findSome? (fun e => s.poisonAt e.2 bytes)

/-- The aligned 8-byte words that elements of a number of bytes at addresses cover whole between them. -/
def coveredWords (bytes : Nat) (ys : List Nat) : List Nat :=
  (ys.flatMap (fun y => wordsOf y bytes)).eraseDups.filter (fun w =>
    (List.range 8).all (fun i => ys.any (fun y => y ≤ 8 * w + i && 8 * w + i < y + bytes)))

/-- A store's writes, in increasing element order: a word that it writes whole, by however many elements, loses its poison (R143, R186). -/
def State.vecStore (c : VecCmd) (s : State) : State :=
  let w := fmtWidth c.fmt
  (c.elems.foldl (fun s e => s.writeLocal e.2 (toBytes (w / 8) (elem w c.data e.1))) s).modMe
    (fun a => { a with lm := a.lm.clear (coveredWords (w / 8) (c.elems.map (fun e => e.2))) })

/-- Whether some element lies in the partner window. -/
def inWindow (es : List (Nat × Nat)) : Nat := (es.filter (fun e => 0x400000 ≤ e.2)).length

/-- The effect of a vector load or store (R186, R187): `addr` gives the address of an element. It takes one scoreboard entry, or none when
no element is active, and waits for a free one (R23). The checks and the access are made at issue, unless the scoreboard holds the
access: then it waits in the queue. The bank words of a contiguous access are distinct banks: it takes one cycle (R188). -/
def effVecMem (r : R) (load contiguous : Bool) (addr : Activity → Nat → Int) (s : State) : Eff :=
  let a := s.me
  let w := fmtWidth r.fmt
  let bytes := w / 8
  let active := (List.range (fmtCount r.fmt)).filter (fun i => (a.k r.km).getLsbD i)
  match s.checkElems (!load) r.fmt (active.map (fun i => (i, addr a i))) with
  | some (c, info) => .trap c info
  | none =>
    let es := active.map (fun i => (i, (addr a i).toNat))
    let (lo, len) := elemRange bytes es
    let busy := a.rangeBusy s.nextCmd (!load) lo len
    if s.core.vecq.length ≥ vecQueueSize then .hold s
    else if len ≠ 0 && s.scoreUsed a.agent ≥ scoreSize a.agent.kind then .hold s
    else match (if load then s.readTaint 0x400000 (inWindow es) else some s) with
    | none => .hold s
    | some s =>
      let span := if contiguous then 1 else accessCycles bytes (es.map (fun e => e.2)) [] 0
      let c : VecCmd :=
        { id := s.nextCmd, owner := a.uid, pc := a.pc, load := load, waiting := busy, elems := es, fmt := r.fmt,
          dst := r.d.toNat, mask := a.k r.km, zm := r.zm, data := if load then a.v r.d.toNat else a.v r.b.toNat,
          span := span, due := if load then s.cycle + 3 + span else s.cycle + span, stale := false }
      let push (c : VecCmd) (s : State) : State :=
        ({ s with nextCmd := s.nextCmd + 1 }.claim (if len = 0 then [] else [⟨c.id, lo, len, !load⟩])).modCore
          (fun k => { k with vecq := k.vecq ++ [c] })
      if busy then .done (if load then (push c s).claimReg ⟨.v, c.dst⟩ else push c s)
      else if load then
        match s.vecPoison bytes es with
        | some y => .poison 1 y
        | none => .done ((push { c with data := s.vecLoad c } (s.correctElems bytes es)).claimReg ⟨.v, c.dst⟩)
      else .done (push c (s.vecStore c))

/-- The address of a contiguous element (R185). -/
def addrUnit (r : R) (a : Activity) (i : Nat) : Int := a.ea r + i * (fmtWidth r.fmt / 8 : Nat)
/-- The address of a strided element (R185). -/
def addrStride (r : R) (a : Activity) (i : Nat) : Int := a.ea r + i * (a.g r.c.toNat).toInt
/-- The address of an indexed element (R185). -/
def addrIndex (r : R) (a : Activity) (i : Nat) : Int := a.ea r + elem (fmtWidth r.fmt) (a.v r.c.toNat) i

/-- `vld` (R185). -/
def execVld (r : R) (s : State) : Host.Outcome State Fault Refusal := issue (.vld r) s (effVecMem r true true (addrUnit r))
/-- `vst` (R185). -/
def execVst (r : R) (s : State) : Host.Outcome State Fault Refusal := issue (.vst r) s (effVecMem r false true (addrUnit r))
/-- `vlds` (R185). -/
def execVlds (r : R) (s : State) : Host.Outcome State Fault Refusal := issue (.vlds r) s (effVecMem r true false (addrStride r))
/-- `vsts` (R185). -/
def execVsts (r : R) (s : State) : Host.Outcome State Fault Refusal := issue (.vsts r) s (effVecMem r false false (addrStride r))
/-- `vldx` (R185). -/
def execVldx (r : R) (s : State) : Host.Outcome State Fault Refusal := issue (.vldx r) s (effVecMem r true false (addrIndex r))
/-- `vstx` (R185). -/
def execVstx (r : R) (s : State) : Host.Outcome State Fault Refusal := issue (.vstx r) s (effVecMem r false false (addrIndex r))

/-! ## The queue at work -/

/-- Write a claimed vector register of the activity in focus. Nothing if the claim was dropped. -/
def State.deliverV (d : Nat) (v : Vec) (s : State) : State :=
  if (⟨.v, d⟩ : Reg) ∈ s.me.claimed then
    (s.modMe (fun a => { a with claimed := a.claimed.erase ⟨.v, d⟩ })).writeReg ⟨.v, d⟩ v []
  else s

/-- The state without a command of the vector queue and its claim. -/
def State.dropVec (id : Nat) (s : State) : State :=
  (s.modMe (fun a => a.release id)).modCore (fun c => { c with vecq := c.vecq.filter (fun d => d.id ≠ id) })

/-- The queue entry of a command, with the agent it stands on. -/
def State.vecCmd? (s : State) (id : Nat) : Option VecCmd :=
  s.allCores.findSome? (fun c => c.vecq.find? (fun d => d.id = id))

/-- VECTOR_ACCESS_DONE: a command that waited makes its access once the scoreboard lets it; at its last access it gives back its
scoreboard entry (R23), and later a load's value reaches its register (R187, R188). A load of the partner window reads the partner's state
then (R361). Poison that a waiting load meets then acts at the load (R143; DEDUCED, log 17). A load of a run that was restarted or squashed
completes, but meets no poison and writes nothing (R160, R365). -/
def execVectorAccessDone (cmd : Nat) (s : State) : Host.Outcome State Fault Refusal :=
  .next (match s.vecCmd? cmd with
    | none => s
    | some c =>
      let f := s.focus c.owner
      if f.me.uid ≠ c.owner then s
      else if c.waiting then
        let bytes := fmtWidth c.fmt / 8
        let (lo, len) := elemRange bytes c.elems
        if f.me.rangeBusy c.id (!c.load) lo len then s
        else if c.stale then
          f.modCore (fun k => { k with vecq := k.vecq.map (fun e =>
            if e.id = c.id then { c with waiting := false, due := f.cycle + 3 + c.span } else e) })
        else if c.load then
          match f.readTaint 0x400000 (inWindow c.elems) with
          | none => s
          | some f =>
          match f.vecPoison bytes c.elems with
          | some y =>
            let f := (f.dropVec c.id).modMe (fun a => { a with claimed := a.claimed.erase ⟨.v, c.dst⟩, pc := c.pc })
            f.takePoison 1 y
          | none =>
            let d := { c with waiting := false, data := f.vecLoad c, due := f.cycle + 3 + c.span }
            (f.correctElems bytes c.elems).modCore (fun k => { k with vecq := k.vecq.map (fun e => if e.id = c.id then d else e) })
        else (f.vecStore c).modCore (fun k => { k with vecq := k.vecq.map (fun e => if e.id = c.id then { c with waiting := false, due := f.cycle + c.span } else e) })
      else if c.load && f.cycle + 4 ≥ c.due && f.me.claims.any (fun x => x.cmd = c.id) then f.modMe (fun a => a.release c.id)
      else if f.cycle + 1 < c.due then s
      else if c.load && !c.stale then (f.dropVec c.id).deliverV c.dst c.data
      else f.dropVec c.id)

end Sys2Proof.Machine
end

