-- ==== Sys2Proof/Machine/Life.lean ====
section
/-! DEFINITION. The end of an activity: retirement (R53), kills (R50, R155, R330, R346), and the steps that take results into registers
and asynchronous traps (R87, R123, R146, R151-R154, R212, R215). -/

namespace Sys2Proof.Machine

/-! ## Results (R87, R89, R123, R146) -/

/-- The pending results of some kinds that are due take effect. -/
def State.commitDue (uid : Nat) (kinds : List PendKind) (s : State) : State :=
  match s.act? uid with
  | none => s
  | some _ => (s.focus uid).commitWhere (fun p => kinds.contains p.kind && decide (p.due ≤ s.cycle))

/-- REGISTER_WRITEBACK: fixed-latency results, and those of engines, take effect at their cycle (R87). -/
def execRegisterWriteback (uid : Nat) (s : State) : Host.Outcome State Fault Refusal :=
  .next (s.commitDue uid [.fixed, .engine])

/-- LOAD_RESULT: a scalar load's value reaches its register (R146). -/
def execLoadResult (uid : Nat) (s : State) : Host.Outcome State Fault Refusal := .next (s.commitDue uid [.load])

/-- DIVIDE_RESULT: a division's result reaches its register (R123). -/
def execDivideResult (uid : Nat) (s : State) : Host.Outcome State Fault Refusal := .next (s.commitDue uid [.divide])

/-! ## Jobs' records of their activities (R53, R392) -/

/-- Change an uncompleted job. -/
def State.modJob (vd jid : Nat) (f : Job → Job) (s : State) : State :=
  { s with disp := { s.disp with jobs := s.disp.jobs.map (fun (j : Job) => if j.vd = vd && j.jid = jid then f j else j) } }

/-- A job records an error: the first one is its status; refusals that were never reported have no status of their own (R53, R392). -/
def Job.error (j : Job) (stat n : Nat) : Job :=
  { j with stat := if j.stat = 0 then stat else j.stat, nerr := min (j.nerr + n) (2 ^ 32 - 1) }

/-- The retirement of an activity is on its way to the unit that owns its job: with the status of a kill, 0 for none, and the refusals
that were never reported (R53, R373). -/
def State.sendRetired (a : Activity) (stat refused : Nat) (s : State) : State :=
  match s.jobOf a.job.vd a.job.jid with
  | none => s
  | some j => s.send (.retired a.job.vd a.job.jid stat refused a.agent) (s.cycle + 1 + unitLatency j.owner a.agent.num)

/-- A retirement as its job's unit processes it (R53, R392). -/
def Job.retire (j : Job) (stat refused : Nat) : Job :=
  let j := if refused = 0 then j else j.error 0 refused
  let j := if stat = 0 then j else j.error stat 1
  { j with retired := j.retired + 1 }

/-- The activity in focus retires (R53, step 4), with a status for its job when it was killed, 0 otherwise. -/
def State.retireMe (stat : Nat) (s : State) : State :=
  let a := s.me
  let s := ((s.freeRefused a.uid).vacate).sendRetired a stat (s.refusedOf a.uid)
  let s := if a.agent.kind = .compute then (s.sweepCode a.agent.num).sweepCode a.home else s
  match a.party.bind (fun p => p.place) with
  | some n => s.sweepCode n
  | none => s

/-- Whether a spindle program of the activity in focus has a BAR update on its way (R53, step 3; R281). -/
def State.updateOut (s : State) : Bool := s.msgs.any (fun m => match m.kind with
  | .update u _ _ _ _ => u = s.me.uid
  | _ => false)

/-- RETIREMENT: an activity that has executed `end` leaves its meeting first, and retires once its commands, its collective, the
programs it started and its journal entries are done (R53); one that was killed in a meeting retires once it is home (R330). A gateway activity reports a fault, and leaves (R281, R420). -/
def execRetirement (uid : Nat) (s : State) : Host.Outcome State Fault Refusal :=
  .next (match s.act? uid with
    | none => s
    | some a =>
      let f := s.focus uid
      if a.agent.kind = .gateway then
        if a.life ≠ .ending || f.core.busyWith uid || a.coll.isSome || a.claimed ≠ [] then s
        else
          ((match a.prog.bind (fun p => p.fault) with
            | some (cause, info) => f.report 2 a.agent.num 8 (some a.job.vd) cause info.toNat
            | none => f).freeRefused uid).vacate
      else if a.prog.isSome || a.speculative then s
      else if a.life = .killed then (if a.party.isSome then s else f.retireMe a.doom)
      else if a.life = .endParting then
        match a.party with
        | none => f.modMe (fun a => { a with life := .ending })
        | some p =>
          if p.phase ≠ .met || p.parting.isSome || f.cmdsOut || f.writesOut then s
          else
            let f := f.modMe (fun a => { a with party := some { p with parting := some (0, 0, 0), partAt := s.cycle } })
            (match p.partner with
             | some q => f.modParty q (fun z => { z with inSync := none })
             | none => f)
      else if a.life = .ending then
        if f.core.busyWith uid || f.engineOut || f.updateOut || a.helds ≠ [] || a.coll.isSome || a.claimed ≠ [] || a.party.isSome then s else f.retireMe 0
      else s)

/-! ## Leaving a meeting or a collective for good (R330) -/

/-- The activity in focus leaves its meeting for good: its directory entry goes; a partner matched with it returns from `meet` with a
status, from home when it has travelled; a partner in the established meeting waits for it no longer. -/
def State.quitMeeting (status : Nat) (s : State) : State :=
  match s.me.party with
  | none => s
  | some p =>
    let s := s.dropWaiter s.me.uid
    match p.partner.bind s.anyAct? with
    | none => s
    | some (q, _) =>
      if p.phase = .met then s.modParty q.uid (fun z => { z with inSync := none })
      else if p.phase = .matched then
        let old := q.party.bind (fun z => z.place)
        let s := s.modParty q.uid (fun z => { z with
          status := some status, partner := none, lands := none, travels := false, place := if z.away then z.place else none
          decided := some (s.cycle + dirLatency q.agent (s.dirOf z.key q.job.keysp q.job.vd)) })
        (match old with
         | some n => s.sweepCode n
         | none => { s with saved := s.saved.map (fun (z : Saved) => if z.act.uid = q.uid then { z with at_ := none } else z) })
      else s

/-- The engine commands of the activity in focus at its kill (R50, step 1): those that have not started are gone, loads are cancelled;
writes that have started run on with their source as it stands. -/
def State.killCommands (s : State) : State :=
  let u := s.me.uid
  let mine := s.core.copyq.filter (fun c => c.owner = u)
  let s := mine.foldl (fun (s : State) (c : Cmd) =>
    if c.started && (c.kind.isWrite || c.kind = .codeld) then
      (match c.payload with
       | some _ => s
       | none => s.putCmd { c with payload := some (s.latch c.base c.len) })
    else
      let s := s.dropCmd c
      (match c.journal with
       | some e => s.modCore (fun k => { k with journal := k.journal.del e })
       | none => s)) s
  s.modCore (fun k => { k with
    matq := k.matq.filter (fun c => c.owner ≠ u), locq := k.locq.filter (fun c => c.owner ≠ u) })

/-- Kill the activity in focus (R50): tags, effects and commands, then its meeting and its collective, then retirement; one that has travelled to
an established meeting first goes home as by `part .home` (R330). -/
def State.killMe (stat party coll : Nat) (spare : Bool) (s : State) : State :=
  let s := (((s.dropSpec).killCommands).quitMeeting party).abandonColl s.me.uid coll spare
  match s.me.party with
  | some p =>
    if p.phase = .met && p.away then
      (s.setOut { p with parting := none, inSync := none }).modMe (fun a => { a with life := .killed, doom := stat, block := .none, trapping := none })
    else s.retireMe stat
  | none => s.retireMe stat

/-- The job status of an activity whose budget ran out twice (R392). -/
def statRunaway : Nat := 2

/-- Why an activity is to be killed: the job status, 0 when it is not. -/
def Activity.killStat (a : Activity) : Nat :=
  if a.doom ≠ 0 then a.doom else if a.overrun && a.job.runb ≠ 0 && a.runc > a.job.runb then statRunaway else 0

/-- KILL: an activity whose budget has run out twice, or that a nested trap, a code image or a retirement condemned, is killed
(R50, R155, R387). -/
def execKill (uid : Nat) (s : State) : Host.Outcome State Fault Refusal :=
  .next (match s.act? uid with
    | none => s
    | some a =>
      if a.life = .absent || a.killStat = 0 || a.prog.isSome || (a.life = .killed && !a.party.any (fun p => p.damaged)) then s
      else (s.focus uid).killMe a.killStat stLost stAbandoned false)

/-! ## Run budgets and asynchronous traps (R49, R151-R154) -/

/-- FIRST_OVERRUN: the run-budget counter exceeds RUNB: XSTAT.PRB is set and the counter starts again; a spindle program or a gateway
activity ends by a fault (R49, R281). -/
def execFirstOverrun (uid : Nat) (s : State) : Host.Outcome State Fault Refusal :=
  .next (match s.act? uid with
    | none => s
    | some a =>
      if a.job.runb = 0 || a.runc ≤ a.job.runb || a.overrun then s
      else match a.prog with
        | some p => s.modAct uid (fun a => { a with life := .ending, prog := some { p with fault := some (9, 0) }, overrun := true, runc := 0 })
        | none => s.modAct uid (fun a => { a with overrun := true, runc := 0, trap := { a.trap with prb := true } }))

/-- RUN_BUDGET_TRAP (cause 0x09). -/
def execRunBudgetTrap (uid : Nat) (s : State) : Host.Outcome State Fault Refusal :=
  .next (match s.act? uid with
    | none => s
    | some a =>
      if !a.takesAsync || !a.trap.prb then s
      else
        let f := s.focus uid
        if f.me.speculative || f.vecBusy then f.awaitEntry 9 0 true
        else (f.modMe (fun a => { a with trap := { a.trap with prb := false } })).takeTrap 9 0 true)

/-- MISSED_PROMISE_TRAP (cause 0x08): the promise missed first. -/
def execMissedPromiseTrap (uid : Nat) (s : State) : Host.Outcome State Fault Refusal :=
  .next (match s.act? uid with
    | none => s
    | some a =>
      match a.trap.missed with
      | [] => s
      | (bar, pr) :: rest =>
        if !a.takesAsync || !a.trap.pmp then s
        else
          let f := s.focus uid
          if f.me.speculative || f.vecBusy then f.awaitEntry 8 0 true
          else (f.modMe (fun a => { a with trap := { a.trap with missed := rest, pmp := rest ≠ [] } })).takeTrap 8
            (BitVec.ofNat 64 (bar % 2 ^ 24 + pr % 2 ^ 32 * 2 ^ 32)) true)

/-- REFUSED_STORE_TRAP (cause 0x0B): it reports the entry refused earliest, and frees it (R212). -/
def execRefusedStoreTrap (uid : Nat) (s : State) : Host.Outcome State Fault Refusal :=
  .next (match s.act? uid, s.firstRefused uid with
    | some a, some (ag, n, e) =>
      if !a.takesAsync || !a.trap.prs then s
      else
        let f := s.focus uid
        if f.me.speculative || f.vecBusy then f.awaitEntry 0xB 0 true
        else
          let f := f.modCoreOf ag (fun c => { c with journal := c.journal.del n })
          let more := f.refusedOf uid ≠ 0
          (f.modMe (fun a => { a with trap := { a.trap with prs := more }, psjpc := BitVec.ofNat 64 e.pc })).takeTrap 0xB
            (BitVec.ofNat 64 (n % 64 + e.code % 256 * 2 ^ 8)) true
    | _, _ => s)

/-- The asynchronous trap of a cause is taken. -/
def asyncTrap (cause uid : Nat) (s : State) : Host.Outcome State Fault Refusal :=
  if cause = 9 then execRunBudgetTrap uid s else if cause = 0xB then execRefusedStoreTrap uid s else execMissedPromiseTrap uid s

/-- A trap whose entry has waited is entered once its activity holds no forecast tag and its vector accesses are complete (R154, R188). -/
def State.resumeTrap (uid : Nat) (s : State) : Host.Outcome State Fault Refusal :=
  match s.act? uid with
  | none => .next s
  | some a =>
    match a.trapping with
    | none => .next s
    | some t =>
      let f := s.focus uid
      if a.life ≠ .live || f.me.speculative || f.vecBusy then .next s
      else if t.async then asyncTrap t.cause uid f
      else .next (f.takeTrap t.cause t.info false)

end Sys2Proof.Machine
end

