-- ==== Sys2Proof/Machine/Forecast.lean ====
section
/-! DEFINITION. The forecast engine (R352-R372): forecasts, predictions, verdicts, commits and squashes, held effects; and the landing
of load units and of local copies. -/

namespace Sys2Proof.Machine

/-! ## The forecast descriptor (R353, R354) -/

/-- A forecast descriptor. -/
structure FDesc where
  s : Nat
  d : Nat
  h1 : Nat
  h2 : Nat
  tok : Nat
  bar : Nat
  rel : Nat
  abs : Nat
  rows : Nat
  rby : Nat
  fmt : Nat
  mode : Nat
  rpl : Bool
  j : Nat
  clean : Bool
deriving DecidableEq, Repr

/-- The descriptor that 64 bytes hold. -/
def FDesc.parse (bs : List Byte) : FDesc :=
  let w (i : Nat) : Nat := ofBytes ((bs.drop (8 * i)).take 8)
  let c := w 4
  { s := w 0 / 2 ^ 32, d := w 0 % 2 ^ 32, h1 := w 1 % 2 ^ 32, h2 := w 1 / 2 ^ 32, tok := w 2 / 2 ^ 32 % 256, bar := w 2 % 2 ^ 32,
    rel := w 3 / 2 ^ 32, abs := w 3 % 2 ^ 32, rows := c / 2 ^ 24 % 256, rby := c / 2 ^ 16 % 256, fmt := c / 2 ^ 12 % 16,
    mode := c / 2 ^ 8 % 4, rpl := c / 2 ^ 7 % 2 = 1, j := c / 16 % 8,
    clean := w 2 / 2 ^ 40 = 0 && c / 2 ^ 32 = 0 && c / 2 ^ 10 % 4 = 0 && c % 16 = 0 && w 5 = 0 && w 6 = 0 && w 7 = 0 }

/-- The bytes of a forecast's tiles. -/
def FDesc.n (f : FDesc) : Nat := f.rows * f.rby

/-- Whether two ranges share a byte. -/
def meets (a n b m : Nat) : Bool := a < b + m && b < a + n

/-- A tolerance that is not negative, and finite. -/
def tolOk (t : Nat) : Bool := (fFp32.decode t).isFinite && !(fFp32.decode t).lt (Val.ofInt 0)

/-- The copy fault of a descriptor at an address, 0 for none (R354, R355 step 4). -/
def FDesc.fault (f : FDesc) (at_ : Nat) : Nat :=
  let n := f.n
  let two := f.mode ≠ 0
  let inWin (y : Nat) : Bool := meets y (max n 1) 0x400000 0x8000
  if f.d % 32 ≠ 0 || f.s % 32 ≠ 0 || f.h1 % 32 ≠ 0 || (two && f.h2 % 32 ≠ 0) || f.bar % 16 ≠ 0 then 5
  else if !f.clean || f.rows = 0 || f.rows > 64 || !(f.rby = 32 || f.rby = 64) || !(f.fmt ≤ 4 || f.fmt = 8 || f.fmt = 9) ||
      f.mode = 3 || (f.j ≠ 0 && f.mode ≠ 2) || !tolOk f.abs || !tolOk f.rel || inWin f.s || inWin f.h1 || (two && inWin f.h2) ||
      meets f.d n f.s n || meets f.d n f.h1 n || (two && meets f.d n f.h2 n) || meets f.d n f.bar 16 || meets f.d n at_ 64 ||
      meets f.s n f.h1 n || (two && meets f.s n f.h2 n) then 0xC
  else 0

/-! ## `fcast` (R355-R358) -/

/-- Outstanding tags of a core. -/
def State.coreTags (s : State) (a : Agent) : List Nat := (s.residents a).flatMap (fun b => b.tags.map (fun t => t.num))

/-- The next tag of a core (R358): it skips 0 and the tags that are outstanding. -/
def nextTag (held : List Nat) : Nat → Nat → Nat
  | 0, c => c
  | fuel + 1, c =>
    let t := if c ≥ 0xFFF then 1 else c + 1
    if t ∈ held then nextTag held fuel t else t

/-- Cycles in which n bytes move at 128 a cycle. -/
def beats128 (n : Nat) : Nat := (n + 127) / 128

/-- `fcast` on a complete phase: D := S (R355). -/
def castComplete (i : Instr) (r : R) (f : FDesc) (ahead : Nat) (b : Bar) (s : State) : Eff :=
  let id := s.nextCmd
  let n := f.n
  if s.scoreUsed s.me.agent + 2 > scoreSize s.me.agent.kind then .hold s
  else
    let c : LocCmd := ⟨id, s.me.uid, .copy, f.s, 0, f.d, n, f.fmt, 0, 0, 0, 2 + beats128 n, none⟩
    let s := (({ s with nextCmd := id + 1 }).modCore (fun k => { k with locq := k.locq ++ [c] })).claim
      [⟨id, f.s, n, false⟩, ⟨id, f.d, n, true⟩]
    .done (s.resultAt .engine (s.cycle + 2) i.srcs r.d.toNat (BitVec.ofNat 64 ((if b.elast then 2 ^ 12 else 0) + (if ahead ≥ 2 then 2 ^ 13 else 0))))

/-- `fcast` on a pending phase: a tag, the prediction, speculation (R355-R358). -/
def castPending (i : Instr) (r : R) (f : FDesc) (s : State) : Eff :=
  let id := s.nextCmd
  let n := f.n
  let held := s.coreTags s.me.agent
  let reads : List Claim := [⟨id, f.h1, n, false⟩] ++ (if f.mode = 0 then [] else [⟨id, f.h2, n, false⟩])
  let claims : List Claim := reads ++ [⟨id, f.d, n, true⟩, ⟨id + 1, f.d, n, false⟩, ⟨id + 1, f.s, n, false⟩]
  if s.me.tags.length ≥ 4 || held.length ≥ 16 then .hold s
  else if s.scoreUsed s.me.agent + claims.length > scoreSize s.me.agent.kind then .hold s
  else
    let t := nextTag held 17 s.core.tagCtr
    let c : LocCmd := ⟨id, s.me.uid, .predict, f.h1, f.h2, f.d, n, f.fmt, f.mode, f.j, t, 2 + beats128 n, none⟩
    let tag : Tag := ⟨t, f.d, f.s, f.rows, f.rby, f.fmt, BitVec.ofNat 32 f.abs, BitVec.ofNat 32 f.rel, f.rpl, f.bar, f.tok, id + 1, none, none⟩
    let s := (({ s with nextCmd := id + 2 }).modCore (fun k => { k with locq := k.locq ++ [c], tagCtr := t })).claim claims
    .done ((s.modMe (fun a => { a with tags := a.tags ++ [tag] })).resultAt .engine (s.cycle + 2) i.srcs r.d.toNat (BitVec.ofNat 64 t))

/-- The effect of `fcast` (R355). -/
def effFcast (r : R) (s : State) : Eff :=
  let y := (s.me.g r.a.toNat).toNat
  checked [ckLocal 0 false y 64, ckFault (y % 64 ≠ 0) 5 0 0, ckFault (!s.me.region.open_ || s.me.region.pin) 0xA 0 0,
      fun s => if s.me.rangeBusy s.nextCmd false y 64 then some (.hold s) else none]
    (fun s =>
      let f := FDesc.parse (s.readLocal y 64)
      checked [ckFault (f.fault y ≠ 0) (f.fault y) 0 0, ckLocal 0 true f.d f.n, ckLocal 0 false f.s f.n, ckLocal 0 false f.h1 f.n,
          (fun s => if f.mode = 0 then none else ckLocal 0 false f.h2 f.n s), ckLocal 0 true f.bar 16]
        (fun s =>
          let b := s.me.bar f.bar
          let ahead := b.ahead f.tok
          if ahead = 0 then castPending (.fcast r) r f s else castComplete (.fcast r) r f ahead b s) s) s

/-- `fcast` (R355). -/
def execFcast (r : R) (s : State) : Host.Outcome State Fault Refusal := issue (.fcast r) s (effFcast r)

/-- `fwait` (R366). -/
def execFwait (r : R) (s : State) : Host.Outcome State Fault Refusal :=
  issue (.fwait r) s (fun s =>
    let t := (s.me.g r.a.toNat).toNat % 2 ^ 12
    if s.me.tags.any (fun x => x.num = t) then
      .done ((s.flushPending.claimReg ⟨.g, r.d.toNat⟩).modMe (fun a => { a with block := .fwait t r.d.toNat }))
    else .done (s.resultAt .engine (s.cycle + 1) (Instr.srcs (.fwait r)) r.d.toNat 1))

/-- `fstat` (R367). -/
def execFstat (r : R) (s : State) : Host.Outcome State Fault Refusal :=
  issue (.fstat r) s (fun s =>
    let a := s.me
    let t := (a.g r.a.toNat).toNat % 2 ^ 12
    let v := a.tags.length + (if a.tags.any (fun x => x.num = t) then 8 else 0) + (if a.region.open_ && a.region.pin then 16 else 0) +
      (if a.taints ≠ [] then 32 else 0) + (a.heldBytes + 63) / 64 % 2 ^ 9 * 2 ^ 8
    .done (s.resultAt .engine (s.cycle + 2) (Instr.srcs (.fstat r)) r.d.toNat (BitVec.ofNat 64 v)))

/-! ## Predictions and local copies (R325, R356, R363) -/

/-- The value of an element: a float decoded, an integer extended. -/
def elemVal (fmt code : Nat) : Val := if isInt fmt then Val.ofInt (sextNat (fmtBits fmt) code) else (floatFmt fmt).decode code

/-- The code of a value, rounded to nearest even; integers saturate. -/
def elemCode (fmt : Nat) (v : Val) : Nat :=
  if isInt fmt then truncInt (fmtBits fmt) (toIntSat (fmtBits fmt) .rne 0 v) else (floatFmt fmt).roundRne v

/-- The prediction of an element (R356). -/
def predictVal (mode j : Nat) (h1 h2 : Val) : Val :=
  match mode with
  | 0 => h1
  | 1 => ((Val.ofInt 2).mul h1).add false h2.neg
  | _ => h1.add false ((Val.fin false j 8).mul (h1.add false h2.neg))

/-- The bytes of a prediction, none for an element from a poisoned word. -/
def State.predictCells (s : State) (c : LocCmd) : List (Nat × Option Byte) :=
  let w := fmtBits c.fmt / 8
  (List.range (c.len / w)).flatMap (fun e =>
    let code (y : Nat) : Nat := ofBytes (s.readLocal (y + e * w) w)
    let bad := (s.poisonAt (c.src + e * w) w).isSome || (c.mode ≠ 0 && (s.poisonAt (c.src2 + e * w) w).isSome)
    let h1 := elemVal c.fmt (code c.src)
    let h2 := if c.mode = 0 then h1 else elemVal c.fmt (code c.src2)
    let v := elemCode c.fmt (predictVal c.mode c.damp h1 h2)
    ((toBytes w v).zipIdx).map (fun (b, i) => (c.dst + e * w + i, if bad then none else some b)))

/-- A local copy command of some agent. -/
def State.loc? (s : State) (id : Nat) : Option (Agent × LocCmd) :=
  s.allCores.findSome? (fun k => (k.locq.find? (fun c => c.id = id)).map (fun c => (k.agent, c)))

/-- A local copy command starts once its ranges are free (R200), and is performed when its cycles have passed. A read of the partner
window is one of the partner's state (R361). -/
def State.landLoc (id : Nat) (s : State) : State :=
  match s.loc? id with
  | none => s
  | some (ag, c) =>
    let f := (s.focus c.owner).focusCore ag
    let free := (f.me.claims.filter (fun x => x.cmd = c.id)).all (fun x => !f.me.rangeBusy c.id x.write x.start x.len)
    if f.me.uid ≠ c.owner || !free then s
    else match c.started, (if c.kind = .mcpy then f.readTaint c.src c.len else some f) with
    | none, _ => f.modCore (fun k => { k with locq := k.locq.map (fun d => if d.id = id then { d with started := some s.cycle } else d) })
    | some _, none => s
    | some b, some f =>
      if s.cycle < b + c.span then s
      else
      let f := match c.kind with
        | .predict => f.modMe (fun a => { a with
            lm := a.lm.land (f.predictCells c)
            tags := a.tags.map (fun (t : Tag) => if t.num = c.tag then { t with written := some s.cycle } else t) })
        | _ => f.copyLocal c.src c.dst c.len
      (f.modCore (fun k => { k with locq := k.locq.filter (fun d => d.id ≠ id) })).modMe (fun a => a.release id)

/-- LANDING_UNIT: a unit of a load lands its last beat; a unit of `pfx` is done once its lines are at hand, or a bucket move
drops it (R296); `sfill` and local copies
land whole. -/
def execLandingUnit (cmd unit : Nat) (s : State) : Host.Outcome State Fault Refusal :=
  .next ((s.landLoc cmd).onCmd cmd (fun c s =>
    if c.kind = .sfill then s.streamUnit unit c
    else if !c.started || unit ∉ c.todo then s
    else if c.kind = .pfx then
      let dropped := unit ∈ c.heldUnits && s.onHold c unit
      if dropped || (s.unitReady c unit && s.tripDone c unit) then
        let s := if dropped then s else s.countServed c (s.unitLines c unit)
        let c : Cmd := { c with todo := c.todo.erase unit }
        if c.todo = [] then s.dropCmd c else s.putCmd c
      else s
    else if !c.kind.isLoad || (c.batch unit).any (fun v => !s.unitReady c v || s.unitAt c v s.linkWaits || !s.tripDone c v) then s
    else
      let beats := (sumOf ((c.batch unit).map (fun v => (c.unitSrc v).length)) + 63) / 64
      if s.cycle < c.due + beats || s.cycle < s.core.portFree + beats then s
      else s.landBatch c unit (fun _ => false)))

/-! ## Verdicts (R363-R365) -/

/-- Whether an element passes (R363). -/
def elemPasses (fmt : Nat) (abs rel : Val) (sc dc : Nat) : Bool :=
  let x := elemVal fmt sc
  let y := elemVal fmt dc
  if x.isNan || y.isNan then false
  else if x.eq y then true
  else if !x.isFinite || !y.isFinite then false
  else !((abs.add false (rel.mul x.abs)).lt (x.add false y.neg).abs)

/-- Whether every element of a tag's tiles passes; one in a poisoned word fails. -/
def State.tagPasses (s : State) (t : Tag) : Bool :=
  let w := fmtBits t.fmt / 8
  let n := t.rows * t.rby
  let abs := fFp32.decode t.abs.toNat
  let rel := fFp32.decode t.rel.toNat
  (s.poisonAt t.shadow n).isNone && (s.poisonAt t.dst n).isNone &&
  (List.range (n / w)).all (fun e =>
    elemPasses t.fmt abs rel (ofBytes (s.readLocal (t.shadow + e * w) w)) (ofBytes (s.readLocal (t.dst + e * w) w)))

/-- The oldest effect of an activity that was released leaves the held-effects buffer, in program order and one in a cycle (R364): a write
command enters the copy queue, with a journal entry when it names no barrier; a card goes to its unit once the writes before it are
performed (R380). -/
def State.leaveHeld (uid : Nat) (s : State) : State :=
  match (s.act? uid).map (fun a => a.helds) with
  | some (h :: rest) =>
    if !h.released then s
    else
      let f := s.focus uid
      let left (s : State) : State := s.modMe (fun a => { a with helds := rest })
      match h.cmd, h.post with
      | some c, _ =>
        let c : Cmd := { c with id := f.nextCmd, issued := s.cycle, held := false }
        if f.core.copyFull then s
        else if c.bar ≠ 0 then left (f.enqueue c [])
        else (match f.core.freeEntry with
          | none => s
          | some e => left ((f.enqueue { c with journal := some e } []).modCore (fun k =>
              { k with journal := AMap.put k.journal e ⟨c.id, c.owner, c.pc, 0, 0⟩ })))
      | none, some (dst, va) =>
        if f.writesQueued f.nextCmd then s
        else left (f.send (.jobpost uid dst va f.me.job.vd f.me.agent) (s.cycle + 14))
      | none, none => left f
  | _ => s

/-- A `rend` that has waited for the verdicts of the activity in focus completes in this cycle (R372), unless an asynchronous trap comes first
(R154; DEDUCED, log 125). -/
def State.finishRend (s : State) : State :=
  match s.me.region.closing with
  | none => s
  | some (n, stl) =>
    if (s.asyncCause s.me).isSome then s.modMe (fun a => { a with region := { a.region with closing := none } })
    else (s.modMe (fun a => { a with
      region := a.region.close, pc := a.pc + BitVec.ofNat 64 n, lastPc := a.pc, blockAt := s.cycle
      nextIssue := max a.nextIssue (s.cycle + 1 + stl), lastIssue := s.cycle, firstTry := none })).drawIssue s.me

/-- The activity in focus is speculative no longer: its held effects are released, which pins its region (R364), and a `rend` that waits
completes (R372). -/
def State.commitSpec (s : State) : State :=
  let s := s.reportMe 5 0 0
  (s.modMe (fun a => { a with
    helds := a.helds.map (fun h => { h with released := true })
    region := if a.region.open_ && a.helds.any (fun h => !h.released) then { a.region with pin := true } else a.region })).finishRend

/-- A tag has passed: it leaves the verdict sets, and each activity whose set is now empty commits. -/
def State.passTag (t : Tag) (s : State) : State :=
  let u := s.me.uid
  let ag := s.me.agent
  let tainted := (s.residents ag).filter (fun a => t.num ∈ a.taints)
  let s := s.modMe (fun a => { a.release t.cmd with tags := a.tags.filter (fun x => x.num ≠ t.num) })
  let s := tainted.foldl (fun (s : State) (a : Activity) => s.modAct a.uid (fun a => { a with taints := a.taints.filter (· ≠ t.num) })) s
  let n := t.rows * t.rby
  let s := if t.rpl then
      let c : LocCmd := ⟨s.nextCmd, u, .copy, t.shadow, 0, t.dst, n, t.fmt, 0, 0, 0, beats128 n, none⟩
      (({ s with nextCmd := s.nextCmd + 1 }).modCore (fun k => { k with locq := k.locq ++ [c] })).claim
        [⟨c.id, t.shadow, n, false⟩, ⟨c.id, t.dst, n, true⟩]
    else s
  let s := match s.me.block with
    | .fwait num dst =>
      if num = t.num then
        (s.modMe (fun a => { a with block := .none, nextIssue := max a.nextIssue (s.cycle + 1) })).deliver dst 0
      else s
    | _ => s
  let s := (u :: tainted.map (fun a => a.uid)).eraseDups.foldl (fun (s : State) (v : Nat) =>
    let f := s.focus v
    if f.me.speculative then f else f.commitSpec) s
  s.focus u

/-- A tag has failed at verdict cycle v: its activity is squashed, and every activity tainted with its tags (R363, R365). -/
def State.failTag (elast : Bool) (v : Nat) (s : State) : State :=
  let s := if elast then s.reportMe 6 0 0 else s
  (s.dropTags v).squashMe v

/-- VERDICT: the comparator tests a tag whose phase is complete and whose prediction is written: the tag passes or fails (R363). It takes
effect at the next cycle, v, so that a `rend` that waits for it can complete in v (R372). -/
def execVerdict (uid tag : Nat) (s : State) : Host.Outcome State Fault Refusal :=
  .next (match s.act? uid with
    | none => s
    | some a =>
      match a.tags.find? (fun t => t.num = tag) with
      | none => s
      | some t =>
        match t.completed, t.testStart (s.coreOf a.agent).cmpFree with
        | some (p, elast), some start =>
          if s.servedBefore a.agent p t.cmd || s.cycle + 1 < start + beats128 (t.rows * t.rby) then s
          else
            let v := s.cycle + 1
            let f := ({ s.focus uid with cycle := v }).modCore (fun k => { k with cmpFree := v + 1 })
            let f := if !elast && f.tagPasses t then f.passTag t else f.failTag elast v
            { f with cycle := s.cycle }
        | _, _ => s)

/-- HELD_BUFFER_SPACE: the held-effects buffer has room again for an activity that waits for it (R360). -/
def execHeldBufferSpace (uid : Nat) (s : State) : Host.Outcome State Fault Refusal :=
  .next (match s.act? uid with
    | none => s
    | some a =>
      match a.block with
      | .held need =>
        if s.heldUsed a.agent + need ≤ 16384 || !a.speculative then
          s.modAct uid (fun a => { a with block := .none, nextIssue := max a.nextIssue (s.cycle + 1) })
        else s
      | _ => s)

end Sys2Proof.Machine
end

