-- ==== Sys2Proof/Machine/Jobs.lean ====
section
/-! DEFINITION. The dispatcher: posts and host queues (R373-R381), acceptance and checks (R36, R385), dealing (R39, R386), the start of an
activity (R40, R42, R387, R388), completion (R54, R392). -/

namespace Sys2Proof.Machine

/-! ## Units (R373) -/

/-- A job named by VD and id in one number: vd·65,536 + id. -/
def jobVd (job : Nat) : Nat := job / 65536
/-- The id of a job so named. -/
def jobId (job : Nat) : Nat := job % 65536

/-- Whether a dispatch unit can process an event in this cycle (R373). -/
def State.unitFree (s : State) (die : Nat) : Bool := (s.disp.busy.find die).getD 0 ≠ s.cycle + 1

/-- The unit that a message goes to, and the number of its sender, with system software, and the unit that a completion comes from,
counted as the host queue unit is (R373; DEDUCED, log 119); none for another message, and for one of a job that has completed. -/
def State.msgUnit (s : State) (m : Msg) : Option (Nat × Nat) :=
  match m.kind with
  | .jobpost _ _ _ _ sender => some (agentDie sender, sender.num)
  | .retired vd jid _ _ sender => (s.jobOf vd jid).map (fun j => (j.owner, sender.num))
  | .endJob vd jid => (s.jobOf vd jid).map (fun j => (j.owner, 0))
  | .complete vd jid => (s.jobOf vd jid).map (fun j => (j.owner, 0))
  | _ => none

/-- Whether a message that reached a unit in a cycle before `due`, or in that cycle from a lower agent number than `num`, waits there; of
two from one agent the one sent first (R373). -/
def State.unitOwes (s : State) (die due num id : Nat) : Bool :=
  s.msgs.any (fun n => match s.msgUnit n with
    | some (d, k) => d = die && n.id ≠ id && (n.due < due || (n.due = due && (k < num || (k = num && n.id < id))))
    | none => false)

/-- A dispatch unit has processed an event in this cycle. -/
def State.unitBusy (die : Nat) (s : State) : State := { s with disp := { s.disp with busy := s.disp.busy.put die (s.cycle + 1) } }

/-! ## The job status array (R375) -/

/-- Whether a VD keeps a job status array. -/
def State.keepsArray (s : State) (vd : Nat) : Bool := (s.vd vd).jsbase.getLsbD 0

/-- The address of a job's status byte. -/
def State.statusAddr (s : State) (vd jid : Nat) : Nat := (s.vd vd).jsbase.toNat / 2 ^ 16 % 2 ^ 36 * 2 ^ 16 + jid

/-- Write a job's status byte, when the VD keeps the array. -/
def State.putStatus (vd jid byte : Nat) (s : State) : State :=
  if s.keepsArray vd then
    let pa := s.statusAddr vd jid
    (s.keepAddrs vd [pa]).storeCells vd (addrKey vd pa) (pa / 32 % 16) .cell [(pa, BitVec.ofNat 8 byte)]
  else s

/-! ## Spans (R37, R39) -/

/-- The compute cores of a card's span, retired ones left out. -/
def State.spanCores (s : State) (c : Card) : List Nat :=
  (List.range Config.computeCores).filter (fun n => c.inSpan n && !(s.coreOf (coreAgent n)).retired)

/-- The cores of a span that the job's activities may use (R378). -/
def State.usableSpan (s : State) (c : Card) (vd : Nat) : List Nat := (s.spanCores c).filter (fun n => s.usableCore vd n)

/-- The unit that owns a job: that of the die of the lowest super-group of its span (R373). -/
def Card.ownerDie (c : Card) : Nat := ((lowest (fun i => c.span.testBit i) 64).map (fun i => i / 16)).getD 0

/-! ## Checks and acceptance (R36, R374, R385) -/

/-- The checks of R36 that are made at the post. -/
def State.cardOk (s : State) (vd : Nat) (c : Card) : Bool :=
  c.clean && 1 ≤ c.cwords && c.cwords ≤ 16384 && c.entry < c.cwords && c.trape < c.cwords && c.ovle < c.cwords &&
  1 ≤ c.rsize && c.rsize ≤ 32 && 1 ≤ c.cmin && 1 ≤ c.dpages && c.dpages ≤ 93 && 3 ≤ c.spages && c.footprint ≤ 96 &&
  c.code % 2048 = 0 && c.ctgt % 16 = 0 && c.vd = vd && (s.vd vd).en && s.usableSpan c vd ≠ []

/-- Whether the table and the VD's share of it have room for a job (R374). -/
def State.tableRoom (s : State) (vd : Nat) : Bool :=
  s.disp.jobs.length < 4096 &&
  (s.disp.jobs.filter (fun j => j.vd = vd)).length < (s.vd vd).dspcfg.toNat / 2 ^ 36 % 2 ^ 12

/-- Whether an id is held (R374). -/
def State.held (s : State) (vd jid : Nat) : Bool := (s.jobOf vd jid).isSome

/-- The step of a VD's counter (R374). -/
def stepId (n : Nat) : Nat := if n ≥ 0xFFFF then 1 else n + 1

/-- The next id that is not held, from one on. -/
def State.nextId (s : State) (vd : Nat) : Nat → Nat → Nat
  | 0, n => n
  | fuel + 1, n => if s.held vd n then State.nextId s vd fuel (stepId n) else n

/-- The id that a VD's next job takes (R374). -/
def State.newId (s : State) (vd : Nat) : Nat := s.nextId vd (s.disp.jobs.length + 1) ((s.disp.counters.find vd).getD 1)

/-- Whether a line that a job's status byte or completion record is written to lies in a bucket that is moving (R296). -/
def State.recordHeld (s : State) (vd jid : Nat) (c : Card) : Bool :=
  (s.keepsArray vd && s.addrHeld vd [s.statusAddr vd jid]) || s.virtHeld vd (s.dasid vd) c.ctgt 16

/-- Every dirty line of a VD is written back and invalidated, and lines outside device memory are written through: what the writes of
a completing job ask (R238). -/
def State.flushVd (vd : Nat) (s : State) : State := (s.flushLines (fun l => l.key.vd = vd && l.dirty)).writeThrough

/-- The completion record (R392). -/
def completionRecord (jid stat nerr cycle : Nat) : List Byte :=
  toBytes 8 (jid % 2 ^ 16 * 2 ^ 48 + stat % 2 ^ 8 * 2 ^ 32 + nerr % 2 ^ 32) ++ toBytes 8 cycle

/-- An activity that waits in `jobwait` for a job is woken 14 cycles later with its status byte (R381). -/
def Activity.jobDone (vd jid byte due : Nat) (a : Activity) : Activity :=
  match a.block with
  | .jobwait id dst => if a.job.vd = vd && id = jid then { a with block := .jobDone id dst byte due } else a
  | _ => a

/-- A job completes (R54, R238, R392): its lines are flushed, the status byte and the record are written, its id is free, its
successors wait for it no longer, and waiters are woken. -/
def State.completeJob (vd jid : Nat) (s : State) : State :=
  match s.jobOf vd jid with
  | none => s
  | some j =>
    let s := (s.flushVd vd).putStatus vd jid (0x80 + j.stat)
    let (s, e) := s.writeVirt vd (s.dasid vd) j.card.ctgt (completionRecord jid j.stat j.nerr s.cycle)
    let s := s.writeThrough
    let s := if e = 0 then s else s.report 11 0 0xA (some vd) jid e
    let wake (a : Activity) : Activity := a.jobDone vd jid (0x80 + j.stat) (s.cycle + 14)
    { s with
      me := wake s.me
      acts := s.acts.map wake
      saved := s.saved.map (fun (z : Saved) => { z with act := wake z.act })
      disp := { s.disp with
        unstarted := s.disp.unstarted.filter (fun u => !(u.vd = vd && u.jid = jid))
        jobs := (s.disp.jobs.filter (fun k => !(k.vd = vd && k.jid = jid))).map (fun (k : Job) =>
          if k.vd = vd then { k with preds := k.preds.filter (· ≠ jid) } else k) } }

/-- Accept a card for a VD (R374, R380): it takes an id, its status byte is 0 and its predecessors are fixed; a card that fails R36
completes at once. The id, and whether it is to run. -/
def State.acceptJob (vd : Nat) (c : Card) (s : State) : State × Nat × Bool :=
  let id := s.newId vd
  let ok := s.cardOk vd c
  let preds := (c.preds.filter (fun p => p ≠ 0 && s.held vd p)).eraseDups
  let j : Job :=
    { vd := vd, jid := id, owner := c.ownerDie, card := c, preds := preds
      readyAt := none, argt := none, argtRead := false, accepted := s.cycle, back := [], next := 0
      lastDealt := 0, retired := 0, stat := 0, nerr := 0, stranded := false }
  let j := if ok then j else j.error 1 1
  let s := { s with disp := { s.disp with jobs := s.disp.jobs ++ [j], counters := s.disp.counters.put vd (stepId id) } }
  let s := s.putStatus vd id 0
  (if ok then s else s.completeJob vd id, id, ok)

/-- Read a card at a virtual address under the default ASID of a VD. -/
def State.readCard (s : State) (vd va : Nat) : Except Nat Card :=
  match allOk (s.readVirt vd (s.dasid vd) va 64) with
  | .ok bs => .ok (Card.parse bs)
  | .error e => .error e

/-! ## Host queues (R376) -/

/-- JQCTLq and JQBASEq. -/
def Vd.jqctlOf (v : Vd) (q : Nat) : Nat := ((v.jqctl.find q).getD 0).toNat
/-- JQBASEq. -/
def Vd.jqbaseOf (v : Vd) (q : Nat) : Nat := ((v.jqbase.find q).getD 0).toNat

/-- The size of a queue whose control register has a value. -/
def ringSize (ctl : Nat) : Nat := 2 ^ (ctl / 2 ^ 32 % 16 + 4)
/-- HEAD. -/
def ringHead (ctl : Nat) : Nat := ctl / 2 ^ 16 % 2 ^ 16
/-- TAIL. -/
def ringTail (ctl : Nat) : Nat := ctl % 2 ^ 16
/-- EN. -/
def ringOn (ctl : Nat) : Bool := ctl.testBit 63

/-- Whether a queue holds an entry (R376). -/
def ringHolds (ctl : Nat) : Bool := ringOn ctl && (ringTail ctl + ringSize ctl - ringHead ctl % ringSize ctl) % ringSize ctl ≠ 0

/-- JQCTL with HEAD advanced, and ERR set when an entry was refused. -/
def ringAdvance (ctl : Nat) (err : Bool) : Nat :=
  let h := (ringHead ctl + 1) % ringSize ctl
  let c := ctl - ringHead ctl * 2 ^ 16 + h * 2 ^ 16
  if err && !c.testBit 62 then c + 2 ^ 62 else c

/-- Whether an entry of a queue may be taken: its VD is enabled, and its share of the table has room. -/
def State.queueReady (s : State) (vd q : Nat) : Bool :=
  let v := s.vd vd
  v.en && s.tableRoom vd && ringHolds (v.jqctlOf q)

/-- The first number after `last`, counting up and wrapping from n − 1 to 0, that meets a test. -/
def afterTurn (n last : Nat) (p : Nat → Bool) : Option Nat :=
  ((List.range n).map (fun i => (last + 1 + i) % n)).find? p

/-- The queue that the unit of die 0 serves next: VDs in turn, and the queues of a VD in turn. -/
def State.nextQueue (s : State) : Option (Nat × Nat) :=
  match afterTurn 64 s.disp.turn.1 (fun v => (List.range 16).any (fun q => s.queueReady v q)) with
  | none => none
  | some v => (afterTurn 16 ((s.disp.turn.2.find v).getD 15) (fun q => s.queueReady v q)).map (fun q => (v, q))

/-- Whether a unit processes a message now: it has reached the unit, which is free, and nothing comes before it (R373). An entry of a host
queue that the unit of die 0 can take has arrived in this cycle, from agent 0 (DEDUCED, log 119). -/
def State.unitTakes (s : State) (m : Msg) (die num : Nat) : Bool :=
  m.due ≤ s.cycle && s.unitFree die && !s.unitOwes die m.due num m.id &&
  !(die = 0 && m.due = s.cycle && s.nextQueue.isSome)

/-- Whether a unit takes an entry of a host queue now: nothing that reached it before waits there. -/
def State.unitIdle (s : State) (die : Nat) : Bool := s.unitFree die && !s.unitOwes die s.cycle 0 0

/-! ## `jobpost` and `jobwait` (R379-R381) -/

/-- `jobpost` (R380): a release; held under speculation (R359, R360). -/
def execJobpost (r : R) (s : State) : Host.Outcome State Fault Refusal :=
  issue (.jobpost r) s (fun s =>
    let v := (s.me.srcB r).toNat
    let d := r.d.toNat
    if v % 64 ≠ 0 || v / 2 ^ 56 ≠ 0 then .fault 5
    else if s.me.speculative then
      if s.heldUsed s.me.agent + 64 > 16384 then s.awaitHeld 64
      else .done ((s.claimReg ⟨.g, d⟩).modMe (fun a => { a with helds := a.helds ++ [⟨none, some (d, v), 64, false⟩] }))
    else if s.writesOut then .hold s
    else .done ((s.pinRegion.claimReg ⟨.g, d⟩).send (.jobpost s.me.uid d v s.me.job.vd s.me.agent) (s.cycle + 14)))

/-- The result of `jobpost` (R380). -/
def postWord (id r : Nat) : Word := BitVec.ofNat 64 (id + r * 2 ^ 16)

/-- Write the result of a post to its poster, 51 cycles after its request reached the unit; nothing if the poster waits for it no
longer. -/
def State.postResult (uid d : Nat) (w : Word) (s : State) : State :=
  match s.act? uid with
  | none => s
  | some a =>
    if (⟨.g, d⟩ : Reg) ∈ a.claimed then
      ((s.focus uid).modMe (fun a => { a with claimed := a.claimed.erase ⟨.g, d⟩ })).resultAt .engine (s.cycle + 51) [] d w
    else s

/-- Whether a unit must wait for a bucket move before it takes a card at a virtual address (R296). -/
def State.cardHeld (s : State) (vd va : Nat) : Bool :=
  s.virtHeld vd (s.dasid vd) va 64 || (match s.readCard vd va with
    | .ok c => s.recordHeld vd (s.newId vd) c
    | .error _ => false)

/-- JOBPOST_REQUEST: the unit of the poster's die reads the card and accepts it, or answers FULL or FETCH (R380). -/
def execJobpostRequest (msg : Nat) (s : State) : Host.Outcome State Fault Refusal :=
  .next (match s.msgs.find? (fun m => m.id = msg) with
    | none => s
    | some m =>
      match m.kind with
      | .jobpost uid d va vd sender =>
        let die := agentDie sender
        if !s.unitTakes m die sender.num || s.cardHeld vd va then s
        else
          let s := (s.unitBusy die).dropMsg msg
          let card := s.readCard vd va
          let s := s.keepVirt vd (s.dasid vd) va 64
          (match card with
           | .error _ => s.postResult uid d (postWord 0 3)
           | .ok c =>
             if !s.tableRoom vd then s.postResult uid d (postWord 0 2)
             else
               let (s, id, ok) := s.acceptJob vd c
               s.postResult uid d (postWord id (if ok then 0 else 1)))
      | _ => s)

/-- The result of `jobwait` (R381). -/
def waitWord (id byte : Nat) : Word := BitVec.ofNat 64 (id % 2 ^ 16 + byte % 2 ^ 8 * 2 ^ 16)

/-- The status byte that a `jobwait` that waits for nothing finds: the array's, a free value where the array cannot be read, 0x7E
without one (R381). -/
def State.statusByte (s : State) (vd jid : Nat) : Nat :=
  if s.keepsArray vd then
    match s.loadByte vd (addrLoc vd (s.statusAddr vd jid)) with
    | .ok b => b.toNat
    | .error _ => (Config.freeValue s.choiceCtr).toNat % 256
  else 0x7E

/-- `jobwait` (R381). -/
def execJobwait (r : R) (s : State) : Host.Outcome State Fault Refusal :=
  issue (.jobwait r) s (fun s =>
    let id := (s.me.g r.a.toNat).toNat % 2 ^ 16
    let vd := s.me.job.vd
    let d := r.d.toNat
    let now (s : State) (byte : Nat) : Eff :=
      .done (s.resultAt .engine (s.cycle + 1) (Instr.srcs (.jobwait r)) d (waitWord id byte))
    if id = s.me.job.jid then now s 0x7F
    else if !s.held vd id && s.keepsArray vd && s.addrHeld vd [s.statusAddr vd id] then .hold s
    else if s.held vd id then
      .done ((s.flushPending.claimReg ⟨.g, d⟩).modMe (fun a => { a with block := .jobwait id d }))
    else
      let byte := s.statusByte vd id
      now (if s.keepsArray vd then { s.keepAddrs vd [s.statusAddr vd id] with choiceCtr := s.choiceCtr + 1 } else s) byte)

/-- JOBWAIT_WAKE: the awaited job's completion reaches an activity (R381). -/
def execJobwaitWake (uid : Nat) (s : State) : Host.Outcome State Fault Refusal :=
  .next (match (s.act? uid).map Activity.block with
    | some (.jobDone id dst byte due) =>
      if s.cycle + 1 < due then s
      else ((s.focus uid).modMe (fun a => { a with block := .none, nextIssue := max a.nextIssue (s.cycle + 1) })).deliver dst (waitWord id byte)
    | _ => s)

/-! ## Entries of the host queues (R376) -/

/-- Change the registers of a VD. -/
def State.modVd (v : Nat) (f : Vd → Vd) (s : State) : State := { s with vds := s.vds.put v (f (s.vd v)) }

/-! ## What comes in from outside (R413, R416) -/

/-- Whether an access is a read of the host. -/
def Inbound.reads : Inbound → Bool
  | .hostRead _ _ _ => true
  | .reg (.bar0 _ _ read) _ => read
  | _ => false

/-- Whether an access is a posted write of the host. -/
def Inbound.posts : Inbound → Bool
  | .hostWrite _ _ _ _ => true
  | .tail _ _ _ => true
  | .reg (.bar0 _ _ read) _ => !read
  | .reg _ _ => true
  | _ => false

/-- Whether an access is a posted write that the sequence point numbers (R413). -/
def Inbound.numbered : Inbound → Bool
  | .hostWrite _ _ _ relaxed => !relaxed
  | i => i.posts

/-- The link over which an access comes in. -/
def Inbound.link : Inbound → Option Nat
  | .peerAccess link _ _ _ _ => some link
  | .blockRecord link _ _ => some link
  | _ => none

/-- Whether an access must come after another that came before it: numbered writes in their order, reads of the host after its writes
(R413), and what comes over one link in its order (R416). -/
def Inbound.follows (i j : Inbound) : Bool := (i.numbered && j.numbered) || (i.reads && j.posts) || (i.link.isSome && i.link = j.link)

/-- An access from outside waits. -/
def State.keepInbound (i : Inbound) (s : State) : State := { s with svc := { s.svc with inbound := s.svc.inbound ++ [i] } }

/-- An access from outside has its effect, or waits behind those that come before it. -/
def State.receive (i : Inbound) (f : State → State) (s : State) : State := if s.svc.inbound.any i.follows then s.keepInbound i else f s

/-- A posted write of the host is numbered, and has its effect in its turn (R413). -/
def State.posted (i : Inbound) (f : State → State) (s : State) : State :=
  if s.booted then ({ s with svc := { s.svc with hostSeq := s.svc.hostSeq + 1 } }).receive i f else s

/-- JOB_QUEUE_ENTRY: the unit of die 0 takes an entry of the queue whose turn it is: its card is accepted like a posted one; an entry or a
card that cannot be used sets ERR (R376). -/
def execJobQueueEntry (vd q : Nat) (s : State) : Host.Outcome State Fault Refusal :=
  .next (
    let ctl := (s.vd vd).jqctlOf q
    let at_ := (s.vd vd).jqbaseOf q % 2 ^ 56 + 8 * (ringHead ctl % ringSize ctl)
    let entry := allOk (s.readVirt vd (s.dasid vd) at_ 8)
    let held := s.virtHeld vd (s.dasid vd) at_ 8 || (match entry with
      | .ok bs => s.cardHeld vd (ofBytes bs)
      | .error _ => false)
    if s.nextQueue ≠ some (vd, q) || !s.unitIdle 0 || held then s
    else
      let card : Option Card := match entry with
        | .error _ => none
        | .ok bs =>
          let va := ofBytes bs
          if va / 2 ^ 56 ≠ 0 || va % 64 ≠ 0 then none else (s.readCard vd va).toOption
      let s := s.keepVirt vd (s.dasid vd) at_ 8
      let s := match entry with
        | .ok bs => s.keepVirt vd (s.dasid vd) (ofBytes bs) 64
        | .error _ => s
      let s := s.unitBusy 0
      let s := { s with disp := { s.disp with turn := (vd, s.disp.turn.2.put vd q) } }
      let s := s.modVd vd (fun v => { v with jqctl := v.jqctl.put q (BitVec.ofNat 64 (ringAdvance ctl card.isNone)) })
      match card with
      | none => s
      | some c => (s.acceptJob vd c).1)

/-! ## From acceptance to dealing (R36, R385, R386, R39) -/

/-- ARGT_DESCRIPTOR_READ: the argument tensor's descriptor is read; an invalid one completes the job with CARD, and a job without records
completes (R36). -/
def execArgtDescriptorRead (job : Nat) (s : State) : Host.Outcome State Fault Refusal :=
  .next (match s.jobOf (jobVd job) (jobId job) with
    | none => s
    | some j =>
      let tid := j.card.argt
      let pa := s.tableAddr j.vd tid
      let named := tid ≠ 0 && s.inTable j.vd tid
      if j.argtRead || s.cycle + 1 < j.accepted + 68 || !s.unitFree j.owner || (named && s.addrHeld j.vd [pa, pa + 32]) ||
          s.recordHeld j.vd j.jid j.card then s
      else
        let s := s.unitBusy j.owner
        let desc := if !named then none
          else match s.loadPhys j.vd pa 64 with
            | .ok w => Desc.parse (toBytes 64 w)
            | .error _ => none
        let s := if named then s.keepAddrs j.vd [pa, pa + 32] else s
        let s := s.modJob j.vd j.jid (fun j => { j with argt := desc, argtRead := true })
        match desc with
        | none => (s.modJob j.vd j.jid (fun j => j.error 1 1)).completeJob j.vd j.jid
        | some _ => if j.card.rcount = 0 then s.completeJob j.vd j.jid else s)

/-- JOB_READY: every predecessor has completed: the job may be dealt from the next cycle on (R385). -/
def execJobReady (job : Nat) (s : State) : Host.Outcome State Fault Refusal :=
  .next (match s.jobOf (jobVd job) (jobId job) with
    | none => s
    | some j =>
      if j.preds ≠ [] || j.readyAt.isSome then s
      else s.modJob j.vd j.jid (fun j => { j with readyAt := some (s.cycle + 1) }))

/-- The activities at home on compute core n, and its unstarted ones (R39). -/
def State.loadOf (s : State) (n : Nat) : Nat :=
  (s.allActs.filter (fun a => a.livesAt n)).length + (s.disp.unstarted.filter (fun u => u.core = n)).length

/-- Records of a job that are not dealt. -/
def Job.left (j : Job) : Nat := j.back.length + (j.card.rcount - j.next)

/-- The first records of a job that are not dealt: those that came back first, in record order. -/
def Job.take (j : Job) (n : Nat) : List Nat × Job :=
  let k := min n j.back.length
  let m := min (n - k) (j.card.rcount - j.next)
  (j.back.take k ++ (List.range m).map (fun i => j.next + i), { j with back := j.back.drop k, next := j.next + m })

/-- The core to which a job's next chunk goes: that of the highest free count, which must be at least 1 (R39, steps 1 and 2). -/
def State.dealCore (s : State) (j : Job) : Option Nat :=
  bestCore (fun n => coreSlots - s.loadOf n) ((s.usableSpan j.card j.vd).filter (fun n => s.loadOf n < coreSlots))

/-- The size of a job's next chunk with a number of cores in its span (R39, step 3). -/
def Job.chunk (j : Job) (cores : Nat) : Nat :=
  let d := 2 * max 1 cores
  min j.left (max j.card.cmin ((j.left + d - 1) / d))

/-- A job that can be dealt from: ready, with its descriptor and with records left (R386). -/
def State.dealable (s : State) (j : Job) : Bool :=
  j.argtRead && j.argt.isSome && j.left ≠ 0 && (match j.readyAt with
    | some t => decide (t ≤ s.cycle)
    | none => false) && j.accepted + 70 ≤ s.cycle + 1

/-- Of two jobs, the one that is dealt first (R386). -/
def dealtBefore (a b : Job) : Bool := b.card.cls < a.card.cls || (a.card.cls = b.card.cls && a.lastDealt ≤ b.lastDealt)

/-- The job of a die's unit that is dealt next. -/
def State.nextDeal (s : State) (die : Nat) : Option Job :=
  match s.disp.jobs.filter (fun j => j.owner = die && s.dealable j && (s.dealCore j).isSome) with
  | [] => none
  | j :: js => some (js.foldl (fun b k => if dealtBefore b k then b else k) j)

/-- A job of a die's unit that has no usable core and has not been reported (R39). -/
def State.strandedJob (s : State) (die : Nat) : Option Job :=
  s.disp.jobs.find? (fun j => j.owner = die && s.dealable j && !j.stranded && s.usableSpan j.card j.vd = [])

/-- DEAL_CHUNK: an owner unit deals one chunk, at most one in a cycle (R39, R386); a job without a usable core is reported once. -/
def execDealChunk (die : Nat) (s : State) : Host.Outcome State Fault Refusal :=
  .next (
    if !s.unitFree (8 + die) then s
    else match s.strandedJob die with
      | some j => ((s.report 11 0 0xD (some j.vd) j.jid 0).modJob j.vd j.jid (fun j => { j with stranded := true }))
      | none =>
        match s.nextDeal die with
        | none => s
        | some j =>
          match s.dealCore j with
          | none => s
          | some n =>
            let (rs, j') := j.take (j.chunk (s.usableSpan j.card j.vd).length)
            let us : List Unstarted := rs.map (fun i => ⟨j.vd, j.jid, i, n, s.cycle, s.cycle + 2 + unitLatency die n, false⟩)
            let s := (s.unitBusy (8 + die)).modJob j.vd j.jid (fun _ => { j' with lastDealt := s.cycle })
            { s with disp := { s.disp with unstarted := s.disp.unstarted ++ us } })

/-! ## Room on a core: the saved and the unstarted (R384) -/

/-- Whether the restore condition of a saved activity holds (R384). A party that was evicted from a queue can be matched while it is saved, as a
parked one can (DESIGN CHOICE, log 124). -/
def State.savedReady (s : State) (z : Saved) : Bool :=
  match z.act.block with
  | .meet => (match z.act.party with
      | some p => p.phase = .matched || p.status.isSome
      | none => true)
  | .jobwait _ _ => false
  | .sleep w => w ≤ s.cycle
  | _ => true

/-- Whether a saved activity could be restored on compute core n (R47, R166, R329). -/
def State.restorableOn (s : State) (z : Saved) (n : Nat) : Bool :=
  (match s.jobOf z.act.job.vd z.act.job.jid with
   | some j => j.card.inSpan n
   | none => false) && s.canTake n z.footprint (z.at_ = some n) &&
  (n ≠ z.act.home || !s.slotTaken (coreAgent n) z.act.slot) &&
  (match z.at_ with
   | some m => m = n
   | none => true)

/-- The saved activity to which room on compute core n goes first. -/
def State.firstSaved (s : State) (n : Nat) : Option Saved :=
  match s.saved.filter (fun z => s.savedReady z && s.restorableOn z n) with
  | [] => none
  | z :: zs => some (zs.foldl (fun b c =>
      if c.act.job.cls < b.act.job.cls || (c.act.job.cls = b.act.job.cls && b.order ≤ c.order) then b else c) z)

/-- The oldest unstarted activity of compute core n, once its start message has reached the core: activities start as they were dealt
(R40). -/
def State.firstUnstarted (s : State) (n : Nat) : Option Unstarted :=
  (s.disp.unstarted.find? (fun u => u.core = n)).filter (fun u => decide (u.due ≤ s.cycle))

/-- The class of an unstarted activity. -/
def State.clsOf (s : State) (u : Unstarted) : Nat := ((s.jobOf u.vd u.jid).map (fun j => j.card.cls)).getD 0

/-! ## Starting (R40, R42, R388) -/

/-- The record of a job as it lands in the data pages: the words that could not be read whole are poisoned (R42). -/
def State.recordImage (s : State) (c : Card) (d : Desc) (i xb : Nat) : LMem :=
  let n := 8 * c.rsize
  let bs := s.readVirt c.vd (s.dasid c.vd) (d.base + i * n) n
  let m : LMem := LMem.land ⟨[], [], false, []⟩ ((bs.zipIdx).map (fun (b, k) => (xb + k, b.toOption)))
  { m with touched := false }

/-- ACTIVITY_START: the oldest unstarted activity of a core takes its lowest free slot and its pages (R40, R42). Room that a saved activity
of no lower class could use goes to that one (R384). -/
def execActivityStart (agent : Agent) (s : State) : Host.Outcome State Fault Refusal :=
  .next (
    let n := agent.num
    if agent.kind ≠ .compute then s
    else match s.firstUnstarted n with
      | none => s
      | some u =>
        match s.jobOf u.vd u.jid, s.freeSlot agent coreSlots with
        | some j, some slot =>
          let c := j.card
          if !s.canTake n j.footprint u.reserved then s
          else if (match s.firstSaved n with
              | some z => decide (c.cls ≤ z.act.job.cls)
              | none => false) = true then s
          else match j.argt with
            | none => s
            | some d =>
              let ctx := c.ctx u.jid u.record
              let xb := c.pages * 0x800
              let zeroing := (c.dpages * 2048 + 1535) / 1536
              let va := d.base + u.record * (8 * c.rsize)
              if s.virtHeld c.vd (s.dasid c.vd) va (8 * c.rsize) then s
              else
              let lm := s.recordImage c d u.record xb
              let read := s.missTime agent c.vd va (8 * c.rsize)
              let a := { Activity.start s.nextUid agent slot 0 s.cycle ctx with lm := lm, nextIssue := s.cycle + max zeroing read }
              let s := s.keepVirt c.vd (s.dasid c.vd) va (8 * c.rsize)
              let s := { s with disp := { s.disp with unstarted := s.disp.unstarted.erase u } }
              (s.ensureSeg u.vd u.jid c.pages n).place a
                [(1, BitVec.ofNat 64 u.record), (2, BitVec.ofNat 64 xb), (3, BitVec.ofNat 64 c.stage), (63, BitVec.ofNat 64 ctx.top)]
        | _, _ => s)

/-- The first cycle in which a started activity may issue: 3 cycles after its pages are set up, its record is read and its code is loaded
(R388); a program on a spindle or a gateway core in the next cycle (R280). -/
def Activity.firstCycle (a : Activity) (ready cycle : Nat) : Nat :=
  if a.prog.isSome then cycle + 1 else max (max a.nextIssue ready + 3) (cycle + 1)

/-- FIRST_ISSUE: the first fetch at ENTRY is checked, and the activity issues from the next cycle on (R93, R280, R388). -/
def execFirstIssue (uid : Nat) (s : State) : Host.Outcome State Fault Refusal :=
  .next (match s.act? uid with
    | none => s
    | some a =>
      if !a.fresh || s.cycle < a.nextIssue then s
      else
        let f := s.focus uid
        match f.seg.filter (fun g => g.loading.isNone && !g.held) with
        | none => s
        | some g =>
          let t := a.firstCycle g.ready s.cycle
          if s.cycle + 1 < t then s
          else
          let f := f.modMe (fun a => { a with fresh := false, nextIssue := t })
          match f.badTarget a.pc.toNat with
          | none => f
          | some info => (f.takeTrap 2 info false).modMe (fun m => { m with nextIssue := max m.nextIssue t }))

/-! ## Completion (R54, R392) -/

/-- Whether a write of a VD's activities that are gone is still to be performed (R50, R238). -/
def State.orphanWrites (s : State) (vd : Nat) : Bool :=
  s.allCores.any (fun k => k.copyq.any (fun c => c.vd = vd && c.kind.isWrite && (s.act? c.owner).isNone &&
    !s.saved.any (fun z => z.act.uid = c.owner)))

/-- The unit that owns a job processes the retirement of one of its activities (R53, R373). -/
def State.takeRetired (msg : Nat) (s : State) : State :=
  match s.msgs.find? (fun m => m.id = msg) with
  | none => s
  | some m =>
    match m.kind, s.msgUnit m with
    | .retired vd jid stat refused _, some (die, num) =>
      if !s.unitTakes m die num then s
      else ((s.unitBusy die).dropMsg msg).modJob vd jid (fun j => j.retire stat refused)
    | .retired _ _ _ _ _, none => s.dropMsg msg
    | _, _ => s

/-- The message by which a job is to complete. -/
def State.completion (s : State) (j : Job) : Option Msg := s.msgs.find? (fun m => match m.kind with
  | .complete vd jid => vd = j.vd && jid = j.jid
  | _ => false)

/-- Once all activities of a job have retired and their writes are performed, its completion reaches the unit that owns it (R54, R238, R373). -/
def State.noteCompletion (j : Job) (s : State) : State :=
  if (s.completion j).isSome || j.retired < j.card.rcount || !j.argtRead || s.orphanWrites j.vd then s
  else s.send (.complete j.vd j.jid) s.cycle

/-- JOB_COMPLETION: the completion of a job reaches its unit, which processes it in its turn (R54, R238, R373). -/
def execJobCompletion (job : Nat) (s : State) : Host.Outcome State Fault Refusal :=
  .next (match s.jobOf (jobVd job) (jobId job) with
    | none => s
    | some j =>
      let s := s.noteCompletion j
      match s.completion j with
      | none => s
      | some m =>
        if !s.unitTakes m j.owner 0 || s.recordHeld j.vd j.jid j.card then s
        else ((s.unitBusy j.owner).dropMsg m.id).completeJob j.vd j.jid)

end Sys2Proof.Machine
end

