-- ==== Sys2Proof/Machine/Evict.lean ====
section
/-! DEFINITION. Eviction and restoration (R163-R166, R244-R248, R272, R273, R329, R346, R382-R384), migration (R51, R52, R391), core
switches (R378) and the end of a job by command (R393). -/

namespace Sys2Proof.Machine

/-! ## Excluded activities and withdrawn records (R378, R433, R438) -/

/-- Whether a switch of compute core n excludes a VD: a core that is being emptied excludes every one. -/
def State.excludes (s : State) (n vd : Nat) : Bool :=
  let c := s.coreOf (coreAgent n)
  s.draining n || (c.selBusy && c.selRes && c.selVd ≠ vd)

/-- Records back among a job's undealt ones, in record order (R378). -/
def Job.giveBack (rs : List Nat) (j : Job) : Job := { j with back := rs.foldl setInsert j.back }

/-- Withdraw the unstarted activities of excluded VDs from compute core n (R378). -/
def State.withdraw (n : Nat) (s : State) : State :=
  let out := s.disp.unstarted.filter (fun u => u.core = n && s.excludes n u.vd)
  let s := { s with disp := { s.disp with unstarted := s.disp.unstarted.filter (fun u => !(u.core = n && s.excludes n u.vd)) } }
  out.foldl (fun (s : State) u => s.modJob u.vd u.jid (Job.giveBack [u.record])) s

/-- A write of CORESEL: one that changes RES or VD starts a switch; one while BUSY is ignored (R378). -/
def State.writeCoresel (core : Nat) (value : Word) (s : State) : State :=
  let c := s.coreOf (coreAgent core)
  let res := value.getLsbD 7
  let vd := value.toNat % 64
  if core ≥ Config.computeCores || c.selBusy || (res = c.selRes && vd = c.selVd) then s
  else (s.modCoreOf (coreAgent core) (fun c => { c with selRes := res, selVd := vd, selBusy := true })).withdraw core

/-- CORESEL_WRITE (R378). -/
def execCoreselWrite (core : Nat) (value : Word) (s : State) : Host.Outcome State Fault Refusal :=
  .next (s.posted (.reg (.coresel core) value) (State.writeCoresel core value))

/-- SWITCH_END: no excluded activity remains on the core, resident or unstarted: BUSY clears (R378). -/
def execSwitchEnd (core : Nat) (s : State) : Host.Outcome State Fault Refusal :=
  .next (
    let c := s.coreOf (coreAgent core)
    if !c.selBusy || s.allActs.any (fun a => (a.livesAt core || a.visits core) && s.excludes core a.job.vd) ||
        s.disp.unstarted.any (fun u => u.core = core && s.excludes core u.vd) then s
    else s.modCoreOf (coreAgent core) (fun c => { c with selBusy := false }))

/-! ## The save area (R164, R165, R245-R247, R272, R273) -/

/-- The wake kind of an activity at a blocking point (R165). -/
def Activity.wakeKind (a : Activity) : Nat :=
  match a.block with
  | .barWait _ _ _ => 1
  | .monitor _ _ _ => 2
  | .meet => (match a.party with
      | some p => if p.phase = .queued then 4 else 3
      | none => 3)
  | .jobwait _ _ => 5
  | .sleep _ => 6
  | .yielded => 7
  | _ => 0

/-- WAKE0 and WAKE1 (R165, R246). -/
def Activity.wakeWords (a : Activity) : Nat × Nat :=
  match a.block with
  | .barWait y t d => (1 + y % 2 ^ 24 * 2 ^ 8 + t % 256 * 2 ^ 32 + d % 64 * 2 ^ 40, 0)
  | .monitor y t d => (2 + y % 2 ^ 24 * 2 ^ 8 + t % 256 * 2 ^ 32 + d % 64 * 2 ^ 40, 0)
  | .meet => (match a.party with
      | some p => (a.wakeKind + keyBucket p.key a.job.keysp a.job.vd * 2 ^ 8, p.deadline.getD 0)
      | none => (3, 0))
  | .jobwait id _ => (5 + id * 2 ^ 8, 0)
  | .sleep w => (6, w)
  | .yielded => (7, 0)
  | _ => (0, 0)

/-- The saved PC: that of the instruction whose result the wake still has to write, for kinds 1 to 5 (R246). -/
def Activity.savedPc (a : Activity) : Word := if 1 ≤ a.wakeKind && a.wakeKind ≤ 5 then a.lastPc else a.pc

/-- The words of a command's instruction, as three 32-bit numbers. -/
def instrWords (i : Instr) : Nat × Nat × Nat :=
  let ws := encode i
  let w (n : Nat) : Nat := ((ws[n]?).getD 0).toNat
  match i.enc with
  | .r _ r => if r.ext then (w 0, w 1, w 2) else (w 0, 0, 0)
  | _ => (w 0, 0, 0)

/-- A copy descriptor (R245), with SDS in its last word for a matrix command with `.rs` (R273). -/
def copyDescriptor (i : Instr) (pc : Nat) (a b c e : Word) (kept back : Nat) (seed : Word) : List Byte :=
  let (w0, w1, w2) := instrWords i
  toBytes 4 w0 ++ toBytes 4 w1 ++ toBytes 4 w2 ++ toBytes 4 pc ++ toBytes 8 a.toNat ++ toBytes 8 b.toNat ++ toBytes 8 c.toNat ++
    toBytes 8 e.toNat ++ toBytes 8 (kept % 2 ^ 16 * 2 ^ 32 + back % 2 ^ 32) ++ toBytes 8 seed.toNat

/-- Bytes that a cancelled load takes back from its barrier (R244). -/
def Cmd.takenBack (c : Cmd) (a : Activity) : Nat := if c.bar = 0 || (a.bar c.bar).phase ≠ c.phase then 0 else c.counted

/-- A matrix command that rounds stochastically: `.rs` (R70). -/
def MatCmd.stochastic (m : MatCmd) : Bool := (m.kind = .tcvt || m.kind = .accst) && m.r.rmM = 4

/-- The copy descriptors of an activity's cancelled loads and unstarted matrix commands, in issue order. -/
def saveDescriptors (a : Activity) (cs : List Cmd) (ms : List MatCmd) : List Byte :=
  let ds : List (Nat × List Byte) :=
    cs.map (fun c => (c.id, copyDescriptor (c.kind.instr c.r) c.pc c.opA c.opB c.opC c.opE c.kept (c.takenBack a) 0)) ++
    ms.map (fun m => (m.id, copyDescriptor (m.kind.instr m.r) m.pc m.opA m.opB m.opC m.opE 0 0
      (if m.stochastic then m.seed else 0)))
  let ds := ds.foldl (fun (m : AMap (List Byte)) d => m.put d.1 d.2) []
  ds.flatMap (fun d => d.2)

/-- The tile blocks (R272): none when nothing is bound and every TS is 0. -/
def Activity.tileBlocks (a : Activity) : List Byte :=
  if a.tiles = [] && a.accs = [] && a.ts = [] then []
  else a.matDirectory ++ a.tiles.flatMap (fun t => t.2.image) ++ a.accs.flatMap (fun c => c.2.image)

/-- Bytes padded to whole 2 KiB blocks. -/
def padBlocks (bs : List Byte) : List Byte := padTo ((bs.length + 2047) / 2048 * 2048) bs

/-- The blocks of a save area after the header (R164), of an activity with every bound register at its home. -/
def Activity.saveBody (a : Activity) (cs : List Cmd) (ms : List MatCmd) : List Byte :=
  a.reserve.read 0 6144 ++ a.tileBlocks ++ padBlocks (saveDescriptors a cs ms) ++
  a.frames.flatMap (fun f => a.lm.read (f * 0x800) 0x800) ++ a.reserve.read 6144 ((a.job.spages - 3) * 2048)

/-- The frame map (R164, R247). -/
def Activity.frameMap (a : Activity) : List Byte :=
  (List.range 96).map (fun f =>
    if f < a.job.codePages then 0xFE
    else match a.frames.findIdx? (· = f) with
      | some i => BitVec.ofNat 8 i
      | none => 0xFF)

/-- The header of a save area with an integrity tag (R164). -/
def Activity.saveHeader (a : Activity) (n blocks : Nat) (tag : BitVec 128) : List Byte :=
  let w := a.wakeWords
  padTo 0xF0 (toBytes 4 a.actid ++ toBytes 4 blocks ++ toBytes 8 a.savedPc.toNat ++ toBytes 8 a.seed.toNat ++
    toBytes 8 (boolWord a.schk).toNat ++ toBytes 8 a.trap.xpc.toNat ++ toBytes 8 a.trap.xcause.toNat ++ toBytes 8 a.trap.xinfo.toNat ++
    toBytes 8 a.trap.xstat ++ toBytes 8 a.region.pc.toNat ++ toBytes 8 a.region.rgstat ++ toBytes 8 w.1 ++ toBytes 8 w.2 ++
    toBytes 2 (a.tileBlocks.length / 2048) ++ toBytes 2 n ++ toBytes 2 a.frames.length ++ toBytes 2 a.job.spages ++
    toBytes 8 a.psjpc.toNat) ++ toBytes 16 tag.toNat ++ padTo 0x700 a.frameMap

/-- A whole save area under a key slot (R164). -/
def Activity.saveImage (a : Activity) (slot : Nat) (cs : List Cmd) (ms : List MatCmd) : List Byte :=
  let body := a.saveBody cs ms
  let n := cs.length + ms.length
  let blocks := body.length / 2048 + 1
  let tag := Config.integrityTag slot ((a.saveHeader n blocks 0 ++ body).map (fun b => b.toNat))
  a.saveHeader n blocks tag ++ body

/-- Blocks that the save area of an activity takes with n copy descriptors. -/
def Activity.saveBlocks (a : Activity) (n : Nat) : Nat :=
  let bound (k : Nat) : Bool := (a.tiles.find k).isSome || (a.tspilled.find k).isSome
  let tiles := 3 * ((List.range 8).filter bound).length
  let accs := sumOf (a.accs.map (fun c => c.2.view.blocks)) + sumOf (a.aspilled.map (fun c => c.2.view.blocks))
  1 + (if tiles = 0 && accs = 0 && a.ts = [] then 0 else 1 + tiles + accs) + (n + 31) / 32 + a.frames.length + a.job.spages

/-! ## Eviction (R163, R382) -/

/-- Whether an activity could be evicted now: at a blocking point, and not in MATCHED or MET (R320, R382). -/
def Activity.evictable (a : Activity) : Bool :=
  a.life = .live && a.prog.isNone && a.agent.kind = .compute && a.atBlocking && (match a.party with
    | some p => p.phase = .parked || p.phase = .queued
    | none => true)

/-- Whether the commands of the activity in focus are settled as R163 step 3 asks before its save area is written: what remains is
cancelled, dropped or saved; a source that a collective is sending has left whole (R346). -/
def State.settled (s : State) : Bool :=
  let u := s.me.uid
  let allowed : List Nat := (match s.me.block with
    | .barWait _ _ d => [d]
    | .monitor _ _ d => [d]
    | .barDone d _ _ => [d]
    | .jobwait _ d => [d]
    | .jobDone _ d _ _ => [d]
    | .meet => (match s.me.party with
        | some p => [p.dst]
        | none => [])
    | _ => []) ++ (match s.me.coll with
    | some c => [c.reg]
    | none => [])
  s.me.claimed.all (fun x => x.cls = .g && x.num ∈ allowed) &&
  !s.core.copyq.any (fun c => c.owner = u && !(c.kind.isLoad || c.kind = .pfx || c.kind = .fence)) &&
  !s.core.matq.any (fun c => c.owner = u && c.started.isSome) && !s.core.locq.any (fun c => c.owner = u) && !s.vecBusy &&
  !s.core.journal.any (fun e => e.2.owner = u && e.2.code = 0) && !s.me.helds.any (fun h => h.released) &&
  !s.me.coll.any (fun c => c.sent && !c.left)

/-- A condition that was met while the activity was being evicted completes its instruction: it is restored ready (R382). -/
def State.finishBlock (s : State) : State :=
  match s.me.block with
  | .barDone d st _ => (s.modMe (fun a => { a with block := .none })).deliver d (BitVec.ofNat 64 st)
  | .jobDone id d byte _ => (s.modMe (fun a => { a with block := .none })).deliver d (waitWord id byte)
  | .fwait _ _ => s.modMe (fun a => { a with block := .none })
  | .held _ => s.modMe (fun a => { a with block := .none })
  | _ => s

/-- The activity in focus is squashed silently, before its context is saved (R163, step 2). -/
def State.squashSilent (s : State) : State :=
  if s.me.speculative then
    let s := (s.dropSpec).rewind
    (s.modCore (fun c => c.leaveMonitor s.me.uid)).modMe (fun a => { a.unspeculate with block := .none })
  else s

/-- Tiles and accumulators of the activity in focus with the spilled ones among them, as the save area holds them; the spill area is
released (R272). -/
def State.gatherTiles (s : State) : State :=
  let a := s.me
  let tiles := a.tspilled.foldl (fun (m : AMap Tile) (n, bad) =>
    let (bs, lost) := s.poolRead a.job.vd (areaBlocks a.spillArea (1 + 3 * n) 3)
    m.put n (Tile.ofImage bs (bad || lost))) a.tiles
  let s := (s.keepBlocks none a.job.vd (a.tspilled.flatMap (fun x => areaBlocks a.spillArea (1 + 3 * x.1) 3))).refillAccs
  s.modMe (fun a => { a with
    tiles := tiles, tspilled := [], torder := tiles.map (fun t => t.1), spillArea := []
    accs := a.accs.map (fun (n, c) => (n, Acc.ofImage ⟨c.view, c.steps, c.poison⟩ c.image false)) })

/-- The activity in focus with every bound register stored at its home (R45, R164). -/
def Activity.toHomes (a : Activity) : Activity := (a.boundRegs.map (fun x => x.1)).foldl (fun b x => if x ∈ b.regs.spilled then b else b.spill x) a

/-- Unstarted matrix commands and loads of an activity, which its save area would hold. -/
def State.descriptorsOf (s : State) (a : Activity) : Nat :=
  let k := s.coreOf a.agent
  (k.copyq.filter (fun c => c.owner = a.uid && c.kind.isLoad)).length + (k.matq.filter (fun c => c.owner = a.uid)).length

/-- An eviction is over, or was refused: neither ordered nor going. -/
def Dispatch.dropVictim (d : Dispatch) (uid : Nat) : Dispatch :=
  { d with evicting := d.evicting.filter (· ≠ uid), orders := d.orders.filter (· ≠ uid), victims := d.victims.filter (fun v => v.1 ≠ uid) }

/-- Evictions of activities that have gone are over: their units may choose again (R382, R383). -/
def State.dropGone (s : State) : State :=
  let here (uid : Nat) : Bool := (s.act? uid).isSome
  { s with disp := { s.disp with
    evicting := s.disp.evicting.filter here, orders := s.disp.orders.filter here, victims := s.disp.victims.filter (fun v => here v.1) } }

/-- The activities whose eviction their cores decide in a cycle: under way, ordered, or for a switch (R378, R382). -/
def State.evictions (s : State) : List Nat :=
  (s.allActs.filter (fun a => a.uid ∈ s.disp.evicting || a.uid ∈ s.disp.orders || s.excludes a.home a.job.vd)).map (fun a => a.uid)

/-- Save-pool blocks of a VD that evictions under way will take. -/
def State.pledged (s : State) (vd : Nat) (but : Nat) : Nat :=
  sumOf ((s.allActs.filter (fun a => a.uid ∈ s.disp.evicting && a.uid ≠ but && a.job.vd = vd)).map (fun a =>
    a.saveBlocks (s.descriptorsOf a) - a.spillArea.length))

/-- Whether the save pool has room for the activity in focus (R378, R383). -/
def State.poolRoom (s : State) : Bool :=
  s.me.saveBlocks (s.descriptorsOf s.me) + s.pledged s.me.job.vd s.me.uid ≤ (s.poolFree s.me.job.vd).length + s.me.spillArea.length

/-- The queued fences of the activity in focus complete, with every command ahead of them settled: those that release at `.sys` have host,
CXL and peer memory written through (R163 step 3, R228). -/
def State.endFences (s : State) : State :=
  if s.core.copyq.any (fun c => c.owner = s.me.uid && c.kind = .fence && (c.sem = 2 || c.sem = 3) && c.scope = 3) then s.writeThrough else s

/-- Write the save area of the activity in focus, and free its slot and pages (R163, steps 3 to 5). Nothing when the pool has too few free
blocks (R378), and not while one of its lines moves (R296). -/
def State.saveMe (s : State) : State :=
  let u := s.me.uid
  let vd := s.me.job.vd
  let mine := s.core.copyq.filter (fun c => c.owner = u)
  let loads := mine.filter (fun c => c.kind.isLoad)
  let mats := s.core.matq.filter (fun c => c.owner = u)
  let ids := mine.map (fun c => c.id) ++ mats.map (fun c => c.id)
  let t := (((s.commitWhere (fun _ => true)).finishBlock).endFences).gatherTiles
  let image := (t.me.toHomes).saveImage (t.keySlot vd).num loads mats
  let need := image.length / 2048
  let free := t.poolFree vd
  if free.length < need then { s with disp := s.disp.dropVictim u }
  else if s.addrHeld vd (s.blockAddrs vd (free.take need ++ s.me.spillArea)) then s
  else
    let back := loads.foldl (fun (s : State) (c : Cmd) => s.cancelLoad c) t
    let back : State := { back with core := { back.core with
      copyq := back.core.copyq.filter (fun c => c.owner ≠ u), matq := back.core.matq.filter (fun c => c.owner ≠ u) } }
    let act := (back.me.toHomes)
    let queued : Bool := act.wakeKind = 4
    let kept : Activity := { act with
      settling := none
      claims := act.claims.filter (fun c => c.cmd ∉ ids)
      promises := act.promises.filter (fun p => p.cmd ∉ ids)
      party := if queued then act.party else act.party.map (fun p => { p with phase := .saved }) }
    let kind := act.wakeKind
    let blocks := free.take need
    let image := act.saveImage (back.keySlot vd).num loads mats
    let z : Saved := ⟨kept, blocks, image, loads, mats, kind, none, none, back.disp.saves⟩
    let s : State := if queued then
        { back with dirs := { back.dirs with waiters := back.dirs.waiters.map (fun (w : Waiter) => if w.uid = u then { w with gone := true } else w) } }
      else back
    let s := State.poolWrite none vd blocks image (s.focus u)
    let s := { s with saved := s.saved ++ [z], disp := { s.disp.dropVictim u with saves := s.disp.saves + 1 } }
    (s.vacate).sweepCode act.home

/-- EVICTION: the core of a chosen victim, or of an excluded activity, accepts the eviction at a blocking point and carries it out once
the commands are settled; an order that finds the victim elsewhere is refused (R163, R378, R382). Without room in the save pool the
activity stays as it is, its speculation included (R378). -/
def execEviction (uid : Nat) (s : State) : Host.Outcome State Fault Refusal :=
  .next (match s.act? uid with
    | none => { s with disp := s.disp.dropVictim uid }
    | some a =>
      let going := uid ∈ s.disp.evicting
      let asked := uid ∈ s.disp.orders || s.excludes a.home a.job.vd
      if !going && !asked then s
      else if !going && !a.evictable then { s with disp := s.disp.dropVictim uid }
      else
        let f := (s.focus uid).squashSilent
        if !going && !f.poolRoom then { s with disp := s.disp.dropVictim uid }
        else
        let f := if going then f
          else { f with disp := { f.disp with evicting := uid :: f.disp.evicting, orders := f.disp.orders.filter (· ≠ uid) } }
        if f.settled then f.saveMe else f)

/-! ## The choice of victims (R383) -/

/-- Something that waits for room: what it is, its class, the cores it may take, what it asks of one. -/
structure Waiting where
  who : Claimant
  cls : Nat
  fits : List Nat
  need : Footprint
deriving DecidableEq, Repr

/-- What waits for a unit's jobs: the unstarted and the saved-ready that have found no room for 1,024 cycles. -/
def State.waitingFor (s : State) (die : Nat) : List Waiting :=
  let owned (vd jid : Nat) : Option Job := (s.jobOf vd jid).filter (fun j => j.owner = die)
  s.disp.unstarted.filterMap (fun u => match owned u.vd u.jid with
    | some j =>
      if u.since + 1024 ≤ s.cycle && !s.canTake u.core j.footprint u.reserved then
        some ⟨.record u.vd u.jid u.record, j.card.cls, [u.core], j.footprint⟩
      else none
    | none => none) ++
  s.saved.filterMap (fun z => match owned z.act.job.vd z.act.job.jid, z.since with
    | some j, some t =>
      let cores := s.usableSpan j.card j.vd
      if s.savedReady z && t + 1024 ≤ s.cycle && !cores.any (fun n => s.restorableOn z n) then
        some ⟨.saved z.act.uid, z.act.job.cls, cores, z.footprint⟩
      else none
    | _, _ => none)

/-- The state without an activity, to see what its going would free. -/
def State.without (s : State) (uid : Nat) : State :=
  let home := ((s.act? uid).map (fun a => a.home)).getD 0
  State.sweepCode home { s with
    me := if s.me.uid = uid then { s.me with life := .absent, uid := 0 } else s.me
    acts := s.acts.filter (fun a => a.uid ≠ uid) }

/-- Whether something that waits would start, or be restored, on compute core n as it stands, in the order in which room there is given
(R40, R384). -/
def State.wouldGo (s : State) (w : Waiting) (n : Nat) : Bool :=
  match w.who with
  | .record vd jid record =>
    (match s.disp.unstarted.find? (fun u => u.core = n) with
     | some u => u.vd = vd && u.jid = jid && u.record = record && s.canTake n w.need u.reserved
     | none => false) && !(s.firstSaved n).any (fun z => decide (w.cls ≤ z.act.job.cls))
  | .saved uid =>
    (match s.firstSaved n with
     | some z => z.act.uid = uid
     | none => false) && !(s.firstUnstarted n).any (fun u => decide (w.cls < s.clsOf u))

/-- Whether an activity is a candidate victim for something that waits (R383). -/
def State.candidate (s : State) (w : Waiting) (v : Activity) : Bool :=
  v.evictable && v.agent.num ∈ w.fits && v.job.cls < w.cls && !(s.vd v.job.vd).dspcfg.getLsbD 9 &&
  v.uid ∉ s.disp.evicting && v.uid ∉ s.disp.orders && (s.poolFree v.job.vd).length + v.spillArea.length ≥ v.saveBlocks (s.descriptorsOf v) &&
  (s.without v.uid).wouldGo w v.agent.num

/-- Of two candidates, the one that is chosen. -/
def victimFirst (a b : Activity) : Bool :=
  a.job.cls < b.job.cls || (a.job.cls = b.job.cls && (a.blockAt < b.blockAt || (a.blockAt = b.blockAt &&
    (a.agent.num < b.agent.num || (a.agent.num = b.agent.num && a.slot ≤ b.slot)))))

/-- The victim for something that waits. -/
def State.victim (s : State) (w : Waiting) : Option Activity :=
  match s.allActs.filter (s.candidate w) with
  | [] => none
  | v :: vs => some (vs.foldl (fun b c => if victimFirst b c then b else c) v)

/-- Whether something that waits has a victim already. -/
def State.hasVictim (s : State) (w : Waiting) : Bool := s.disp.victims.any (fun v => v.2 = w.who)

/-- VICTIM_CHOICE: a unit orders an eviction for something that waits, at most one in 16 cycles (R383). -/
def execVictimChoice (die : Nat) (s : State) : Host.Outcome State Fault Refusal :=
  .next (
    if (match s.disp.ordered.find die with
        | some e => decide (s.cycle < e + 16)
        | none => false) = true then s
    else match ((s.waitingFor die).filter (fun w => !s.hasVictim w)).findSome? (fun w => (s.victim w).map (fun v => (v, w))) with
      | none => s
      | some (v, w) => { s with disp := { s.disp with
          orders := s.disp.orders ++ [v.uid], victims := s.disp.victims ++ [(v.uid, w.who)], ordered := s.disp.ordered.put die s.cycle } })

/-! ## Restoration (R166, R248, R384) -/

/-- The local length of a load command that is issued again, under the descriptor and the index list read anew (R192, R205). -/
def Cmd.lenAgain (c : Cmd) (d : Desc) (idx : List Int) : Nat :=
  match c.kind with
  | .cpy => d.ll
  | .gath => idx.length * d.rbp
  | _ => c.len

/-- Whether the local range of a load command, where the descriptor gives its length, passes CheckLocal again (R199 step 3, R248). -/
def State.rangeAgain (s : State) (c : Cmd) (d : Desc) (n : Nat) : Bool :=
  match c.kind with
  | .cpy => (s.checkLocal true c.base n).isNone
  | .gath =>
    let k := c.opE.toNat
    k = 0 || k > 1024 || d.rb > 2048 || isBlock d.fmt || (s.checkLocal true c.base n).isNone
  | _ => true

/-- The core in focus holds the descriptor of a tensor: it is read unless it has been (R193, R248). -/
def State.holdDesc (tid : Nat) (s : State) : State :=
  if (s.findDesc tid).isSome then s else s.readDesc s.me.job.vd s.me.descJob tid

/-- A load command as it is issued again (R248): whole, with the values it had, and nothing of its first issue under way. -/
def Cmd.again_ (c : Cmd) (s : State) (d : Desc) (idx : List Int) (n : Nat) : Cmd :=
  { c with
    id := s.nextCmd, issued := s.cycle, desc := some d, idx := idx, len := n, started := false, filled := [], kept := 0, counted := 0
    phase := (s.me.bar c.bar).phase, err := 0, xlat := [], due := 0, again := true, startedAt := 0, landing := [], staged := []
    heldUnits := [], warmUnits := [], covers := [], modid := s.svc.modid }

/-- Issue a saved load command of the activity in focus again: checked under R199 steps 2 and 3 only, it is dropped with
Update(n, 0, REFUSED) when a check fails (R248), n the length of its first issue (DESIGN CHOICE, log 138). -/
def State.reissue (s : State) (c : Cmd) : State :=
  let idx := if c.kind = .gath then s.indexList c.opC.toNat c.opE.toNat else []
  let s := s.holdDesc c.tid
  match s.descOf c.tid with
  | none => s.barNote s.me.uid c.bar c.len 0 errRefused
  | some d =>
    let n := c.lenAgain d idx
    if !s.rangeAgain c d n then s.barNote s.me.uid c.bar c.len 0 errRefused
    else
      let c := c.again_ s d idx n
      let c := { c with due := s.firstDue c }
      let pr := s.promise c c.r.d
      let s := s.enqueue c [⟨c.id, c.base, n, true⟩]
      if c.r.pm && pr ≠ 0 then s.modMe (fun a => { a with promises := a.promises ++ [⟨c.id, c.bar, c.phase, pr⟩] }) else s

/-- Issue a saved matrix command of the activity in focus again (R273). -/
def State.reissueMat (s : State) (c : MatCmd) : State :=
  let c : MatCmd := { c with id := s.nextCmd, issued := s.cycle, started := none, step := 0, bad := false }
  let s := { s.modCore (fun k => { k with matq := k.matq ++ [c] }) with nextCmd := s.nextCmd + 1 }
  if c.len = 0 then s else s.claim [⟨c.id, c.y, c.len, c.kind = .tst || c.kind = .accst⟩]

/-- The saved commands are issued again in their order (R166, step 6). -/
def State.reissueAll (cs : List Cmd) (ms : List MatCmd) (s : State) : State :=
  let xs : AMap (Cmd ⊕ MatCmd) := (cs.map (fun (c : Cmd) => ((c.id, Sum.inl c) : Nat × (Cmd ⊕ MatCmd))) ++
    ms.map (fun (m : MatCmd) => ((m.id, Sum.inr m) : Nat × (Cmd ⊕ MatCmd)))).foldl
    (fun (m : AMap (Cmd ⊕ MatCmd)) x => m.put x.1 x.2) []
  xs.foldl (fun (s : State) (x : Nat × (Cmd ⊕ MatCmd)) => match x.2 with
    | .inl c => s.reissue c
    | .inr m => s.reissueMat m) s

/-- Tiles and accumulators of the activity in focus are bound again on its core, with room made for them; none while there is none. -/
def State.rebindTiles (tiles : AMap Tile) (accs : AMap Acc) (s : State) : Option State :=
  let s := tiles.foldl (fun (s : Option State) (n, t) => s.bind (fun s => (s.tileRoom).map (fun s => s.modMe (fun a =>
    let b := a.touchTile n
    { b with tiles := b.tiles.put n t })))) (some s)
  if accs = [] then s else s.bind (fun s => (s.needBank).map (fun s => s.modMe (fun a => { a with accs := accs })))

/-- The activity in focus, just restored, waits at its blocking point again, or is ready (R166 step 7, R221, R320, R329). -/
def State.reblock (n : Nat) (at_ : Option Nat) (s : State) : State :=
  let u := s.me.uid
  match s.me.block with
  | .barWait y t d =>
    if (s.me.bar y).ahead t = 0 then (s.modMe (fun a => { a with claimed := a.claimed.erase ⟨.g, d⟩ })).armMonitor y t d
    else s.modMe (fun a => { a with block := .barDone d ((a.bar y).status (if (a.bar y).ahead t = 1 then 0 else 1)) (s.cycle + 1) })
  | .monitor y t d =>
    if (s.me.bar y).ahead t = 0 then (s.modMe (fun a => { a with claimed := a.claimed.erase ⟨.g, d⟩ })).armMonitor y t d
    else s.modMe (fun a => { a with block := .barDone d ((a.bar y).status (if (a.bar y).ahead t = 1 then 0 else 1)) (s.cycle + 1) })
  | .meet =>
    match s.me.party with
    | none => s
    | some p =>
      if p.phase = .queued && p.status.isNone then
        ((s.dropWaiter u).modMe (fun a => { a with party := some { p with phase := .arriving } })).send (.meet u s.me.agent)
          (s.cycle + 1 + dirLatency s.me.agent (s.dirOf p.key s.me.job.keysp s.me.job.vd))
      else if p.phase = .matched then
        match p.partner with
        | some q => if at_ = some n then ((s.stay q n 0 false).stay u n 1 true).focus u else (s.placeMeeting u q [] true).focus u
        | none => s
      else s.modMe (fun a => { a with party := some { p with phase := .parked } })
  | _ => s

/-- A saved context is lost (R166, R329, R346): its partner and the ranks of its collective receive LOST, the job records the error, and
nothing is retried. -/
def State.loseSaved (z : Saved) (s : State) : State :=
  let a := z.act
  let s := { s with saved := s.saved.filter (fun y => y.act.uid ≠ a.uid) }
  let s := s.dropWaiter a.uid
  let s := match a.party.bind (fun p => if p.phase = .matched then p.partner else none) with
    | some q => s.sendStatus q stLost
    | none => s
  let s := (s.abandonColl a.uid stLost false).freeRefused a.uid
  (s.report 0 a.home 7 (some a.job.vd) 0 0).sendRetired a statLost 0

/-- The directory entries of a rank that has moved name the core it is on now (R346). -/
def Group.rehome (uid : Nat) (a : Agent) (g : Group) : Group :=
  { g with members := g.members.map (fun (m : Member) => if m.uid = uid then { m with home := a } else m) }

/-- Restore a saved activity on compute core n (R166); none while its tiles and accumulators have no room there. A register whose home
holds an uncorrectable error stays there, bad (R44, R143; log 67). -/
def State.restoreOn (z : Saved) (n : Nat) (s : State) : Option State :=
  let old := z.act
  let same := n = old.home
  let bad := (old.boundRegs.map (fun x => x.1)).filter (fun x => (old.badHome [x]).isSome)
  let slot := if same then some old.slot else s.freeSlot (coreAgent n) coreSlots
  slot.bind (fun slot =>
    let (t, gen) := if same then (s, old.gen) else s.takeGen n slot
    let t := { t with
      saved := t.saved.filter (fun y => y.act.uid ≠ old.uid)
      dirs := { t.dirs with groups := t.dirs.groups.map (Group.rehome old.uid (coreAgent n)) } }
    let t := t.ensureSeg old.job.vd old.job.jid old.job.codePages n
    let t := t.focusCore (coreAgent n)
    let act : Activity := { old with
      agent := coreAgent n, home := n, slot := slot, gen := gen, regs := ⟨[], [], [], bad, []⟩, tiles := [], accs := [], torder := []
      runc := 0, nextIssue := t.cycle + 1, firstTry := none, listRead := none, descWait := none }
    let t := { t with me := act, acts := if t.me.life = .absent then t.acts else t.me :: t.acts }
    let t := (old.boundRegs.filter (fun x => x.1 ∉ bad)).foldl (fun (s : State) (x : Reg × Vec) => s.writeReg x.1 x.2 []) t
    (t.rebindTiles old.tiles old.accs).map (fun t => (t.reissueAll z.cmds z.mats).reblock n z.at_))

/-- The scoreboard entries that a saved activity takes at its restore: those it kept, and one for each command that names a local range
(R22, R23, R248). -/
def Saved.scoreNeed (z : Saved) : Nat :=
  z.act.claims.length + (z.cmds.filter (fun c => !c.u)).length + (z.mats.filter (fun m => m.len ≠ 0)).length

/-- The cores on which a saved activity may be restored now: those whose room goes to it first (R384), and where its commands have room
in the queues and on the scoreboard. -/
def State.restoreCores (s : State) (z : Saved) : List Nat :=
  (List.range Config.computeCores).filter (fun n =>
    s.restorableOn z n && (match s.firstSaved n with
      | some y => y.act.uid = z.act.uid
      | none => false) && (match s.firstUnstarted n with
      | some u => decide (s.clsOf u ≤ z.act.job.cls)
      | none => true) &&
    (let k := s.coreOf (coreAgent n)
     k.copyCount + z.cmds.length ≤ copyQueueSize .compute && k.matq.length + z.mats.length ≤ matQueueSize &&
       s.scoreUsed (coreAgent n) + z.scoreNeed ≤ scoreSize .compute))

/-- RESTORE: a saved activity whose restore condition holds is restored on a core of its span, which one among several is open; a save
area that does not read as it was written is lost (R166, R384). A matched party whose chosen core has no room any more is restored like
another. -/
def execRestore (uid : Nat) (s : State) : Host.Outcome State Fault Refusal :=
  .next (match s.saved.find? (fun z => z.act.uid = uid) with
    | none => s
    | some z =>
      if !s.savedReady z || s.addrHeld z.act.job.vd (s.blockAddrs z.act.job.vd z.blocks) then s
      else
        let z := match z.at_ with
          | some n => if s.restorableOn z n then z else { z with at_ := none }
          | none => z
        let cores := s.restoreCores z
        match cores[Config.choice s.choiceCtr % max 1 cores.length]? with
        | none => s
        | some n =>
          let s := { s with choiceCtr := s.choiceCtr + 1 }
          let (bs, bad) := s.poolRead z.act.job.vd z.blocks
          let s := s.keepBlocks none z.act.job.vd z.blocks
          if bad || bs ≠ z.image then s.loseSaved z else (s.restoreOn z n).getD s)

/-! ## Migration (R51, R52, R391) -/

/-- The count of a core in its group's load register (R51). -/
def State.loadCount (s : State) (n : Nat) : Nat :=
  min 63 (((s.residents (coreAgent n)).filter (fun a => !a.atBlocking)).length + (s.disp.unstarted.filter (fun u => u.core = n)).length)

/-- MIGHI of a VD (R377). -/
def State.mighi (s : State) (vd : Nat) : Nat := (s.vd vd).dspcfg.toNat % 32

/-- Whether a VD lets core n push an activity (R51, R391). -/
def State.mayPush (s : State) (vd n : Nat) : Bool := !(s.vd vd).dspcfg.getLsbD 8 && s.mighi vd ≤ s.loadCount n

/-- The target of a push from core n for a job: the core of the group with the lowest count (R51). -/
def State.pushTarget (s : State) (vd jid n : Nat) : Option Nat :=
  match s.jobOf vd jid with
  | none => none
  | some j =>
    let cores := ((List.range 16).map (fun i => n / 16 * 16 + i)).filter (fun m =>
      m ≠ n && j.card.inSpan m && s.usableCore vd m && s.loadOf m < coreSlots)
    (bestCore (fun m => 63 - s.loadCount m) cores).filter (fun m => s.loadCount m + 2 ≤ s.loadCount n)

/-- Whether a started activity may be pushed (R52). -/
def State.pushable (s : State) (a : Activity) : Bool :=
  let k := s.coreOf a.agent
  a.life = .live && !a.fresh && a.agent = coreAgent a.home && a.shuttle 0 ≤ 1024 && a.regs.spilled = [] && !a.lm.touched &&
  !k.copyq.any (fun c => c.owner = a.uid) && !k.matq.any (fun c => c.owner = a.uid) && !k.vecq.any (fun c => c.owner = a.uid) &&
  !k.locq.any (fun c => c.owner = a.uid) && !k.journal.any (fun e => e.2.owner = a.uid) &&
  !a.windows.any (fun w => w.2.prog.isSome || w.2.asked) && a.party.isNone && a.coll.isNone && !a.region.open_ && a.tags = [] &&
  a.claimed = [] && a.pend = [] && a.tiles = [] && a.accs = [] && a.tspilled = [] && a.aspilled = [] && a.block = .none &&
  a.uid ∉ s.disp.orders

/-- Push a started activity to compute core m: it takes a slot there with a new identifier, its data pages are built anew from its record
(R42), and it issues once it has travelled (R52, R391). -/
def State.pushStarted (a : Activity) (m : Nat) (s : State) : State :=
  match s.freeSlot (coreAgent m) coreSlots with
  | none => s
  | some k =>
    let f : Footprint := ⟨a.job.vd, a.job.jid, a.frames.length + a.job.spages, a.job.codePages⟩
    match s.canAccept m [f], (s.jobOf a.job.vd a.job.jid).bind (fun j => j.argt.map (fun d => (j.card, d))) with
    | true, some (c, d) =>
      if s.virtHeld c.vd (s.dasid c.vd) (d.base + a.job.record * (8 * c.rsize)) (8 * c.rsize) then s
      else
      let lm := s.recordImage c d a.job.record a.xb
      let s := s.keepVirt c.vd (s.dasid c.vd) (d.base + a.job.record * (8 * c.rsize)) (8 * c.rsize)
      let (s, gen) := (s.ensureSeg a.job.vd a.job.jid a.job.codePages m).takeGen m k
      let s := (s.focus a.uid).carry (coreAgent m) ⟨[], [], false, []⟩
      let s := s.modMe (fun b => { b with
        home := m, slot := k, gen := gen, lm := lm, nextIssue := max b.nextIssue (s.cycle + 1 + a.travel m) })
      s.sweepCode a.home
    | _, _ => s

/-- MIGRATION: in every 256th cycle, a loaded core pushes its oldest unstarted activity, or else a started one that R52 allows, to the least
loaded core of its group, where a slot and pages are reserved to it (R51, R391). Of several started ones, the first in the list of residents
is pushed (DESIGN CHOICE, log 108). -/
def execMigration (core : Nat) (s : State) : Host.Outcome State Fault Refusal :=
  .next (
    if s.cycle % 256 ≠ 0 || (s.disp.pushed.find core).getD 0 = s.cycle + 1 then s
    else
      let s' := { s with disp := { s.disp with pushed := s.disp.pushed.put core (s.cycle + 1) } }
      match s.disp.unstarted.find? (fun u => u.core = core) with
      | some u =>
        (match (if s.mayPush u.vd core then s.pushTarget u.vd u.jid core else none), s.jobOf u.vd u.jid with
         | some m, some j =>
           if !s.canAccept m [j.footprint] then s
           else { s' with disp := { s'.disp with unstarted := s.disp.unstarted.map (fun (v : Unstarted) =>
             if v = u then { u with core := m, due := s.cycle + 1 + levelLatency (coreAgent core) (coreAgent m), reserved := true } else v) } }
         | _, _ => s)
      | none =>
        match (s.residents (coreAgent core)).findSome? (fun a =>
            if s.pushable a && s.mayPush a.job.vd core then (s.pushTarget a.job.vd a.job.jid core).map (fun m => (a, m)) else none) with
        | none => s
        | some (a, m) => s'.pushStarted a m)

/-! ## Ending a job (R393) -/

/-- A saved activity of an ended job is discarded: a partner of another job that is matched with it, and the ranks of other jobs in its
collective, receive ABANDONED (R330, R346, R393). -/
def State.discardSaved (z : Saved) (s : State) : State :=
  let a := z.act
  let s := { s with saved := s.saved.filter (fun y => y.act.uid ≠ a.uid) }
  let s := s.dropWaiter a.uid
  let s := match a.party.bind (fun p => if p.phase = .matched then p.partner else none) with
    | some q => s.sendStatus q stAbandoned
    | none => s
  (s.abandonColl a.uid stAbandoned true).freeRefused a.uid

/-- A job ends (R393): its records are dropped, its saved activities discarded, its resident ones killed; it completes with ENDED once the
writes of its activities are performed (R54, R238). -/
def State.endJob (vd jid : Nat) (s : State) : State :=
  let mine (a : Activity) : Bool := a.job.vd = vd && a.job.jid = jid && a.prog.isNone
  let s := { s with disp := { s.disp with unstarted := s.disp.unstarted.filter (fun u => !(u.vd = vd && u.jid = jid)) } }
  let s := (s.saved.filter (fun z => mine z.act)).foldl (fun (s : State) z => s.discardSaved z) s
  let s := (s.allActs.filter mine).foldl (fun (s : State) (a : Activity) =>
    if (s.act? a.uid).isSome then (s.focus a.uid).killMe 0 stAbandoned stAbandoned true else s) s
  let s := { s with msgs := s.msgs.filter (fun m => match m.kind with
    | .retired v i _ _ _ => !(v = vd && i = jid)
    | _ => true) }
  s.modJob vd jid (fun j => { j.error 6 1 with retired := max j.retired j.card.rcount, next := j.card.rcount, back := [], argtRead := true })

/-- The unit that owns a job processes the order to end it (R373, R393). -/
def State.takeEnd (msg : Nat) (s : State) : State :=
  match s.msgs.find? (fun m => m.id = msg) with
  | none => s
  | some m =>
    match m.kind, s.msgUnit m with
    | .endJob vd jid, some (die, num) =>
      if !s.unitTakes m die num then s else ((s.unitBusy die).dropMsg msg).endJob vd jid
    | .endJob _ _, none => s.dropMsg msg
    | _, _ => s

/-- A write of DSPCMD: a GO with OP = 0 orders the job's unit to end it, when there is such a job (R393). -/
def State.writeDspcmd (value : Word) (s : State) : State :=
  let v := value.toNat
  let vd := v / 2 ^ 16 % 64
  let jid := v / 2 ^ 32 % 2 ^ 16
  let s := { s with disp := { s.disp with dspcmd := BitVec.ofNat 64 (jid * 2 ^ 32 + vd * 2 ^ 16 + v % 4) } }
  if !v.testBit 63 || v % 4 ≠ 0 || (s.jobOf vd jid).isNone then s else s.send (.endJob vd jid) s.cycle

/-- DSPCMD_END_JOB: a GO to DSPCMD (R393). -/
def execDspcmdEndJob (value : Word) (s : State) : Host.Outcome State Fault Refusal :=
  .next (s.posted (.reg .dspcmd value) (State.writeDspcmd value))

end Sys2Proof.Machine
end

