-- ==== Sys2Proof/Machine/Shares.lean ====
section
/-! DEFINITION. Shares (R394-R408): the refill of the buckets, the draw of issue tokens, the registers that set shares, and tile-cache ways. -/

namespace Sys2Proof.Machine

/-! ## Refilling (R399) -/

/-- TOKEN_REFILL: an arbiter's buckets and surplus for the cycle (R399); for one that has granted nothing, those of its class. -/
def execTokenRefill (arb : Arbiter) (s : State) : Host.Outcome State Fault Refusal :=
  .next (
    let h := s.refillShare (arbClass arb) (s.share arb)
    if s.arbs.any (fun x => x.1 = arb) then { s with arbs := s.arbs.map (fun x => if x.1 = arb then (arb, h) else x) }
    else { s with idle := s.idle.put (arbClass arb) h })

/-! ## The issue choice (R390) -/

/-- The slot that an activity takes where it stands: a visiting party has one there (R313). -/
def Activity.slotHere (a : Activity) : Nat :=
  match a.party with
  | some p => if p.away then p.vslot else a.slot
  | none => a.slot

/-- Of two activities that could issue, the one that does: bucket tokens before surplus, then the class, then the one that issued least
recently, then the lower slot (R390). -/
def State.issuesBefore (s : State) (a b : Activity) : Bool :=
  let key (x : Activity) : List Nat := [if s.ownToken x then 0 else 1, 3 - x.job.cls, x.lastIssue, x.slotHere]
  lexLe (key a) (key b)

/-! ## Registers that set shares (R394, R398, R404) -/

/-- EN of a VD as it will stand once a write of this cycle acts (R404). -/
def Vd.enNext (v : Vd) : Bool := (v.next.map (fun w => w.getLsbD 0)).getD v.en

/-- The sum of RATE over the VDs but one that are enabled, or will be (R398). -/
def State.rateAhead (s : State) (c but : Nat) : Nat :=
  sumOf ((s.vds.filter (fun v => v.2.enNext && v.1 ≠ but)).map (fun v => (v.2.shareOf c).1))

/-- A write to a share register of a VD is refused: SERR is set (R398). -/
def Vd.refuse (v : Vd) : Vd := { v with serr := true, next := v.next.map (fun w => w &&& ~~~2#64) }

/-- A write of VDCTL, which acts from the next cycle on (R404). One that changes EN is ignored while the VD holds a job; one that would break
the sum of the rates is ignored and sets SERR (R394, R398). -/
def State.writeVdctl (vd : Nat) (value : Word) (s : State) : State :=
  let v := s.vd vd
  let en := value.getLsbD 0
  let tooMuch := en && !v.enNext && (List.range 6).any (fun c => s.rateAhead c vd + (v.shareOf c).1 > shareCap c)
  if vd ≥ 64 || (en ≠ v.enNext && s.disp.jobs.any (fun j => j.vd = vd)) then s
  else if tooMuch then s.modVd vd Vd.refuse
  else s.modVd vd (fun v => { v with next := some value })

/-- VD_ENABLE: a write of VDCTL (R394). -/
def execVdEnable (vd : Nat) (value : Word) (s : State) : Host.Outcome State Fault Refusal :=
  .next (s.posted (.reg (.vdctl vd) value) (State.writeVdctl vd value))

/-- A write of VDCTL takes effect: EN from 0 to 1 fills every bucket of the VD (R394). -/
def State.setVdctl (vd : Nat) (value : Word) (s : State) : State :=
  let v := s.vd vd
  let en := value.getLsbD 0
  let s := s.modVd vd (fun v => { v with en := en, spown := value.getLsbD 2, serr := v.serr && !value.getLsbD 1, next := none })
  let fill (c : Nat) (h : Share) : Share :=
    if en && !v.en then { h with tokens := h.tokens.put vd ((v.shareOf c).2 * 1024) }
    else if !en then { h with tokens := h.tokens.del vd }
    else h
  let idle := (List.range 6).foldl (fun (m : AMap Share) c => m.put c (fill c ((s.idle.find c).getD Share.empty))) s.idle
  { s with idle := idle, arbs := s.arbs.map (fun x => (x.1, fill (arbClass x.1) x.2)) }

/-- The writes of VDCTL of the cycle that has ended take effect (R404). -/
def State.setVdctls (s : State) : State :=
  (s.vds.filterMap (fun v => v.2.next.map (fun w => (v.1, w)))).foldl (fun s x => s.setVdctl x.1 x.2) s

/-- A write of SHRc; one with a RATE above CAP, or that would break the sum, is ignored and sets SERR (R397, R398). -/
def State.writeShr (vd c : Nat) (value : Word) (s : State) : State :=
  let v := s.vd vd
  let rate := value.toNat / 2 ^ 32 % 2 ^ 20
  let depth := value.toNat % 2 ^ 16
  if vd ≥ 64 || c ≥ 6 then s
  else if rate > shareCap c || (v.enNext && s.rateAhead c vd + rate > shareCap c) then s.modVd vd Vd.refuse
  else s.modVd vd (fun v => { v with shr := v.shr.put c (rate, depth) })

/-- SHR_WRITE: a write of SHRc (R397). -/
def execShrWrite (vd c : Nat) (value : Word) (s : State) : Host.Outcome State Fault Refusal :=
  .next (s.posted (.reg (.shr vd c) value) (State.writeShr vd c value))

/-- Sets of a slice (R27). -/
def sliceSets : Nat := 128

/-- WAYMSK of a VD in a slice is set. -/
def Cache.setWays (c : Cache) (vd slice : Nat) (ways : BitVec 16) : Cache :=
  { c with waymsk := if ways = 0xFFFF then c.waymsk.del (vd * 384 + slice) else c.waymsk.put (vd * 384 + slice) ways }

/-- At the end of the cycle of a write of WAYMSK its mask comes into force; in each cycle after it the borrowed bits of one set are recomputed,
set 0 first (R408). -/
def State.remaskSets (s : State) : State :=
  if s.cache.remask = [] then s
  else
    let s : State := { s with cache := (s.cache.remask.filter (fun x => x.2.2.1 = s.cycle)).foldl (fun c x => c.setWays x.1 x.2.1 x.2.2.2) s.cache }
    { s with cache := { s.cache with
      lines := s.cache.lines.map (fun (l : Line) =>
        if s.cache.remask.any (fun x => l.key.vd = x.1 && l.slice = x.2.1 && x.2.2.1 + 1 + l.set = s.cycle) then
          { l with borrowed := !(s.waymsk l.key.vd l.slice).getLsbD l.way } else l)
      remask := s.cache.remask.filter (fun x => s.cycle < x.2.2.1 + sliceSets) } }

/-- A write of WAYMSK: the ways that a VD owns in a slice (R406), for every allocation from the next cycle on; the borrowed bits of resident
lines follow, set by set (R408). -/
def State.writeWaymsk (vd slice : Nat) (value : Word) (s : State) : State :=
  if vd ≥ 64 || slice ≥ 384 then s
  else { s with cache := { s.cache with remask := s.cache.remask ++ [(vd, slice, s.cycle, value.setWidth 16)] } }

/-- WAYMSK_WRITE: a write of WAYMSK (R406). -/
def execWaymskWrite (vd slice : Nat) (value : Word) (s : State) : Host.Outcome State Fault Refusal :=
  .next (s.posted (.reg (.waymsk vd slice) value) (State.writeWaymsk vd slice value))

end Sys2Proof.Machine
end

