-- ==== Sys2Proof/Machine/Links.lean ====
section
/-! DEFINITION. The link instructions (R422-R424), and what reaches the module from outside through BAR2, the scale-up links and the
external switch (R411, R413, R416, R417, R419, R421, R436). -/

namespace Sys2Proof.Machine

/-! ## `baddq` (R423) -/

/-- The effect of `baddq`: each block is the requantised sum of two blocks. -/
def effBaddq (r : R) (s : State) : Eff :=
  let a := s.me
  let f := floatFmt r.xfmt
  let bb := blockBytes r.xfmt
  let off := r.xpart * (8 * bb)
  let band := fBf16.decode (r.x.toNat / 2 ^ 16)
  let sa := (a.g r.c.toNat).toNat
  let sb := (a.g r.e.toNat).toNat
  let vals (v : Vec) (scales j : Nat) : List Val :=
    let codes := unpackBlock r.xfmt (vecBytes v (off + bb * j) bb)
    codes.map (fun c => blockElem f (blockHasNan r.xfmt codes) c (scales / 256 ^ j % 256) band)
  let (s, ds) := s.draw (R.rs r) 64
  let blocks := (List.range 8).map (fun j =>
    requantise f (blockTop r.xfmt) (RMode.of r.rm) ((ds.drop (8 * j)).take 8) band
      (((vals (a.v r.a.toNat) sa j).zip (vals (a.v r.b.toNat) sb j)).map (fun (x, y) => Val.add false x y)))
  let bytes := blocks.flatMap (fun b => packBlock r.xfmt b.2)
  let scales := blocks.foldr (fun b acc => b.1 % 256 + 256 * acc) 0
  let s := s.resultV (.baddq r) r.d (setVecBytes (a.v r.d.toNat) off bytes)
  .done (s.resultG (.baddq r) r.e (BitVec.ofNat 64 scales))

/-- `baddq`: block sums (R423). -/
def execBaddq (r : R) (s : State) : Host.Outcome State Fault Refusal := issue (.baddq r) s (effBaddq r)

/-! ## `bqtake` (R424) -/

/-- The local address of a slot of the block queue. -/
def blockSlot (n : Nat) : Nat := 0x400000 + 128 * n

/-- Slots that the activity in focus holds. -/
def State.heldSlots (s : State) : List Nat := (s.me.prog.map (fun p => p.slots)).getD []

/-- Set the slots that the activity in focus holds. -/
def State.setSlots (l : List Nat) (s : State) : State := s.modMe (fun a => { a with prog := a.prog.map (fun p => { p with slots := l }) })

/-- The effect of `bqtake`: a slot that this activity holds is freed, and the slot takeable longest is taken; 0 when there is none. -/
def effBqtake (r : R) (s : State) : Eff :=
  let v := (s.me.g r.a.toNat).toNat
  let back := s.heldSlots.find? (fun n => blockSlot n = v)
  if v ≠ 0 && back.isNone then .fault 7
  else
    let mine := match back with
      | some n => s.heldSlots.filter (· ≠ n)
      | none => s.heldSlots
    let out (s : State) (w : Nat) : State := s.resultAt .engine (s.cycle + 2) (Instr.srcs (.bqtake r)) r.d.toNat (BitVec.ofNat 64 w)
    match s.core.blockReady with
    | [] => .done (out (s.setSlots mine) 0)
    | n :: rest => .done (out ((s.setSlots (mine ++ [n])).modCore (fun k => { k with blockReady := rest })) (blockSlot n))

/-- `bqtake` (R424). -/
def execBqtake (r : R) (s : State) : Host.Outcome State Fault Refusal := issue (.bqtake r) s (effBqtake r)

/-! ## Accesses through address lines from outside -/

/-- The physical addresses of n bytes at a virtual address under a VD's DASID; none when one has no translation that serves. -/
def State.dmaAddrs (s : State) (vd va n : Nat) (write : Bool) : Option (List Nat) :=
  ((List.range n).mapM (fun i => (s.xlateWalk vd (s.dasid vd) (va + i) write).toOption))

/-! ## The host (R411, R413) -/

/-- A write through BAR2 is performed at its home slices; one that finds no valid writable translation is dropped and reported (R411). While
one of its lines moves, it waits (R296). -/
def State.hostWrite (vd va : Nat) (data : List Byte) (relaxed : Bool) (s : State) : State :=
  if s.virtHeld vd (s.dasid vd) va data.length then s.keepInbound (.hostWrite vd va data relaxed)
  else match s.dmaAddrs vd va data.length true with
    | none => s.report 9 0 0xA (some vd) va errXlate
    | some _ =>
      let (t, e) := s.writeVirt vd (s.dasid vd) va data
      if e = 0 then t else t.report 9 0 0xA (some vd) va e

/-- Whether a range of BAR2 of a VD's function is one. -/
def inBar2 (vd va n : Nat) : Bool := vd < 64 && va + n ≤ 2 ^ 44

/-- HOST_WRITE: a posted write through BAR2 of a VD's function, in the order of the sequence point unless it is relaxed (R411, R413). -/
def execHostWrite (vd va : Nat) (data : List Byte) (relaxed : Bool) (s : State) : Host.Outcome State Fault Refusal :=
  .next (
    if !s.booted || !inBar2 vd va data.length then s
    else if relaxed then s.hostWrite vd va data relaxed
    else s.posted (.hostWrite vd va data relaxed) (State.hostWrite vd va data relaxed))

/-- A read through BAR2 is served at the home slices; without a translation it completes with Completer Abort (R411). While one of its lines
moves, it waits (R296). -/
def State.hostRead (vd va len : Nat) (s : State) : State :=
  if s.virtHeld vd (s.dasid vd) va len then s.keepInbound (.hostRead vd va len)
  else
    let t := if (s.dmaAddrs vd va len false).isSome then s.keepVirt vd (s.dasid vd) va len else s
    { t with svc := { t.svc with hostAnswer := (allOk (s.readVirt vd (s.dasid vd) va len)).toOption } }

/-- HOST_READ: a read through BAR2, after every posted write that came before it (R411, R413). -/
def execHostRead (vd va len : Nat) (s : State) : Host.Outcome State Fault Refusal :=
  .next (if !s.booted || !inBar2 vd va len then s else s.receive (.hostRead vd va len) (State.hostRead vd va len))

/-! ## Peer modules (R416, R417, R421) -/

/-- Answer an incoming peer access. -/
def State.answer (code : Nat) (data : List Byte) (s : State) : State := { s with svc := { s.svc with peerAnswer := (code, data) } }

/-- Whether an incoming peer access names a VD that takes it: the module has a number, and the VD is enabled. -/
def State.takesPeer (s : State) (vd : Nat) : Bool := s.svc.modid ≠ 0x1FF && vd < 64 && (s.vd vd).en

/-- Slots of a gateway core's block queue (R420). -/
def blockSlots : Nat := 64

/-- The beats of an access of another module draw the VD's tokens of the link that they cross (R396, R416). -/
def State.chargeLink (link vd n : Nat) (out : Bool) (s : State) : State := s.charge vd none [(.link link out, (n + 63) / 64)]

/-- A 128-byte record lands in the lowest free slot (DESIGN CHOICE, log 135) of the block queue of the gateway core that its group index names,
or is refused; one that finds the queue full waits (R421). -/
def State.blockRecord (link vd : Nat) (data : List Byte) (s : State) : State :=
  let n := ofBytes ((data.drop 0x4C).take 4) % 16
  let gw : Agent := ⟨.gateway, n⟩
  let bfmt := (data.getD 0x4A 0).toNat % 16
  let runs := (s.residents gw).any (fun a => a.job.vd = vd)
  if data.length ≠ 128 || !s.takesPeer vd || !s.svc.gwavail.getLsbD n || !runs || bfmt < 5 || bfmt > 7 ||
      (data.drop 0x52).any (· ≠ 0) then s.answer errRefused []
  else
    let k := s.coreOf gw
    let held := (s.residents gw).flatMap (fun a => (a.prog.map (fun p => p.slots)).getD [])
    match lowest (fun i => i ∉ k.blockReady && i ∉ held) blockSlots with
    | none => s.keepInbound (.blockRecord link vd data)
    | some i => ((s.chargeLink link vd data.length false).modCoreOf gw (fun k => { k with
        blockq := k.blockq.writeN (128 * i) data, blockReady := k.blockReady ++ [i] })).answer 0 []

/-- The address with Q = 1 of a peer access: bit 40, above the offset (R416). -/
def peerQ : Nat := 2 ^ 40

/-- An access of another module: translated and served at its home slice, or refused; a write with Q = 1 is a block record, a read with Q = 1
is refused (R416, R421). While one of its lines moves, it waits (R296). -/
def State.peerAccess (link vd va : Nat) (data : List Byte) (write : Bool) (s : State) : State :=
  if !s.takesPeer vd || (peerQ ≤ va && !write) then s.answer errRefused []
  else if peerQ ≤ va then (if va % 128 = 0 then s.blockRecord link vd data else s.answer errRefused [])
  else match s.dmaAddrs vd va data.length write with
    | none => s.answer errRefused []
    | some _ =>
      if s.virtHeld vd (s.dasid vd) va data.length then s.keepInbound (.peerAccess link vd va data write)
      else
        let s := s.chargeLink link vd data.length (!write)
        if write then
          let (t, e) := s.writeVirt vd (s.dasid vd) va data
          t.answer e []
        else match allOk (s.readVirt vd (s.dasid vd) va data.length) with
          | .ok bs => (s.keepVirt vd (s.dasid vd) va data.length).answer 0 bs
          | .error e => s.answer e []

/-- PEER_ACCESS: an access of another module to a virtual address, or to a block queue with bit 40 set; a write is performed at `.dev` before
it completes. For a read, `data` gives the length only (R416). -/
def execPeerAccess (link vd va : Nat) (data : List Byte) (write : Bool) (s : State) : Host.Outcome State Fault Refusal :=
  .next (if !s.booted || link ∉ s.svc.linksUp then s
    else s.receive (.peerAccess link vd va data write) (State.peerAccess link vd va data write))

/-- BLOCK_RECORD: a 128-byte record comes over a link (R421). -/
def execBlockRecord (link vd : Nat) (data : List Byte) (s : State) : Host.Outcome State Fault Refusal :=
  .next (if !s.booted || link ∉ s.svc.linksUp then s else s.receive (.blockRecord link vd data) (State.blockRecord link vd data))

/-- MODID_WRITE: the module's number (R417). -/
def execModidWrite (value : Word) (s : State) : Host.Outcome State Fault Refusal :=
  .next (if s.booted then { s with svc := { s.svc with modid := value.setWidth 9 } } else s)

/-- LINK_DOWN: a scale-up link or the link of a CXL port goes down (R414, R436). -/
def execLinkDown (port : Port) (s : State) : Host.Outcome State Fault Refusal :=
  .next (match port with
    | .cxl w => { s with svc := { s.svc with cxl := s.svc.cxl.del w } }
    | .link n => { s with svc := { s.svc with linksUp := s.svc.linksUp.filter (· ≠ n) } })

/-! ## The external switch (R419) -/

/-- The bytes that member j contributes to a sector: free values, from a draw on, where this module does not see them. -/
def SwRound.bytesOf (r : SwRound) (draw j : Nat) : List Byte :=
  let cells := (r.parts.filter (fun p => p.member = j)).flatMap (fun p => p.cells)
  (List.range 32).map (fun b => match AMap.find cells b with
    | some x => x
    | none => (Config.freeValue (draw + 32 * j + b)).setWidth 8)

/-- The result of a round over n members: the sums of the elements of a sector by the tree of R342. -/
def SwRound.result (r : SwRound) (draw n : Nat) : List Byte :=
  let w := fmtBits r.fmt / 8
  let o : CollOp := ⟨n, 0, 0, r.fmt ≠ 9, r.fmt, 0, 0⟩
  let cols := (List.range n).map (r.bytesOf draw)
  (List.range (32 / w)).flatMap (fun e => toBytes w (o.reduce (cols.map (fun c => ofBytes ((c.drop (w * e)).take w)))))

/-- The addresses in this module to which a round's result goes: those of the root, or of every member (R419). This module is the member that
its number names, or named when a contribution of it was issued (R417). -/
def State.roundTargets (s : State) (g : SwGroup) (r : SwRound) : List Nat :=
  let own (j m : Nat) : Bool := m = s.svc.modid.toNat || r.parts.any (fun p => p.member = j && p.src.isSome)
  (g.members.zipIdx.filter (fun (m, j) => own j m.1 && (r.all || j = g.root))).map (fun (m, _) => m.2 + r.off)

/-- The contributions of a round that has ended complete with a code: a unit once all its rounds have ended. -/
def State.endRound (r : SwRound) (code : Nat) (s : State) : State :=
  let s := { s with switch := { s.switch with rounds := s.switch.rounds.filter (fun q => q.id ≠ r.id) } }
  (r.parts.filterMap (fun p => p.src)).foldl (fun (s : State) (cmd, unit) =>
    s.onCmd cmd (fun c s =>
      let c : Cmd := { c with err := if c.err = 0 then code else c.err }
      if s.switch.rounds.any (fun q => q.parts.any (fun p => p.src = some (cmd, unit))) then s.putCmd c
      else
        let c : Cmd := { c with todo := c.todo.erase unit }
        if c.todo = [] then s.endWrite c else s.putCmd c)) s

/-- SWITCH_REDUCTION_RESULT: the switch has the contributions of every member to a sector: the result is written to the root, or to every
member, and the contributions complete; at the group's deadline they complete with REFUSED (R419). -/
def execSwitchReductionResult (round : Nat) (s : State) : Host.Outcome State Fault Refusal :=
  .next (match s.switch.rounds.find? (fun r => r.id = round) with
    | none => s
    | some r =>
      match s.switch.groups.find r.group with
      | none => s.endRound r errRefused
      | some g =>
        if r.opened + g.deadline ≤ s.cycle then s.endRound r errRefused
        else
          let n := g.members.length
          let out := r.result s.choiceCtr n
          let s := { s with choiceCtr := s.choiceCtr + 32 * n }
          let (s, ok) := (s.roundTargets g r).foldl (fun (acc : State × Bool) va =>
            let (t, e) := acc.1.writeVirt r.vd (acc.1.dasid r.vd) va out
            (t, acc.2 && e = 0)) (s, true)
          s.endRound r (if ok then 0 else errRefused))

end Sys2Proof.Machine
end

