-- ==== Sys2Proof/Machine/Registers.lean ====
section
/-! DEFINITION. The moves of address and key buckets with their rebalancers (R293-R296, R304-R306), the registers that the host writes
(R376, R377, R395, R410, R417, R420, R429, R432, R441, R444), and the start of gateway activities (R420). -/

namespace Sys2Proof.Machine

/-- A register value without the bits of a mask that are 0. -/
def keepBits (value : Word) (mask : Nat) : Word := value &&& BitVec.ofNat 64 mask

/-- Bits hi down to lo, as a mask. -/
def bitsMask (hi lo : Nat) : Nat := 2 ^ (hi + 1) - 2 ^ lo

/-- Replace the bits of a mask in a register. -/
def mergeBits (old value : Word) (mask : Nat) : Word := keepBits old (2 ^ 64 - 1 - mask) ||| keepBits value mask

/-! ## Counting for the rebalancers -/

/-- A count of a map, 0 for none. -/
def countIn (m : AMap Nat) (i : Nat) : Nat := (m.find i).getD 0

/-- The number below n, among those that meet a test, with the most counts; the lowest of equals. -/
def mostOf (n : Nat) (p : Nat → Bool) (count : Nat → Nat) : Option Nat :=
  match (List.range n).filter p with
  | [] => none
  | x :: xs => some (xs.foldl (fun b i => if count b < count i then i else b) x)

/-- The number below n, among those that meet a test, with the fewest counts; the lowest of equals. -/
def fewestOf (n : Nat) (p : Nat → Bool) (count : Nat → Nat) : Option Nat :=
  match (List.range n).filter p with
  | [] => none
  | x :: xs => some (xs.foldl (fun b i => if count i < count b then i else b) x)

/-! ## Moves of address buckets (R293-R296) -/

/-- Write an entry of the address bucket table; an entry at its reset value is not listed. -/
def State.setBucket (b : Nat) (e : Bucket) (s : State) : State :=
  { s with cache := { s.cache with buckets := if e = ⟨false, false, b % 384⟩ then s.cache.buckets.del b else s.cache.buckets.put b e } }

/-- Whether a slice may be named as a home: it exists, and its spindle is not retired (R293). -/
def State.sliceOk (s : State) (n : Nat) : Bool := n < Config.spindles && n ∉ s.svc.spindlesRetired

/-- Step 1 of a move: the bucket is held (R295). -/
def State.beginMove (m : Move) (s : State) : State :=
  if !s.sliceOk m.target then s
  else
    let s := s.setBucket m.bucket { s.bucket m.bucket with hold := true }
    { s with cache := { s.cache with move := some m } }

/-- The move that a value of RBCTL asks for. -/
def moveOf (value : Word) : Move :=
  { bucket := value.toNat / 2 ^ 28 % 2 ^ 12, target := value.toNat / 2 ^ 40 % 2 ^ 9, repl := value.getLsbD 49 }

/-- A write of RBCTL: a GO starts a move, or waits behind the one in progress in place of one that waits there (R294). -/
def State.writeRbctl (value : Word) (s : State) : State :=
  let s := { s with cache := { s.cache with rbctl := keepBits value (bitsMask 49 28 + 1) } }
  if !value.getLsbD 63 then s
  else match s.cache.move with
    | some _ => { s with cache := { s.cache with queued := some value } }
    | none => s.beginMove (moveOf value)

/-- RBCTL_GO (R294). -/
def execRbctlGo (value : Word) (s : State) : Host.Outcome State Fault Refusal := .next (s.posted (.reg .rbctl value) (State.writeRbctl value))

/-- Steps 3 to 5 of a move: the lines of the bucket are written back and invalidated, replicas too, and the entry is changed (R295); then
the move that waits begins. -/
def State.finishMove (m : Move) (s : State) : State :=
  let s := (s.flushLines (fun l => l.key.bucket = m.bucket)).setBucket m.bucket ⟨false, m.repl, m.target⟩
  let q := s.cache.queued
  let s := { s with cache := { s.cache with move := none, queued := none } }
  match q with
  | some v => s.beginMove (moveOf v)
  | none => s

/-- Step 2 of a move: whether a request for the bucket that was accepted before the move is still to complete (R295). -/
def State.moveWaits (s : State) (bucket : Nat) : Bool :=
  s.allCores.any (fun k => k.copyq.any (fun c => c.started && c.todo.any (fun u =>
    u ∉ c.heldUnits && (s.unitLines c u).any (fun l => l.bucket = bucket))))

/-- BUCKET_MOVE: once the requests accepted for the bucket are complete, it moves (R295). -/
def execBucketMove (s : State) : Host.Outcome State Fault Refusal :=
  .next (match s.cache.move with
    | none => s
    | some m => if s.moveWaits m.bucket then s else s.finishMove m)

/-- The move that the rebalancer chooses (R294). -/
def State.rebalance (s : State) : Option Move :=
  let total := sumOf (s.cache.hits.map (fun h => h.2))
  match mostOf Config.spindles (fun _ => true) (countIn s.cache.hits) with
  | none => none
  | some sl =>
    if countIn s.cache.hits sl * Config.spindles ≤ 2 * total then none
    else
      match mostOf 4096 (fun b => (s.bucket b).slice = sl) (fun b => countIn s.cache.bucketHits (bucketAt sl b)),
        fewestOf Config.spindles (fun n => n / 96 = sl / 96 && s.sliceOk n) (countIn s.cache.hits) with
      | some b, some t => some { bucket := b, target := t, repl := (s.bucket b).repl }
      | _, _ => none

/-- REBALANCER: at the end of an interval of 65,536 cycles, with EN = 1 and no move in progress (R294). -/
def execRebalancer (s : State) : Host.Outcome State Fault Refusal :=
  .next (
    if s.cycle % 65536 ≠ 0 then s
    else
      let m := if s.cache.rbctl.getLsbD 0 && s.cache.move.isNone then s.rebalance else none
      let s := { s with cache := { s.cache with hits := [], bucketHits := [] } }
      match m with
      | some m => s.beginMove m
      | none => s)

/-! ## Moves of key buckets (R304-R306) -/

/-- Write an entry of the key bucket table; an entry at its reset value is not listed. -/
def State.setKeyBucket (b : Nat) (e : KeyBucket) (s : State) : State :=
  { s with dirs := { s.dirs with buckets := if e = ⟨false, b % 256⟩ then s.dirs.buckets.del b else s.dirs.buckets.put b e } }

/-- Step 1 of a move: the bucket is held, from the next message on (R306). -/
def State.beginKeyMove (b t : Nat) (s : State) : State :=
  let s := s.setKeyBucket b { s.keyEntry b with hold := true }
  { s with dirs := { s.dirs with move := some (b, t, s.nextMsg) } }

/-- Step 2 of a move: whether a message for the bucket that is not held back is still to be processed (R306). -/
def State.keyMoveWaits (s : State) (b mark : Nat) : Bool :=
  s.msgs.any (fun m => m.id < mark && (match s.msgKey m with
    | some (k, _) => k = b
    | none => false))

/-- The move that a value of KBCTL asks for: bucket and directory. -/
def keyMoveOf (value : Word) : Nat × Nat := (value.toNat / 2 ^ 28 % 2 ^ 12, value.toNat / 2 ^ 40 % 2 ^ 8)

/-- A write of KBCTL (R305). -/
def State.writeKbctl (value : Word) (s : State) : State :=
  let s := { s with dirs := { s.dirs with kbctl := keepBits value (bitsMask 47 28 + 1) } }
  if !value.getLsbD 63 then s
  else match s.dirs.move with
    | some _ => { s with dirs := { s.dirs with queued := some value } }
    | none => s.beginKeyMove (keyMoveOf value).1 (keyMoveOf value).2

/-- KBCTL_GO (R305). -/
def execKbctlGo (value : Word) (s : State) : Host.Outcome State Fault Refusal := .next (s.posted (.reg .kbctl value) (State.writeKbctl value))

/-- The oldest queued arrivals of a directory take its free entries: at most `fuel` of them. -/
def State.promoteAll (d : Nat) : Nat → State → State
  | 0, s => s
  | fuel + 1, s => State.promoteAll d fuel (s.promote d)

/-- Steps 3 to 5 of a move: the waiting parties and the forming groups of the bucket go to the new directory, in their order (R306); then
the move that waits begins. -/
def State.finishKeyMove (b t : Nat) (s : State) : State :=
  let d := (s.keyEntry b).dir
  let mine (w : Waiter) : Bool := keyBucket w.key w.keysp w.vd = b
  let ours (g : Group) : Bool := keyBucket g.key g.keysp g.vd = b
  let s := { s with dirs := { s.dirs with
    waiters := s.dirs.waiters.filter (fun w => !mine w) ++ s.dirs.waiters.filter mine
    groups := s.dirs.groups.filter (fun g => !ours g) ++ s.dirs.groups.filter ours } }
  let s := s.setKeyBucket b ⟨false, t⟩
  let n := s.dirs.waiters.length + s.dirs.groups.length
  let s := State.promoteAll t n (State.promoteAll d n s)
  let q := s.dirs.queued
  let s := { s with dirs := { s.dirs with move := none, queued := none } }
  match q with
  | some v => s.beginKeyMove (keyMoveOf v).1 (keyMoveOf v).2
  | none => s

/-- KEY_BUCKET_MOVE: once what its old directory had accepted is processed, the bucket moves (R306). -/
def execKeyBucketMove (s : State) : Host.Outcome State Fault Refusal :=
  .next (match s.dirs.move with
    | none => s
    | some (b, t, mark) => if s.keyMoveWaits b mark then s else s.finishKeyMove b t)

/-- The move that the key rebalancer chooses: bucket and directory (R305). -/
def State.rebalanceKeys (s : State) : Option (Nat × Nat) :=
  let total := sumOf (s.dirs.hits.map (fun h => h.2))
  match mostOf 256 (fun _ => true) (countIn s.dirs.hits) with
  | none => none
  | some d =>
    if countIn s.dirs.hits d * 256 ≤ 2 * total then none
    else
      match mostOf 4096 (fun b => (s.keyEntry b).dir = d) (countIn s.dirs.bucketHits),
        fewestOf 256 (fun n => n / 64 = d / 64) (countIn s.dirs.hits) with
      | some b, some t => some (b, t)
      | _, _ => none

/-- KEY_REBALANCER (R305). -/
def execKeyRebalancer (s : State) : Host.Outcome State Fault Refusal :=
  .next (
    if s.cycle % 65536 ≠ 0 then s
    else
      let m := if s.dirs.kbctl.getLsbD 0 && s.dirs.move.isNone then s.rebalanceKeys else none
      let s := { s with dirs := { s.dirs with hits := [], bucketHits := [] } }
      match m with
      | some (b, t) => s.beginKeyMove b t
      | none => s)

/-! ## Host queues (R376) -/

/-- A write of JQCTL: EN = 1 with a reserved LOGN or a misaligned BASE sets ERR and leaves EN = 0; HEAD stays. -/
def Vd.writeJqctl (v : Vd) (q : Nat) (value : Word) : Vd :=
  let bad := value.getLsbD 63 && (value.toNat / 2 ^ 32 % 16 > 12 || v.jqbaseOf q % 64 ≠ 0)
  let old := v.jqctlOf q
  let err := bad || (old.testBit 62 && !value.getLsbD 62)
  let new := (if value.getLsbD 63 && !bad then 2 ^ 63 else 0) + (if err then 2 ^ 62 else 0) +
    value.toNat / 2 ^ 32 % 16 * 2 ^ 32 + ringHead old * 2 ^ 16 + value.toNat % 2 ^ 16
  { v with jqctl := v.jqctl.put q (BitVec.ofNat 64 new) }

/-- A write of JQCTLq of a VD. -/
def State.putJqctl (vd q : Nat) (value : Word) (s : State) : State :=
  if vd ≥ 64 || q ≥ 16 then s else s.modVd vd (fun v => v.writeJqctl q value)

/-- JQ_ENABLE (R376). -/
def execJqEnable (vd q : Nat) (value : Word) (s : State) : Host.Outcome State Fault Refusal :=
  .next (s.posted (.reg (.jqctl vd q) value) (State.putJqctl vd q value))

/-- A write of TAIL alone. -/
def State.putTail (vd q : Nat) (tail : BitVec 16) (s : State) : State :=
  if vd ≥ 64 || q ≥ 16 then s
  else s.modVd vd (fun v => { v with jqctl := v.jqctl.put q (mergeBits (BitVec.ofNat 64 (v.jqctlOf q)) (tail.setWidth 64) 0xFFFF) })

/-- JQ_DOORBELL: a write of TAIL, which the sequence point numbers as a posted host write (R376, R413). -/
def execJqDoorbell (vd q : Nat) (tail : BitVec 16) (s : State) : Host.Outcome State Fault Refusal :=
  .next (s.posted (.tail vd q tail) (State.putTail vd q tail))

/-! ## Gateway activities (R420) -/

/-- Activity slots of a gateway core, and its pages (R420). -/
def gatewaySlots : Nat := 4
/-- Pages of a gateway core. -/
def gatewayPages : Nat := 64

/-- Start a gateway activity with a descriptor and its code. -/
def State.startGateway (ag : Agent) (slot vd : Nat) (c : Card) (image : List Byte) (s : State) : State :=
  let uid := s.nextUid
  let job := { c.ctx 0 0 with vd := vd, stage := 0, trape := 0, ovle := 0 }
  let a := { Activity.start uid ag slot 0 s.cycle job with prog := some ⟨none, 0, 0, 0, none, []⟩ }
  let s := (s.focusCore ag).modCore (fun k => { k with
    segs := k.segs ++ [CodeSeg.load ⟨uid, vd, [], 0, [], false, c.pages, none, 0⟩ image c.cwords] })
  s.place a [(1, BitVec.ofNat 64 ag.num), (2, 0), (3, 0), (63, BitVec.ofNat 64 job.top)]

/-- A GO to GWCTLn: the descriptor and the code are read under the VD's DASID; a GO that finds no free slot or no free pages, or whose
descriptor fails, starts nothing and is reported. -/
def State.goGateway (n vd va : Nat) (s : State) : State :=
  let ag : Agent := ⟨.gateway, n⟩
  let refuse (code : Nat) : State := s.report 2 n 8 (some vd) va code
  let out := match s.svc.warm with
    | some (d, _) => decide (n / 4 = d)
    | none => false
  match allOk (s.readVirt vd (s.dasid vd) va 64) with
  | .error e => refuse e
  | .ok bs =>
    let c := Card.parse bs
    let s := s.keepVirt vd (s.dasid vd) va 64
    let refuse (code : Nat) : State := s.report 2 n 8 (some vd) va code
    if !c.passes gatewayPages vd || out || s.pagesUsed ag + c.footprint > gatewayPages then refuse errRefused
    else match allOk (s.readVirt vd (s.dasid vd) c.code (4 * c.cwords)), s.freeSlot ag gatewaySlots with
      | .ok image, some slot => (s.keepVirt vd (s.dasid vd) c.code (4 * c.cwords)).startGateway ag slot vd c image
      | .error e, _ => refuse e
      | _, none => refuse errRefused

/-- Whether a line that a GO to GWCTL reads lies in a bucket that is moving (R296). -/
def State.gwctlHeld (s : State) (vd va : Nat) : Bool :=
  s.virtHeld vd (s.dasid vd) va 64 || (match allOk (s.readVirt vd (s.dasid vd) va 64) with
    | .ok bs => s.virtHeld vd (s.dasid vd) (Card.parse bs).code (4 * (Card.parse bs).cwords)
    | .error _ => false)

/-- A write of GWCTLn; a GO waits while a line that it reads moves (R296). -/
def State.writeGwctl (n : Nat) (value : Word) (s : State) : State :=
  if n ≥ Config.gateways then s
  else if value.getLsbD 63 && s.gwctlHeld (value.toNat / 2 ^ 56 % 64) (value.toNat % 2 ^ 56) then s.keepInbound (.reg (.gwctl n) value)
  else
  let s := { s with svc := { s.svc with gwctl := s.svc.gwctl.put n (keepBits value (bitsMask 61 0)) } }
  if value.getLsbD 63 then s.goGateway n (value.toNat / 2 ^ 56 % 64) (value.toNat % 2 ^ 56) else s

/-- GATEWAY_START: a GO to GWCTLn (R420). -/
def execGatewayStart (n : Nat) (value : Word) (s : State) : Host.Outcome State Fault Refusal :=
  .next (s.posted (.reg (.gwctl n) value) (State.writeGwctl n value))

/-! ## Service commands: the write of SVCCMD (R432) -/

/-- The operation and the argument of a value of SVCCMD. -/
def svcOp (v : Word) : Nat := v.toNat / 2 ^ 48 % 256
/-- The argument. -/
def svcArg (v : Word) : Nat := v.toNat % 2 ^ 48

/-- Whether an operation takes an argument: no reserved bit is set, and every part is in its range (R432). -/
def svcArgOk (op arg : Nat) : Bool :=
  match op with
  | 1 => arg < Config.computeCores
  | 2 => arg < Config.spindles
  | 3 => arg < 2 ^ 32 && arg % 512 < 384
  | 4 => arg < 2 ^ 16 && (arg % 256 < 4 || (16 ≤ arg % 256 && arg % 256 < 32 && arg / 256 < 16))
  | 5 => 1 ≤ arg && arg < 4
  | 6 => arg < 2 ^ 14
  | _ => false

/-- Whether a command names a core or a spindle that is retired (R433). -/
def State.alreadyRetired (s : State) (op arg : Nat) : Bool :=
  (op = 1 && (s.coreOf (coreAgent arg)).retired) || (op = 2 && arg ∈ s.svc.spindlesRetired)

/-- A write of SVCCMD: a GO starts a command unless one is running; one that is not in order ends at once with BADARG or REFUSED. -/
def State.writeSvccmd (value : Word) (s : State) : State :=
  let s := { s with svc := { s.svc with svccmd := mergeBits s.svc.svccmd value (bitsMask 55 0) } }
  if !value.getLsbD 63 || s.svc.run.isSome then s
  else
    let op := svcOp value
    let arg := svcArg value
    let status := if !svcArgOk op arg then 1 else if s.alreadyRetired op arg then 3 else 0
    { s with svc := { s.svc with run := some ⟨op, arg, s.cycle, status, status ≠ 0⟩ } }

/-! ## Invalidations (R441, R442) -/

/-- The bytes that a value of XLINV covers: none for every page of the ASID. -/
def xlinvLen (w0 : Word) : Option Nat :=
  match w0.toNat / 2 ^ 56 % 4 with
  | 0 => some (w0.toNat % 2 ^ 20 * 2 ^ 16)
  | 1 => some (w0.toNat % 2 ^ 20 * 2 ^ 21)
  | 2 => some (w0.toNat % 2 ^ 20 * 2 ^ 30)
  | _ => none

/-- Whether XLINV's VA is aligned to its page size; any VA is with SZ = 3. -/
def xlinvAligned (w0 w1 : Word) : Bool :=
  match w0.toNat / 2 ^ 56 % 4 with
  | 0 => w1.toNat % 2 ^ 16 = 0
  | 1 => w1.toNat % 2 ^ 21 = 0
  | 2 => w1.toNat % 2 ^ 30 = 0
  | _ => true

/-- Whether an invalidation covers a page. -/
def XlinvRun.covers (x : XlinvRun) (vd asid va size : Nat) : Bool :=
  x.vd = vd && x.asid = asid && (match x.len with
    | none => true
    | some n => va < x.va + n && x.va < va + size)

/-- The frames that an invalidation frees, as pairs of an address and a length: where the walks of the VD have found the range (R442; DEDUCED,
log 63). -/
def State.freedFrames (s : State) (x : XlinvRun) : List (Nat × Nat) :=
  (s.cache.mapped.filter (fun t => x.covers t.vd t.asid t.va t.size)).map (fun t =>
    let lo := if x.len.isNone then t.va else max t.va x.va
    let hi := match x.len with
      | none => t.va + t.size
      | some n => min (t.va + t.size) (x.va + n)
    (t.pa + (lo - t.va), hi - lo))

/-- Whether an address lies in a frame. -/
def inFrames (fs : List (Nat × Nat)) (pa : Nat) : Bool := fs.any (fun f => f.1 ≤ pa && pa < f.1 + f.2)

/-- Whether a line holds bytes of a frame. -/
def Line.inFrames (fs : List (Nat × Nat)) (l : Line) : Bool :=
  l.sects.any (fun t => (t.2.cells ++ t.2.side).any (fun c => Machine.inFrames fs c.1)) || l.band.any (fun c => Machine.inFrames fs c.1)

/-- What an invalidation leaves in a spindle's cache (R277): the program descriptors and code images whose virtual addresses it does not cover,
and the tensor descriptors that stand in no frame that it frees (DEDUCED, log 118). -/
def Core.dropCached (c : Core) (x : XlinvRun) (fs : List (Nat × Nat)) (dasid : Nat → Nat) : Core :=
  let gone (e : DescEntry) : Bool := if e.tid = 0 then x.covers e.vd (dasid e.vd) e.va 64 else e.vd = x.vd && inFrames fs e.va
  { c with
    descs := c.descs.filter (fun e => !(c.agent.kind = .spindle && gone e))
    images := c.images.filter (fun e => !x.covers e.vd (dasid e.vd) e.va e.bytes.length) }

/-- Steps 2 and 3 of R442: translations in the range are dropped, and what spindles keep from it (R277); the commands translated in it are
noted. -/
def State.beginXlinv (x : XlinvRun) (s : State) : State :=
  let drop (c : Core) : Core :=
    { c with tlb := c.tlb.filter (fun t => !x.covers t.vd t.asid t.va t.size) }.dropCached x (s.freedFrames x) s.dasid
  let hit (c : Cmd) : Bool := c.xlat.any (fun p => p.2.isSome && x.covers c.vd (s.asidOf c) (p.1 * pageBytes) pageBytes)
  let cmds := s.allCores.flatMap (fun k => (k.copyq.filter hit).map (fun c => c.id))
  { s with core := drop s.core, cores := s.cores.map drop, svc := { s.svc with xlrun := some { x with cmds := cmds } } }

/-- A write of XLINV word 0: a GO that is in order starts an invalidation, any other sets ERR. -/
def State.writeXlinv (value : Word) (s : State) : State :=
  let err := s.svc.xlinv0.getLsbD 61 && !value.getLsbD 61
  let fields := keepBits value (bitsMask 57 34 + bitsMask 19 0)
  let set (e : Bool) : State := { s with svc := { s.svc with xlinv0 := fields ||| (if e then BitVec.ofNat 64 (2 ^ 61) else 0) } }
  if !value.getLsbD 63 then set err
  else if s.svc.xlrun.isSome || xlinvLen value = some 0 || !xlinvAligned value s.svc.xlinv1 then
    { s with svc := { s.svc with xlinv0 := s.svc.xlinv0 ||| BitVec.ofNat 64 (2 ^ 61) } }
  else (set err).beginXlinv ⟨value.toNat / 2 ^ 50 % 64, value.toNat / 2 ^ 34 % 2 ^ 16, s.svc.xlinv1.toNat, xlinvLen value, [], s.cycle⟩

/-! ## Other registers (R377, R395, R290, R429) -/

/-- The field of DSPCFG that MIGHI is, when it is in its range (R377). -/
def writeDspcfg (old value : Word) : Word :=
  let migOk := 2 ≤ value.toNat % 32 && value.toNat % 32 ≤ 16
  mergeBits old value (bitsMask 47 36 + bitsMask 9 8 + (if migOk then 31 else 0))

/-- VDASID: a TTLEN above 65,536 leaves the field as it was (R395). -/
def writeVdasid (old value : Word) : Word :=
  mergeBits old value (bitsMask 15 0 + (if value.toNat / 2 ^ 32 % 2 ^ 17 ≤ 65536 then bitsMask 48 32 else 0))

/-- The bits of a word of a format region register (R290). -/
def frrMask : Nat → Nat
  | 0 => 2 ^ 63 + bitsMask 55 0
  | 1 => bitsMask 51 0
  | 2 => 2 ^ 64 - 1
  | _ => bitsMask 51 0

/-- A write of ERRCTL: EN and CONS, and OVF cleared by a 1 (R429). -/
def Svc.writeErrctl (v : Svc) (value : Word) : Svc :=
  { v with errEn := value.getLsbD 63, errOvf := v.errOvf && !value.getLsbD 62, errCons := value.toNat % 2 ^ 16 }

/-- Change the service controllers' registers. -/
def State.modSvc (f : Svc → Svc) (s : State) : State := { s with svc := f s.svc }

/-- A write of a register of one virtual device. -/
def State.writeVdReg (vd : Nat) (f : Vd → Vd) (s : State) : State := if vd < 64 then s.modVd vd f else s

/-- A write of a register of the module. -/
def State.whenBooted (f : State → State) (s : State) : State := if s.booted then f s else s

/-- Whether the boot ROM has finished, whatever came of it: ERRCTL and SVCCMD are there (R445). -/
def State.presented (s : State) : Bool := s.svc.boot ≠ .pending

/-- A write of a register of BAR0 updates its RW fields and clears the W1C bits written as 1 (R4). -/
def State.putReg (reg : HostReg) (value : Word) (s : State) : State :=
  match reg with
  | .jqbase vd q => if q < 16 then s.writeVdReg vd (fun v => { v with jqbase := v.jqbase.put q (keepBits value (bitsMask 55 0)) }) else s
  | .jqctl vd q => s.putJqctl vd q value
  | .vdctl vd => s.writeVdctl vd value
  | .shr vd c => s.writeShr vd c value
  | .waymsk vd slice => s.writeWaymsk vd slice value
  | .coresel core => s.writeCoresel core value
  | .vdtab vd => s.writeVdReg vd (fun v => { v with vdtab := keepBits value (bitsMask 51 6) })
  | .vdasid vd => s.writeVdReg vd (fun v => { v with vdasid := writeVdasid v.vdasid value })
  | .vdrdir vd => s.writeVdReg vd (fun v => { v with vdrdir := keepBits value (bitsMask 51 12) })
  | .dspcfg vd => s.writeVdReg vd (fun v => { v with dspcfg := writeDspcfg v.dspcfg value })
  | .jsbase vd => s.writeVdReg vd (fun v => { v with jsbase := keepBits value (bitsMask 51 16 + 1) })
  | .spool vd => s.writeVdReg vd (fun v => { v with spool := keepBits value (bitsMask 51 0) })
  | .rbctl => s.writeRbctl value
  | .kbctl => s.writeKbctl value
  | .dspcmd => s.writeDspcmd value
  | .gwctl n => s.writeGwctl n value
  | .frr n r w =>
    if n < Config.spindles && r < 16 && w < 4 then
      s.modCoreOf ⟨.spindle, n⟩ (fun k => { k with frr := k.frr.put (4 * r + w) (keepBits value (frrMask w)) })
    else s
  | _ => s

/-- What a read of a register of BAR0 gives; its write-only bits read 0. -/
def State.getReg (s : State) : HostReg → Word
  | .jqbase vd q => BitVec.ofNat 64 ((s.vd vd).jqbaseOf q)
  | .jqctl vd q => BitVec.ofNat 64 ((s.vd vd).jqctlOf q)
  | .vdctl vd =>
    let v := s.vd vd
    BitVec.ofNat 64 ((if v.en then 1 else 0) + (if v.serr then 2 else 0) + (if v.spown then 4 else 0))
  | .shr vd c => BitVec.ofNat 64 (((s.vd vd).shareOf c).1 * 2 ^ 32 + ((s.vd vd).shareOf c).2)
  | .waymsk vd slice => (s.waymsk vd slice).setWidth 64
  | .coresel core =>
    let c := s.coreOf (coreAgent core)
    BitVec.ofNat 64 ((if c.selRes then 128 else 0) + (if c.selBusy then 64 else 0) + c.selVd)
  | .gwavail => s.svc.gwavail.setWidth 64
  | .vdtab vd => (s.vd vd).vdtab
  | .vdasid vd => (s.vd vd).vdasid
  | .vdrdir vd => (s.vd vd).vdrdir
  | .dspcfg vd => (s.vd vd).dspcfg
  | .jsbase vd => (s.vd vd).jsbase
  | .spool vd => (s.vd vd).spool
  | .rbctl => s.cache.rbctl ||| (if s.cache.move.isSome then 2 else 0)
  | .kbctl => s.dirs.kbctl ||| (if s.dirs.move.isSome then 2 else 0)
  | .dspcmd => s.disp.dspcmd
  | .gwctl n => (s.svc.gwctl.find n).getD 0
  | .frr n r w => ((s.coreOf ⟨.spindle, n⟩).frr.find (4 * r + w)).getD 0
  | _ => 0

/-! ## BAR0 (R410) -/

/-- The register of a VD's block at an offset. -/
def vdRegAt (vd o : Nat) : Option HostReg :=
  if o < 0x100 then (if o % 16 = 0 then some (.jqbase vd (o / 16)) else if o % 16 = 8 then some (.jqctl vd (o / 16)) else none)
  else if o = 0x100 then some (.vdctl vd)
  else if o = 0x108 then some (.vdtab vd)
  else if o = 0x110 then some (.vdasid vd)
  else if o = 0x118 then some (.vdrdir vd)
  else if o = 0x120 then some (.dspcfg vd)
  else if o = 0x128 then some (.jsbase vd)
  else if o = 0x130 then some (.spool vd)
  else if 0x140 ≤ o && o < 0x170 && o % 8 = 0 then some (.shr vd ((o - 0x140) / 8))
  else if o = 0x200 then some .gwavail
  else none

/-- The register at an offset of the physical function's BAR0. -/
def pfRegAt (o : Nat) : Option HostReg :=
  if o < 0x40000 then vdRegAt (o / 0x1000) (o % 0x1000)
  else if o = 0x40000 then some .rbctl
  else if o = 0x40008 then some .kbctl
  else if o = 0x40010 then some .dspcmd
  else if o % 8 ≠ 0 then none
  else if 0x50000 ≤ o && o < 0x50000 + 8 * Config.gateways then some (.gwctl ((o - 0x50000) / 8))
  else if 0x80000 ≤ o && o < 0x80000 + 8 * Config.computeCores then some (.coresel ((o - 0x80000) / 8))
  else if 0x100000 ≤ o && o < 0x140000 && o % 0x1000 < 8 * Config.spindles then
    some (.waymsk ((o - 0x100000) / 0x1000) (o % 0x1000 / 8))
  else if 0x200000 ≤ o && o < 0x200000 + 0x200 * Config.spindles then
    some (.frr ((o - 0x200000) / 0x200) (o % 0x200 / 0x20) (o % 0x20 / 8))
  else none

/-- The register at an offset of a BAR0: that of the virtual function of a VD, or of the physical function. -/
def regAt (vf : Option Nat) (o : Nat) : Option HostReg :=
  match vf with
  | some vd => if vd < 64 then vdRegAt vd o else none
  | none => pfRegAt o

/-- Whether a virtual function may write a register. -/
def vfWrites : HostReg → Bool
  | .jqbase _ _ => true
  | .jqctl _ _ => true
  | _ => false

/-- A write through a BAR0: every offset without a register, and a register that is read-only there, ignores it. -/
def State.bar0Write (vf : Option Nat) (o : Nat) (value : Word) (s : State) : State :=
  match regAt vf o with
  | some reg => if vf.isSome && !vfWrites reg then s else s.putReg reg value
  | none => s

/-- A read through a BAR0: 0 at every offset without a register. -/
def State.bar0Read (vf : Option Nat) (o : Nat) (s : State) : State :=
  s.modSvc (fun v => { v with hostAnswer := some (toBytes 8 (((regAt vf o).map s.getReg).getD 0).toNat) })

/-- What a register access does, once its turn has come. -/
def State.regAccess (reg : HostReg) (value : Word) (s : State) : State :=
  match reg with
  | .bar0 vf o true => s.bar0Read vf o
  | .bar0 vf o false => s.bar0Write vf o value
  | _ => s.putReg reg value

/-- REGISTER_WRITE: a write of a register updates its RW fields and clears the W1C bits written as 1 (R4); through BAR0 it is a posted write
(R413), and a read of BAR0 is answered after the writes before it. -/
def execRegisterWrite (reg : HostReg) (value : Word) (s : State) : Host.Outcome State Fault Refusal :=
  .next (match reg with
    | .svccmd => if s.presented then s.writeSvccmd value else s
    | .errbase => s.whenBooted (State.modSvc (fun v => { v with errbase := keepBits value (bitsMask 51 12 + 15) }))
    | .errctl => if s.presented then s.modSvc (fun v => v.writeErrctl value) else s
    | .xlinv0 => s.whenBooted (State.writeXlinv value)
    | .xlinv1 => s.whenBooted (State.modSvc (fun v => { v with xlinv1 := keepBits value (bitsMask 55 0) }))
    | .thwarn => s.whenBooted (State.modSvc (fun v => { v with thwarn := keepBits value 0xFFFF }))
    | .bar0 _ _ true => s.whenBooted (State.receive (.reg reg value) (State.regAccess reg value))
    | _ => s.posted (.reg reg value) (State.regAccess reg value))

/-! ## Accesses that have waited (R296, R413, R416, R421) -/

/-- What has come in has its effect. -/
def State.deliverIn (i : Inbound) (s : State) : State :=
  match i with
  | .hostWrite vd va data relaxed => s.hostWrite vd va data relaxed
  | .hostRead vd va len => s.hostRead vd va len
  | .reg reg value => s.regAccess reg value
  | .tail vd q tail => s.putTail vd q tail
  | .peerAccess link vd va data write => s.peerAccess link vd va data write
  | .blockRecord link vd data => s.blockRecord link vd data

/-- What waits is tried again, in its order. -/
def State.retryInbound (s : State) : State :=
  s.svc.inbound.foldl (fun (s : State) i => s.receive i (State.deliverIn i)) { s with svc := { s.svc with inbound := [] } }

end Sys2Proof.Machine
end

