-- ==== Sys2Proof/Machine/Service.lean ====
section
/-! DEFINITION. The service controllers (R426-R447): service commands, die warm reset, invalidations, error registers, replays, monitors,
cold reset, keys and attestation. -/

namespace Sys2Proof.Machine

/-! ## Service commands (R431-R436) -/

/-- The longest wait for the activities of a core, a spindle or a die (R433, R438). -/
def drainCycles : Nat := 8500000

/-- Whether a command with an operation and an argument is running. -/
def State.running (s : State) (op arg : Nat) : Bool :=
  match s.svc.run with
  | some r => r.op = op && r.arg = arg && !r.done
  | none => false

/-- The running command has done its work, with a status. -/
def State.endCommand (status : Nat) (s : State) : State :=
  s.modSvc (fun v => { v with run := v.run.map (fun r => { r with status := status, done := true }) })

/-- Whether the running command has waited for activities as long as it may. -/
def State.overdue (s : State) : Bool := s.svc.run.any (fun r => decide (r.since + drainCycles ≤ s.cycle))

/-- Kill activities with LOST (R433, R438). -/
def State.killAll (uids : List Nat) (s : State) : State :=
  uids.foldl (fun (s : State) u => if (s.act? u).isSome then (s.focus u).killMe statLost stLost stAbandoned false else s) s

/-- The activities that have a slot of compute core n. -/
def State.slotHolders (s : State) (n : Nat) : List Nat :=
  (s.allActs.filter (fun a => a.livesAt n || a.visits n)).map (fun a => a.uid)

/-- End the programs, or the gateway activities, on an agent as faults (R281). -/
def State.faultAll (ag : Agent) (s : State) : State :=
  let f (a : Activity) : Activity :=
    if a.agent = ag && a.life ≠ .absent && a.life ≠ .ending then
      { a with life := .ending, prog := a.prog.map (fun p => { p with fault := some (0, 0) }) }
    else a
  { s with me := f s.me, acts := s.acts.map f }

/-- RETIRE_COMPUTE_CORE: the core is emptied like one in a switch that excludes every VD; what is still there after 8,500,000 cycles is
killed; then it is retired (R433). -/
def execRetireComputeCore (core : Nat) (s : State) : Host.Outcome State Fault Refusal :=
  .next (
    if !s.running 1 core then s
    else
      let s := s.withdraw core
      if s.slotHolders core = [] then (s.modCoreOf (coreAgent core) (fun c => { c with retired := true })).endCommand 0
      else if s.overdue then s.killAll (s.slotHolders core)
      else s)

/-- Send the program requests that wait at a spindle on to the spindles that serve them now, while those have room (R431). -/
def State.sendOn (n : Nat) (s : State) : State :=
  let ag : Agent := ⟨.spindle, n⟩
  (s.coreOf ag).progq.foldl (fun (s : State) q =>
    let core := ((s.anyAct? q.owner).map (fun p => p.1.agent.num)).getD (n / 24 * 256)
    let to_ : Agent := ⟨.spindle, s.programSpindle core⟩
    if to_ = ag || (s.coreOf to_).progq.length ≥ 64 then s
    else (s.modCoreOf ag (fun c => { c with progq := c.progq.filter (· ≠ q) })).modCoreOf to_
      (fun c => { c with progq := c.progq ++ [q] })) s

/-- The lowest bucket whose entry names a slice that meets a test. -/
def State.bucketOf (s : State) (p : Nat → Bool) : Option Nat := (List.range 4096).find? (fun b => p (s.bucket b).slice)

/-- RETIRE_SPINDLE: its requests are sent on, its programs end or are ended, its buckets move away, its replica lines go; then it is
retired (R433). -/
def execRetireSpindle (spindle : Nat) (s : State) : Host.Outcome State Fault Refusal :=
  .next (
    if !s.running 2 spindle then s
    else
      let ag : Agent := ⟨.spindle, spindle⟩
      let s := s.sendOn spindle
      if s.residents ag ≠ [] then (if s.overdue then s.faultAll ag else s)
      else if (s.coreOf ag).progq ≠ [] || s.cache.move.isSome then s
      else match s.bucketOf (· = spindle) with
        | some b =>
          (match fewestOf Config.spindles (fun n => n / 96 = spindle / 96 && n ≠ spindle && s.sliceOk n) (countIn s.cache.hits) with
           | some t => s.beginMove ⟨b, t, (s.bucket b).repl⟩
           | none => s)
        | none =>
          let s := { s with cache := { s.cache with lines := s.cache.lines.filter (fun l => l.slice ≠ spindle) } }
          (s.modSvc (fun v => { v with spindlesRetired := setInsert v.spindlesRetired spindle })).endCommand 0)

/-- REPAIR_DRAM_ROW: post-package repair of a row, its sectors and their poison kept; a repair that fails verification leaves them
poisoned (R434). Whether one does is a free value. -/
def execRepairDramRow (channel bank row : Nat) (s : State) : Host.Outcome State Fault Refusal :=
  .next (
    if channel ≥ 512 || bank ≥ 32 || !s.running 3 (channel + bank * 2 ^ 9 + row * 2 ^ 14) then s
    else
      let k := channel * 32 + bank
      let used := (s.svc.rowRepairs.find k).getD 0
      if used ≥ Config.rowSpares then s.endCommand 2
      else
        let failed := (Config.freeValue s.choiceCtr).getLsbD 0
        let s := { s with choiceCtr := s.choiceCtr + 1 }.modSvc (fun v => { v with rowRepairs := v.rowRepairs.put k (used + 1) })
        let sectors := (Config.rowSectors bank row).map (fun q => channelAddr channel (32 * q) / 32)
        let s := if failed then { s with mem := { s.mem with poison := sectors.foldl setInsert s.mem.poison } } else s
        s.endCommand (if failed then 4 else 0))

/-- Spares of an interface, and the number under which they are counted: a link has one for each direction, of which lanes 0 to 7 and 8 to
15 are the two. -/
def laneSpares (iface lane : Nat) : Nat × Nat := if iface < 4 then (iface, Config.boundarySpares) else (iface * 2 + lane / 8 % 2, 1)

/-- SPARE_A_LANE: a lane is replaced by a redundant one, while there is one (R435). -/
def execSpareALane (iface lane : Nat) (s : State) : Host.Outcome State Fault Refusal :=
  .next (
    if iface ≥ 256 || !s.running 4 (iface + lane * 2 ^ 8) then s
    else
      let (k, n) := laneSpares iface lane
      let used := (s.svc.lanesSpared.find k).getD 0
      if used ≥ n then s.endCommand 2
      else (s.modSvc (fun v => { v with lanesSpared := v.lanesSpared.put k (used + 1) })).endCommand 0)

/-- Whether a request toward a peer module is under way (R436). -/
def State.requestsTo (s : State) (module : Nat) : Bool :=
  s.allCores.any (fun k => k.copyq.any (fun c => c.started && c.todo ≠ [] && c.towards module))

/-- SET_ROUTE: the route to a peer module changes once every request that was sent toward it has completed; new ones are held meanwhile
(R436). -/
def execSetRoute (module link : Nat) (valid : Bool) (s : State) : Host.Outcome State Fault Refusal :=
  .next (
    if module ≥ 512 || link ≥ 16 || !s.running 6 (module + link * 2 ^ 9 + (if valid then 2 ^ 13 else 0)) || s.requestsTo module then s
    else (s.modSvc (fun v => { v with routes := if valid then v.routes.put module link else v.routes.del module })).endCommand 0)

/-- SERVICE_COMMAND_END: STATUS is written, a record of class 0x0C, and BUSY clears (R432). -/
def execServiceCommandEnd (s : State) : Host.Outcome State Fault Refusal :=
  .next (match s.svc.run with
    | none => s
    | some r =>
      if !r.done then s
      else
        let s := s.modSvc (fun v => { v with
          svccmd := mergeBits v.svccmd (BitVec.ofNat 64 (r.status * 2 ^ 56)) (bitsMask 61 56), run := none })
        s.report 3 0 0xC none 0 s.svc.svccmd.toNat)

/-! ## Die warm reset (R437-R439) -/

/-- The agents of a die. -/
def dieAgents (d : Nat) : List Agent :=
  (List.range 1024).map (fun i => ⟨.compute, 1024 * d + i⟩) ++ (List.range 96).map (fun i => ⟨.spindle, 96 * d + i⟩) ++
  (List.range 4).map (fun i => ⟨.gateway, 4 * d + i⟩)

/-- The activities that stand on a die or have a slot there, and are not programs. -/
def State.dieActs (s : State) (d : Nat) : List Activity :=
  s.allActs.filter (fun a => agentDie a.agent = d || (a.agent.kind = .compute && a.home / 1024 = d) ||
    (match a.party.bind (fun p => p.place) with
     | some n => n / 1024 = d
     | none => false))

/-- Whether some command, or some program request, is left on a die. -/
def State.dieBusy (s : State) (d : Nat) : Bool :=
  s.allCores.any (fun k => agentDie k.agent = d && (k.copyq ≠ [] || k.progq ≠ []))

/-- Step 1: the die's jobs pass to die 0's unit, its GWAVAIL bits clear, and its unstarted records are withdrawn. -/
def State.warmBegin (d : Nat) (s : State) : State :=
  let s := { s with disp := { s.disp with jobs := s.disp.jobs.map (fun (j : Job) => if j.owner = d then { j with owner := 0 } else j) } }
  let s := s.modSvc (fun v => { v with warm := some (d, 1), gwavail := v.gwavail &&& ~~~(BitVec.ofNat 16 (15 * 2 ^ (4 * d))) })
  ((s.disp.unstarted.map (fun u => u.core)).eraseDups.filter (fun n => n / 1024 = d)).foldl (fun (s : State) n => s.withdraw n) s

/-- Program requests of a die's spindles are refused: no spindle of the die starts a program (R281, R438). -/
def State.refuseRequests (d : Nat) (s : State) : State :=
  ((List.range 96).map (fun i => 96 * d + i)).foldl (fun (s : State) n =>
    let ag : Agent := ⟨.spindle, n⟩
    (s.coreOf ag).progq.foldl (fun (s : State) q => (s.focusCore ag).refuseProgram q errRefused) s) s

/-- Step 2: the die is emptied; after 8,500,000 cycles what is left is killed or ended. -/
def State.warmDrain (d : Nat) (s : State) : State :=
  let acts := s.dieActs d
  if acts = [] && !s.dieBusy d then s.modSvc (fun v => { v with warm := some (d, 2) })
  else if !s.overdue then s
  else
    let s := s.killAll ((acts.filter (fun a => a.prog.isNone)).map (fun a => a.uid))
    let s := s.refuseRequests d
    ((acts.filter (fun a => a.prog.isSome)).map (fun a => a.agent)).foldl (fun (s : State) ag => s.faultAll ag) s

/-- Step 3: the key buckets of the die's directories move to those of die 0, one after the other. -/
def State.warmKeys (d : Nat) (s : State) : State :=
  if s.dirs.move.isSome then s
  else match (List.range 4096).find? (fun b => (s.keyEntry b).dir / 64 = d) with
    | some b => s.beginKeyMove b ((s.keyEntry b).dir - 64 * d)
    | none => s.modSvc (fun v => { v with warm := some (d, 3) })

/-- The slice of die 0 to which a bucket of a slice moves: the one with its number, or that with the fewest accesses where it is retired. -/
def State.warmTarget (s : State) (d slice : Nat) : Nat :=
  if s.sliceOk (slice - 96 * d) then slice - 96 * d
  else (fewestOf 96 s.sliceOk (countIn s.cache.hits)).getD (slice - 96 * d)

/-- Steps 4 and 5: the address buckets of the die's slices move to die 0, one after the other; its replica lines go, and its links go
down. -/
def State.warmSlices (d : Nat) (s : State) : State :=
  if s.cache.move.isSome then s
  else match s.bucketOf (fun n => n / 96 = d) with
    | some b => s.beginMove ⟨b, s.warmTarget d (s.bucket b).slice, (s.bucket b).repl⟩
    | none =>
      { s with cache := { s.cache with lines := s.cache.lines.filter (fun l => l.slice / 96 ≠ d) } }.modSvc (fun v => { v with
        warm := some (d, 4), linksUp := v.linksUp.filter (fun n => n / 4 ≠ d) })

/-- What a warm reset leaves of an agent (R439); the mark of a retired compute core stays, which the list of R439 does not name (DESIGN CHOICE,
log 104). -/
def Core.warm (c : Core) : Core :=
  { Core.fresh c.agent with slotGen := c.slotGen, selRes := c.selRes, selVd := c.selVd, retired := c.retired, frr := c.frr }

/-- The buckets of an arbiter of a class, full, with an empty surplus pool. -/
def State.fullShare (s : State) (c : Nat) : Share :=
  { Share.empty with tokens := s.enabledVds.foldl (fun (m : AMap Nat) v => m.put v.1 ((v.2.shareOf c).2 * 1024)) [] }

/-- The arbiters of a die, those of its two boundaries among them. -/
def dieArbiters (d : Nat) : List Arbiter :=
  [.boundary (d / 2) false, .boundary (d / 2) true, .boundary (2 + d % 2) false, .boundary (2 + d % 2) true] ++
  (dieAgents d).map .issue ++ (dieAgents d).map portTo ++ (List.range 96).map (fun i => .slice (96 * d + i)) ++
  (List.range 96).map (fun i => .channel (96 * d + i)) ++ (List.range 4).flatMap (fun i => [.link (4 * d + i) false, .link (4 * d + i) true])

/-- The units of a command whose requests the warm reset has held, which are released in their order (R438, step 10). -/
def State.warmMark (s : State) (c : Cmd) : Cmd :=
  if c.started then { c with warmUnits := c.todo.filter (fun u => u ∉ c.filled && s.unitAt c u s.warmHeld) } else c

/-- Steps 7 to 11: the die's logic is reset, its links are up again, and the command ends. The lane spares in use stay counted, which the list
of R439 does not name (DESIGN CHOICE, log 134). -/
def State.warmReset (d : Nat) (s : State) : State :=
  let f (c : Core) : Core := if agentDie c.agent = d then c.warm else { c with copyq := c.copyq.map s.warmMark }
  let arbs := dieArbiters d
  let s := { s with
    core := f s.core
    cores := s.cores.map f
    arbs := s.arbs.filter (fun (x : Arbiter × Share) => x.1 ∉ arbs) ++ arbs.map (fun a => (a, s.fullShare (arbClass a)))
    cache := { s.cache with hits := s.cache.hits.filter (fun h => h.1 / 96 ≠ d) }
    dirs := { s.dirs with hits := s.dirs.hits.filter (fun h => h.1 / 64 ≠ d) } }
  (s.modSvc (fun v => { v with
    warm := none
    telem := v.telem.del d
    linksUp := (List.range 4).foldl (fun l i => setInsert l (4 * d + i)) v.linksUp
    gwavail := v.gwavail ||| BitVec.ofNat 16 (15 * 2 ^ (4 * d)) })).endCommand 0

/-- DIE_WARM_RESET: the next step of a warm reset (R438). -/
def execDieWarmReset (die : Nat) (s : State) : Host.Outcome State Fault Refusal :=
  .next (
    if !s.running 5 die then s
    else match s.svc.warm with
      | none => s.warmBegin die
      | some (_, 1) => s.warmDrain die
      | some (_, 2) => s.warmKeys die
      | some (_, 3) => s.warmSlices die
      | some _ => s.warmReset die)

/-! ## Translation (R440-R443) -/

/-- XLINV_GO (R441, R442). -/
def execXlinvGo (value : Word) (s : State) : Host.Outcome State Fault Refusal := .next (if s.booted then s.writeXlinv value else s)

/-- The cycles from a GO of XLINV until BUSY clears on an idle device (R442). -/
def xlinvCycles : Nat := 2200

/-- Whether an invalidation can end: its time is over, and the commands translated in the range are done (R442). -/
def State.xlinvDone (s : State) (x : XlinvRun) : Bool := x.since + xlinvCycles ≤ s.cycle + 1 && !x.cmds.any (fun id => (s.cmd? id).isSome)

/-- Whether nothing holds up the end of an invalidation: no copy command anywhere, and no dirty line in the freed frames (R442). -/
def State.xlinvIdle (s : State) (x : XlinvRun) : Bool :=
  s.allCores.all (fun k => k.copyq = []) && !s.cache.lines.any (fun l => l.key.vd = x.vd && l.dirty && l.inFrames (s.freedFrames x))

/-- XLINV_ACK: once the commands translated in the range are done, the lines of the VD in the freed frames are written back and invalidated,
and BUSY clears (R442). -/
def execXlinvAck (s : State) : Host.Outcome State Fault Refusal :=
  .next (match s.svc.xlrun with
    | none => s
    | some x =>
      if !s.xlinvDone x then s
      else
        let fs := s.freedFrames x
        let t := (s.flushLines (fun l => l.key.vd = x.vd && l.inFrames fs)).modSvc (fun v => { v with xlrun := none })
        { t with cache := { t.cache with mapped := t.cache.mapped.filter (fun e => !x.covers e.vd e.asid e.va e.size) } })

/-! ## Errors, replays and monitors (R415, R428-R430, R444) -/

/-- ERRCTL. -/
def Svc.errctl (v : Svc) : Word :=
  BitVec.ofNat 64 ((if v.errEn then 2 ^ 63 else 0) + (if v.errOvf then 2 ^ 62 else 0) + v.errDrops * 2 ^ 32 + v.errProd * 2 ^ 16 + v.errCons)

/-- ERRCTL_READ: a read returns DROPS and clears it (R429). -/
def execErrctlRead (s : State) : Host.Outcome State Fault Refusal :=
  .next (if s.presented then s.modSvc (fun v => { v with errRead := v.errctl, errDrops := 0 }) else s)

/-- The events of an activity from a cycle on come a cycle later. -/
def Activity.later (a : Activity) (at_ : Nat) : Activity :=
  { a with nextIssue := max a.nextIssue at_ + 1, pend := a.pend.map (fun x => { x with due := x.due + 1 }) }

/-- The events of an agent's units come a cycle later. -/
def Core.later (c : Core) (cycle : Nat) : Core :=
  { c with
    divBusy := c.divBusy + 1, cmpFree := c.cmpFree + 1, portFree := c.portFree + 1, pushFree := c.pushFree + 1
    copyq := c.copyq.map (fun d => if cycle < d.due then { d with due := d.due + 1 } else d)
    matq := c.matq.map (fun d => { d with started := d.started.map (· + 1) })
    locq := c.locq.map (fun d => { d with started := d.started.map (· + 1) })
    vecq := c.vecq.map (fun d => { d with due := d.due + 1 }) }

/-- The kind and the number of a unit with shadow latches, as an error record gives them (R430). -/
def latchedCode : Latched → Nat × Nat
  | .agent a => (kindCode a.kind, a.num)
  | .slice n => (5, n)
  | .router n => (4, n)

/-- TIMING_REPLAY: a unit repeats a stage: its own events come one cycle later, which is counted and reported (R428). A slice or a router
has no cycle of its own in the model: what it delivers may always come later (log 53). -/
def execTimingReplay (unit : Latched) (s : State) : Host.Outcome State Fault Refusal :=
  .next (
    let t := match unit with
      | .agent ag =>
        let f (a : Activity) : Activity := if a.agent = ag then a.later s.updateCycle else a
        ({ s with me := f s.me, acts := s.acts.map f }).modCoreOf ag (fun c => c.later s.cycle)
      | _ => s
    t.report (latchedCode unit).1 (latchedCode unit).2 3 none 0 0)

/-- FLIT_REPLAY: a flit that failed its CRC is replayed, counted and reported (R415). -/
def execFlitReplay (link : Nat) (s : State) : Host.Outcome State Fault Refusal :=
  .next (if link ∈ s.svc.linksUp then s.report 8 link 9 none 0 0 else s)

/-- Every clock stops, and what device memory holds is lost (R444). -/
def State.trip (s : State) : State :=
  { s with
    svc := { s.svc with tripped := true, linksUp := [] }
    mem := { s.mem with bytes := s.mem.bytes.filter (fun c => paKind c.1 ≠ .device)
                        poison := s.mem.poison.filter (fun q => paKind (32 * q) ≠ .device)
                        keyOf := s.mem.keyOf.filter (fun k => paKind (32 * k.1) ≠ .device) } }

/-- 115 °C, in sixteenths (R444). -/
def tripLimit : Int := 1840

/-- TELEMETRY_UPDATE: every 1,024 cycles the monitors' readings of a die reach the registers; a TMAX above THWARN is reported, and one of
115 °C stops the module (R444). -/
def execTelemetryUpdate (die : Nat) (telem : Word) (power : BitVec 32) (energy : Word) (s : State) : Host.Outcome State Fault Refusal :=
  .next (
    if !s.booted || die ≥ 4 || s.cycle % 1024 ≠ 0 then s
    else
      let t := keepBits telem (bitsMask 47 0)
      let s := s.modSvc (fun v => { v with telem := v.telem.put die t, pwravg := power, energy := energy })
      let tmax := (t.setWidth 16).toInt
      let s := if tmax > (s.svc.thwarn.setWidth 16).toInt then s.report 3 die 0xB none (t.toNat % 2 ^ 16) (s.svc.thwarn.toNat % 2 ^ 16) else s
      if tripLimit ≤ tmax then s.trip else s)

/-- THERMTRIP: a junction reaches 115 °C between two readings: every clock stops, and device memory is lost (R444). -/
def execThermtrip (die : Nat) (s : State) : Host.Outcome State Fault Refusal := .next (if die ≥ 4 then s else s.trip)

/-! ## Cold reset and secure boot (R445) -/

/-- The hashes of the public keys that the fuses hold for a key slot; 0 where they hold none. -/
def Svc.fusedKeys (v : Svc) (slot : Nat) : Nat × Nat := (v.keyHash.find slot).getD (0, 0)

/-- Whether an image passes the ROM's checks: its header, its version, its key slot, the hashes of its public keys, and both signatures. -/
def Svc.imageOk (v : Svc) (i : Image) : Bool :=
  i.magic = 0x57465A4B && i.headerVersion = 1 && i.reserved = 0 && v.fusedVersion ≤ i.securityVersion && i.keySlot < 4 &&
  i.keySlot ∉ v.revoked && v.fusedKeys i.keySlot = (i.ecdsaKey, i.lmsKey) && i.ecdsaVerifies && i.lmsVerifies

/-- CXL ports with a device after training. -/
def trainedCxl : AMap Nat :=
  (List.range 8).filterMap (fun w => if Config.cxlBytes w = 0 then none else some (w, min (Config.cxlBytes w) (2 ^ 41)))

/-- The image that runs after a cold reset: the primary one, else the backup. -/
def Svc.bootWith (v : Svc) (primary backup : Image) : Boot :=
  if v.imageOk primary then .running primary else if v.imageOk backup then .running backup else .failed

/-- COLD_RESET: every register takes its Reset value, and the ROM chooses an image; with one, the links are trained. Fuses are kept, and
so is the memory that is not the module's own (R445); row repairs, lane spares and retired marks are forgotten (DESIGN CHOICE, log 134). -/
def execColdReset (primary backup : Image) (s : State) : Host.Outcome State Fault Refusal :=
  .next (
    let b := s.svc.bootWith primary backup
    let v := { Svc.reset with
      boot := b, fusedVersion := s.svc.fusedVersion, revoked := s.svc.revoked, keyHash := s.svc.keyHash, keyHist := s.svc.keyHist }
    let v := match b with
      | .running _ => { v with linksUp := List.range 16, cxl := trainedCxl, gwavail := 0xFFFF }
      | _ => v
    let m : PhysMem :=
      { bytes := s.mem.bytes.filter (fun c => paKind c.1 ≠ .device)
        poison := s.mem.poison.filter (fun q => paKind (32 * q) ≠ .device)
        keyOf := s.mem.keyOf.filter (fun k => paKind (32 * k.1) ≠ .device) }
    { State.reset with svc := v, mem := m, switch := { s.switch with rounds := [] }, choiceCtr := s.choiceCtr })

/-! ## Keys and attestation (R446, R447) -/

/-- Key slots of the module. -/
def keySlots : Nat := 1024

/-- Whether a slot is named by KEYSEL of an enabled VD. -/
def State.slotInUse (s : State) (slot : Nat) : Bool := s.vds.any (fun (v, r) => r.en && s.keySel v = slot)

/-- Whether a vendor request is taken: it comes inside an SPDM secure session (R447). -/
def State.inSession (s : State) : Bool := s.booted && s.svc.sessions ≠ []

/-- SET_KEY (R447). -/
def execSetKey (slot : Nat) (key1 key2 : BitVec 256) (s : State) : Host.Outcome State Fault Refusal :=
  .next (
    if !s.inSession || slot ≥ keySlots || s.slotInUse slot then s
    else
      let p : KeyPair := ⟨key1, key2⟩
      s.modSvc (fun v => { v with
        keys := v.keys.put slot p, keyHist := if p ∈ v.keyHist then v.keyHist else v.keyHist ++ [p] }))

/-- ERASE_KEY (R447). -/
def execEraseKey (slot : Nat) (s : State) : Host.Outcome State Fault Refusal :=
  .next (if !s.inSession || slot ≥ keySlots || s.slotInUse slot then s else s.modSvc (fun v => { v with keys := v.keys.del slot }))

/-- SELECT_KEY (R447). -/
def execSelectKey (vd slot : Nat) (s : State) : Host.Outcome State Fault Refusal :=
  .next (
    if !s.inSession || vd ≥ 64 || slot ≥ keySlots || (s.vd vd).en then s
    else s.modSvc (fun v => { v with keysel := v.keysel.put vd slot }))

/-- RAISE_FUSED_SECURITY_VERSION: refused above the version of the running image; fuses are only ever raised (R445, R447). -/
def execRaiseFusedSecurityVersion (version : Nat) (s : State) : Host.Outcome State Fault Refusal :=
  .next (match s.svc.boot with
    | .running i =>
      if !s.inSession || version > i.securityVersion then s else s.modSvc (fun v => { v with fusedVersion := max v.fusedVersion version })
    | _ => s)

/-- The primary's image as it is measured: its header and the digest of its contents. -/
def imageMeasure (i : Image) : List Nat := [i.magic.toNat, i.headerVersion, i.securityVersion, i.keySlot, i.length, i.reserved, i.digest]

/-- A measurement (R446): the image, those of dies 1 to 3, the fuses; those of the ROM and of the debug state are free values. -/
def State.measurement (s : State) (index : Nat) : List Nat :=
  match index, s.svc.boot with
  | 2, .running i => imageMeasure i
  | 3, .running i => i.dies
  | 4, _ => s.svc.fusedVersion :: (s.svc.revoked ++ (List.range 4).flatMap (fun k => [(s.svc.fusedKeys k).1, (s.svc.fusedKeys k).2]))
  | n, _ => [Config.measured n]

/-- The transcript of an answer, and whether it is signed by ECDSA, and by LMS as well (R446). -/
def State.transcript (s : State) : Spdm → List Nat × Bool × Bool
  | .challenge nonce => (1 :: nonce :: (List.range 5).flatMap (fun i => s.measurement (i + 1)), true, true)
  | .measurement index signed nonce => (2 :: nonce :: index :: s.measurement index, signed, signed)
  | .keyExchange nonce => ([3, nonce], true, false)

/-- Whether a request names a measurement that exists. -/
def spdmInRange : Spdm → Bool
  | .measurement index _ _ => 1 ≤ index && index ≤ 5
  | _ => true

/-- Whether a request opens a secure session. -/
def opensSession : Spdm → Bool
  | .keyExchange _ => true
  | _ => false

/-- SPDM_REQUEST: physical function 0 answers: a signed answer carries both signatures over the same transcript; KEY_EXCHANGE opens a secure
session (R446). -/
def execSpdmRequest (request : Spdm) (s : State) : Host.Outcome State Fault Refusal :=
  .next (
    if !s.booted || !spdmInRange request then s
    else
      let (t, ecdsa, lms) := s.transcript request
      let sigs := (if ecdsa then [Config.signature 0 t] else []) ++ (if lms then [Config.signature 1 t] else [])
      s.modSvc (fun v => { v with
        answers := (t, sigs) :: v.answers, sessions := if opensSession request then v.answers.length :: v.sessions else v.sessions }))

end Sys2Proof.Machine
end

