-- ==== Sys2Proof/Machine/Dispatch.lean ====
section
/-! DEFINITION. The meaning of every instruction and step: one arm each. -/

namespace Sys2Proof.Machine

/-- What an instruction or a step makes of a state. -/
def exec (i : Instr) (s : State) : Host.Outcome State Fault Refusal :=
  match i with
  | .add r => Sys2Proof.Machine.execAdd r s
  | .sub r => Sys2Proof.Machine.execSub r s
  | .adds r => Sys2Proof.Machine.execAdds r s
  | .subs r => Sys2Proof.Machine.execSubs r s
  | .and_ r => Sys2Proof.Machine.execAnd r s
  | .or_ r => Sys2Proof.Machine.execOr r s
  | .xor r => Sys2Proof.Machine.execXor r s
  | .andn r => Sys2Proof.Machine.execAndn r s
  | .shl r => Sys2Proof.Machine.execShl r s
  | .shr r => Sys2Proof.Machine.execShr r s
  | .sar r => Sys2Proof.Machine.execSar r s
  | .ror r => Sys2Proof.Machine.execRor r s
  | .mul r => Sys2Proof.Machine.execMul r s
  | .mulh r => Sys2Proof.Machine.execMulh r s
  | .mulhu r => Sys2Proof.Machine.execMulhu r s
  | .div r => Sys2Proof.Machine.execDiv r s
  | .divu r => Sys2Proof.Machine.execDivu r s
  | .rem r => Sys2Proof.Machine.execRem r s
  | .remu r => Sys2Proof.Machine.execRemu r s
  | .addi stl d a imm => Sys2Proof.Machine.execAddi stl d a imm s
  | .andi stl d a imm => Sys2Proof.Machine.execAndi stl d a imm s
  | .ori stl d a imm => Sys2Proof.Machine.execOri stl d a imm s
  | .xori stl d a imm => Sys2Proof.Machine.execXori stl d a imm s
  | .shli stl d a imm => Sys2Proof.Machine.execShli stl d a imm s
  | .shri stl d a imm => Sys2Proof.Machine.execShri stl d a imm s
  | .sari stl d a imm => Sys2Proof.Machine.execSari stl d a imm s
  | .ceqi stl d a imm => Sys2Proof.Machine.execCeqi stl d a imm s
  | .clti stl d a imm => Sys2Proof.Machine.execClti stl d a imm s
  | .cltui stl d a imm => Sys2Proof.Machine.execCltui stl d a imm s
  | .ceq r => Sys2Proof.Machine.execCeq r s
  | .cne r => Sys2Proof.Machine.execCne r s
  | .clt r => Sys2Proof.Machine.execClt r s
  | .cltu r => Sys2Proof.Machine.execCltu r s
  | .min r => Sys2Proof.Machine.execMin r s
  | .max r => Sys2Proof.Machine.execMax r s
  | .minu r => Sys2Proof.Machine.execMinu r s
  | .maxu r => Sys2Proof.Machine.execMaxu r s
  | .sel r => Sys2Proof.Machine.execSel r s
  | .bfxu r => Sys2Proof.Machine.execBfxu r s
  | .bfxs r => Sys2Proof.Machine.execBfxs r s
  | .bfi r => Sys2Proof.Machine.execBfi r s
  | .clz r => Sys2Proof.Machine.execClz r s
  | .ctz r => Sys2Proof.Machine.execCtz r s
  | .popc r => Sys2Proof.Machine.execPopc r s
  | .bswap r => Sys2Proof.Machine.execBswap r s
  | .adx2 r => Sys2Proof.Machine.execAdx2 r s
  | .adx4 r => Sys2Proof.Machine.execAdx4 r s
  | .adx8 r => Sys2Proof.Machine.execAdx8 r s
  | .adx16 r => Sys2Proof.Machine.execAdx16 r s
  | .br stl off => Sys2Proof.Machine.execBr stl off s
  | .call stl off => Sys2Proof.Machine.execCall stl off s
  | .bnz stl a off => Sys2Proof.Machine.execBnz stl a off s
  | .bz stl a off => Sys2Proof.Machine.execBz stl a off s
  | .loop stl a off => Sys2Proof.Machine.execLoop stl a off s
  | .jmp r => Sys2Proof.Machine.execJmp r s
  | .jcall r => Sys2Proof.Machine.execJcall r s
  | .beq r => Sys2Proof.Machine.execBeq r s
  | .bne r => Sys2Proof.Machine.execBne r s
  | .blt r => Sys2Proof.Machine.execBlt r s
  | .bltu r => Sys2Proof.Machine.execBltu r s
  | .end_ r => Sys2Proof.Machine.execEnd r s
  | .nop r => Sys2Proof.Machine.execNop r s
  | .lb r => Sys2Proof.Machine.execLb r s
  | .lh r => Sys2Proof.Machine.execLh r s
  | .lw r => Sys2Proof.Machine.execLw r s
  | .ld r => Sys2Proof.Machine.execLd r s
  | .lbu r => Sys2Proof.Machine.execLbu r s
  | .lhu r => Sys2Proof.Machine.execLhu r s
  | .lwu r => Sys2Proof.Machine.execLwu r s
  | .sb r => Sys2Proof.Machine.execSb r s
  | .sh r => Sys2Proof.Machine.execSh r s
  | .sw r => Sys2Proof.Machine.execSw r s
  | .sd r => Sys2Proof.Machine.execSd r s
  | .barInit r => Sys2Proof.Machine.execBarInit r s
  | .barExp r => Sys2Proof.Machine.execBarExp r s
  | .barArr r => Sys2Proof.Machine.execBarArr r s
  | .barInval r => Sys2Proof.Machine.execBarInval r s
  | .barWait r => Sys2Proof.Machine.execBarWait r s
  | .barTest r => Sys2Proof.Machine.execBarTest r s
  | .fence r => Sys2Proof.Machine.execFence r s
  | .sleep r => Sys2Proof.Machine.execSleep r s
  | .sleepu r => Sys2Proof.Machine.execSleepu r s
  | .mfs r => Sys2Proof.Machine.execMfs r s
  | .mts r => Sys2Proof.Machine.execMts r s
  | .xret r => Sys2Proof.Machine.execXret r s
  | .yield_ r => Sys2Proof.Machine.execYield r s
  | .freeG r => Sys2Proof.Machine.execFreeG r s
  | .freeV r => Sys2Proof.Machine.execFreeV r s
  | .freeK r => Sys2Proof.Machine.execFreeK r s
  | .region r => Sys2Proof.Machine.execRegion r s
  | .rend r => Sys2Proof.Machine.execRend r s
  | .vadd r => Sys2Proof.Machine.execVadd r s
  | .vsub r => Sys2Proof.Machine.execVsub r s
  | .vmul r => Sys2Proof.Machine.execVmul r s
  | .vmin r => Sys2Proof.Machine.execVmin r s
  | .vmax r => Sys2Proof.Machine.execVmax r s
  | .vminu r => Sys2Proof.Machine.execVminu r s
  | .vmaxu r => Sys2Proof.Machine.execVmaxu r s
  | .vfma r => Sys2Proof.Machine.execVfma r s
  | .vfms r => Sys2Proof.Machine.execVfms r s
  | .vfnma r => Sys2Proof.Machine.execVfnma r s
  | .vabs r => Sys2Proof.Machine.execVabs r s
  | .vneg r => Sys2Proof.Machine.execVneg r s
  | .vsel r => Sys2Proof.Machine.execVsel r s
  | .vand r => Sys2Proof.Machine.execVand r s
  | .vor r => Sys2Proof.Machine.execVor r s
  | .vxor r => Sys2Proof.Machine.execVxor r s
  | .vandn r => Sys2Proof.Machine.execVandn r s
  | .vshl r => Sys2Proof.Machine.execVshl r s
  | .vshr r => Sys2Proof.Machine.execVshr r s
  | .vsar r => Sys2Proof.Machine.execVsar r s
  | .vceq r => Sys2Proof.Machine.execVceq r s
  | .vclt r => Sys2Proof.Machine.execVclt r s
  | .vcle r => Sys2Proof.Machine.execVcle r s
  | .vcun r => Sys2Proof.Machine.execVcun r s
  | .vcltu r => Sys2Proof.Machine.execVcltu r s
  | .kand r => Sys2Proof.Machine.execKand r s
  | .kor r => Sys2Proof.Machine.execKor r s
  | .kxor r => Sys2Proof.Machine.execKxor r s
  | .kandn r => Sys2Proof.Machine.execKandn r s
  | .kpopc r => Sys2Proof.Machine.execKpopc r s
  | .kfirst r => Sys2Proof.Machine.execKfirst r s
  | .kset r => Sys2Proof.Machine.execKset r s
  | .kget r => Sys2Proof.Machine.execKget r s
  | .vbcast r => Sys2Proof.Machine.execVbcast r s
  | .vext r => Sys2Proof.Machine.execVext r s
  | .vins r => Sys2Proof.Machine.execVins r s
  | .vidx r => Sys2Proof.Machine.execVidx r s
  | .vperm r => Sys2Proof.Machine.execVperm r s
  | .vrot r => Sys2Proof.Machine.execVrot r s
  | .vcmpr r => Sys2Proof.Machine.execVcmpr r s
  | .vrsum r => Sys2Proof.Machine.execVrsum r s
  | .vrmax r => Sys2Proof.Machine.execVrmax r s
  | .vrmin r => Sys2Proof.Machine.execVrmin r s
  | .vrcp r => Sys2Proof.Machine.execVrcp r s
  | .vrsqrt r => Sys2Proof.Machine.execVrsqrt r s
  | .vexp2 r => Sys2Proof.Machine.execVexp2 r s
  | .vlog2 r => Sys2Proof.Machine.execVlog2 r s
  | .vsqrt r => Sys2Proof.Machine.execVsqrt r s
  | .vcvt r => Sys2Proof.Machine.execVcvt r s
  | .vqnt r => Sys2Proof.Machine.execVqnt r s
  | .vdqnt r => Sys2Proof.Machine.execVdqnt r s
  | .vld r => Sys2Proof.Machine.execVld r s
  | .vst r => Sys2Proof.Machine.execVst r s
  | .vlds r => Sys2Proof.Machine.execVlds r s
  | .vsts r => Sys2Proof.Machine.execVsts r s
  | .vldx r => Sys2Proof.Machine.execVldx r s
  | .vstx r => Sys2Proof.Machine.execVstx r s
  | .tld r => Sys2Proof.Machine.execTld r s
  | .tst r => Sys2Proof.Machine.execTst r s
  | .tzero r => Sys2Proof.Machine.execTzero r s
  | .tmov r => Sys2Proof.Machine.execTmov r s
  | .tcvt r => Sys2Proof.Machine.execTcvt r s
  | .tfree r => Sys2Proof.Machine.execTfree r s
  | .mma r => Sys2Proof.Machine.execMma r s
  | .accrd r => Sys2Proof.Machine.execAccrd r s
  | .accst r => Sys2Proof.Machine.execAccst r s
  | .azero r => Sys2Proof.Machine.execAzero r s
  | .afree r => Sys2Proof.Machine.execAfree r s
  | .cpy r => Sys2Proof.Machine.execCpy r s
  | .cpyProg r => Sys2Proof.Machine.execCpyProg r s
  | .cpyst r => Sys2Proof.Machine.execCpyst r s
  | .cpyl r => Sys2Proof.Machine.execCpyl r s
  | .cpylSt r => Sys2Proof.Machine.execCpylSt r s
  | .pfx r => Sys2Proof.Machine.execPfx r s
  | .gath r => Sys2Proof.Machine.execGath r s
  | .scat r => Sys2Proof.Machine.execScat r s
  | .red r => Sys2Proof.Machine.execRed r s
  | .tflush r => Sys2Proof.Machine.execTflush r s
  | .codeld r => Sys2Proof.Machine.execCodeld r s
  | .pwin r => Sys2Proof.Machine.execPwin r s
  | .pwret r => Sys2Proof.Machine.execPwret r s
  | .meet r => Sys2Proof.Machine.execMeet r s
  | .part r => Sys2Proof.Machine.execPart r s
  | .msync r => Sys2Proof.Machine.execMsync r s
  | .mcancel r => Sys2Proof.Machine.execMcancel r s
  | .mget r => Sys2Proof.Machine.execMget r s
  | .mgetv r => Sys2Proof.Machine.execMgetv r s
  | .mcpy r => Sys2Proof.Machine.execMcpy r s
  | .mswap r => Sys2Proof.Machine.execMswap r s
  | .coll r => Sys2Proof.Machine.execColl r s
  | .ccancel r => Sys2Proof.Machine.execCcancel r s
  | .fcast r => Sys2Proof.Machine.execFcast r s
  | .fwait r => Sys2Proof.Machine.execFwait r s
  | .fstat r => Sys2Proof.Machine.execFstat r s
  | .jobpost r => Sys2Proof.Machine.execJobpost r s
  | .jobwait r => Sys2Proof.Machine.execJobwait r s
  | .spush r => Sys2Proof.Machine.execSpush r s
  | .sfmt r => Sys2Proof.Machine.execSfmt r s
  | .sfill r => Sys2Proof.Machine.execSfill r s
  | .swb r => Sys2Proof.Machine.execSwb r s
  | .baddq r => Sys2Proof.Machine.execBaddq r s
  | .bqtake r => Sys2Proof.Machine.execBqtake r s
  | .registerWriteback uid => Sys2Proof.Machine.execRegisterWriteback uid s
  | .loadResult uid => Sys2Proof.Machine.execLoadResult uid s
  | .divideResult uid => Sys2Proof.Machine.execDivideResult uid s
  | .vectorAccessDone cmd => Sys2Proof.Machine.execVectorAccessDone cmd s
  | .firstOverrun uid => Sys2Proof.Machine.execFirstOverrun uid s
  | .kill uid => Sys2Proof.Machine.execKill uid s
  | .runBudgetTrap uid => Sys2Proof.Machine.execRunBudgetTrap uid s
  | .missedPromise cmd => Sys2Proof.Machine.execMissedPromise cmd s
  | .missedPromiseTrap uid => Sys2Proof.Machine.execMissedPromiseTrap uid s
  | .refusedStoreTrap uid => Sys2Proof.Machine.execRefusedStoreTrap uid s
  | .journalAck agent entry => Sys2Proof.Machine.execJournalAck agent entry s
  | .retirement uid => Sys2Proof.Machine.execRetirement uid s
  | .copyStart cmd => Sys2Proof.Machine.execCopyStart cmd s
  | .descriptorRead uid => Sys2Proof.Machine.execDescriptorRead uid s
  | .pageWalk cmd => Sys2Proof.Machine.execPageWalk cmd s
  | .lineFill cmd unit replica => Sys2Proof.Machine.execLineFill cmd unit replica s
  | .landingUnit cmd unit => Sys2Proof.Machine.execLandingUnit cmd unit s
  | .storePerformed cmd unit => Sys2Proof.Machine.execStorePerformed cmd unit s
  | .monitorGrant agent => Sys2Proof.Machine.execMonitorGrant agent s
  | .barWaitWake uid => Sys2Proof.Machine.execBarWaitWake uid s
  | .sleepWake uid => Sys2Proof.Machine.execSleepWake uid s
  | .tflushDone cmd => Sys2Proof.Machine.execTflushDone cmd s
  | .codeldDone cmd => Sys2Proof.Machine.execCodeldDone cmd s
  | .programRequestQueued cmd => Sys2Proof.Machine.execProgramRequestQueued cmd s
  | .spindleProgramStart spindle => Sys2Proof.Machine.execSpindleProgramStart spindle s
  | .spindleProgramEnd uid => Sys2Proof.Machine.execSpindleProgramEnd uid s
  | .pushLanded push => Sys2Proof.Machine.execPushLanded push s
  | .returnUpdate msg => Sys2Proof.Machine.execReturnUpdate msg s
  | .mmaStart cmd => Sys2Proof.Machine.execMmaStart cmd s
  | .kstepEnd cmd => Sys2Proof.Machine.execKstepEnd cmd s
  | .tilePortComplete cmd => Sys2Proof.Machine.execTilePortComplete cmd s
  | .directoryArrival msg => Sys2Proof.Machine.execDirectoryArrival msg s
  | .decisionArrives uid => Sys2Proof.Machine.execDecisionArrives uid s
  | .shuttleLanded uid => Sys2Proof.Machine.execShuttleLanded uid s
  | .meetDeadline uid => Sys2Proof.Machine.execMeetDeadline uid s
  | .directoryCancel msg => Sys2Proof.Machine.execDirectoryCancel msg s
  | .partBarrier uid => Sys2Proof.Machine.execPartBarrier uid s
  | .collArrival msg => Sys2Proof.Machine.execCollArrival msg s
  | .collGo uid => Sys2Proof.Machine.execCollGo uid s
  | .collResultsLanded uid => Sys2Proof.Machine.execCollResultsLanded uid s
  | .collDeadline group => Sys2Proof.Machine.execCollDeadline group s
  | .collCancel msg => Sys2Proof.Machine.execCollCancel msg s
  | .groupDissolvedStatus uid => Sys2Proof.Machine.execGroupDissolvedStatus uid s
  | .verdict uid tag => Sys2Proof.Machine.execVerdict uid tag s
  | .heldBufferSpace uid => Sys2Proof.Machine.execHeldBufferSpace uid s
  | .jobQueueEntry vd q => Sys2Proof.Machine.execJobQueueEntry vd q s
  | .jobpostRequest msg => Sys2Proof.Machine.execJobpostRequest msg s
  | .argtDescriptorRead job => Sys2Proof.Machine.execArgtDescriptorRead job s
  | .jobReady job => Sys2Proof.Machine.execJobReady job s
  | .dealChunk die => Sys2Proof.Machine.execDealChunk die s
  | .activityStart agent => Sys2Proof.Machine.execActivityStart agent s
  | .codeLoad agent job => Sys2Proof.Machine.execCodeLoad agent job s
  | .firstIssue uid => Sys2Proof.Machine.execFirstIssue uid s
  | .migration core => Sys2Proof.Machine.execMigration core s
  | .victimChoice die => Sys2Proof.Machine.execVictimChoice die s
  | .eviction uid => Sys2Proof.Machine.execEviction uid s
  | .restore uid => Sys2Proof.Machine.execRestore uid s
  | .jobwaitWake uid => Sys2Proof.Machine.execJobwaitWake uid s
  | .jobCompletion job => Sys2Proof.Machine.execJobCompletion job s
  | .switchEnd core => Sys2Proof.Machine.execSwitchEnd core s
  | .bucketMove => Sys2Proof.Machine.execBucketMove s
  | .keyBucketMove => Sys2Proof.Machine.execKeyBucketMove s
  | .rebalancer => Sys2Proof.Machine.execRebalancer s
  | .keyRebalancer => Sys2Proof.Machine.execKeyRebalancer s
  | .tokenRefill arb => Sys2Proof.Machine.execTokenRefill arb s
  | .jqEnable vd q value => Sys2Proof.Machine.execJqEnable vd q value s
  | .jqDoorbell vd q tail => Sys2Proof.Machine.execJqDoorbell vd q tail s
  | .vdEnable vd value => Sys2Proof.Machine.execVdEnable vd value s
  | .shrWrite vd c value => Sys2Proof.Machine.execShrWrite vd c value s
  | .waymskWrite vd slice value => Sys2Proof.Machine.execWaymskWrite vd slice value s
  | .coreselWrite core value => Sys2Proof.Machine.execCoreselWrite core value s
  | .rbctlGo value => Sys2Proof.Machine.execRbctlGo value s
  | .kbctlGo value => Sys2Proof.Machine.execKbctlGo value s
  | .dspcmdEndJob value => Sys2Proof.Machine.execDspcmdEndJob value s
  | .gatewayStart n value => Sys2Proof.Machine.execGatewayStart n value s
  | .retireComputeCore core => Sys2Proof.Machine.execRetireComputeCore core s
  | .retireSpindle spindle => Sys2Proof.Machine.execRetireSpindle spindle s
  | .repairDramRow channel bank row => Sys2Proof.Machine.execRepairDramRow channel bank row s
  | .spareALane iface lane => Sys2Proof.Machine.execSpareALane iface lane s
  | .dieWarmReset die => Sys2Proof.Machine.execDieWarmReset die s
  | .setRoute module link valid => Sys2Proof.Machine.execSetRoute module link valid s
  | .serviceCommandEnd => Sys2Proof.Machine.execServiceCommandEnd s
  | .xlinvGo value => Sys2Proof.Machine.execXlinvGo value s
  | .xlinvAck => Sys2Proof.Machine.execXlinvAck s
  | .modidWrite value => Sys2Proof.Machine.execModidWrite value s
  | .errctlRead => Sys2Proof.Machine.execErrctlRead s
  | .registerWrite reg value => Sys2Proof.Machine.execRegisterWrite reg value s
  | .timingReplay unit => Sys2Proof.Machine.execTimingReplay unit s
  | .flitReplay link => Sys2Proof.Machine.execFlitReplay link s
  | .telemetryUpdate die telem power energy => Sys2Proof.Machine.execTelemetryUpdate die telem power energy s
  | .thermtrip die => Sys2Proof.Machine.execThermtrip die s
  | .coldReset primary backup => Sys2Proof.Machine.execColdReset primary backup s
  | .hostWrite vd va data relaxed => Sys2Proof.Machine.execHostWrite vd va data relaxed s
  | .hostRead vd va len => Sys2Proof.Machine.execHostRead vd va len s
  | .peerAccess link vd va data write => Sys2Proof.Machine.execPeerAccess link vd va data write s
  | .blockRecord link vd data => Sys2Proof.Machine.execBlockRecord link vd data s
  | .switchReductionResult round => Sys2Proof.Machine.execSwitchReductionResult round s
  | .cxlTimeout cmd => Sys2Proof.Machine.execCxlTimeout cmd s
  | .linkDownTimeout cmd => Sys2Proof.Machine.execLinkDownTimeout cmd s
  | .setKey slot key1 key2 => Sys2Proof.Machine.execSetKey slot key1 key2 s
  | .eraseKey slot => Sys2Proof.Machine.execEraseKey slot s
  | .selectKey vd slot => Sys2Proof.Machine.execSelectKey vd slot s
  | .raiseFusedSecurityVersion version => Sys2Proof.Machine.execRaiseFusedSecurityVersion version s
  | .spdmRequest request => Sys2Proof.Machine.execSpdmRequest request s
  | .linkDown port => Sys2Proof.Machine.execLinkDown port s

end Sys2Proof.Machine
end

