-- ==== Sys2Proof/Machine/Fetch.lean ====
section
/-! DEFINITION. Fetching an instruction (R91, R94, R98), the issue choice of an agent (R390), and loading a word where the next fetch
looks. -/

namespace Sys2Proof.Machine

/-! ## Fetching (R91, R94) -/

/-- The words of a segment from a byte offset on: at most five, none at or beyond CODELEN. -/
def CodeSeg.wordsAt (g : CodeSeg) (pc : Nat) : List (BitVec 32) :=
  (List.range (min 5 (g.len - pc / 4))).map (fun k => BitVec.ofNat 32 (ofBytes (g.bytes.readN (pc + 4 * k) 4)))

/-- What a fetch comes to: an instruction, an overlay trap, or an illegal-instruction trap with its XINFO. -/
inductive Fetched where
  | instr (i : Instr)
  | overlay
  | illegal (info : Word)
deriving DecidableEq, Repr

/-- The length in words that word 0 gives (R77). -/
def wordsOf0 (w0 : BitVec 32) : Nat := lenBytes (w0.toNat % 4) / 4

/-- XINFO of words that are no instruction (R98). -/
def undecoded (ws : List (BitVec 32)) : Word :=
  let w0 := ((ws[0]?).getD 0).toNat
  BitVec.ofNat 64 (w0 + (if w0 % 2 = 1 then ((ws[1]?).getD 0).toNat else 0) * 2 ^ 32)

/-- Fetch the instruction at the PC of the activity in focus: the overlay trap comes first (R94, R100). -/
def State.fetch (s : State) : Fetched :=
  match s.seg with
  | none => .overlay
  | some g =>
    let ws := g.wordsAt s.me.pc.toNat
    match ws with
    | [] => .overlay
    | w0 :: _ =>
      if ws.length < wordsOf0 w0 then .overlay
      else match decodeWords ws with
        | .ok i => .instr i
        | .error _ => .illegal (undecoded ws)

/-! ## Who may issue (R390) -/

/-- Whether the commands that an activity waits for after a restart or a restore are settled (R160). -/
def State.settledFrom (s : State) (a : Activity) : Bool :=
  match a.settling with
  | none => true
  | some m =>
    let k := s.coreOf a.agent
    !(k.copyq.any (fun c => c.owner = a.uid && m ≤ c.id) || k.matq.any (fun c => c.owner = a.uid && m ≤ c.id) ||
      k.vecq.any (fun c => c.owner = a.uid && m ≤ c.id) || k.locq.any (fun c => c.owner = a.uid && m ≤ c.id))

/-- Whether a party neither waits in `part` nor travels. -/
def Activity.present (a : Activity) : Bool :=
  match a.party with
  | some p => p.parting.isNone && p.phase ≠ .leaving
  | none => true

/-- Whether an activity's code is there, and not held (R207, R387). -/
def State.codeThere (s : State) (a : Activity) : Bool :=
  ((s.coreOf a.agent).segs.find? (fun g => g.jid = a.segKey && g.vd = a.job.vd)).any (fun g => !g.held && g.loading.isNone)

/-- Whether an activity's `accrd` is outstanding: it takes its trap at its own PC (R264). -/
def State.readsAcc (s : State) (a : Activity) : Bool := (s.coreOf a.agent).matq.any (fun c => c.owner = a.uid && c.kind = .accrd)

/-- Whether an activity is eligible, but for what only its instruction can tell (R390). -/
def State.eligible (s : State) (a : Activity) : Bool :=
  a.life = .live && (a.block = .none || a.block = .yielded) && !a.fresh && a.trapping.isNone && a.nextIssue ≤ s.cycle && a.uid ∉ s.disp.evicting &&
  a.present && s.settledFrom a && s.codeThere a && !s.readsAcc a && s.canDraw a

/-- The activity that an agent tries to issue from (R390). -/
def State.chosen (s : State) (ag : Agent) : Option Activity :=
  match (s.residents ag).filter s.eligible with
  | [] => none
  | a :: rest => some (rest.foldl (fun b c => if s.issuesBefore b c then b else c) a)

/-- The chosen activity comes into focus, and waits in no `yield` and no settling. -/
def State.take (a : Activity) (s : State) : State :=
  (s.focus a.uid).modMe (fun a => { a with block := if a.block = .yielded then .none else a.block, settling := none })

/-- Whether the instruction that an activity tried is held: it is tried again, and the agent may issue from another (R390). -/
def State.heldBack (s : State) (uid : Nat) : Bool := (s.act? uid).any (fun a => a.firstTry.isSome)

/-- The agent whose turn it is, of those left in a cycle: in any order. -/
def State.nextAgent (s : State) (l : List Agent) : Option Agent :=
  match l with
  | [] => none
  | [a] => some a
  | l => l[(Config.choice s.choiceCtr) % l.length]?

/-! ## Placing an instruction where the next fetch looks -/

/-- The agent kind that an instruction of a major opcode belongs to, for the classes that only a spindle or a gateway core has (R96). -/
def kindOfOp (op : Nat) : AKind := if op = 0x7A then .spindle else if op = 0x7C then .gateway else .compute

/-- An activity of VD 0 at the start of a segment with one code page and one data page. -/
def loadedActivity (uid : Nat) (kind : AKind) (cycle : Nat) : Activity :=
  let job : JobCtx := ⟨0, 1, 0, 0, 0, 0, 1, 1, 3, 0, 0, 0, 0⟩
  { Activity.start uid ⟨kind, 0⟩ 0 1 cycle job with
    fresh := false
    regs := (((⟨[], [], [], [], []⟩ : Regs).set ⟨.g, 1⟩ 0).set ⟨.g, 2⟩ 0x800).set ⟨.g, 63⟩ 0x1000
    prog := if kind = .compute then none else some ⟨none, 0, 0, 0, none, []⟩ }

/-- The activity into whose code an instruction is placed: the one in focus when it runs on the right kind of agent, else a new one. -/
def State.loadInto (s : State) (kind : AKind) : Activity :=
  if s.me.life = .live && s.me.agent.kind = kind then
    { s.me with block := .none, fresh := false, nextIssue := 0, settling := none, party := none, trapping := none, trap := { s.me.trap with prs := false, pmp := false, prb := false } }
  else loadedActivity s.nextUid kind s.cycle

/-- A segment with words written at a byte offset. -/
def CodeSeg.patch (g : CodeSeg) (pc : Nat) (ws : List (BitVec 32)) : CodeSeg :=
  { g with bytes := g.bytes.writeN pc (ws.flatMap ofWord), len := max g.len (pc / 4 + ws.length), held := false, loading := none
           starts := setInsert g.starts (pc / 4) }

/-- The state in which an agent's turn comes next, and it issues the instruction of five words at the PC of the activity that they were
placed for. -/
def State.placeWords (kind : AKind) (ws : List (BitVec 32)) (s : State) : State :=
  let a := s.loadInto kind
  let c := s.coreOf a.agent
  let others := c.segs.filter (fun g => !(g.jid = a.segKey && g.vd = a.job.vd))
  let seg := (c.segs.find? (fun g => g.jid = a.segKey && g.vd = a.job.vd)).getD ⟨a.segKey, a.job.vd, [], 0, [], false, a.job.codePages, none, 0⟩
  let arb : Arbiter := .issue a.agent
  let h := s.share arb
  { s with
    me := a
    acts := (if s.me.life = .absent then s.acts else s.me :: s.acts).filter (fun b => b.uid ≠ a.uid && b.agent ≠ a.agent)
    core := { c with segs := seg.patch a.pc.toNat ws :: others, matq := c.matq.filter (fun m => m.owner ≠ a.uid) }
    cores := (s.core :: s.cores).filter (fun k => k.agent ≠ a.agent)
    disp := { s.disp with evicting := s.disp.evicting.filter (· ≠ a.uid) }
    vds := s.vds.put a.job.vd { s.vd a.job.vd with en := true }
    arbs := (arb, { h with tokens := h.tokens.put a.job.vd 1024 }) :: s.arbs.filter (fun x => x.1 ≠ arb)
    svc := { s.svc with tripped := false }
    agenda := []
    phase := .issue [a.agent]
    nextUid := max s.nextUid (a.uid + 1) }

end Sys2Proof.Machine
end

