-- ==== Sys2Proof/Machine/Turn.lean ====
section
/-! DEFINITION. The turns of a cycle: an agent issues (R390, R454), another unit acts, the cycle ends (R16, R48, R399). -/

namespace Sys2Proof.Machine

/-! ## Issuing -/

/-- The instruction of the activity in focus is fetched and executed. -/
def State.issueOwn (s : State) : Host.Outcome State Fault Refusal :=
  match s.fetch with
  | .instr i => exec i s
  | .overlay => .next (s.takeTrap 4 s.me.pc false)
  | .illegal info => .next (s.takeTrap 1 info false)

/-- What the chosen activity, in focus, does with its slot: an asynchronous trap that is pending comes first, in the cycle in which the
instruction would have issued (R154, R454): while an interlock holds the instruction, it holds the trap, and an `msync` that waits so pairs with
none; else the instruction has its effect. -/
def State.issueMe (s : State) : Host.Outcome State Fault Refusal :=
  match s.asyncCause s.me with
  | none => s.issueOwn
  | some c =>
    match s.issueOwn with
    | .next t =>
      if t.heldBack s.me.uid then .next (t.modAct s.me.uid (fun a => { a with party := a.party.map (fun p => { p with inSync := none }) }))
      else asyncTrap c s.me.uid s
    | o => o

/-- How many `msync` instructions an activity has completed in its meeting (R324). -/
def State.syncsOf (s : State) (uid : Nat) : Nat := (((s.act? uid).bind (fun a => a.party)).map (fun p => p.syncs)).getD 0

/-- A partner whose `msync` an instruction of an activity has completed issues in the same cycle, and draws its token too (R324, R399). -/
def State.drawSync (s before : State) (a : Activity) : State :=
  match (a.party.bind (fun p => p.partner)).bind (fun u => before.act? u) with
  | some q => if before.syncsOf q.uid < s.syncsOf q.uid then s.drawIssue q else s
  | none => s

/-- The turn of an agent, with the agents whose turn comes later: an activity whose instruction is held leaves the slot to another. -/
def State.agentTurn (ag : Agent) (rest : List Agent) (s : State) : Host.Outcome State Fault Refusal :=
  match s.chosen ag with
  | none => .next { s with phase := .issue rest, choiceCtr := s.choiceCtr + 1 }
  | some a =>
    match (s.take a).issueMe with
    | .next t => .next (if t.heldBack a.uid then t else { (t.drawIssue a).drawSync s a with phase := .issue rest, choiceCtr := t.choiceCtr + 1 })
    | o => o

/-! ## Steps of the other units -/

/-- What a unit may do to a state. -/
abbrev Act := State → Host.Outcome State Fault Refusal

/-- Steps that may concern an activity. -/
def actEvents (a : Activity) : List Act :=
  let u := a.uid
  [execDescriptorRead u, execEviction u, execRetirement u, execSpindleProgramEnd u]

/-- Steps that may concern a command of a copy queue. -/
def cmdEvents (c : Cmd) : List Act :=
  [execCopyStart c.id, execPageWalk c.id, execProgramRequestQueued c.id, execTflushDone c.id, execCodeldDone c.id, execCxlTimeout c.id,
   execLinkDownTimeout c.id, execPushLanded c.id] ++
  c.trips.flatMap (fun u => [execLineFill c.id u false, execLineFill c.id u true, (fun s => .next (s.landBeat c.id u)), execLandingUnit c.id u,
    execStorePerformed c.id u])

/-- The code loads of an agent. -/
def loadEvents (k : Core) : List Act :=
  k.segs.filterMap (fun g => if g.loading.isSome then some (execCodeLoad k.agent (g.vd * 65536 + g.jid)) else none)

/-- Steps that may concern what an agent holds. -/
def coreEvents (k : Core) : List Act :=
  k.copyq.flatMap cmdEvents ++
  k.matq.flatMap (fun c => [execMmaStart c.id, execKstepEnd c.id, execTilePortComplete c.id]) ++
  k.vecq.map (fun c => execVectorAccessDone c.id) ++ k.journal.map (fun e => execJournalAck k.agent e.1) ++ loadEvents k ++
  (if k.progq = [] then [] else [execSpindleProgramStart k.agent.num]) ++ (if k.selBusy then [execSwitchEnd k.agent.num] else [])

/-- Steps of the running service command. -/
def svcEvents (r : SvcRun) : List Act :=
  if r.done then [execServiceCommandEnd]
  else match r.op with
    | 1 => [execRetireComputeCore r.arg]
    | 2 => [execRetireSpindle r.arg]
    | 3 => [execRepairDramRow (r.arg % 2 ^ 9) (r.arg / 2 ^ 9 % 32) (r.arg / 2 ^ 14)]
    | 4 => [execSpareALane (r.arg % 256) (r.arg / 256)]
    | 5 => [execDieWarmReset r.arg]
    | _ => [execSetRoute (r.arg % 512) (r.arg / 512 % 16) (r.arg / 2 ^ 13 = 1)]

/-- Every step that another unit might take now. One whose conditions do not hold leaves the state as it is. -/
def State.events (s : State) : List Act :=
  s.allActs.flatMap actEvents ++ s.allCores.flatMap coreEvents ++ (List.range 4).map execVictimChoice ++
  [execBucketMove, execKeyBucketMove, execXlinvAck] ++ s.switch.rounds.map (fun r => execSwitchReductionResult r.id) ++
  (match s.svc.run with
   | some r => svcEvents r
   | none => [])

/-! ## The end of a cycle -/

/-- What a step of another unit makes of a state. -/
def State.after (s : State) (f : Act) : State :=
  match f s with
  | .next t => t
  | _ => s

/-- Take steps one after the other. -/
def State.afterAll (fs : List Act) (s : State) : State := fs.foldl State.after s

/-- What the directories do in a cycle: a deadline that has passed, or what has reached them (R307, R319, R339). -/
def State.dirActs (s : State) : List Act :=
  s.dirs.waiters.map (fun w => execMeetDeadline w.uid) ++ s.dirs.groups.map (fun g => execCollDeadline g.id) ++
  s.msgs.flatMap (fun m => [execDirectoryArrival m.id, execDirectoryCancel m.id, execCollArrival m.id, execCollCancel m.id])

/-- What the dispatch units do in a cycle: an entry of a host queue, what has reached them, completions, descriptors, and a chunk dealt
(R373, R376, R386). -/
def State.unitActs (s : State) : List Act :=
  let job (j : Job) : Nat := j.vd * 65536 + j.jid
  s.disp.jobs.flatMap (fun j => [execJobReady (job j), execJobCompletion (job j)]) ++
  (match s.nextQueue with
   | some (v, q) => [execJobQueueEntry v q]
   | none => []) ++
  s.msgs.flatMap (fun m => [execJobpostRequest m.id, (fun s => .next (s.takeRetired m.id)), (fun s => .next (s.takeEnd m.id))]) ++
  s.disp.jobs.flatMap (fun j => [execJobCompletion (job j), execArgtDescriptorRead (job j)]) ++ (List.range 4).map execDealChunk

/-- What reaches activities in a cycle, and ends their waits: decisions, shuttles, a meeting's barrier, collectives, verdicts, local copies,
released effects, and the wakes of R46. -/
def State.arrivalActs (s : State) : List Act :=
  s.msgs.map (fun m => execReturnUpdate m.id) ++
  s.allActs.flatMap (fun a =>
    let u := a.uid
    [execDecisionArrives u, execShuttleLanded u, execPartBarrier u, execCollGo u, execCollResultsLanded u, execGroupDissolvedStatus u,
     (fun s => .next (s.leaveHeld u)), execHeldBufferSpace u, execJobwaitWake u] ++ (if a.life = .killed then [execRetirement u] else []) ++ a.tags.map (fun t => execVerdict u t.num)) ++
  s.allCores.flatMap (fun k => k.locq.map (fun c => (fun s => .next (s.landLoc c.id) : Act)) ++ [execMonitorGrant k.agent]) ++
  s.allActs.map (fun a => execBarWaitWake a.uid)

/-- Room on the cores is given out: to saved activities (R384), and to those that have not started, which then begin (R40, R388). A load of
code on an idle device is not delayed (R389). -/
def State.roomActs (s : State) : List Act :=
  s.saved.map (fun z => execRestore z.act.uid) ++
  ((s.disp.unstarted.map (fun u => u.core)).eraseDups.map (fun n => execActivityStart (coreAgent n))) ++
  (if s.allCores.all (fun k => k.copyq = []) then s.allCores.flatMap loadEvents else []) ++
  s.allActs.map (fun a => execFirstIssue a.uid)

/-- The cores that may push an activity in this cycle (R51), in core order. -/
def State.pushers (s : State) : List Nat :=
  if s.cycle % 256 ≠ 0 then []
  else (((s.allActs.filter (fun a => a.agent.kind = .compute)).map (fun a => a.agent.num)) ++ s.disp.unstarted.map (fun u => u.core)).foldl
    setInsert []

/-- The requests that have waited too long end (R414, R436), an invalidation that nothing holds up ends too (R442), and what came in from
outside and waits is tried again (R413). -/
def State.lateActs (s : State) : List Act :=
  s.allCores.flatMap (fun k => k.copyq.flatMap (fun c => [execCxlTimeout c.id, execLinkDownTimeout c.id])) ++
  (if s.svc.xlrun.any s.xlinvIdle then [execXlinvAck] else []) ++ [fun s => .next s.retryInbound]

/-- The matrix engines: K-steps and tile-port commands end in their cycles, and what can start then starts (R256, R263, R265, R274). -/
def State.matrixActs (s : State) : List Act :=
  let ms := s.allCores.flatMap (fun k => k.matq)
  ms.map (fun c => execKstepEnd c.id) ++ (ms.filter (fun c => c.started.isSome)).map (fun c => execTilePortComplete c.id) ++
  ms.flatMap (fun c => [execMmaStart c.id, execTilePortComplete c.id])

/-- Evictions are decided and carried on, and the units look for victims (R378, R382, R383). -/
def State.evictionActs (s : State) : List Act := s.evictions.map execEviction ++ (List.range 4).map execVictimChoice

/-- What no unit puts off: each of these takes place in the first cycle in which it can (R55, R274, R307, R317, R348, R378, R383, R389). -/
def State.closeCycle (s : State) : State :=
  let s := s.afterAll s.lateActs
  let s := s.afterAll s.dirActs
  let s := s.afterAll s.unitActs
  let s := s.afterAll s.arrivalActs
  let s := s.afterAll s.matrixActs
  let s := s.dropGone
  let s := s.afterAll s.evictionActs
  let s := s.afterAll s.roomActs
  s.afterAll (s.pushers.map execMigration)

/-- Whether the stream instruction that a program holds waits on back-pressure: it has met a requester that is saved, which still is
(R281, R282). -/
def State.backPressed (s : State) (a : Activity) : Bool :=
  a.firstTry.any (fun t => a.quiet.any (fun q => decide (t ≤ q))) &&
  (a.prog.bind (fun p => p.requester)).any (fun u => s.saved.any (fun z => z.act.uid = u))

/-- The run-budget counter counts a cycle in which the activity is resident and at no blocking point (R48), but not one in which a stream
instruction waits on back-pressure (R281). -/
def State.countCycle (s : State) (a : Activity) : Activity :=
  if a.life = .absent || a.atBlocking || s.backPressed a then a else { a with runc := a.runc + 1 }

/-- What is due for an activity in a cycle before it can issue: results (R87, R123, R146), sleep (R224), run budget (R49, R50). -/
def actDue (cycle : Nat) (a : Activity) : List Act :=
  let u := a.uid
  let has (p : PendKind → Bool) : Bool := a.pend.any (fun x => p x.kind && x.due ≤ cycle)
  (if has (fun k => k = .fixed || k = .engine) then [execRegisterWriteback u] else []) ++
  (if has (fun k => k = .load) then [execLoadResult u] else []) ++
  (if has (fun k => k = .divide) then [execDivideResult u] else []) ++
  (match a.block with
   | .sleep w => if w ≤ cycle then [execSleepWake u] else []
   | _ => []) ++
  (if a.trapping.isSome then [State.resumeTrap u] else []) ++
  (if a.killStat ≠ 0 then [execKill u]
   else if a.job.runb ≠ 0 && a.job.runb < a.runc then [execFirstOverrun u] else []) ++
  (a.promises.filter (fun p => p.cycle ≤ cycle)).map (fun p => execMissedPromise p.cmd)

/-- The arbiters that are refilled: those that have granted, and one of each class for all others (R399). -/
def State.refills (s : State) : List Act :=
  (s.arbs.map (fun x => execTokenRefill x.1)) ++
  [execTokenRefill (.issue ⟨.compute, 4096⟩), execTokenRefill (.slice 384), execTokenRefill (.channel 384), execTokenRefill (.port 2048 0),
   execTokenRefill (.boundary 4 false), execTokenRefill (.link 16 false)]

/-- The requests that wait at the arbiters (R400). -/
def State.requests (s : State) : List Request :=
  s.cmdRequests ++ s.allCores.flatMap s.walkRequests ++ s.shuttleRequests ++ s.collRequests ++ s.transitRequests

/-- The cycle ends: what no unit puts off takes place, CYCLE advances, the buckets are refilled and the arbiters grant (R399, R400), and what
is due in the new cycle comes before the agents issue. -/
def State.tick (s : State) : State :=
  let s := s.closeCycle.remaskSets.endTransits.setVdctls
  let c := s.cycle + 1
  let s := { s with
    cycle := c
    me := s.countCycle s.me
    acts := s.acts.map s.countCycle
    saved := s.saved.map (fun (z : Saved) => { z with since := if s.savedReady z then some (z.since.getD c) else none }) }
  let s := s.afterAll s.refills
  let s := s.grants s.requests
  let s := s.afterAll ((if c % 65536 = 0 then [execRebalancer, execKeyRebalancer] else []) ++ s.allActs.flatMap (actDue c))
  { s with phase := .issue ((s.allActs.filter (fun a => a.life = .live)).map (fun a => a.agent)).eraseDups }

/-- The turn of the other units: one of them acts, or the cycle ends; which, the spec leaves open (R18, R55). -/
def State.deviceTurn (s : State) : Host.Outcome State Fault Refusal :=
  let es := s.events
  let n := Config.choice s.choiceCtr % (es.length + 1)
  let s := { s with choiceCtr := s.choiceCtr + 1 }
  match es[n]? with
  | some f => f s
  | none => .next s.tick

/-- Whether a term of `Instr` is a step of a unit, and not an encoded instruction. -/
def isStep (i : Instr) : Bool :=
  match i.enc with
  | .step => true
  | _ => false

/-- An entry of the agenda takes effect: steps only. -/
def State.agendaTurn (i : Instr) (s : State) : Host.Outcome State Fault Refusal := if isStep i then exec i s else .next s

/-- While every clock is stopped, only a cold reset on the agenda has an effect (R444). -/
def State.stoppedTurn (s : State) : Host.Outcome State Fault Refusal :=
  match s.agenda.findSome? (fun i => match i with
    | .coldReset p b => some (p, b)
    | _ => none) with
  | some (p, b) => execColdReset p b s
  | none => .fault .clocksStopped

end Sys2Proof.Machine
end

