-- ==== Sys2Proof/Machine/Step.lean ====
section
/-! DEFINITION. One step of the machine: what stands on the agenda (inputs from outside, and what is due), an agent's turn to issue, or the
turn of another unit. -/

namespace Sys2Proof.Machine

/-- One step. -/
def step (s : State) : Host.Outcome State Fault Refusal :=
  if s.svc.tripped then s.stoppedTurn
  else match s.agenda with
    | i :: rest => State.agendaTurn i { s with agenda := rest }
    | [] =>
      match s.phase with
      | .issue l =>
        (match s.nextAgent l with
         | some ag => s.agentTurn ag (l.erase ag)
         | none => .next { s with phase := .device })
      | .device => s.deviceTurn

/-- The state with an instruction stored where the next step fetches: the bits above `nbits` are 0, up to five words. -/
def State.withFetchWord (s : State) (nbits w : Nat) : State :=
  s.placeWords (kindOfOp (w / 2 ^ 5 % 2 ^ 7)) (splitWords 5 (w % 2 ^ nbits))

end Sys2Proof.Machine
end

