-- ==== Sys2Proof/WellFormed.lean ====
section
/-! DEFINITION. Which terms of `Instr` are instructions: those that R97 does not make illegal. -/

namespace Sys2Proof

/-- A well-formed instruction: an encoded one that meets every condition of R97. -/
def Instr.WellFormed (i : Instr) : Prop := i.legal = true

end Sys2Proof
end

