-- ==== Sys2Proof/Safety.lean ====
section
/-! DEFINITION. What the claims call safe: a state in which nothing has stopped the clocks, an instruction that is ready to issue
(R100), an activity that may take a trap (R154, R155), and the invariants. -/

namespace Sys2Proof.Machine

/-- Nothing has stopped the machine: the only stop is THERMTRIP# (R444). -/
def State.Running (s : State) : Prop := s.svc.tripped = false

/-- An encoded instruction that passes every check of R100 steps 2 to 6 in a state, and that no interlock holds: it is an
instruction of the agent, its system register exists and may be written, its guard holds, no operand waits for a result, no
destination has a write pending, and the home of every spilled source, the guard among them, is good. A source that is spilled is refilled
as the instruction issues, in `State.prepare`, and the refill takes no time: this is the model's reading (log 39), on which every statement
about a `Ready` instruction rests. -/
structure Ready (i : Instr) (s : State) : Prop where
  legal : i.WellFormed
  agent : i.onAgent s.me.agent.kind = true
  assigned : ∀ n w, sysRegOf i = some (n, w) → sysAssigned n s.me.agent.kind = true
  writable : ∀ n, sysRegOf i = some (n, true) → sysWritable n = true
  guarded : ∀ x neg, i.guard = some (x, neg) →
    s.me.interlocked x = false ∧ (s.me.schk = true → s.me.pendOf x = none) ∧ ((s.me.g x.num ≠ 0) ↔ neg = false)
  gate : ∀ x neg, i.guard = some (x, neg) → s.me.pendOf x = none → s.me.badHome [x] = none
  sources : ∀ x ∈ s.me.reads i, s.me.interlocked x = false
  stalled : s.me.schk = true → ∀ x ∈ s.me.reads i, s.me.pendOf x = none
  targets : ∀ x ∈ i.dsts, s.me.interlocked x = false ∧ s.me.pendOf x = none
  homes : s.me.badHome (s.me.reads i) = none
  vector : i.blocking = true → s.vecBusy = false

/-- An encoded instruction whose guard does not hold, and which is otherwise checked up to its guard (R84). -/
structure Guarded (i : Instr) (s : State) : Prop where
  legal : i.WellFormed
  agent : i.onAgent s.me.agent.kind = true
  assigned : ∀ n w, sysRegOf i = some (n, w) → sysAssigned n s.me.agent.kind = true
  writable : ∀ n, sysRegOf i = some (n, true) → sysWritable n = true
  fails : ∃ x neg, i.guard = some (x, neg) ∧ s.me.interlocked x = false ∧ (s.me.schk = true → s.me.pendOf x = none) ∧
    (s.me.pendOf x = none → s.me.badHome [x] = none) ∧ ((s.me.g x.num ≠ 0) ↔ neg = true)

/-- An activity on a compute core that takes a synchronous trap at once: it holds no forecast tags, no vector access is in the queue, it
is in no handler, and its handler's address is one to which control may go (R154, R155, R93). -/
structure TrapReady (cause : Nat) (s : State) : Prop where
  settled : s.me.speculative = false
  vector : s.vecBusy = false
  compute : s.me.prog = none
  outside : s.me.trap.inh = false
  target : s.badTarget (s.me.job.handler cause) = none

/-! ## What an instruction that has issued leaves -/

/-- A result on its way to a register, which a later reader sees from a cycle on; none for g0 and k0, whose writes are discarded
(R43, R87). -/
def newWrite (kind : PendKind) (due : Nat) (keep : List Reg) (x : Reg) (v : Vec) : List Pend :=
  if x.binds then [⟨x, v, due, kind, keep⟩] else []

/-- What is left when an instruction has issued from a state, its effect being results `w` on their way: control goes to the next
instruction, the next issue comes after its stall count (R88), and an instruction of R46 starts the run-budget counter anew (R48, R49).
Nothing else changes. -/
def State.issued (i : Instr) (w : List Pend) (p : State) : State :=
  { p with me := { p.me with
      pend := p.me.pend ++ w
      pc := p.me.pc + BitVec.ofNat 64 i.bytes
      lastPc := p.me.pc
      blockAt := p.cycle
      nextIssue := max (p.cycle + 1 + i.stl) p.me.nextIssue
      lastIssue := p.cycle
      runc := if i.blocking then 0 else p.me.runc
      overrun := if i.blocking then false else p.me.overrun
      firstTry := none
      listRead := none
      descWait := none } }

/-- The same when control goes to an address: one cycle more unless it is the next instruction (R138), or the transfer is a `loop` on a
spindle (R288). -/
def State.issuedTo (i : Instr) (target : Word) (w : List Pend) (p : State) : State :=
  let straight := target = p.me.pc + BitVec.ofNat 64 i.bytes ∨ (p.me.agent.kind = .spindle ∧ i.op = 0x24)
  { p.issued i w with me := { (p.issued i w).me with
      pc := target
      nextIssue := max (p.cycle + (if straight then 1 else 2) + i.stl) p.me.nextIssue } }

/-- Control may go to an address: it is a multiple of 4, and lies outside the segment or at the start of an instruction (R93). -/
def State.Reachable (s : State) (t : Int) : Prop := s.badTarget t = none

/-! ## The scalar instructions by shape -/

/-- An instruction of two sources and its value (R126, R127, R129, R133): its constructor, its latency (R122), and the value from
G[A] and SrcB(). -/
structure BinaryOp where
  make : R → Instr
  latency : Nat
  value : Word → Word → Word

/-- The two signed operands and the quotient of R127, toward zero. -/
def signedQuotient (x y : Int) : Int := (x * y).sign * ((x.natAbs / y.natAbs : Nat) : Int)

/-- The instructions of R127 whose results are fixed-latency. -/
def arithmeticOps : List BinaryOp := [
  ⟨.add, 1, fun a b => BitVec.ofNat 64 (a.toNat + b.toNat)⟩,
  ⟨.sub, 1, fun a b => BitVec.ofInt 64 ((a.toNat : Int) - b.toNat)⟩,
  ⟨.adds, 1, fun x y => BitVec.ofInt 64 (min (max (x.toInt + y.toInt) (-2 ^ 63)) (2 ^ 63 - 1))⟩,
  ⟨.subs, 1, fun x y => BitVec.ofInt 64 (min (max (x.toInt - y.toInt) (-2 ^ 63)) (2 ^ 63 - 1))⟩,
  ⟨.and_, 1, fun a b => a &&& b⟩,
  ⟨.or_, 1, fun a b => a ||| b⟩,
  ⟨.xor, 1, fun a b => a ^^^ b⟩,
  ⟨.andn, 1, fun a b => a &&& ~~~b⟩,
  ⟨.shl, 1, fun a b => BitVec.ofNat 64 (a.toNat * 2 ^ (b.toNat % 64))⟩,
  ⟨.shr, 1, fun a b => BitVec.ofNat 64 (a.toNat / 2 ^ (b.toNat % 64))⟩,
  ⟨.sar, 1, fun a b => BitVec.ofInt 64 (a.toInt / 2 ^ (b.toNat % 64))⟩,
  ⟨.ror, 1, fun a b => a >>> (b.toNat % 64) ||| a <<< (64 - b.toNat % 64)⟩,
  ⟨.mul, 3, fun a b => BitVec.ofNat 64 (a.toNat * b.toNat)⟩,
  ⟨.mulh, 3, fun x y => BitVec.ofInt 64 (x.toInt * y.toInt / 2 ^ 64)⟩,
  ⟨.mulhu, 3, fun a b => BitVec.ofNat 64 (a.toNat * b.toNat / 2 ^ 64)⟩]

/-- The divisions of R127. -/
def divisionOps : List BinaryOp := [
  ⟨.div, 20, fun x y => if y.toInt = 0 then BitVec.ofInt 64 (-1) else BitVec.ofInt 64 (signedQuotient x.toInt y.toInt)⟩,
  ⟨.divu, 20, fun a b => if b.toNat = 0 then BitVec.ofInt 64 (-1) else BitVec.ofNat 64 (a.toNat / b.toNat)⟩,
  ⟨.rem, 20, fun x y => if y.toInt = 0 then x else BitVec.ofInt 64 (x.toInt - y.toInt * signedQuotient x.toInt y.toInt)⟩,
  ⟨.remu, 20, fun a b => if b.toNat = 0 then a else BitVec.ofNat 64 (a.toNat - b.toNat * (a.toNat / b.toNat))⟩]

/-- The comparisons, minima and maxima of R129. -/
def compareOps : List BinaryOp := [
  ⟨.ceq, 1, fun a b => if a = b then 1 else 0⟩,
  ⟨.cne, 1, fun a b => if a ≠ b then 1 else 0⟩,
  ⟨.clt, 1, fun a b => if a.toInt < b.toInt then 1 else 0⟩,
  ⟨.cltu, 1, fun a b => if a.toNat < b.toNat then 1 else 0⟩,
  ⟨.min, 1, fun a b => if a.toInt ≤ b.toInt then a else b⟩,
  ⟨.max, 1, fun a b => if b.toInt ≤ a.toInt then a else b⟩,
  ⟨.minu, 1, fun a b => if a.toNat ≤ b.toNat then a else b⟩,
  ⟨.maxu, 1, fun a b => if b.toNat ≤ a.toNat then a else b⟩]

/-- The scaled adds of R133. -/
def scaledOps : List BinaryOp := [
  ⟨.adx2, 1, fun a b => BitVec.ofNat 64 (a.toNat + 2 * b.toNat)⟩,
  ⟨.adx4, 1, fun a b => BitVec.ofNat 64 (a.toNat + 4 * b.toNat)⟩,
  ⟨.adx8, 1, fun a b => BitVec.ofNat 64 (a.toNat + 8 * b.toNat)⟩,
  ⟨.adx16, 1, fun a b => BitVec.ofNat 64 (a.toNat + 16 * b.toNat)⟩]

/-- The immediate forms of R128: the constructor, and the value from G[A] and m := Trunc(64, Sext(IMM8)). -/
def immediateOps : List ((BitVec 3 → BitVec 6 → BitVec 6 → BitVec 8 → Instr) × (Word → Word → Word)) := [
  (.addi, fun a m => BitVec.ofInt 64 ((a.toNat : Int) + m.toInt)),
  (.andi, fun a m => a &&& m),
  (.ori, fun a m => a ||| m),
  (.xori, fun a m => a ^^^ m),
  (.shli, fun a m => BitVec.ofNat 64 (a.toNat * 2 ^ m.toNat)),
  (.shri, fun a m => BitVec.ofNat 64 (a.toNat / 2 ^ m.toNat)),
  (.sari, fun a m => BitVec.ofInt 64 (a.toInt / 2 ^ m.toNat)),
  (.ceqi, fun a m => if a = m then 1 else 0),
  (.clti, fun a m => if a.toInt < m.toInt then 1 else 0),
  (.cltui, fun a m => if a.toNat < m.toNat then 1 else 0)]

/-- The conditional transfers to an absolute target of R135: the constructor and the condition. -/
def branchOps : List ((R → Instr) × (Word → Word → Prop)) := [
  (.beq, fun a b => a = b),
  (.bne, fun a b => a ≠ b),
  (.blt, fun a b => a.toInt < b.toInt),
  (.bltu, fun a b => a.toNat < b.toNat)]

/-- The target of a transfer that is taken in a state (R135). -/
def takenTransfer (i : Instr) (p : State) : Option Int :=
  match i with
  | .br _ off => some (p.me.pc.toNat + 4 * off.toInt)
  | .call _ off => some (p.me.pc.toNat + 4 * off.toInt)
  | .bnz _ a off => if p.me.g a.toNat ≠ 0 then some (p.me.pc.toNat + 4 * off.toInt) else none
  | .bz _ a off => if p.me.g a.toNat = 0 then some (p.me.pc.toNat + 4 * off.toInt) else none
  | .loop _ a off => if p.me.g a.toNat ≠ 1 then some (p.me.pc.toNat + 4 * off.toInt) else none
  | .jmp r => some (p.me.g r.a.toNat).toNat
  | .jcall r => some (p.me.g r.a.toNat).toNat
  | .beq r => if p.me.g r.a.toNat = p.me.srcB r then some r.x.toNat else none
  | .bne r => if p.me.g r.a.toNat ≠ p.me.srcB r then some r.x.toNat else none
  | .blt r => if (p.me.g r.a.toNat).toInt < (p.me.srcB r).toInt then some r.x.toNat else none
  | .bltu r => if (p.me.g r.a.toNat).toNat < (p.me.srcB r).toNat then some r.x.toNat else none
  | _ => none

/-- The loads of R140: the constructor, the bytes, and the value from the little-endian number of the bytes (R141). -/
structure LoadOp where
  make : R → Instr
  size : Nat
  extend : Nat → Word

/-- The loads of R140. -/
def loadOps : List LoadOp := [
  ⟨.lb, 1, fun v => (BitVec.ofNat 8 v).signExtend 64⟩,
  ⟨.lh, 2, fun v => (BitVec.ofNat 16 v).signExtend 64⟩,
  ⟨.lw, 4, fun v => (BitVec.ofNat 32 v).signExtend 64⟩,
  ⟨.ld, 8, fun v => BitVec.ofNat 64 v⟩,
  ⟨.lbu, 1, fun v => (BitVec.ofNat 8 v).setWidth 64⟩,
  ⟨.lhu, 2, fun v => (BitVec.ofNat 16 v).setWidth 64⟩,
  ⟨.lwu, 4, fun v => (BitVec.ofNat 32 v).setWidth 64⟩]

/-- The stores of R140: the constructor and the bytes. -/
def storeOps : List ((R → Instr) × Nat) := [(.sb, 1), (.sh, 2), (.sw, 4), (.sd, 8)]

/-- The bits [p+w-1:p] of a word, as a number. -/
def bitField (x : Word) (p w : Nat) : Nat := x.toNat / 2 ^ p % 2 ^ w

/-- The value of R148 for a system register number, as the state holds it. -/
def systemRegister (s : State) : List (Nat × Word) := [
  (0x00, BitVec.ofNat 64 s.cycle),
  (0x01, BitVec.ofNat 64 s.me.actid),
  (0x02, if s.me.schk then 1 else 0),
  (0x03, BitVec.ofNat 64 (s.me.job.codePages * 0x800)),
  (0x04, BitVec.ofNat 64 s.codeLen),
  (0x05, s.me.seed),
  (0x06, BitVec.ofNat 64 s.me.runc),
  (0x07, BitVec.ofNat 64 (s.me.job.jid % 2 ^ 16 * 2 ^ 48 + s.me.job.vd % 64 * 2 ^ 10 + s.me.job.cls % 4 * 2 ^ 8 + s.me.job.stage % 256)),
  (0x08, BitVec.ofNat 64 (s.me.regs.boundG % 256 + s.me.regs.boundV % 256 * 2 ^ 8)),
  (0x10, s.me.trap.xpc),
  (0x11, s.me.trap.xcause),
  (0x12, s.me.trap.xinfo),
  (0x13, BitVec.ofNat 64 ((if s.me.trap.prb then 2 ^ 10 else 0) + (if s.me.trap.pmp then 2 ^ 9 else 0) +
    (if s.me.trap.prs then 2 ^ 8 else 0) + (if s.me.trap.inh then 1 else 0))),
  (0x18, s.me.region.pc),
  (0x19, BitVec.ofNat 64 (s.me.region.rcnt % 2 ^ 16 * 2 ^ 8 + s.me.region.try_ % 4 * 2 ^ 2 + (if s.me.region.pin then 2 else 0) +
    (if s.me.region.open_ then 1 else 0))),
  (0x20, (s.me.ts.find 0).getD 0), (0x21, (s.me.ts.find 1).getD 0), (0x22, (s.me.ts.find 2).getD 0), (0x23, (s.me.ts.find 3).getD 0),
  (0x24, (s.me.ts.find 4).getD 0), (0x25, (s.me.ts.find 5).getD 0), (0x26, (s.me.ts.find 6).getD 0), (0x27, (s.me.ts.find 7).getD 0),
  (0x40, s.me.psjpc),
  (0x41, s.svc.gwavail.setWidth 64),
  (0x42, s.svc.modid.setWidth 64)]

/-- A barrier instruction's address passes its checks (R216, R199): its 16 bytes may be written, and it is a multiple of 16. -/
def State.BarrierAt (p : State) (y : Nat) : Prop := p.checkLocal true y 16 = none ∧ y % 16 = 0

/-- The status that `bar.wait` and `bar.test` give (R220): the status code, ELAST, CODE and PHASE in their bits. -/
def barrierStatus (b : Bar) (code : Nat) : Word :=
  BitVec.ofNat 64 (code + (if b.elast then 2 ^ 8 else 0) + b.code * 2 ^ 10 + b.phase * 2 ^ 16)

/-! ## The vector instructions by shape -/

/-- Element i of a vector register, of width w: bits [w·i+w−1 : w·i] (R167). -/
def element (w : Nat) (x : Vec) (i : Nat) : BitVec w := x.extractLsb' (w * i) w

/-- An element-wise instruction (R168): its constructor, its class's latency (R171), whether it may draw (R70), and Op(i) from the
activity as it issues, its fields, the draw and i. -/
structure ElementOp where
  make : R → Instr
  latency : R → Nat
  draws : Bool
  value : (r : R) → Activity → Nat → Nat → BitVec (fmtWidth r.fmt)

/-- The latency of an instruction that is in the floating-point class for FP formats and in the integer class for INT formats (R171). -/
def mixedLatency (r : R) : Nat := if isFp r.fmt then 4 else 2

/-- Op(i) of R173 for an FP format: the exact result on the decoded operands, rounded once; RDN signs an exact zero sum (R61). -/
def roundedOp (r : R) (draw : Nat) (v : Val) : BitVec (fmtWidth r.fmt) :=
  BitVec.ofNat _ ((floatFmt r.fmt).round (RMode.of r.rm) r.ovf draw v)

/-- IntOut (R174): the exact result wraps with OVF = 0 and saturates with OVF = 1. -/
def integerOp (r : R) (v : Int) : BitVec (fmtWidth r.fmt) :=
  let w := fmtWidth r.fmt
  BitVec.ofInt w (if r.ovf = 1 then min (max v (-2 ^ (w - 1))) (2 ^ (w - 1) - 1) else v)

/-- Op(i) from the elements i of V[A], V[B] and V[C]. -/
def onElements (r : R) (f : (a b c : BitVec (fmtWidth r.fmt)) → BitVec (fmtWidth r.fmt)) (m : Activity) (j : Nat) : BitVec (fmtWidth r.fmt) :=
  f (element _ (m.v r.a.toNat) j) (element _ (m.v r.b.toNat) j) (element _ (m.v r.c.toNat) j)

/-- The value of an element of the instruction's floating-point format (R59). -/
def valueOf (r : R) (x : BitVec (fmtWidth r.fmt)) : Val := (floatFmt r.fmt).decode x.toNat

/-- An instruction of R172 that may round: from the exact results. -/
def roundingOp (make : R → Instr) (fp : Bool → Val → Val → Val → Val) (int : Int → Int → Int → Int) : ElementOp :=
  ⟨make, mixedLatency, true, fun r m d j => onElements r (fun a b c =>
    if isFp r.fmt then roundedOp r d (fp (r.rm = 2) (valueOf r a) (valueOf r b) (valueOf r c))
    else integerOp r (int a.toInt b.toInt c.toInt)) m j⟩

/-- The rounding arithmetic of R172. -/
def roundingOps : List ElementOp := [
  roundingOp .vadd (fun rdn x y _ => x.add rdn y) (fun a b _ => a + b),
  roundingOp .vsub (fun rdn x y _ => x.add rdn y.neg) (fun a b _ => a - b),
  roundingOp .vmul (fun _ x y _ => x.mul y) (fun a b _ => a * b),
  roundingOp .vfma (fun rdn x y z => (x.mul y).add rdn z) (fun a b c => a * b + c),
  roundingOp .vfms (fun rdn x y z => (x.mul y).add rdn z.neg) (fun a b c => a * b - c),
  roundingOp .vfnma (fun rdn x y z => (x.mul y).neg.add rdn z) (fun a b c => -(a * b) + c)]

/-- The canonical NaN of an instruction's format. -/
def nanElement (r : R) : BitVec (fmtWidth r.fmt) := BitVec.ofNat _ (floatFmt r.fmt).canonNan

/-- The sign bit of an instruction's floating-point format, alone. -/
def signElement (r : R) : BitVec (fmtWidth r.fmt) := BitVec.ofNat _ (2 ^ (fmtWidth r.fmt - 1))

/-- An instruction that draws nothing, on its elements. -/
def plainOp (make : R → Instr) (latency : R → Nat) (f : (r : R) → (a b : BitVec (fmtWidth r.fmt)) → BitVec (fmtWidth r.fmt)) : ElementOp :=
  ⟨make, latency, false, fun r m _ j => onElements r (fun a b _ => f r a b) m j⟩

/-- The instructions of R173 and R174 that never round. The two zeros are the only different patterns of equal value, so a tie is -0
of either for the smaller, and +0 of either for the larger. -/
def selectingOps : List ElementOp := [
  plainOp .vmin mixedLatency (fun r a b =>
    if isFp r.fmt then
      if (valueOf r a).isNan || (valueOf r b).isNan then nanElement r
      else if (valueOf r a).lt (valueOf r b) then a else if (valueOf r b).lt (valueOf r a) then b else a ||| b
    else if a.toInt ≤ b.toInt then a else b),
  plainOp .vmax mixedLatency (fun r a b =>
    if isFp r.fmt then
      if (valueOf r a).isNan || (valueOf r b).isNan then nanElement r
      else if (valueOf r a).lt (valueOf r b) then b else if (valueOf r b).lt (valueOf r a) then a else a &&& b
    else if b.toInt ≤ a.toInt then a else b),
  plainOp .vminu (fun _ => 2) (fun _ a b => if a.toNat ≤ b.toNat then a else b),
  plainOp .vmaxu (fun _ => 2) (fun _ a b => if b.toNat ≤ a.toNat then a else b),
  plainOp .vabs (fun _ => 2) (fun r a _ =>
    if isFp r.fmt then (if (valueOf r a).isNan then nanElement r else a &&& ~~~signElement r) else integerOp r a.toInt.natAbs),
  plainOp .vneg (fun _ => 2) (fun r a _ =>
    if isFp r.fmt then (if (valueOf r a).isNan then nanElement r else a ^^^ signElement r) else integerOp r (-a.toInt))]

/-- The logic and the shifts of R175: s is the whole element of V[B]. -/
def logicOps : List ElementOp := [
  plainOp .vand (fun _ => 2) (fun _ a b => a &&& b),
  plainOp .vor (fun _ => 2) (fun _ a b => a ||| b),
  plainOp .vxor (fun _ => 2) (fun _ a b => a ^^^ b),
  plainOp .vandn (fun _ => 2) (fun _ a b => a &&& ~~~b),
  plainOp .vshl (fun _ => 2) (fun r a b => if fmtWidth r.fmt ≤ b.toNat then 0 else a <<< b.toNat),
  plainOp .vshr (fun _ => 2) (fun r a b => if fmtWidth r.fmt ≤ b.toNat then 0 else a >>> b.toNat),
  plainOp .vsar (fun _ => 2) (fun r a b => a.sshiftRight (min b.toNat (fmtWidth r.fmt - 1)))]

/-- The moves and permutes of R178 that write by R168. -/
def moveOps : List ElementOp := [
  ⟨.vbcast, fun _ => 2, false, fun r m _ _ => (m.srcB r).setWidth _⟩,
  ⟨.vidx, fun _ => 2, false, fun r _ _ j =>
    BitVec.ofNat _ (if isInt r.fmt then j else (floatFmt r.fmt).round .rne 0 0 (.fin false j 1))⟩,
  ⟨.vperm, fun _ => 2, false, fun r m _ j =>
    element _ (m.v r.a.toNat) ((element (fmtWidth r.fmt) (m.v r.b.toNat) j).toNat % fmtCount r.fmt)⟩,
  ⟨.vrot, fun _ => 2, false, fun r m _ j =>
    element _ (m.v r.a.toNat) ((j + (m.srcB r).toNat % fmtCount r.fmt) % fmtCount r.fmt)⟩]

/-- The functions of R180: correctly rounded to BF16, and widened exactly into an FP32 element; the square root to its own format. -/
def functionOps : List ElementOp :=
  let toBf16 (make : R → Instr) (f : Val → Val) : ElementOp :=
    ⟨make, fun _ => 8, false, fun r m _ j => onElements r (fun a _ _ =>
      BitVec.ofNat _ (fBf16.round (RMode.of r.rm) r.ovf 0 (f (valueOf r a)) * (if r.fmt = 0 then 2 ^ 16 else 1))) m j⟩
  [toBf16 .vrcp fnRcp, toBf16 .vrsqrt fnRsqrt, toBf16 .vexp2 fnExp2, toBf16 .vlog2 fnLog2,
   ⟨.vsqrt, fun _ => 8, false, fun r m _ j => onElements r (fun a _ _ => roundedOp r 0 (fnSqrt (valueOf r a))) m j⟩]

/-- The special operands of R180, and the results of `vrcp`, `vrsqrt`, `vexp2`, `vlog2` and `vsqrt`. -/
def SpecialOperands : Prop :=
  (∀ f ∈ [fnRcp, fnRsqrt, fnExp2, fnLog2, fnSqrt], f .nan = .nan) ∧
  (∀ (neg : Bool) (q : Nat), 0 < q →
    fnRcp (.fin neg 0 q) = .inf neg ∧ fnRsqrt (.fin neg 0 q) = .inf neg ∧ fnLog2 (.fin neg 0 q) = .inf true ∧
    (∃ k, 0 < k ∧ fnSqrt (.fin neg 0 q) = .fin neg 0 k) ∧ fnExp2 (.fin neg 0 q) = .fin false 1 1) ∧
  ([fnRcp, fnRsqrt, fnExp2, fnLog2, fnSqrt].map (fun f => f (.inf false)) = [.fin false 0 1, .fin false 0 1, .inf false, .inf false, .inf false]) ∧
  ([fnRcp, fnRsqrt, fnExp2, fnLog2, fnSqrt].map (fun f => f (.inf true)) = [.fin true 0 1, .nan, .fin false 0 1, .nan, .nan]) ∧
  (∀ p q : Nat, 0 < p → 0 < q → ∀ f ∈ [fnRsqrt, fnLog2, fnSqrt], f (.fin true p q) = .nan) ∧
  (∀ p : Nat, 0 < p → fnLog2 (.fin false p p) = .fin false 0 1)

/-- A fraction a/b is the square root of p/q: exactly, or with less than 1/b between them, a being at least 2^320. -/
def NearRoot (p q a b : Nat) : Prop :=
  0 < b ∧ (a * a * q = p * b * b ∨ (2 ^ 320 ≤ a ∧ (a - 1) * (a - 1) * q < p * b * b ∧ p * b * b < (a + 1) * (a + 1) * q))

/-- The values of the functions of R180 on positive operands p/q: 1/x is exact, √x and 1/√x are near the root, 2^x and log₂ x are exact
on whole numbers and powers of 2, and elsewhere lie between the values beside them. -/
def FunctionValues : Prop :=
  ∀ p q : Nat, 0 < p → 0 < q →
    (∀ neg : Bool, fnRcp (.fin neg p q) = .fin neg q p) ∧
    (∃ a b, fnSqrt (.fin false p q) = .fin false a b ∧ NearRoot p q a b) ∧
    (∃ a b, fnRsqrt (.fin false p q) = .fin false a b ∧ NearRoot q p a b) ∧
    (∀ n : Nat, n ≤ 4096 → fnExp2 (.fin false n 1) = .fin false (2 ^ n) 1 ∧ fnExp2 (.fin true n 1) = .fin false 1 (2 ^ n) ∧
      fnLog2 (.fin false (2 ^ n) 1) = .fin false n 1) ∧
    (∀ i : Nat, i < 4096 → i * q < p → p < (i + 1) * q → ∃ m, fnExp2 (.fin false p q) = Val.scaled false m ((i : Int) - 513) ∧
      2 ^ 513 < m ∧ m ≤ 2 ^ 514 + 1) ∧
    (∀ e : Nat, 2 ^ e * q < p → p < 2 ^ (e + 1) * q → ∃ n, fnLog2 (.fin false p q) = .fin false n (2 ^ 161) ∧
      e * 2 ^ 161 < n ∧ n < (e + 1) * 2 ^ 161)

/-- SEED after an instruction's draws, and the draws (R69, R70): `n` of them under RS, else none. -/
def drawsOf (rs : Bool) (seed : Word) (n : Nat) : Word × List Nat := if rs then srDraws seed n else (seed, [])

/-- What an element-wise instruction does (R168): every active element of V[D] becomes Op(i), and every other 0 with ZM = 1, or stays
with ZM = 0. The draws are made for every element. -/
def ElementResult (c : ElementOp) : Prop :=
  ∀ (r : R) (s : State), Ready (c.make r) s →
    let i := c.make r
    let p := s.prepare i
    let w := fmtWidth r.fmt
    let n := fmtCount r.fmt
    let d := drawsOf (c.draws && r.rm = 4) p.me.seed n
    ∃ v : Vec,
      exec i s = .next ({ p with me := { p.me with seed := d.1 } }.issued i
        (newWrite .fixed (s.cycle + c.latency r) i.srcs ⟨.v, r.d.toNat⟩ v)) ∧
      n * w = 1024 ∧
      ∀ j, j < n → element w v j =
        if (p.me.k r.km).getLsbD j then c.value r p.me (d.2.getD j 0) j
        else if r.zm then 0 else element w (p.me.v r.d.toNat) j

/-- The compares of R175 and R176: the condition on elements of the format. -/
def vectorCompares : List ((R → Instr) × ((r : R) → (a b : BitVec (fmtWidth r.fmt)) → Bool)) := [
  (.vceq, fun r a b => if isFp r.fmt then (valueOf r a).eq (valueOf r b) else a = b),
  (.vclt, fun r a b => if isFp r.fmt then (valueOf r a).lt (valueOf r b) else a.toInt < b.toInt),
  (.vcle, fun r a b => if isFp r.fmt then (valueOf r a).lt (valueOf r b) || (valueOf r a).eq (valueOf r b) else a.toInt ≤ b.toInt),
  (.vcun, fun r a b => (valueOf r a).isNan || (valueOf r b).isNan),
  (.vcltu, fun _ a b => a.toNat < b.toNat)]

/-- The tree of R179 over a number of leaves that is a power of 2: neighbours combine level by level, with one draw for each Combine. -/
def reduceTree (combine : Nat → Nat → Nat → Nat) : Nat → List Nat → List Nat → Nat
  | 0, t, _ => t.headD 0
  | levels + 1, t, draws =>
    let m := t.length / 2
    reduceTree combine levels ((List.range m).map (fun j => combine (draws.getD j 0) (t.getD (2 * j) 0) (t.getD (2 * j + 1) 0)))
      (draws.drop m)

/-- The reductions of R179: whether it may draw, Ident, and Combine from a draw and two elements. -/
def reductions : List ((R → Instr) × Bool × (R → Nat) × (R → Nat → Nat → Nat → Nat)) := [
  (.vrsum, true, fun r => if isFp r.fmt ∧ r.rm ≠ 2 then 2 ^ (fmtWidth r.fmt - 1) else 0, fun r d a b =>
    (if isFp r.fmt then roundedOp r d ((valueOf r (BitVec.ofNat _ a)).add (r.rm = 2) (valueOf r (BitVec.ofNat _ b)))
     else integerOp r ((BitVec.ofNat (fmtWidth r.fmt) a).toInt + (BitVec.ofNat (fmtWidth r.fmt) b).toInt)).toNat),
  (.vrmax, false, fun r => if isFp r.fmt then (floatFmt r.fmt).infBits true else 2 ^ (fmtWidth r.fmt - 1), fun r _ a b => opMax r 0 a b 0),
  (.vrmin, false, fun r => if isFp r.fmt then (floatFmt r.fmt).infBits false else 2 ^ (fmtWidth r.fmt - 1) - 1, fun r _ a b => opMin r 0 a b 0)]

/-- The conversion of R181 of one element, from FMT to DFMT. -/
def converted (r : R) (draw : Nat) (x : BitVec (fmtWidth r.fmt)) : BitVec (fmtWidth r.xfmt) :=
  let w := fmtWidth r.xfmt
  if isInt r.fmt then
    if isInt r.xfmt then BitVec.ofInt w (min (max x.toInt (-2 ^ (w - 1))) (2 ^ (w - 1) - 1))
    else BitVec.ofNat w ((floatFmt r.xfmt).round (RMode.of r.rm) r.ovf draw (Val.ofInt x.toInt))
  else if isInt r.xfmt then BitVec.ofInt w (toIntSat w (RMode.of r.rm) draw (valueOf r x))
  else BitVec.ofNat w ((floatFmt r.xfmt).round (RMode.of r.rm) r.ovf draw (valueOf r x))

/-- A vector load or store (R185): its constructor, whether it stores, whether its elements are contiguous, and the exact address of
element i. -/
structure VectorAccess where
  make : R → Instr
  store : Bool
  contiguous : Bool
  addr : R → Activity → Nat → Int

/-- The active elements with their addresses (R186). -/
def VectorAccess.access (c : VectorAccess) (r : R) (m : Activity) : List (Nat × Nat) :=
  ((List.range (fmtCount r.fmt)).filter (fun j => (m.k r.km).getLsbD j)).map (fun j => (j, (c.addr r m j).toNat))

/-- The vector loads of R185. -/
def vectorLoads : List VectorAccess := [
  ⟨.vld, false, true, fun r m i => (m.g r.a.toNat).toNat + r.x.toInt + i * (fmtWidth r.fmt / 8 : Nat)⟩,
  ⟨.vlds, false, false, fun r m i => (m.g r.a.toNat).toNat + r.x.toInt + i * (m.g r.c.toNat).toInt⟩,
  ⟨.vldx, false, false, fun r m i => (m.g r.a.toNat).toNat + r.x.toInt + (element (fmtWidth r.fmt) (m.v r.c.toNat) i).toNat⟩]

/-- The vector stores of R185. -/
def vectorStores : List VectorAccess := [
  ⟨.vst, true, true, fun r m i => (m.g r.a.toNat).toNat + r.x.toInt + i * (fmtWidth r.fmt / 8 : Nat)⟩,
  ⟨.vsts, true, false, fun r m i => (m.g r.a.toNat).toNat + r.x.toInt + i * (m.g r.c.toNat).toInt⟩,
  ⟨.vstx, true, false, fun r m i => (m.g r.a.toNat).toNat + r.x.toInt + (element (fmtWidth r.fmt) (m.v r.c.toNat) i).toNat⟩]

/-- The scoreboard entry of a range, none when it is empty (R23). -/
def rangeClaim (cmd : Nat) (range : Nat × Nat) (write : Bool) : List Claim :=
  if range.2 = 0 then [] else [⟨cmd, range.1, range.2, write⟩]

/-! ## Engines and units -/

/-- The barrier that an instruction names passes its checks (R196, R199): a multiple of 16 whose bytes may be written; 0 names none. -/
def State.BarNamed (r : R) (p : State) : Prop := r.bar % 16 = 0 ∧ (r.bar = 0 ∨ p.checkLocal true r.bar 16 = none)

/-- The matrix queue and the scoreboard have room (R20, R23). -/
def State.MatRoom (p : State) : Prop := p.core.matq.length < 8 ∧ p.scoreUsed p.me.agent + 1 ≤ scoreSize p.me.agent.kind

/-- What is left when a matrix command has entered the queue, before its issue is complete. -/
def State.queued (c : MatCmd) (write : Bool) (p : State) : State :=
  { p with
    nextCmd := p.nextCmd + 1
    core := { p.core with matq := p.core.matq ++ [c] }
    me := { p.me with claims := p.me.claims ++ (if c.len = 0 then [] else [⟨c.id, c.y, c.len, write⟩]) } }

/-- A command of the matrix queue whose activity is in focus. -/
def State.HasMat (c : MatCmd) (s : State) : Prop :=
  s.me.uid = c.owner ∧ s.core.agent = s.me.agent ∧ s.mat? c.id = some (s.core.agent, c)

/-- Every tile of a command stands in a physical tile register. -/
def State.TilesAt (c : MatCmd) (s : State) : Prop := ∀ n ∈ c.tileReads ++ c.tileWrites, (s.me.tiles.find n).isSome = true

/-- The tile that `tcvt` of a command writes from a tile of one shape to another (R260): each element rounded or saturated by itself, or each
block of 8 requantised, with the draws of `.rs` in order; the poison flag is that of the source. -/
def MatCmd.Converted (c : MatCmd) (a d : Shape) (x t : Tile) : Prop :=
  let w := fmtBits d.fmt
  let draw (k : Nat) : Nat := if c.r.rmM = 4 then ((srDraws c.seed (a.rows * a.elems)).2).getD k 0 else 0
  t.poison = x.poison ∧
  (isBlock d.fmt = false → ∀ i e, i < d.rows → e < d.elems → t.code d i e =
    (if isInt d.fmt then (BitVec.ofInt w (toIntSat w (RMode.of c.r.rmM) (draw (i * d.elems + e)) (x.val a i e))).toNat
     else (floatFmt d.fmt).round (RMode.of c.r.rmM) c.r.ovfM (draw (i * d.elems + e)) (x.val a i e)) % 2 ^ w) ∧
  (isBlock d.fmt = true → t.band = c.opB.setWidth 16 ∧ ∀ i k, i < d.rows → 8 * k < d.elems →
    let q := requantise (floatFmt d.fmt) (if d.fmt = 5 then 448 else if d.fmt = 6 then 57344 else 6)
      (if c.r.rmM = 4 then .rs else .rne)
      (if c.r.rmM = 4 then (((srDraws c.seed (a.rows * a.elems)).2).drop (i * d.elems + 8 * k)).take 8 else [])
      (fBf16.decode (c.opB.toNat % 2 ^ 16)) ((List.range 8).map (fun n => x.val a i (8 * k + n)))
    t.scale d i k = q.1 % 256 ∧ ∀ n, n < 8 → t.code d i (8 * k + n) = q.2.getD n 0 % 2 ^ w)

/-- The copy queue has room, and the scoreboard for the ranges of a command that it orders (R20, R23, R24). -/
def State.CopyRoom (u : Bool) (ranges : Nat) (p : State) : Prop :=
  p.core.copyFull = false ∧ (u = true ∨ p.scoreUsed p.me.agent + ranges ≤ scoreSize p.me.agent.kind)

/-- A linear copy's range passes its checks (R202). -/
def State.LinearRange (write : Bool) (y off n : Nat) (p : State) : Prop :=
  p.checkLocal write y n = none ∧ 0 < n ∧ n ≤ 32768 ∧ n % 32 = 0 ∧ y % 32 = 0 ∧ off % 32 = 0

/-- What is left when a load has issued: it stands in the queue, its promise is on the way to G[D], and is recorded under `.pm` unless it
is 0 (R214, R215). -/
def State.loaded (i : Instr) (c : Cmd) (y : Nat) (p : State) : State :=
  let d : Cmd := { c with due := p.firstDue c }
  let pr := p.promise d c.r.d
  let q := p.enqueue d [⟨c.id, y, c.len, true⟩]
  { q with me := { q.me with
      promises := q.me.promises ++ (if c.r.pm ∧ pr ≠ 0 then [(⟨c.id, c.bar, c.phase, pr⟩ : Promise)] else []) } }.issued i
    (newWrite .engine (p.cycle + 1) i.srcs ⟨.g, c.r.d.toNat⟩ ((BitVec.ofNat 64 pr).setWidth 1024))

/-- No effect that the activity in focus has committed is still on its way out of the held-effects buffer (R364). -/
def State.NoneLeaving (p : State) : Prop := ∀ h ∈ p.me.helds, h.released = false

/-- What is left when a write command has issued: it stands in the queue with its range; without a barrier it takes the lowest free journal
entry, and waits, `wait` being tried again, while none is free (R212), or while effects committed before are on their way (R364). -/
def State.Posts (i : Instr) (c : Cmd) (claims : List Claim) (p wait : State) (o : Host.Outcome State Fault Refusal) : Prop :=
  (p.NoneLeaving →
    (c.bar ≠ 0 → o = .next ((p.enqueue c claims).issued i [])) ∧
    (∀ e, c.bar = 0 → p.core.freeEntry = some e →
      let q := p.enqueue { c with journal := some e } claims
      o = .next ({ q with core := { q.core with journal := AMap.put q.core.journal e ⟨c.id, c.owner, c.pc, 0, 0⟩ } }.issued i []))) ∧
  (c.bar = 0 → p.core.freeEntry = none → o = .next wait.holdIssue) ∧
  (¬ p.NoneLeaving → o = .next wait.holdIssue)

/-- The activity with an index list read, or being read: the scoreboard entries of the list and of the data (R23, R205), none under `.u`
(R24). -/
def State.listing (r : R) (p : State) : State :=
  { p with me := { p.me with
    listRead := some ((p.me.g r.c.toNat).toNat, 4 * (p.me.g r.e.toNat).toNat, if r.unordered then 0 else 2) } }

/-- The operands of `gath`, `scat` and `red` pass the checks before the index list is read (R205). -/
def State.RowsPass (k : CmdKind) (r : R) (d : Desc) (p : State) : Prop :=
  let tid := (p.me.srcB r).toNat % 2 ^ 16
  let l := (p.me.g r.c.toNat).toNat
  let n := (p.me.g r.e.toNat).toNat
  tid ≠ 0 ∧ p.findDesc tid = some (some d) ∧ 0 < n ∧ n ≤ 1024 ∧ p.checkLocal false l (4 * n) = none ∧ l % 4 = 0 ∧
  isBlock d.fmt = false ∧ 0 < d.rb ∧ d.rb ≤ 2048 ∧
  p.checkLocal (k = .gath) (p.me.g r.a.toNat).toNat (n * d.rbp) = none ∧ p.BarNamed r ∧
  (r.unordered = true ∨ (p.me.rangeBusy p.nextCmd false l (4 * n) = false ∧
    (p.me.listRead ≠ none ∨ p.scoreUsed p.me.agent + 2 ≤ scoreSize p.me.agent.kind)))

/-- The command of `gath`, `scat` or `red` with its index list. -/
def State.rowCmd (k : CmdKind) (r : R) (d : Desc) (p : State) : Cmd :=
  let n := (p.me.g r.e.toNat).toNat
  { p.newCmd k r with
    tid := (p.me.srcB r).toNat % 2 ^ 16
    desc := some d
    idx := (List.range n).map (fun j => sextNat 32 (ofBytes (p.readLocal ((p.me.g r.c.toNat).toNat + 4 * j) 4)))
    len := n * d.rbp }

/-- The first position of the index list whose index lies outside the tensor (R206). -/
def State.badRow (r : R) (d : Desc) (p : State) : Option Nat :=
  (List.range (p.me.g r.e.toNat).toNat).find? (fun j =>
    let x := sextNat 32 (ofBytes (p.readLocal ((p.me.g r.c.toNat).toNat + 4 * j) 4))
    x < 0 || (d.nr : Int) ≤ x)

/-- A command of the copy queue whose activity is in focus. -/
def State.HasCmd (c : Cmd) (s : State) : Prop :=
  s.me.uid = c.owner ∧ s.core.agent = s.me.agent ∧ s.cmd? c.id = some (s.core.agent, c)

/-- A unit of a copy command is no longer to be done: the command has ended, or goes on with other units. -/
abbrev State.UnitDone (c : Cmd) (u : Nat) (t : State) : Prop := ∀ d ∈ t.core.copyq, d.id = c.id → u ∉ d.todo

/-- A byte as a command's VD reads it at its home slice, under the module number of the command's issue (R417). -/
def State.byteFor (c : Cmd) (l : Loc) (s : State) : Except Nat Byte := (s.asModule c.modid).loadByte c.vd l

/-- What a unit of a write command is to write: each byte of its source that lies in the tensor (R191) and is no band scale of a tile of fewer
than 64 rows (R192), with its place; every place is translated and served, no source word is poisoned, and no two bytes have one
address. -/
def State.UnitWrites (c : Cmd) (x : Target) (u : Nat) (w : List (Loc × Byte)) (s : State) : Prop :=
  let xs := (c.unitSrc u).filter (fun z => match z.2 with
    | .zero => false
    | .band _ _ _ => x.desc.tr = 64
    | _ => true)
  (∀ z ∈ xs, s.poisonAt (c.base + z.1) 1 = none) ∧
  xs.map (fun z => (s.resolve x c.xlat true z.2, (s.readLocal (c.base + z.1) 1).headD 0)) = w.map (fun y => (Except.ok (some y.1), y.2)) ∧
  (∀ y ∈ w, (s.asModule c.modid).paError c.vd y.1.pa = 0) ∧ (w.map (fun y => y.1.pa)).Nodup

/-- The updates of R201 on elements of a format: additions of integers wrap, those of FP elements are exact and rounded once; minima and maxima as
those of the vector engine, NaN where an operand is NaN; and, or, xor by bits. -/
def ReductionValues : Prop :=
  ∀ (f old x : Nat), old < 2 ^ fmtBits f → x < 2 ^ fmtBits f →
    let a := BitVec.ofNat (fmtBits f) old
    let b := BitVec.ofNat (fmtBits f) x
    let u := (floatFmt f).decode old
    let v := (floatFmt f).decode x
    (isInt f = true → redElem 1 f old x = (a + b).toNat ∧ (BitVec.ofNat (fmtBits f) (redElem 2 f old x)).toInt = min a.toInt b.toInt ∧
      (BitVec.ofNat (fmtBits f) (redElem 3 f old x)).toInt = max a.toInt b.toInt) ∧
    (isInt f = false → redElem 1 f old x = (floatFmt f).round .rne 0 0 (u.add false v) ∧
      (u.isNan = true ∨ v.isNan = true → redElem 2 f old x = (floatFmt f).canonNan ∧ redElem 3 f old x = (floatFmt f).canonNan) ∧
      (u.isNan = false → v.isNan = false → (redElem 2 f old x = old ∨ redElem 2 f old x = x) ∧ (redElem 3 f old x = old ∨ redElem 3 f old x = x) ∧
        u.lt ((floatFmt f).decode (redElem 2 f old x)) = false ∧ v.lt ((floatFmt f).decode (redElem 2 f old x)) = false ∧
        ((floatFmt f).decode (redElem 3 f old x)).lt u = false ∧ ((floatFmt f).decode (redElem 3 f old x)).lt v = false)) ∧
    redElem 4 f old x = (a &&& b).toNat ∧ redElem 5 f old x = (a ||| b).toNat ∧ redElem 6 f old x = (a ^^^ b).toNat

/-- A stream instruction's window passes its checks (R284, R285): the program in focus streams into a window of a requester, which is saved or
not, the window holds n bytes at the offset G[D], and the requester's barrier SrcB() is 0 or lies in its data pages. -/
def State.StreamInto (saved : Bool) (a : Activity) (w : Window) (r : R) (n : Nat) (p : State) : Prop :=
  let off := (p.me.g r.d.toNat).toNat
  let rbar := (p.me.srcB r).toNat
  p.streamWindow = some (a, saved, w) ∧ off % 32 = 0 ∧ rbar % 16 = 0 ∧ p.BarNamed r ∧ off + n ≤ w.len ∧
  (rbar = 0 ∨ ∀ k : Nat, k < 16 → (rbar + k) / 0x800 ∈ a.frames)

/-- The command of a stream instruction: its range in the requester's memory begins at the offset in the window. -/
def State.streamCmd (k : CmdKind) (r : R) (w : Window) (p : State) : Cmd :=
  { p.newCmd k r with base := w.base + (p.me.g r.d.toNat).toNat }

/-- The activity in focus has no write pending, no result outstanding, no engine command, no write of its own unacknowledged, and no
forecast tag (R312, R327). -/
def State.Quiet (p : State) : Prop :=
  p.me.speculative = false ∧ p.me.pend = [] ∧ p.me.claimed = [] ∧ p.writesOut = false ∧ p.engineOut = false

/-- The activity with its open region pinned (R159). -/
def Activity.pinned (a : Activity) : Activity := { a with region := { a.region with pin := a.region.pin || a.region.open_ } }

/-- The luggage pages of a party (R311). -/
def Party.luggage (p : Party) : List Nat := (List.range p.ln).map (fun k => p.lf + k)

/-- What a party that waited at a directory, or has arrived there, is once it is matched in a state (R313, R317, R318): with its side and partner,
bound for compute core n in a shuttle or staying there, and the decision on its way. -/
def State.Matched (s : State) (d side n : Nat) (travels : Bool) (a q b : Activity) : Prop :=
  ∃ y, b.party = some y ∧ y.phase = .matched ∧ y.side = side ∧ y.place = some n ∧ y.travels = travels ∧ y.partner = some q.uid ∧
    y.partnerAct = q.actid ∧ y.status = (a.party.bind Party.status) ∧ y.decided = some (s.cycle + dirLatency a.agent d)

/-- What an activity that leaves its meeting at the barrier (`a`) is in the next cycle (`b`; R327): under way for the core that `.to` names; at
home, when it has not travelled; at home in the meeting core with a new slot, its luggage alone with it, under `.stay`; or else under way for its
home. Where it does not travel, its G[D] is 0. `room` says that no register of its core is spilled meanwhile. -/
def State.Leaves (room : Prop) (s : State) (a b : Activity) : Prop :=
  ∀ p mode n dst, a.party = some p → p.parting = some (mode, n, dst) →
    let zero : Prop := room → dst ≠ 0 → (⟨.g, dst⟩ : Reg) ∈ a.claimed → b.g dst = 0
    (mode = 2 → b.agent = a.agent ∧ ∃ y, b.party = some y ∧ y.phase = .leaving ∧ y.partner = none ∧ y.place = none ∧ y.parting = p.parting ∧
      (room → y.lands = some (s.cycle + 1 + a.travel n + y.codeTime))) ∧
    (mode ≠ 2 → p.away = false → b.party = none ∧ b.agent = a.agent ∧ b.frames = a.frames ∧ b.home = a.home ∧ b.slot = a.slot ∧ zero) ∧
    (mode = 1 → p.away = true → b.party = none ∧ b.agent = a.agent ∧ b.home = p.place.getD a.home ∧ b.slot = p.vslot ∧ b.frames = p.luggage ∧ zero) ∧
    (mode = 0 → p.away = true → b.agent = a.agent ∧ ∃ y, b.party = some y ∧ y.phase = .leaving ∧ y.partner = none ∧ y.place = none ∧
      y.parting = p.parting ∧ y.codeTime = 0 ∧ (room → y.lands = some (s.cycle + 1 + a.travel a.home)))

/-- It is the turn of a posted write, or of a read, of the host: an image runs, and nothing that came in before it and comes before it waits
(R413). -/
def State.HostTurn (i : Inbound) (s : State) : Prop := s.booted = true ∧ ∀ j ∈ s.svc.inbound, i.follows j = false

/-- The sequence point has numbered a posted write (R413). -/
def State.counted (s : State) : State := { s with svc := { s.svc with hostSeq := s.svc.hostSeq + 1 } }

/-- The register that waits for an engine's result: none for g0, whose write is discarded (R43). -/
def claimOf (n : Nat) : List Reg := if n = 0 then [] else [⟨.g, n⟩]

/-! ## Invariants -/

/-- No image below the fused security version runs (R445). -/
def State.NoRollback (s : State) : Prop :=
  ∀ i, s.svc.boot = .running i → s.svc.fusedVersion ≤ i.securityVersion

end Sys2Proof.Machine
end

