-- ==== Sys2Proof/Certificates/Slice0/Obligations.lean ====
section
/-! DEFINITION. The statements for the provers. Each docstring names the rules of the spec that it formalises. -/

open Sys2Proof Sys2Proof.Machine

/-! ## Register arithmetic (chapter 6) -/

/-- R127. Every ready instruction of the table has its result on its way to G[D], for every operand and with a literal or without:
`add` to `mulhu` after their latency, and a division, when the divider is free, after 20 cycles; a division by zero gives all ones or the
dividend, with no trap. Nothing else changes but the PC and the next issue, and the divider's busy time. A shift with a literal count
above 63 is illegal. -/
def Obligations.RegisterArithmetic : Prop :=
  (∀ c ∈ arithmeticOps, ∀ (r : R) (s : State), Ready (c.make r) s →
    let p := s.prepare (c.make r)
    exec (c.make r) s = .next (p.issued (c.make r) (newWrite .fixed (s.cycle + c.latency) (c.make r).srcs ⟨.g, r.d.toNat⟩
      ((c.value (p.me.g r.a.toNat) (p.me.srcB r)).setWidth 1024)))) ∧
  (∀ c ∈ divisionOps, ∀ (r : R) (s : State), Ready (c.make r) s → s.core.divBusy ≤ s.cycle →
    let p := s.prepare (c.make r)
    exec (c.make r) s = .next ({ p with core := { p.core with divBusy := s.cycle + 20 } }.issued (c.make r)
      (newWrite .divide (s.cycle + c.latency) [] ⟨.g, r.d.toNat⟩ ((c.value (p.me.g r.a.toNat) (p.me.srcB r)).setWidth 1024)))) ∧
  (∀ c ∈ [Instr.shl, .shr, .sar, .ror], ∀ (r : R) (l : Word), r.lit = some l → 64 ≤ l.toNat → ¬ (c r).WellFormed)

/-- R129, R133. The comparisons give 1 or 0, `min` to `maxu` the smaller or the larger operand, and the scaled adds the sum with a multiple of
SrcB(). -/
def Obligations.ComparisonsAndScaledAdds : Prop :=
  (∀ c ∈ compareOps, ∀ (r : R) (s : State), Ready (c.make r) s →
    let p := s.prepare (c.make r)
    exec (c.make r) s = .next (p.issued (c.make r) (newWrite .fixed (s.cycle + c.latency) (c.make r).srcs ⟨.g, r.d.toNat⟩
      ((c.value (p.me.g r.a.toNat) (p.me.srcB r)).setWidth 1024)))) ∧
  (∀ c ∈ scaledOps, ∀ (r : R) (s : State), Ready (c.make r) s →
    let p := s.prepare (c.make r)
    exec (c.make r) s = .next (p.issued (c.make r) (newWrite .fixed (s.cycle + c.latency) (c.make r).srcs ⟨.g, r.d.toNat⟩
      ((c.value (p.me.g r.a.toNat) (p.me.srcB r)).setWidth 1024))))

/-- R128. The immediate forms, with m := Trunc(64, Sext(IMM8)). -/
def Obligations.ImmediateForms : Prop :=
  ∀ c ∈ immediateOps, ∀ (stl : BitVec 3) (d a : BitVec 6) (imm : BitVec 8) (s : State), Ready (c.1 stl d a imm) s →
    let i := c.1 stl d a imm
    let p := s.prepare i
    exec i s = .next (p.issued i (newWrite .fixed (s.cycle + 1) i.srcs ⟨.g, d.toNat⟩
      ((c.2 (p.me.g a.toNat) (imm.signExtend 64)).setWidth 1024)))

/-- R130, R131, R132. `sel` takes G[A] when G[C] is not 0, else SrcB(); the bit-field instructions read or insert bits [p+w-1:p]; the
counts give the zero bits above the highest one bit, below the lowest one bit (64 for a source of 0), the one bits, and the bytes in
reverse order. -/
def Obligations.SelectFieldsAndCounts : Prop :=
  (∀ (r : R) (s : State), Ready (.sel r) s →
    let p := s.prepare (.sel r)
    exec (.sel r) s = .next (p.issued (.sel r) (newWrite .fixed (s.cycle + 1) (Instr.sel r).srcs ⟨.g, r.d.toNat⟩
      ((if p.me.g r.c.toNat ≠ 0 then p.me.g r.a.toNat else p.me.srcB r).setWidth 1024)))) ∧
  (∀ (r : R) (s : State), Ready (.bfxu r) s →
    let p := s.prepare (.bfxu r)
    exec (.bfxu r) s = .next (p.issued (.bfxu r) (newWrite .fixed (s.cycle + 1) (Instr.bfxu r).srcs ⟨.g, r.d.toNat⟩
      ((BitVec.ofNat 64 (bitField (p.me.g r.a.toNat) r.pos r.width)).setWidth 1024)))) ∧
  (∀ (r : R) (s : State), Ready (.bfxs r) s →
    let p := s.prepare (.bfxs r)
    exec (.bfxs r) s = .next (p.issued (.bfxs r) (newWrite .fixed (s.cycle + 1) (Instr.bfxs r).srcs ⟨.g, r.d.toNat⟩
      ((BitVec.ofInt 64 ((BitVec.ofNat r.width (bitField (p.me.g r.a.toNat) r.pos r.width)).toInt)).setWidth 1024)))) ∧
  (∀ (r : R) (s : State), Ready (.bfi r) s →
    let p := s.prepare (.bfi r)
    ∃ v : Word, exec (.bfi r) s = .next (p.issued (.bfi r) (newWrite .fixed (s.cycle + 1) (Instr.bfi r).srcs ⟨.g, r.d.toNat⟩
      (v.setWidth 1024))) ∧
      ∀ k, k < 64 → v.getLsbD k = if r.pos ≤ k ∧ k < r.pos + r.width then (p.me.g r.a.toNat).getLsbD (k - r.pos)
        else (p.me.g r.d.toNat).getLsbD k) ∧
  (∀ (r : R) (s : State), Ready (.clz r) s →
    let p := s.prepare (.clz r)
    ∃ n ≤ 64, exec (.clz r) s = .next (p.issued (.clz r) (newWrite .fixed (s.cycle + 1) (Instr.clz r).srcs ⟨.g, r.d.toNat⟩
      ((BitVec.ofNat 64 n).setWidth 1024))) ∧
      (∀ k, k < 64 → 64 - n ≤ k → (p.me.g r.a.toNat).getLsbD k = false) ∧ (n < 64 → (p.me.g r.a.toNat).getLsbD (63 - n) = true)) ∧
  (∀ (r : R) (s : State), Ready (.ctz r) s →
    let p := s.prepare (.ctz r)
    ∃ n ≤ 64, exec (.ctz r) s = .next (p.issued (.ctz r) (newWrite .fixed (s.cycle + 1) (Instr.ctz r).srcs ⟨.g, r.d.toNat⟩
      ((BitVec.ofNat 64 n).setWidth 1024))) ∧
      (∀ k, k < n → (p.me.g r.a.toNat).getLsbD k = false) ∧ (n < 64 → (p.me.g r.a.toNat).getLsbD n = true)) ∧
  (∀ (r : R) (s : State), Ready (.popc r) s →
    let p := s.prepare (.popc r)
    exec (.popc r) s = .next (p.issued (.popc r) (newWrite .fixed (s.cycle + 1) (Instr.popc r).srcs ⟨.g, r.d.toNat⟩
      ((BitVec.ofNat 64 ((List.range 64).countP (fun k => (p.me.g r.a.toNat).getLsbD k))).setWidth 1024)))) ∧
  (∀ (r : R) (s : State), Ready (.bswap r) s →
    let p := s.prepare (.bswap r)
    ∃ v : Word, exec (.bswap r) s = .next (p.issued (.bswap r) (newWrite .fixed (s.cycle + 1) (Instr.bswap r).srcs ⟨.g, r.d.toNat⟩
      (v.setWidth 1024))) ∧
      ∀ k, k < 8 → v.extractLsb' (8 * k) 8 = (p.me.g r.a.toNat).extractLsb' (8 * (7 - k)) 8)

/-! ## Transfers of control (chapter 6) -/

/-- R93, R135, R137, R138. A taken transfer whose target R93 allows goes there, with its link write or its decrement on the way; a transfer
that is not taken goes to the next instruction, whatever its target: that only the target of a transfer that is taken is checked is the model's
choice (log 114). One to an address in the segment that is not a multiple of 4 or no start of an instruction
takes cause 0x02, with the target in XINFO, from the state as it was: no link is written and no count is changed. -/
def Obligations.TransfersAndTargets : Prop :=
  ((∀ (stl : BitVec 3) (off : BitVec 20) (s : State), Ready (.br stl off) s →
    let p := s.prepare (.br stl off)
    let t : Int := p.me.pc.toNat + 4 * off.toInt
    p.Reachable t → exec (.br stl off) s = .next (p.issuedTo (.br stl off) (BitVec.ofInt 64 t) [])) ∧
  (∀ (stl : BitVec 3) (off : BitVec 20) (s : State), Ready (.call stl off) s →
    let p := s.prepare (.call stl off)
    let t : Int := p.me.pc.toNat + 4 * off.toInt
    p.Reachable t → exec (.call stl off) s = .next (p.issuedTo (.call stl off) (BitVec.ofInt 64 t)
      (newWrite .fixed (s.cycle + 1) (Instr.call stl off).srcs ⟨.g, 62⟩ ((p.me.pc + 4).setWidth 1024)))) ∧
  (∀ (stl : BitVec 3) (a : BitVec 6) (off : BitVec 14) (s : State), Ready (.bnz stl a off) s →
    let p := s.prepare (.bnz stl a off)
    let t : Int := p.me.pc.toNat + 4 * off.toInt
    (p.me.g a.toNat ≠ 0 → p.Reachable t → exec (.bnz stl a off) s = .next (p.issuedTo (.bnz stl a off) (BitVec.ofInt 64 t) [])) ∧
    (p.me.g a.toNat = 0 → exec (.bnz stl a off) s = .next (p.issued (.bnz stl a off) []))) ∧
  (∀ (stl : BitVec 3) (a : BitVec 6) (off : BitVec 14) (s : State), Ready (.bz stl a off) s →
    let p := s.prepare (.bz stl a off)
    let t : Int := p.me.pc.toNat + 4 * off.toInt
    (p.me.g a.toNat = 0 → p.Reachable t → exec (.bz stl a off) s = .next (p.issuedTo (.bz stl a off) (BitVec.ofInt 64 t) [])) ∧
    (p.me.g a.toNat ≠ 0 → exec (.bz stl a off) s = .next (p.issued (.bz stl a off) []))) ∧
  (∀ (stl : BitVec 3) (a : BitVec 6) (off : BitVec 14) (s : State), Ready (.loop stl a off) s →
    let p := s.prepare (.loop stl a off)
    let t : Int := p.me.pc.toNat + 4 * off.toInt
    let v := BitVec.ofInt 64 ((p.me.g a.toNat).toNat - 1 : Int)
    let w := newWrite .fixed (s.cycle + 1) (Instr.loop stl a off).srcs ⟨.g, a.toNat⟩ (v.setWidth 1024)
    (v ≠ 0 → p.Reachable t → exec (.loop stl a off) s = .next (p.issuedTo (.loop stl a off) (BitVec.ofInt 64 t) w)) ∧
    (v = 0 → exec (.loop stl a off) s = .next (p.issued (.loop stl a off) w))) ∧
  (∀ (r : R) (s : State), Ready (.jmp r) s →
    let p := s.prepare (.jmp r)
    p.Reachable (p.me.g r.a.toNat).toNat → exec (.jmp r) s = .next (p.issuedTo (.jmp r) (p.me.g r.a.toNat) [])) ∧
  (∀ (r : R) (s : State), Ready (.jcall r) s →
    let p := s.prepare (.jcall r)
    p.Reachable (p.me.g r.a.toNat).toNat → exec (.jcall r) s = .next (p.issuedTo (.jcall r) (p.me.g r.a.toNat)
      (newWrite .fixed (s.cycle + 1) (Instr.jcall r).srcs ⟨.g, r.d.toNat⟩
        ((p.me.pc + BitVec.ofNat 64 (Instr.jcall r).bytes).setWidth 1024)))) ∧
  (∀ c ∈ branchOps, ∀ (r : R) (s : State), Ready (c.1 r) s →
    let p := s.prepare (c.1 r)
    (c.2 (p.me.g r.a.toNat) (p.me.srcB r) → p.Reachable r.x.toNat →
      exec (c.1 r) s = .next (p.issuedTo (c.1 r) (r.x.setWidth 64) [])) ∧
    (¬ c.2 (p.me.g r.a.toNat) (p.me.srcB r) → exec (c.1 r) s = .next (p.issued (c.1 r) [])))) ∧
  (∀ (s : State) (i : Instr) (t : Int), Ready i s → takenTransfer i (s.prepare i) = some t → ¬ (s.prepare i).Reachable t →
    exec i s = .next (s.takeTrap 2 (BitVec.ofInt 64 t) false))

/-- R53, R139, R161, R162. `nop` changes nothing; `end` ends the activity, or, inside a meeting, starts its `part .home`; `free` unbinds a
register and changes nothing else, `free g0` and `free k0` change nothing; `yield` settles pending writes and leaves the activity at a
blocking point, with its run budget reset. -/
def Obligations.EndNopFreeAndYield : Prop :=
  ((∀ (r : R) (s : State), Ready (.nop r) s → exec (.nop r) s = .next ((s.prepare (.nop r)).issued (.nop r) [])) ∧
  (∀ (r : R) (s : State), Ready (.end_ r) s →
    let p := s.prepare (.end_ r)
    exec (.end_ r) s = .next ({ p with me := { p.me with
      life := if p.me.party.isSome then .endParting else .ending } }.issued (.end_ r) []))) ∧
  ((∀ c ∈ [(Instr.freeG, Cls.g), (.freeV, .v), (.freeK, .k)], ∀ (r : R) (s : State), Ready (c.1 r) s →
    let p := s.prepare (c.1 r)
    let x : Reg := ⟨c.2, r.a.toNat⟩
    p.me.interlocked x = false → p.me.pendOf x = none →
    exec (c.1 r) s = .next ((if x.binds then { p with me := { p.me with regs := p.me.regs.drop x } } else p).issued (c.1 r) []) ∧
    (x.binds = true → (p.me.regs.drop x).bound x = false)) ∧
  (∀ (r : R) (s : State), Ready (.yield_ r) s →
    let f := (s.prepare (.yield_ r)).flushPending
    exec (.yield_ r) s = .next ({ f with me := { f.me with block := .yielded } }.issued (.yield_ r) [])))

/-! ## Local loads and stores (chapter 6) -/

/-- R140, R141, R143, R144, R146. A ready load whose bytes pass CheckLocal, that waits for no earlier access and that meets no poison
has the little-endian value of its bytes, extended, on its way to G[D]: 3 cycles after issue, one more across two bank words, and those of
refused bank accesses, of which there are none while nothing else of the agent uses the banks; correctable errors in the words it
reads are corrected. -/
def Obligations.LocalLoads : Prop :=
  ∀ c ∈ loadOps, ∀ (r : R) (s q : State), Ready (c.make r) s →
    let p := s.prepare (c.make r)
    let y := (p.me.ea r).toNat
    p.checkLocal false (p.me.ea r) c.size = none → p.me.rangeBusy p.nextCmd false y c.size = false →
    p.readTaint y c.size = some q → q.poisonAt y c.size = none →
    let z := q.correct y c.size
    ∃ wait : Nat, (q.banksBusy = false → wait = 0) ∧
      (y < 0x400000 → q.me.lm.softIn y c.size = [] → z = q) ∧ (y < 0x400000 → z.me.lm.softIn y c.size = []) ∧
      exec (c.make r) s = .next (z.issued (c.make r) (newWrite .load
        (s.cycle + (if y / 8 = (y + c.size - 1) / 8 then 3 else 4) + wait) (c.make r).srcs ⟨.g, r.d.toNat⟩
        ((c.extend (ofBytes (q.readLocal y c.size))).setWidth 1024)))

/-- R140, R141, R144. A ready store whose bytes pass CheckLocal and that waits for no earlier access stores the low bytes of SrcB(),
lowest first, and has no other effect. -/
def Obligations.LocalStores : Prop :=
  ∀ c ∈ storeOps, ∀ (r : R) (s : State), Ready (c.1 r) s →
    let p := s.prepare (c.1 r)
    let y := (p.me.ea r).toNat
    p.checkLocal true (p.me.ea r) c.2 = none → p.me.rangeBusy p.nextCmd true y c.2 = false →
    exec (c.1 r) s = .next ({ p with me := { p.me with lm := p.me.lm.write y (toBytes c.2 (p.me.srcB r).toNat) } }.issued (c.1 r) [])

/-- R141. The frame of the stores: when one of them answers a next state without a trap or a wait, every byte of the activity's local
memory outside the stored bytes reads as before, every stored byte reads as the byte of SrcB() it takes, and registers, module memory
and the special registers are as they were. -/
def Obligations.StoreFrame : Prop :=
  ∀ c ∈ storeOps, ∀ (r : R) (s t : State), Ready (c.1 r) s →
    let p := s.prepare (c.1 r)
    let y := (p.me.ea r).toNat
    p.checkLocal true (p.me.ea r) c.2 = none → p.me.rangeBusy p.nextCmd true y c.2 = false → exec (c.1 r) s = .next t →
    (∀ a, a < y ∨ y + c.2 ≤ a → t.me.lm.bytes.read a = s.me.lm.bytes.read a) ∧
    (∀ k, k < c.2 → t.me.lm.bytes.read (y + k) = (p.me.srcB r).extractLsb' (8 * k) 8) ∧
    t.me.regs = p.me.regs ∧ t.me.pend = s.me.pend ∧ t.mem = s.mem ∧ t.cache = s.cache ∧ t.me.tiles = s.me.tiles ∧
    t.me.accs = s.me.accs ∧ t.me.ts = s.me.ts ∧ t.me.schk = s.me.schk ∧ t.me.seed = s.me.seed ∧ t.me.trap = s.me.trap ∧
    t.me.region = s.me.region ∧ t.me.psjpc = s.me.psjpc

/-- R142, R278, R420. CheckLocal tests the bytes lowest first: it passes when every byte passes, and the first byte that fails decides the trap. On a
compute core a byte in the code region fails with cause 0x05; one of an unmapped frame, below 0, between local memory and the partner
window, above it, or in the window for a store or without a present page of a partner, with cause 0x06. A spindle and a gateway core have 64
frames and no partner window (R278); a gateway core has a block window for loads (R420). -/
def Obligations.CheckLocalRules : Prop :=
  (∀ (s : State) (store : Bool) (y : Int) (n : Nat),
    (s.checkLocal store y n = none ↔ ∀ k : Nat, k < n → s.checkByte store (y + k) = none) ∧
    ∀ z c, s.checkLocal store y n = some (z, c) ↔
      ∃ k : Nat, k < n ∧ z = y + k ∧ s.checkByte store z = some c ∧ ∀ j : Nat, j < k → s.checkByte store (y + j) = none) ∧
  (∀ (s : State) (store : Bool) (y : Int), s.me.agent.kind = .compute →
    s.checkByte store y =
      if y < 0 then some 6 else if y < s.me.xb then some 5
      else if y < 0x30000 then (if y.toNat / 0x800 ∈ s.me.frames then none else some 6)
      else if y < 0x400000 ∨ 0x408000 ≤ y ∨ store = true then some 6
      else match s.partner with
        | some q => if (windowFrame q y.toNat).isSome then none else some 6
        | none => some 6) ∧
  (∀ (s : State) (store : Bool) (y : Int), s.me.agent.kind ≠ .compute →
    s.checkByte store y =
      if y < 0 then some 6 else if y < s.me.xb then some 5
      else if y < 0x20000 then (if y.toNat / 0x800 ∈ s.me.frames then none else some 6)
      else if s.me.agent.kind = .gateway ∧ 0x400000 ≤ y ∧ y < 0x402000 ∧ store = false then none else some 6)

/-- R142, R22, R144. A ready load or store with a byte that fails CheckLocal takes the trap that byte decides, with its address, F and the
direction in XINFO, from the state as it was; one that overlaps an earlier access it must wait for is held: it is tried again in the next
cycle, and nothing else changes. -/
def Obligations.LocalTrapsAndWaits : Prop :=
  ((∀ c ∈ loadOps, ∀ (r : R) (s : State) (z : Int) (k : Nat), Ready (c.make r) s →
    (s.prepare (c.make r)).checkLocal false ((s.prepare (c.make r)).me.ea r) c.size = some (z, k) →
    exec (c.make r) s = .next (s.takeTrap k (BitVec.ofNat 64 ((z % 2 ^ 48).toNat + 2 * c.size.log2 * 2 ^ 48)) false)) ∧
  (∀ c ∈ storeOps, ∀ (r : R) (s : State) (z : Int) (k : Nat), Ready (c.1 r) s →
    (s.prepare (c.1 r)).checkLocal true ((s.prepare (c.1 r)).me.ea r) c.2 = some (z, k) →
    exec (c.1 r) s = .next (s.takeTrap k (BitVec.ofNat 64 ((z % 2 ^ 48).toNat + (2 * c.2.log2 + 1) * 2 ^ 48)) false))) ∧
  ((∀ c ∈ loadOps, ∀ (r : R) (s : State), Ready (c.make r) s →
    let p := s.prepare (c.make r)
    p.checkLocal false (p.me.ea r) c.size = none → p.me.rangeBusy p.nextCmd false (p.me.ea r).toNat c.size = true →
    exec (c.make r) s = .next p.holdIssue) ∧
  (∀ c ∈ storeOps, ∀ (r : R) (s : State), Ready (c.1 r) s →
    let p := s.prepare (c.1 r)
    p.checkLocal true (p.me.ea r) c.2 = none → p.me.rangeBusy p.nextCmd true (p.me.ea r).toNat c.2 = true →
    exec (c.1 r) s = .next p.holdIssue))

/-! ## System registers, traps and regions (chapter 7) -/

/-- R148-R151, R250. `mfs` reads every assigned register as the state holds it. `mts` writes the RW fields and nothing else: SCHK of ACTCFG,
SEED with its default for 0, XPC, INH of XSTAT, and a tile shape that is valid; it is in effect before the next instruction issues. -/
def Obligations.SystemRegisters : Prop :=
  ((∀ (s : State), ∀ c ∈ systemRegister s, s.sysRead c.1 = c.2) ∧
  (∀ (r : R) (s : State), Ready (.mfs r) s →
    let p := s.prepare (.mfs r)
    exec (.mfs r) s = .next (p.issued (.mfs r) (newWrite .fixed (s.cycle + 1) (Instr.mfs r).srcs ⟨.g, r.d.toNat⟩
      ((p.sysRead r.x.toNat).setWidth 1024))))) ∧
  (∀ (r : R) (s : State), Ready (.mts r) s →
    let p := s.prepare (.mts r)
    let v := p.me.srcB r
    let m := p.me
    (r.x.toNat = 0x02 → exec (.mts r) s = .next ({ p with me := { m with schk := v.getLsbD 0 } }.issued (.mts r) [])) ∧
    (r.x.toNat = 0x05 → exec (.mts r) s =
      .next ({ p with me := { m with seed := if v = 0 then 0x9E3779B97F4A7C15 else v } }.issued (.mts r) [])) ∧
    (r.x.toNat = 0x10 → exec (.mts r) s = .next ({ p with me := { m with trap := { m.trap with xpc := v } } }.issued (.mts r) [])) ∧
    (r.x.toNat = 0x13 → exec (.mts r) s =
      .next ({ p with me := { m with trap := { m.trap with inh := v.getLsbD 0 } } }.issued (.mts r) [])) ∧
    (∀ n, n < 8 → r.x.toNat = 0x20 + n → tsValid v = true → ∃ ts : AMap Word,
      exec (.mts r) s = .next ({ p with me := { m with ts := ts } }.issued (.mts r) []) ∧
      (ts.find n).getD 0 = v ∧ ∀ k, k ≠ n → ts.find k = m.ts.find k))

/-- R84, R96-R100, R150. In the order of R100: an instruction that the agent lacks, that R97 makes illegal, or that names an unassigned system
register takes cause 0x01 with words 0 and 1 in XINFO, whatever its guard, its operands and the interlocks; `mts` to a register without
an RW field takes the privileged trap, cause 0x0D, with its number; an instruction whose guard does not hold has no effect but its issue
and the refill of a spilled guard (R44). -/
def Obligations.ChecksBeforeIssue : Prop :=
  (∀ (r : R) (s : State), (Instr.mts r).WellFormed → sysAssigned r.x.toNat s.me.agent.kind = true → sysWritable r.x.toNat = false →
    exec (.mts r) s = .next (s.takeTrap 0x0D (BitVec.ofNat 64 r.x.toNat) false)) ∧
  (∀ (s : State) (eff : State → Eff) (i : Instr),
    i.legal = false ∨ i.onAgent s.me.agent.kind = false ∨ (∃ n w, sysRegOf i = some (n, w) ∧ sysAssigned n s.me.agent.kind = false) →
    issue i s eff = .next (s.takeTrap 1 (illegalInfo i) false)) ∧
  (∀ (s : State) (eff : State → Eff) (i : Instr), Guarded i s → issue i s eff = .next ((s.readRegs i.guardReg).issued i []))

/-- R90, R154, R155, R454. An activity that may take a trap at once enters its handler: pending writes take effect, XPC, XCAUSE (the cause,
ASYNC and INREG) and XINFO are written, INH is set, the PC is the handler's, and the first instruction there issues no earlier than 2
cycles later than the trap's issue slot. No register, page or region state changes beyond the pending writes. While the activity holds forecast
tags or has vector accesses in the queue, the slot is used and the entry waits, in a handler too, which is the model's choice (log 110: R154 gives
the wait and R155 the kill). A program of a spindle or a gateway core takes no handler: the trap ends it as a fault with the cause and XINFO (R281).
A handler's address that is no start of an instruction condemns the activity in the handler. -/
def Obligations.TrapEntry : Prop :=
  (∀ (cause : Nat) (info : Word) (async : Bool) (s : State), TrapReady cause s →
    let f := s.flushPending
    let slot := (s.me.trapping.map (fun w => w.since)).getD s.cycle
    s.takeTrap cause info async = { f with me := { f.me with
      trap := { f.me.trap with
        xpc := s.me.pc
        xcause := BitVec.ofNat 64 (cause + (if async then 2 ^ 8 else 0) + (if s.me.region.open_ then 2 ^ 9 else 0))
        xinfo := info
        inh := true }
      region := { f.me.region with closing := none }
      pc := BitVec.ofNat 64 (4 * (if cause = 4 ∧ s.me.job.ovle ≠ 0 then s.me.job.ovle else s.me.job.trape))
      party := f.me.party.map (fun q => { q with inSync := none })
      nextIssue := max (slot + 2) f.me.nextIssue
      lastIssue := slot
      firstTry := none
      listRead := none
      descWait := none
      trapping := none } }) ∧
  (∀ (cause : Nat) (info : Word) (async : Bool) (s : State), s.me.speculative = true ∨ s.vecBusy = true →
    let slot := (s.me.trapping.map (fun w => w.since)).getD s.cycle
    s.takeTrap cause info async = { s with me := { s.me with
      trapping := some ⟨cause, info, async, slot⟩
      lastIssue := slot
      firstTry := none
      listRead := none
      descWait := none } }) ∧
  (∀ (cause : Nat) (info : Word) (async : Bool) (s : State) (p : ProgCtx), s.me.speculative = false → s.vecBusy = false → s.me.prog = some p →
    s.takeTrap cause info async = { s with me := { s.me with
      life := .ending
      prog := some { p with fault := some (cause, info) }
      lastIssue := (s.me.trapping.map (fun w => w.since)).getD s.cycle
      firstTry := none
      listRead := none
      descWait := none
      trapping := none } }) ∧
  (∀ (cause : Nat) (info : Word) (async : Bool) (s : State), s.me.speculative = false → s.vecBusy = false → s.me.prog = none →
    s.me.trap.inh = false → (s.flushPending.badTarget (s.me.job.handler cause)).isSome = true →
    (s.takeTrap cause info async).me.doom = 3 ∧ (s.takeTrap cause info async).me.trap.inh = true ∧
    (s.takeTrap cause info async).me.trap.xpc = s.me.pc ∧ (s.takeTrap cause info async).agenda = .kill s.me.uid :: s.flushPending.agenda)

/-- R155, R392. A synchronous trap in a handler condemns the activity with the error TRAPNEST, and its kill is the next step. `xret` in a
handler clears INH and goes to XPC; with INH = 0 it takes the illegal-instruction trap whatever XPC holds. -/
def Obligations.NestedTrapsAndReturn : Prop :=
  (∀ (cause : Nat) (info : Word) (s : State), s.me.speculative = false → s.vecBusy = false → s.me.prog = none → s.me.trap.inh = true →
    s.takeTrap cause info false = { s with
      me := { s.me with lastIssue := (s.me.trapping.map (fun w => w.since)).getD s.cycle, trapping := none, doom := 3 }
      agenda := .kill s.me.uid :: s.agenda }) ∧
  (∀ (r : R) (s : State), Ready (.xret r) s →
    let p := s.prepare (.xret r)
    (s.me.trap.inh = true → p.Reachable s.me.trap.xpc.toNat → exec (.xret r) s =
      .next ({ p with me := { p.me with trap := { p.me.trap with inh := false } } }.issuedTo (.xret r) s.me.trap.xpc [])) ∧
    (s.me.trap.inh = true → ¬ p.Reachable s.me.trap.xpc.toNat → exec (.xret r) s = .next (s.takeTrap 2 s.me.trap.xpc false)) ∧
    (s.me.trap.inh = false → exec (.xret r) s = .next (s.takeTrap 1 (illegalInfo (.xret r)) false)))

/-- R44, R87, R156, R158, R160, R372. `region` with no result pending, and none that an engine owes to a live-in, refills the spilled live-ins and writes the snapshot to the spill reserve and opens the region at the next instruction, not
pinned and with no restart; the next instruction issues after ⌈size/256⌉ cycles more. A snapshot that does not fit takes cause 0x06 with
its size; a live-in whose home is bad acts as poison. `rend`, with every forecast tag resolved, closes the open region: OPEN, PIN and TRY are 0, RGPC is all ones, RCNT is kept; with a tag outstanding it waits. -/
def Obligations.Regions : Prop :=
  (∀ (r : R) (s : State), Ready (.region r) s →
    let p := s.prepare (.region r)
    let m := p.me
    let gm := (m.srcB r).toNat / 2 * 2
    let km := (r.m.extractLsb' 0 8).toNat
    let size := 64 + 8 * popcount gm 64 + 16 * popcount km 8 + 128 * popcount r.x.toNat 32
    let next := m.pc + BitVec.ofNat 64 (Instr.region r).bytes
    (∀ q, m.party = some q → q.away = false) →
    (size > (m.job.spages - 3) * 2048 → exec (.region r) s = .next (s.takeTrap 6 (BitVec.ofNat 64 (size + 2 ^ 51)) false)) ∧
    (size ≤ (m.job.spages - 3) * 2048 → m.pend = [] → m.speculative = false → p.vecBusy = false →
      (∀ x ∈ liveIns gm r.x.toNat km, x ∉ m.claimed) →
      (∀ w, m.badHome (liveIns gm r.x.toNat km) = some w → exec (.region r) s = .next (s.takePoison 2 w)) ∧
      (m.badHome (liveIns gm r.x.toNat km) = none →
        let f := p.refillAll (liveIns gm r.x.toNat km)
        exec (.region r) s = .next ({ f with me := { f.me with
          reserve := f.me.reserve.write 0x1800 (f.me.snapshot gm r.x.toNat km next)
          region := { f.me.region with pc := next, open_ := true, pin := false, try_ := 0, cmdMark := p.nextCmd }
          nextIssue := s.cycle + 1 + (size + 255) / 256 } }.issued (.region r) []))) ∧
    (size ≤ (m.job.spages - 3) * 2048 → (∃ x ∈ liveIns gm r.x.toNat km, x ∈ m.claimed) → exec (.region r) s = .next p.holdIssue)) ∧
  (∀ (r : R) (s : State), Ready (.rend r) s → s.me.speculative = false →
    let p := s.prepare (.rend r)
    exec (.rend r) s = .next ((if p.me.region.open_ then { p with me := { p.me with
      region := { p.me.region with open_ := false, pin := false, try_ := 0, pc := BitVec.allOnes 64, closing := none } } } else p).issued (.rend r) [])) ∧
  (∀ (r : R) (s : State), Ready (.rend r) s → s.me.speculative = true →
    let p := s.prepare (.rend r)
    exec (.rend r) s = .next { p with me := { p.me with
      region := { p.me.region with closing := some ((Instr.rend r).bytes, (Instr.rend r).stl) } } }.holdIssue)

/-! ## Stage barriers and sleeping (chapter 9) -/

/-- R217, R218. The update of a stage barrier: the first error of a phase is kept, a count that falls short is an overrun, and when nothing is
pending and a phase was open it completes and the reload values open the next. That a phase is open while a count is pending is the model's
reading (log 15). A barrier's 16 bytes hold its fields at every width. -/
def Obligations.BarrierUpdateAndLayout : Prop :=
  (∀ (b : Bar) (bytes arrivals code : Nat),
    let short : Bool := b.pb < bytes ∨ b.pa < arrivals
    let code' := if code ≠ 0 ∧ b.ecur = false then code else if short = true ∧ b.ecur = false then 7 else b.code
    let ecur' : Bool := b.ecur ∨ code ≠ 0 ∨ short = true
    let u := b.update bytes arrivals code
    u.rlb = b.rlb ∧ u.rla = b.rla ∧ u.code = code' ∧
    (b.pb - bytes = 0 ∧ b.pa - arrivals = 0 ∧ (b.pb ≠ 0 ∨ b.pa ≠ 0) →
      u.elast = ecur' ∧ u.ecur = false ∧ u.phase = (b.phase + 1) % 256 ∧ u.pb = b.rlb ∧ u.pa = b.rla) ∧
    (¬ (b.pb - bytes = 0 ∧ b.pa - arrivals = 0 ∧ (b.pb ≠ 0 ∨ b.pa ≠ 0)) →
      u.elast = b.elast ∧ u.ecur = ecur' ∧ u.phase = b.phase ∧ u.pb = b.pb - bytes ∧ u.pa = b.pa - arrivals)) ∧
  (∀ b : Bar, b.pb < 2 ^ 32 → b.pa < 2 ^ 16 → b.phase < 256 → b.code < 64 → b.rlb < 2 ^ 32 → b.rla < 2 ^ 16 →
    Bar.ofNum b.toNum = b ∧ ∀ (a : Activity) (y : Nat), (a.setBar y b).bar y = b)

/-- R216, R219, R220. The barrier instructions at an address that passes its checks: `bar.init` writes the layout with its counts and
gives 0, `bar.exp` adds with saturation and gives the phase, `bar.arr` applies an update, `bar.inval` writes zeros, `bar.test` gives
the status for the distance of the phase from the token, and `bar.wait` gives it, or waits at a blocking point for the phase to complete. That
the results are readable in the cycle after issue is the model's reading (log 16), as is that `bar.exp` of 0 and 0 opens no phase (log 15). -/
def Obligations.BarrierInstructions : Prop :=
  (∀ (r : R) (s : State), Ready (.barInit r) s →
    let p := s.prepare (.barInit r)
    let y := (p.me.g r.a.toNat).toNat
    let b := (p.me.srcB r).toNat % 2 ^ 32
    let a := (p.me.g r.c.toNat).toNat % 2 ^ 16
    p.BarrierAt y → (b ≠ 0 ∨ a ≠ 0) → p.barNamed y = false →
    exec (.barInit r) s = .next ({ p with me := p.me.setBar y ⟨b, a, 0, false, false, 0, b, a⟩ }.issued (.barInit r)
      (newWrite .engine (s.cycle + 1) (Instr.barInit r).srcs ⟨.g, r.d.toNat⟩ 0))) ∧
  (∀ (r : R) (s : State), Ready (.barExp r) s →
    let p := s.prepare (.barExp r)
    let y := (p.me.g r.a.toNat).toNat
    let b := p.me.bar y
    p.BarrierAt y →
    exec (.barExp r) s = .next ({ p with me := p.me.setBar y { b with
        pb := min (b.pb + (p.me.srcB r).toNat % 2 ^ 32) (2 ^ 32 - 1)
        pa := min (b.pa + (p.me.g r.c.toNat).toNat % 2 ^ 16) (2 ^ 16 - 1) } }.issued (.barExp r)
      (newWrite .engine (s.cycle + 1) (Instr.barExp r).srcs ⟨.g, r.d.toNat⟩ ((BitVec.ofNat 64 b.phase).setWidth 1024)))) ∧
  (∀ (r : R) (s : State), Ready (.barArr r) s →
    let p := s.prepare (.barArr r)
    let y := (p.me.g r.a.toNat).toNat
    let n := (p.me.srcB r).toNat % 2 ^ 16
    p.BarrierAt y → n ≠ 0 → exec (.barArr r) s = .next ((p.barUpdate p.me.uid y 0 n 0).issued (.barArr r) [])) ∧
  (∀ (r : R) (s : State), Ready (.barInval r) s →
    let p := s.prepare (.barInval r)
    let y := (p.me.g r.a.toNat).toNat
    p.BarrierAt y → p.barNamed y = false → exec (.barInval r) s =
      .next ({ p with me := { p.me with lm := p.me.lm.write y (List.replicate 16 0) } }.issued (.barInval r) [])) ∧
  (∀ (r : R) (s : State), Ready (.barTest r) s →
    let p := s.prepare (.barTest r)
    let y := (p.me.g r.a.toNat).toNat
    let b := p.me.bar y
    let d := (b.phase + 256 - (p.me.srcB r).toNat % 256) % 256
    p.BarrierAt y → exec (.barTest r) s = .next (p.issued (.barTest r)
      (newWrite .engine (s.cycle + 1) (Instr.barTest r).srcs ⟨.g, r.d.toNat⟩
        ((barrierStatus b (if d = 1 then 0 else if d = 0 then 2 else 1)).setWidth 1024)))) ∧
  (∀ (r : R) (s : State), Ready (.barWait r) s →
    let p := s.prepare (.barWait r)
    let y := (p.me.g r.a.toNat).toNat
    let t := (p.me.srcB r).toNat % 256
    let b := p.me.bar y
    let d := (b.phase + 256 - t) % 256
    p.BarrierAt y →
    (d ≠ 0 → exec (.barWait r) s = .next (p.issued (.barWait r)
      (newWrite .engine (s.cycle + 1) (Instr.barWait r).srcs ⟨.g, r.d.toNat⟩
        ((barrierStatus b (if d = 1 then 0 else 1)).setWidth 1024)))) ∧
    (d = 0 → exec (.barWait r) s = .next ((p.armMonitor y t r.d.toNat).issued (.barWait r) [])))

/-- R224. `sleep` and `sleepu` wait at a blocking point for their wake cycle, or return at once when it has come; the wake step ends the
wait, and the first issue comes in the cycle after it. The wait is saved as wake kind 6. -/
def Obligations.Sleeping : Prop :=
  (∀ c ∈ [(Instr.sleep, true), (.sleepu, false)], ∀ (r : R) (s : State), Ready (c.1 r) s →
    let p := s.prepare (c.1 r)
    let wake := (if c.2 then s.cycle else 0) + (p.me.srcB r).toNat
    (wake ≤ s.cycle → exec (c.1 r) s = .next (p.issued (c.1 r) [])) ∧
    (s.cycle < wake → exec (c.1 r) s =
      .next ({ p.flushPending with me := { p.flushPending.me with block := .sleep wake } }.issued (c.1 r) []))) ∧
  (∀ (uid w : Nat) (a : Activity) (s : State), s.act? uid = some a → a.block = .sleep w → w ≤ s.cycle →
    exec (.sleepWake uid) s = .next (s.modAct uid (fun a => { a with block := .none, nextIssue := max a.nextIssue (w + 1) }))) ∧
  (∀ (uid w : Nat) (a : Activity) (s : State), s.act? uid = some a → a.block = .sleep w → s.cycle < w → exec (.sleepWake uid) s = .next s) ∧
  (∀ (a : Activity) (w : Nat), a.block = .sleep w → a.wakeKind = 6 ∧ a.wakeWords = (6, w))

/-! ## The vector engine (chapter 8) -/

/-- R168, R70, R171-R174. The rounding arithmetic, by elements: FP results are exact and rounded once, with one draw an element under RS,
and integer results wrap or saturate; inactive elements are zeroed or kept. -/
def Obligations.VectorArithmetic : Prop := ∀ c ∈ roundingOps, ElementResult c

/-- R168, R171, R173-R175, R178, R180. The other element-wise instructions: minima and maxima, magnitude and negation, logic and shifts,
moves and permutes, and the functions of one operand, with the values of R180: its table of special operands, 1/x exactly, the square roots
to within one part in 2^320, and powers of 2 and their logarithms exactly. Other values of `vexp2` and `vlog2` are the model's
approximations (log 101); they lie between those of the powers of 2 beside them. -/
def Obligations.VectorElements : Prop :=
  (∀ c ∈ selectingOps ++ logicOps ++ moveOps ++ functionOps, ElementResult c) ∧ SpecialOperands ∧ FunctionValues

/-- R175, R176. A compare writes bit i of K[D] as the condition on the active element i, and 0 for every other bit;
ZM is 0, a comparison with NaN is false but for `vcun`, and +0 equals −0. -/
def Obligations.VectorCompares : Prop :=
  (∀ c ∈ vectorCompares, ∀ (r : R) (s : State), Ready (c.1 r) s →
    let p := s.prepare (c.1 r)
    let w := fmtWidth r.fmt
    ∃ v : Mask, exec (c.1 r) s = .next (p.issued (c.1 r)
        (newWrite .fixed (s.cycle + mixedLatency r) (c.1 r).srcs ⟨.k, r.d.toNat⟩ (v.setWidth 1024))) ∧
      ∀ j, j < 128 → v.getLsbD j = ((j < fmtCount r.fmt : Bool) && (p.me.k r.km).getLsbD j &&
        c.2 r (element w (p.me.v r.a.toNat) j) (element w (p.me.v r.b.toNat) j))) ∧
  (∀ c ∈ vectorCompares, ∀ r : R, r.zm = true → ¬ (c.1 r).WellFormed) ∧
  (∀ x y : Val, x.isNan = true ∨ y.isNan = true → x.eq y = false ∧ x.lt y = false) ∧
  (∀ (b c : Bool) (p q : Nat), (Val.fin b 0 p).eq (.fin c 0 q) = true)

/-- R175, R177, R178. `vsel` selects by K[KM], `vins` replaces one element, `vcmpr` packs the active elements in order and zeroes the rest, and
`vext` extends one element into a general register. The mask instructions combine, count, find, build and read masks. -/
def Obligations.VectorSelectionsAndMasks : Prop :=
  ((∀ (r : R) (s : State), Ready (.vsel r) s →
    let p := s.prepare (.vsel r)
    let w := fmtWidth r.fmt
    ∃ v : Vec, exec (.vsel r) s = .next (p.issued (.vsel r)
        (newWrite .fixed (s.cycle + 2) (Instr.vsel r).srcs ⟨.v, r.d.toNat⟩ v)) ∧
      ∀ j, j < fmtCount r.fmt → element w v j =
        if (p.me.k r.km).getLsbD j then element w (p.me.v r.a.toNat) j else element w (p.me.v r.b.toNat) j) ∧
  (∀ (r : R) (s : State), Ready (.vins r) s →
    let p := s.prepare (.vins r)
    let w := fmtWidth r.fmt
    ∃ v : Vec, exec (.vins r) s = .next (p.issued (.vins r)
        (newWrite .fixed (s.cycle + 2) (Instr.vins r).srcs ⟨.v, r.d.toNat⟩ v)) ∧
      ∀ j, j < fmtCount r.fmt → element w v j =
        if j = (p.me.srcB r).toNat % fmtCount r.fmt then (p.me.g r.a.toNat).setWidth w else element w (p.me.v r.d.toNat) j) ∧
  (∀ (r : R) (s : State), Ready (.vcmpr r) s →
    let p := s.prepare (.vcmpr r)
    let w := fmtWidth r.fmt
    let active := (List.range (fmtCount r.fmt)).filter (fun j => (p.me.k r.km).getLsbD j)
    ∃ v : Vec, exec (.vcmpr r) s = .next (p.issued (.vcmpr r)
        (newWrite .fixed (s.cycle + 2) (Instr.vcmpr r).srcs ⟨.v, r.d.toNat⟩ v)) ∧
      ∀ j, j < fmtCount r.fmt → element w v j =
        match active[j]? with
        | some k => element w (p.me.v r.a.toNat) k
        | none => 0) ∧
  (∀ (r : R) (s : State), Ready (.vext r) s →
    let p := s.prepare (.vext r)
    let x := element (fmtWidth r.fmt) (p.me.v r.a.toNat) ((p.me.srcB r).toNat % fmtCount r.fmt)
    exec (.vext r) s = .next (p.issued (.vext r) (newWrite .fixed (s.cycle + 2) (Instr.vext r).srcs ⟨.g, r.d.toNat⟩
      ((if isInt r.fmt then x.signExtend 64 else x.setWidth 64).setWidth 1024))))) ∧
  ((∀ c ∈ [(Instr.kand, fun (x y : Mask) => x &&& y), (.kor, fun x y => x ||| y), (.kxor, fun x y => x ^^^ y), (.kandn, fun x y => x &&& ~~~y)],
    ∀ (r : R) (s : State), Ready (c.1 r) s →
    let p := s.prepare (c.1 r)
    exec (c.1 r) s = .next (p.issued (c.1 r) (newWrite .fixed (s.cycle + 2) (c.1 r).srcs ⟨.k, r.d.toNat⟩
      ((c.2 (p.me.k r.a.toNat) (p.me.k r.b.toNat)).setWidth 1024)))) ∧
  (∀ (r : R) (s : State), Ready (.kpopc r) s →
    let p := s.prepare (.kpopc r)
    exec (.kpopc r) s = .next (p.issued (.kpopc r) (newWrite .fixed (s.cycle + 2) (Instr.kpopc r).srcs ⟨.g, r.d.toNat⟩
      ((BitVec.ofNat 64 ((List.range 128).countP (fun j => (p.me.k r.a.toNat).getLsbD j))).setWidth 1024)))) ∧
  (∀ (r : R) (s : State), Ready (.kfirst r) s →
    let p := s.prepare (.kfirst r)
    ∃ n ≤ 128, exec (.kfirst r) s = .next (p.issued (.kfirst r) (newWrite .fixed (s.cycle + 2) (Instr.kfirst r).srcs ⟨.g, r.d.toNat⟩
        ((BitVec.ofNat 64 n).setWidth 1024))) ∧
      (∀ j, j < n → (p.me.k r.a.toNat).getLsbD j = false) ∧ (n < 128 → (p.me.k r.a.toNat).getLsbD n = true)) ∧
  (∀ (r : R) (s : State), Ready (.kset r) s →
    let p := s.prepare (.kset r)
    exec (.kset r) s = .next (p.issued (.kset r) (newWrite .fixed (s.cycle + 2) (Instr.kset r).srcs ⟨.k, r.d.toNat⟩
      ((p.me.srcB r ++ p.me.g r.a.toNat).setWidth 1024)))) ∧
  (∀ (r : R) (s : State), Ready (.kget r) s →
    let p := s.prepare (.kget r)
    exec (.kget r) s = .next (p.issued (.kget r) (newWrite .fixed (s.cycle + 2) (Instr.kget r).srcs ⟨.g, r.d.toNat⟩
      (((p.me.k r.a.toNat).extractLsb' (if r.m.getLsbD 0 then 64 else 0) 64).setWidth 1024)))))

/-- R179, R70. The reductions: the fixed pairwise tree over the active elements, inactive ones replaced by Ident, with n − 1 draws under
RS; the result is ready 8 cycles after issue. -/
def Obligations.Reductions : Prop :=
  ∀ c ∈ reductions, ∀ (r : R) (s : State), Ready (c.1 r) s →
    let p := s.prepare (c.1 r)
    let w := fmtWidth r.fmt
    let n := fmtCount r.fmt
    let d := drawsOf (c.2.1 && r.rm = 4) p.me.seed (n - 1)
    let leaves := (List.range n).map (fun j =>
      if (p.me.k r.km).getLsbD j then (element w (p.me.v r.a.toNat) j).toNat else c.2.2.1 r)
    let t := BitVec.ofNat w (reduceTree (c.2.2.2 r) n.log2 leaves d.2)
    exec (c.1 r) s = .next ({ p with me := { p.me with seed := d.1 } }.issued (c.1 r)
      (newWrite .engine (s.cycle + 8) (c.1 r).srcs ⟨.g, r.d.toNat⟩
        ((if isFp r.fmt then t.setWidth 64 else t.signExtend 64).setWidth 1024)))

/-- R181-R184, R72. `vcvt` converts each element, `vqnt` writes the codes of its blocks into the span that PART names and their scales to
G[E], and `vdqnt` gives the values of a span's codes. -/
def Obligations.Conversions : Prop :=
  (∀ (r : R) (s : State), Ready (.vcvt r) s →
    let p := s.prepare (.vcvt r)
    let ws := fmtWidth r.fmt
    let wd := fmtWidth r.xfmt
    let ns := fmtCount r.fmt
    let nd := fmtCount r.xfmt
    let d := drawsOf (r.rm = 4) p.me.seed (min ns nd)
    let old := p.me.v r.d.toNat
    ∃ v : Vec, exec (.vcvt r) s = .next ({ p with me := { p.me with seed := d.1 } }.issued (.vcvt r)
        (newWrite .fixed (s.cycle + 4) (Instr.vcvt r).srcs ⟨.v, r.d.toNat⟩ v)) ∧
      ∀ j, j < nd → element wd v j =
        if ws ≤ wd then
          if (p.me.k r.km).getLsbD j then converted r (d.2.getD j 0) (element ws (p.me.v r.a.toNat) (r.xpart * nd + j))
          else if r.zm then 0 else element wd old j
        else if r.xpart * ns ≤ j ∧ j < r.xpart * ns + ns then
          if (p.me.k r.km).getLsbD j then
            converted r (d.2.getD (j - r.xpart * ns) 0) (element ws (p.me.v r.a.toNat) (j - r.xpart * ns))
          else if r.zm then 0 else element wd old j
        else element wd old j) ∧
  (∀ (r : R) (s : State), Ready (.vqnt r) s →
    let p := s.prepare (.vqnt r)
    let w := fmtWidth r.fmt
    let n := fmtCount r.fmt
    let cw := if r.xfmt = 7 then 4 else 8
    let d := drawsOf (r.rm = 4) p.me.seed n
    let block (j : Nat) : Nat × List Nat := requantise (floatFmt r.xfmt)
      (if r.xfmt = 5 then 448 else if r.xfmt = 6 then 57344 else 6) (RMode.of r.rm)
      ((List.range (if r.rm = 4 then 8 else 0)).map (fun i => d.2.getD (8 * j + i) 0)) (fBf16.decode ((p.me.srcB r).toNat % 2 ^ 16))
      ((List.range 8).map (fun i => valueOf r (element w (p.me.v r.a.toNat) (8 * j + i))))
    ∃ (v : Vec) (g : Word), exec (.vqnt r) s = .next ({ p with me := { p.me with seed := d.1 } }.issued (.vqnt r)
        (newWrite .fixed (s.cycle + 4) (Instr.vqnt r).srcs ⟨.v, r.d.toNat⟩ v ++
          newWrite .fixed (s.cycle + 4) (Instr.vqnt r).srcs ⟨.g, r.e.toNat⟩ (g.setWidth 1024))) ∧
      (∀ k, k * cw < 1024 → element cw v k =
        if r.xpart * n ≤ k ∧ k < r.xpart * n + n then
          BitVec.ofNat cw ((block ((k - r.xpart * n) / 8)).2.getD ((k - r.xpart * n) % 8) 0)
        else element cw (p.me.v r.d.toNat) k) ∧
      ∀ j, j < 8 → g.extractLsb' (8 * j) 8 = if j < n / 8 then BitVec.ofNat 8 (block j).1 else 0) ∧
  (∀ (r : R) (s : State), Ready (.vdqnt r) s →
    let p := s.prepare (.vdqnt r)
    let w := fmtWidth r.fmt
    let n := fmtCount r.fmt
    let cw := if r.xfmt = 7 then 4 else 8
    let d := drawsOf (r.rm = 4) p.me.seed n
    let code (k : Nat) : Nat := (element cw (p.me.v r.a.toNat) (r.xpart * n + k)).toNat
    let nanBlock (j : Nat) : Bool := r.xfmt ≠ 7 && (List.range 8).any (fun i => ((floatFmt r.xfmt).decode (code (8 * j + i))).isNan)
    ∃ v : Vec, exec (.vdqnt r) s = .next ({ p with me := { p.me with seed := d.1 } }.issued (.vdqnt r)
        (newWrite .fixed (s.cycle + 4) (Instr.vdqnt r).srcs ⟨.v, r.d.toNat⟩ v)) ∧
      ∀ k, k < n → element w v k = roundedOp r (d.2.getD k 0) (blockElem (floatFmt r.xfmt) (nanBlock (k / 8)) (code k)
        ((p.me.srcB r).extractLsb' (8 * (k / 8)) 8).toNat (fBf16.decode ((p.me.g r.c.toNat).toNat % 2 ^ 16))))

/-- R66. Rounding a value that the format holds exactly gives its pattern back, in every mode, with every overflow rule and draw. -/
def Obligations.RoundingIsExact : Prop :=
  ∀ f ∈ [fFp32, fBf16, fFp16, fE4m3, fE5m2, fE2m1], ∀ (rm : RMode) (ovf draw x : Nat), x < 2 ^ (f.sign + 1) →
    (f.decode x).isNan = false → f.round rm ovf draw (f.decode x) = x

/-- R185-R188, R142, R143, R23. The vector loads and stores whose active elements pass CheckLocal enter the queue, with a scoreboard entry
for the range that they name; one that the range scoreboard holds waits there; one that it does not hold makes its access at once: a load corrects the words it reads and has
its value 4 cycles after issue, one more for each further access cycle, and a store's bytes are those of the highest element that covers
them, a word that it writes whole losing its poison. The first byte that fails decides the trap. A load gives back its entry when its access is
made, and then its value reaches V[D]. (That a contiguous access takes one bank cycle is the model's reading, log 33.) -/
def Obligations.VectorAccesses : Prop :=
  (∀ c ∈ vectorLoads, ∀ (r : R) (s q : State), Ready (c.make r) s →
    let p := s.prepare (c.make r)
    let x := c.access r p.me
    let n := fmtCount r.fmt
    let w := fmtWidth r.fmt
    (∀ e ∈ x, p.checkLocal false (c.addr r p.me e.1) (w / 8) = none) → p.core.vecq.length < 16 →
    p.me.rangeBusy p.nextCmd false (elemRange (w / 8) x).1 (elemRange (w / 8) x).2 = false →
    ((elemRange (w / 8) x).2 ≠ 0 → p.scoreUsed p.me.agent < scoreSize p.me.agent.kind) →
    p.readTaint 0x400000 (inWindow x) = some q → q.vecPoison (w / 8) x = none →
    let z := q.correctElems (w / 8) x
    ∃ (v : Vec) (span : Nat), 1 ≤ span ∧ (c.contiguous = true → span = 1) ∧
      exec (c.make r) s = .next ({ z with
          nextCmd := p.nextCmd + 1
          me := { z.me with
            claims := z.me.claims ++ rangeClaim p.nextCmd (elemRange (w / 8) x) false
            claimed := z.me.claimed ++ [(⟨.v, r.d.toNat⟩ : Reg)] }
          core := { z.core with vecq := z.core.vecq ++
            [(⟨p.nextCmd, p.me.uid, p.me.pc, true, false, x, r.fmt, r.d.toNat, p.me.k r.km, r.zm, v, span, s.cycle + 3 + span, false⟩ : VecCmd)] } }.issued
        (c.make r) []) ∧
      ∀ j, j < n → element w v j =
        if (p.me.k r.km).getLsbD j then BitVec.ofNat w (ofBytes (q.readLocal (c.addr r p.me j).toNat (w / 8)))
        else if r.zm then 0 else element w (p.me.v r.d.toNat) j) ∧
  (∀ c ∈ vectorStores, ∀ (r : R) (s : State), Ready (c.make r) s →
    let p := s.prepare (c.make r)
    let x := c.access r p.me
    let w := fmtWidth r.fmt
    (∀ e ∈ x, p.checkLocal true (c.addr r p.me e.1) (w / 8) = none) → p.core.vecq.length < 16 →
    p.me.rangeBusy p.nextCmd true (elemRange (w / 8) x).1 (elemRange (w / 8) x).2 = false →
    ((elemRange (w / 8) x).2 ≠ 0 → p.scoreUsed p.me.agent < scoreSize p.me.agent.kind) →
    ∃ (m : LMem) (span : Nat), 1 ≤ span ∧ (c.contiguous = true → span = 1) ∧
      exec (c.make r) s = .next ({ p with
          nextCmd := p.nextCmd + 1
          me := { p.me with
            lm := m
            claims := p.me.claims ++ rangeClaim p.nextCmd (elemRange (w / 8) x) true }
          core := { p.core with vecq := p.core.vecq ++
            [(⟨p.nextCmd, p.me.uid, p.me.pc, false, false, x, r.fmt, r.d.toNat, p.me.k r.km, r.zm, p.me.v r.b.toNat, span, s.cycle + span, false⟩ : VecCmd)] } }.issued
        (c.make r) []) ∧
      (∀ k, k ∈ m.poison ↔ k ∈ p.me.lm.poison ∧ ¬ ∀ j : Nat, j < 8 → ∃ e ∈ x, e.2 ≤ 8 * k + j ∧ 8 * k + j < e.2 + w / 8) ∧
      ∀ a, m.bytes.read a =
        match x.reverse.find? (fun e => e.2 ≤ a && a < e.2 + w / 8) with
        | some e => (element w (p.me.v r.b.toNat) e.1).extractLsb' (8 * (a - e.2)) 8
        | none => p.me.lm.bytes.read a) ∧
  (∀ c ∈ vectorLoads ++ vectorStores, ∀ (r : R) (s q : State), Ready (c.make r) s →
    let p := s.prepare (c.make r)
    let x := c.access r p.me
    let w := fmtWidth r.fmt
    (∀ e ∈ x, p.checkLocal c.store (c.addr r p.me e.1) (w / 8) = none) → p.core.vecq.length < 16 →
    p.me.rangeBusy p.nextCmd c.store (elemRange (w / 8) x).1 (elemRange (w / 8) x).2 = true →
    ((elemRange (w / 8) x).2 ≠ 0 → p.scoreUsed p.me.agent < scoreSize p.me.agent.kind) →
    (if c.store = true then q = p else p.readTaint 0x400000 (inWindow x) = some q) →
    ∃ (t : State) (d : VecCmd), exec (c.make r) s = .next (t.issued (c.make r) []) ∧ t.core.vecq = p.core.vecq ++ [d] ∧ d.id = p.nextCmd ∧ d.waiting = true ∧
      d.elems = x ∧ d.load = !c.store ∧ t.me.lm = q.me.lm ∧
      t.me.claims = q.me.claims ++ rangeClaim p.nextCmd (elemRange (w / 8) x) c.store ∧
      t.me.claimed = q.me.claimed ++ (if c.store then [] else [(⟨.v, r.d.toNat⟩ : Reg)])) ∧
  (∀ c ∈ vectorLoads ++ vectorStores, ∀ (r : R) (s : State), Ready (c.make r) s →
    let p := s.prepare (c.make r)
    let x := c.access r p.me
    let w := fmtWidth r.fmt
    ∀ (before after : List (Nat × Nat)) (e : Nat × Nat) (z : Int) (k : Nat), x = before ++ e :: after →
    (∀ f ∈ before, p.checkLocal c.store (c.addr r p.me f.1) (w / 8) = none) →
    p.checkLocal c.store (c.addr r p.me e.1) (w / 8) = some (z, k) →
    exec (c.make r) s = .next (s.takeTrap k (BitVec.ofNat 64 ((z % 2 ^ 48).toNat +
      2 ^ 48 * ((if c.store then 1 else 0) + 2 * (w / 8).log2 + 16 * e.1 + 2 ^ 11))) false)) ∧
  (∀ (s : State) (c : VecCmd), s.vecCmd? c.id = some c → s.me.uid = c.owner → s.core.agent = s.me.agent →
    c.waiting = false → c.load = true → c.due ≤ s.cycle + 4 → (∃ x ∈ s.me.claims, x.cmd = c.id) →
    exec (.vectorAccessDone c.id) s =
      .next { s with me := { s.me with claims := s.me.claims.filter (fun x => x.cmd ≠ c.id) } }) ∧
  (∀ (s : State) (c : VecCmd), s.vecCmd? c.id = some c → s.me.uid = c.owner → s.core.agent = s.me.agent →
    c.waiting = false → c.load = true → c.due ≤ s.cycle + 1 → (∀ x ∈ s.me.claims, x.cmd ≠ c.id) → (⟨.v, c.dst⟩ : Reg) ∈ s.me.claimed →
    c.stale = false → ∃ t, exec (.vectorAccessDone c.id) s = .next t ∧ t.me.v c.dst = c.data ∧ t.me.claimed = s.me.claimed.erase ⟨.v, c.dst⟩ ∧
      t.core.vecq = s.core.vecq.filter (fun d => d.id ≠ c.id))

/-! ## The matrix engine (chapters 12 and 13) -/

/-- R250, R255-R266. The matrix instructions whose operands pass their checks enter the matrix queue in issue order, with the values of
their registers and shapes at issue, and with their local range on the scoreboard. `tmov` copies the shape, `.rs` forms draw at issue,
and `accrd` claims its two registers. (That `mma` is held against the view that the queued commands will leave is the model's reading, log 20.) -/
def Obligations.MatrixIssue : Prop :=
  (∀ (r : R) (s q : State) (h : Shape), Ready (.tld r) s →
    let p := s.prepare (.tld r)
    let y := (p.me.g r.a.toNat).toNat
    Shape.of (p.me.tsv r.d.toNat) = some h → p.checkLocal false y h.ll = none → y % 32 = 0 → p.BarNamed r → p.MatRoom →
    p.readTaint y h.ll = some q →
    exec (.tld r) s = .next ((q.queued { p.newMat .tld r with
      y := y
      len := h.ll } false).issued (.tld r) [])) ∧
  (∀ (r : R) (s : State) (h : Shape), Ready (.tst r) s →
    let p := s.prepare (.tst r)
    let y := (p.me.g r.a.toNat).toNat
    Shape.of (p.me.tsv r.b.toNat) = some h → p.checkLocal true y h.ll = none → y % 32 = 0 → p.MatRoom →
    exec (.tst r) s = .next ((p.queued { p.newMat .tst r with
      y := y
      len := h.ll } true).issued (.tst r) [])) ∧
  (∀ c ∈ [(Instr.tzero, MatKind.tzero), (.tfree, .tfree), (.azero, .azero), (.afree, .afree)], ∀ (r : R) (s : State), Ready (c.1 r) s →
    let p := s.prepare (c.1 r)
    p.MatRoom → exec (c.1 r) s = .next ((p.queued (p.newMat c.2 r) false).issued (c.1 r) [])) ∧
  (∀ (r : R) (s : State), Ready (.tmov r) s →
    let p := s.prepare (.tmov r)
    p.me.tsv r.a.toNat ≠ 0 → p.MatRoom →
    let q := p.queued (p.newMat .tmov r) false
    exec (.tmov r) s =
      .next ({ q with me := { q.me with ts := q.me.ts.put r.d.toNat (p.me.tsv r.a.toNat) } }.issued (.tmov r) [])) ∧
  (∀ (r : R) (s : State) (a d : Shape), Ready (.tcvt r) s →
    let p := s.prepare (.tcvt r)
    Shape.of (p.me.tsv r.a.toNat) = some a → Shape.of (p.me.tsv r.d.toNat) = some d → a.rows = d.rows → a.elems = d.elems →
    (r.ovfM = 2 → isInt d.fmt = false ∧ d.fmt ≠ 7) → (isBlock d.fmt = true ∨ (r.b = 0 ∧ p.me.srcB r = 0)) → p.MatRoom →
    let q := p.queued (p.newMat .tcvt r) false
    exec (.tcvt r) s = .next ({ q with me := { q.me with
      seed := (drawsOf (r.rmM = 4) p.me.seed (a.rows * a.elems)).1 } }.issued (.tcvt r) [])) ∧
  (∀ (r : R) (s q : State) (a b : Shape) (ka : Nat) (view : AccView), Ready (.mma r) s →
    let p := s.prepare (.mma r)
    let y := (p.me.srcB r).toNat
    Shape.of (p.me.tsv r.a.toNat) = some a → Shape.of (p.me.tsv (if r.lb then r.bsh else r.b.toNat)) = some b →
    a.rows = 32 → b.rows = 64 → mmaPair a.fmt b.fmt = some (ka, view) → 16 * r.koff + a.rby / 32 * ka ≤ b.elems →
    (p.viewAhead r.d.toNat = none ∨ p.viewAhead r.d.toNat = some view) → p.BarNamed r → p.MatRoom →
    (r.lb = true → p.checkLocal false y b.ll = none ∧ y % 32 = 0 ∧ p.readTaint y b.ll = some q) → (r.lb = false → q = p) →
    exec (.mma r) s = .next ((q.queued (if r.lb then { p.newMat .mma r with
      y := y
      len := b.ll } else p.newMat .mma r) false).issued (.mma r) [])) ∧
  (∀ (r : R) (s : State), Ready (.accrd r) s →
    let p := s.prepare (.accrd r)
    p.MatRoom →
    let q := p.queued (p.newMat .accrd r) false
    exec (.accrd r) s = .next ({ q with me := { q.me with
      claimed := q.me.claimed ++ [(⟨.v, r.d.toNat⟩ : Reg)] ++ (if r.e.toNat = 0 then [] else [(⟨.g, r.e.toNat⟩ : Reg)]) } }.issued (.accrd r) [])) ∧
  (∀ (r : R) (s : State), Ready (.accst r) s →
    let p := s.prepare (.accst r)
    let y := (p.me.g r.a.toNat).toNat
    let row := 64 * (if r.fmt = 1 then 2 else 4)
    let stride := if p.me.g r.e.toNat = 0 then row else (p.me.g r.e.toNat).toNat
    p.checkLocal true y (31 * stride + row) = none → y % 32 = 0 → stride % 32 = 0 → row ≤ stride → p.MatRoom →
    let q := p.queued { p.newMat .accst r with
      y := y
      len := 31 * stride + row } true
    exec (.accst r) s = .next ({ q with me := { q.me with
      seed := (drawsOf (r.rmM = 4) p.me.seed 2048).1 } }.issued (.accst r) []))

/-- R252, R262, R73-R76. A K-step changes every entry of an accumulator at once: an FP entry becomes the wide rounding of itself plus the
exact block sums with their scales, and an INT entry saturates to 40 bits; the count of K-steps goes up by one. (That the zero from which a
sum starts is no addend, so that a sum of −0 alone is −0, is the model's choice, log 112.) -/
def Obligations.AccumulatorStep : Prop :=
  ∀ (c : Acc) (o : MmaOps) (step i j : Nat), i < 32 → j < 64 →
    let old := c.entry (64 * i + j)
    let blocks := (List.range (o.ka / 8)).map (fun q =>
      let e := step * o.ka + 8 * q
      ((Val.sum false ((List.range 8).map (fun n => (o.a.plain o.ha i (e + n)).mul (o.b.plain o.hb j (16 * o.koff + e + n))))).mul
        (o.a.blockScale o.ha i e)).mul (o.b.blockScale o.hb j (16 * o.koff + e)))
    let dot := ((List.range o.ka).map (fun n => sextNat 8 (o.a.code o.ha i (step * o.ka + n)) *
      sextNat 8 (o.b.code o.hb j (16 * o.koff + step * o.ka + n)))).sum
    (c.kstep o step).steps = (c.steps + 1) % 2 ^ 64 ∧ (c.kstep o step).view = c.view ∧
    (c.view = .fp → (c.kstep o step).entry (64 * i + j) =
      roundWide ((wideDecode old).add false (((Val.sum false blocks).mul (o.a.bandScale o.ha)).mul (o.b.bandScale o.hb)))) ∧
    (c.view = .int → (c.kstep o step).entry (64 * i + j) =
      BitVec.ofInt 40 (min (max (old.toInt + dot) (-2 ^ 39)) (2 ^ 39 - 1)))

/-- R251, R257, R258. What `tst` writes in the layout of R251, `tld` reads back: every payload and scale byte of the shape, and the band scale
of a block-scaled format. -/
def Obligations.TileLayout : Prop :=
  ∀ (h : Shape) (t : Tile) (bad : Bool),
    (t.layout h).length = h.ll ∧
    (∀ k, k < h.payload → (Tile.parse h (t.layout h) bad).payload.read k = t.payload.read k) ∧
    (∀ k, h.payload ≤ k → (Tile.parse h (t.layout h) bad).payload.read k = 0) ∧
    (isBlock h.fmt = true → (Tile.parse h (t.layout h) bad).band = t.band ∧
      ∀ k, k < h.sc → (Tile.parse h (t.layout h) bad).scales.read k = t.scales.read k)

/-- R256-R268. The units at work, on a command of the activity in focus that has what it needs, when no spill or refill is on its way: it starts
in the next cycle when its unit is free; an `azero` binds its accumulator to zeros of its view, one that is bound and poisoned too, which is
the model's choice (log 131); `tcvt` writes the elements or blocks of R260 (bytes beyond the shape are 0 by the model's choice, log 130; the
time of `azero` and `afree` is log 132); `tld` fills its tile from local memory, `tst` stores it, `tmov`
copies one, `tzero` and `tfree` clear one, `afree` and `accst.clr` unbind an accumulator, `accst` stores its rows, `accrd` gives its
registers 4 cycles after the read, and a K-step's results enter the accumulator. A local operand in the partner window is read when the
partner's verdicts let it (R361). -/
def Obligations.MatrixUnits : Prop :=
  (∀ (s t : State) (c : MatCmd), s.HasMat c → c.kind = .mma → s.core.unitFree c = true → s.olderReady c = false →
    c.owner ∉ s.disp.evicting → s.readyMat c = some t → exec (.mmaStart c.id) s = .next (if t.spillBusy then t else t.beginMat c)) ∧
  (∀ (s t : State) (c : MatCmd), s.HasMat c → c.kind ≠ .mma → c.kind ≠ .accrd → c.started = none → s.core.unitFree c = true →
    s.olderReady c = false → c.owner ∉ s.disp.evicting → s.readyMat c = some t →
    exec (.tilePortComplete c.id) s = .next (if t.spillBusy then t else t.beginMat c)) ∧
  (∀ (t : State) (c : MatCmd), (∃ d ∈ t.core.matq, d.id = c.id) → ∃ d ∈ (t.beginMat c).core.matq, d.id = c.id ∧ d.started = some (t.cycle + 1)) ∧
  (∀ (t : State) (c : MatCmd), c.kind = .azero → ∃ acc, (t.beginMat c).me.accs.find c.r.d.toNat = some acc ∧
    acc.view = (if c.r.lb then .int else .fp) ∧ acc.steps = 0 ∧ acc.poison = false ∧ ∀ k, acc.entry k = 0) ∧
  (∀ (s : State) (c : MatCmd) (b : Nat), s.HasMat c → c.started = some b → b + c.portTime ≤ s.cycle + 1 → s.TilesAt c → s.spillBusy = false →
    (c.kind = .tld → ∀ h, Shape.of c.td = some h → s.poisonAt c.y c.len = none → (s.readTaint c.y c.len).isSome = true → ∃ t, exec (.tilePortComplete c.id) s = .next t ∧
      t.me.tile c.r.d.toNat = Tile.parse h (s.readLocal c.y c.len) false) ∧
    (c.kind = .tst → ∀ h, Shape.of c.tb = some h → (s.me.tile c.r.b.toNat).poison = false →
      ∃ t, exec (.tilePortComplete c.id) s = .next t ∧
        t.me.lm = s.me.lm.write c.y ((s.me.tile c.r.b.toNat).layout h)) ∧
    (c.kind = .tmov → ∃ t, exec (.tilePortComplete c.id) s = .next t ∧ t.me.tile c.r.d.toNat = s.me.tile c.r.a.toNat) ∧
    (c.kind = .tzero → ∃ t, exec (.tilePortComplete c.id) s = .next t ∧ t.me.tile c.r.d.toNat = Tile.zero) ∧
    (c.kind = .tcvt → ∀ a d, Shape.of c.ta = some a → Shape.of c.td = some d → tsValid c.td = true →
      ∃ t, exec (.tilePortComplete c.id) s = .next t ∧ c.Converted a d (s.me.tile c.r.a.toNat) (t.me.tile c.r.d.toNat)) ∧
    (c.kind = .tfree → ∃ t, exec (.tilePortComplete c.id) s = .next t ∧ t.me.tiles.find c.r.a.toNat = none ∧
      t.me.tspilled.find c.r.a.toNat = none) ∧
    (c.kind = .afree → ∃ t, exec (.tilePortComplete c.id) s = .next t ∧ t.me.accs.find c.r.d.toNat = none) ∧
    (c.kind = .accst → s.me.accs ≠ [] → s.me.aspilled = [] → ∀ acc, s.me.accs.find c.r.c.toNat = some acc → acc.poison = false →
      ∃ t, exec (.tilePortComplete c.id) s = .next t ∧
        (c.r.clr = true → t.me.accs.find c.r.c.toNat = none) ∧ (c.r.clr = false → t.me.accs.find c.r.c.toNat = some acc) ∧
        t.me.lm = (List.range 32).foldl (fun (m : LMem) i =>
          m.write (c.y + i * c.stride) (accstRow c acc (if c.r.rmM = 4 then (srDraws c.seed 2048).2 else []) i)) s.me.lm)) ∧
  (∀ (s : State) (c : MatCmd) (acc : Acc), s.HasMat c → c.kind = .accrd → c.started = none → s.cycle ≠ c.issued →
    c.issued ≤ s.cycle → s.core.unitFree c = true → s.olderReady c = false → s.core.matOrdered c = true →
    (∀ e ∈ s.core.matq, ¬(e.owner = c.owner ∧ e.acc = c.acc ∧ e.stepDue s.cycle = true)) → c.r.bar = 0 → s.me.matRange c = true →
    s.me.aspilled = [] → s.me.accs.find c.r.a.toNat = some acc → acc.poison = false → s.spillBusy = false → c.stale = false →
    ∃ t, exec (.tilePortComplete c.id) s = .next t ∧ t.me.pend = s.me.pend ++
      newWrite .engine (s.cycle + 5) [] ⟨.v, c.r.d.toNat⟩ (packElems 32 ((List.range 32).map (fun j =>
        accrdElem c.r acc (64 * (c.opB.toNat % 32) + 32 * (c.opB.toNat / 32 % 2) + j)))) ++
      newWrite .engine (s.cycle + 5) [] ⟨.g, c.r.e.toNat⟩ (BitVec.ofNat 1024 acc.steps)) ∧
  (∀ (s : State) (c : MatCmd) (o : MmaOps) (acc : Acc), s.HasMat c → c.kind = .mma → c.stepDue s.cycle = true → s.TilesAt c →
    s.me.aspilled = [] → s.me.accs.find c.r.d.toNat = some acc → s.mmaOps c = some o → (s.matTaint c).isSome = true → c.bad = false → o.a.poison = false →
    o.b.poison = false → acc.poison = false → s.spillBusy = false →
    ∃ t, exec (.kstepEnd c.id) s = .next t ∧ t.me.accs.find c.r.d.toNat = some (acc.kstep o c.step) ∧
      (c.steps ≤ c.step + 1 → ∀ d ∈ t.core.matq, d.id ≠ c.id))

/-! ## The copy engine (chapters 9 to 11) -/

/-- R196, R199, R201-R204, R212, R214. The tile and linear copies whose operands pass their checks enter the copy queue: a load counts its
local range on the scoreboard, gives its promise, and records it under `.pm`; a write of an activity that is not speculative takes a
journal entry when it names no barrier, and one of a speculative activity goes to the held-effects buffer with its bytes; `pfx` and `tflush`
name no range. The promise is the formula of R214, and 0 in its four cases. (That it is readable in the cycle after issue is the model's
reading, log 44.) -/
def Obligations.CopyIssue : Prop :=
  (∀ (r : R) (s : State) (d : Desc), Ready (.cpy r) s →
    let p := s.prepare (.cpy r)
    let tid := (p.me.srcB r).toNat % 2 ^ 16
    let y := (p.me.g r.a.toNat).toNat
    let c : Cmd := { p.newCmd .cpy r with
      tid := tid
      desc := some d
      len := d.ll }
    tid ≠ 0 → p.findDesc tid = some (some d) → p.checkLocal true y d.ll = none →
    d.outside (p.me.g r.c.toNat).toNat (p.me.g r.e.toNat).toNat = false → p.BarNamed r → p.CopyRoom r.unordered 1 →
    exec (.cpy r) s = .next (p.loaded (.cpy r) c y)) ∧
  (∀ (r : R) (s : State) (d : Desc), Ready (.cpyl r) s →
    let p := s.prepare (.cpyl r)
    let tid := (p.me.srcB r).toNat % 2 ^ 16
    let y := (p.me.g r.a.toNat).toNat
    let n := (p.me.g r.e.toNat).toNat
    let c : Cmd := { p.newCmd .cpyl r with
      tid := tid
      desc := some d
      len := n }
    tid ≠ 0 → p.findDesc tid = some (some d) → p.LinearRange true y (p.me.g r.c.toNat).toNat n → p.BarNamed r →
    p.CopyRoom r.unordered 1 → exec (.cpyl r) s = .next (p.loaded (.cpyl r) c y)) ∧
  (∀ (r : R) (s : State) (d : Desc), Ready (.cpyst r) s → s.me.speculative = false →
    let p := s.prepare (.cpyst r)
    let tid := (p.me.srcB r).toNat % 2 ^ 16
    let y := (p.me.g r.a.toNat).toNat
    let c : Cmd := { p.newCmd .cpyst r with
      tid := tid
      desc := some d
      len := d.ll }
    tid ≠ 0 → p.findDesc tid = some (some d) → p.checkLocal false y d.ll = none →
    d.outside (p.me.g r.c.toNat).toNat (p.me.g r.e.toNat).toNat = false → d.ro = false →
    (r.redOp ≠ 0 → isBlock d.fmt = false) → d.ll ≠ 0 → p.BarNamed r → p.CopyRoom r.unordered 1 →
    p.Posts (.cpyst r) c [⟨c.id, y, d.ll, false⟩] p (exec (.cpyst r) s)) ∧
  (∀ (r : R) (s : State) (d : Desc), Ready (.cpylSt r) s → s.me.speculative = false →
    let p := s.prepare (.cpylSt r)
    let tid := (p.me.srcB r).toNat % 2 ^ 16
    let y := (p.me.g r.a.toNat).toNat
    let n := (p.me.g r.e.toNat).toNat
    let c : Cmd := { p.newCmd .cpylSt r with
      tid := tid
      desc := some d
      len := n }
    tid ≠ 0 → p.findDesc tid = some (some d) → p.LinearRange false y (p.me.g r.c.toNat).toNat n → d.ro = false → p.BarNamed r →
    p.CopyRoom r.unordered 1 → p.Posts (.cpylSt r) c [⟨c.id, y, n, false⟩] p (exec (.cpylSt r) s)) ∧
  (∀ (r : R) (s : State) (d : Desc), Ready (.pfx r) s →
    let p := s.prepare (.pfx r)
    let tid := (p.me.srcB r).toNat % 2 ^ 16
    tid ≠ 0 → p.findDesc tid = some (some d) → d.outside (p.me.g r.c.toNat).toNat (p.me.g r.e.toNat).toNat = false →
    p.CopyRoom r.unordered 0 → exec (.pfx r) s = .next ((p.enqueue { p.newCmd .pfx r with
      tid := tid
      desc := some d } []).issued (.pfx r) [])) ∧
  (∀ (r : R) (s : State) (d : Desc), Ready (.tflush r) s → s.me.speculative = false →
    let p := s.prepare (.tflush r)
    let tid := (p.me.srcB r).toNat % 2 ^ 16
    tid ≠ 0 → p.findDesc tid = some (some d) → p.BarNamed r → p.CopyRoom r.unordered 0 →
    p.Posts (.tflush r) { p.newCmd .tflush r with
      tid := tid
      desc := some d } [] p (exec (.tflush r) s)) ∧
  (∀ (r : R) (s : State) (d : Desc), Ready (.cpyst r) s → s.me.speculative = true →
    let p := s.prepare (.cpyst r)
    let tid := (p.me.srcB r).toNat % 2 ^ 16
    let y := (p.me.g r.a.toNat).toNat
    let size := 64 + (d.ll + 31) / 32 * 32
    tid ≠ 0 → p.findDesc tid = some (some d) → p.checkLocal false y d.ll = none →
    d.outside (p.me.g r.c.toNat).toNat (p.me.g r.e.toNat).toNat = false → d.ro = false →
    (r.redOp ≠ 0 → isBlock d.fmt = false) → p.BarNamed r → size ≤ 8192 → p.heldUsed p.me.agent + size ≤ 16384 →
    (r.unordered = true ∨ p.me.rangeBusy p.nextCmd false y d.ll = false) →
    ∃ (c : Cmd) (copy : LMem), exec (.cpyst r) s = .next ({ p with me := { p.me with
        helds := p.me.helds ++ [(⟨some { c with held := true, payload := some copy }, none, size, false⟩ : Held)] } }.issued (.cpyst r) []) ∧
      c.kind = .cpyst ∧ c.tid = tid ∧ c.desc = some d ∧ c.base = y ∧ c.len = d.ll ∧ c.bar = r.bar ∧
      ∀ k b, k < d.ll → (p.readLocal y d.ll)[k]? = some b → copy.bytes.read (y + k) = b) ∧
  (∀ (s : State) (c : Cmd) (d : BitVec 6),
    let h := (s.core.translateHits (s.asidOf c) c).2
    let hit (g : Nat) : Prop := ∃ pa w, AMap.find h.xlat g = some (some (pa, w)) ∧ paKind pa = .device
    let first := c.target.bind (fun x => (s.linesOf x h.xlat false ((c.unitSrc 0).map (fun z => z.2))).head?)
    (d = 0 ∨ c.sem = 3 ∨ (∃ g ∈ pagesOf c.spans, ¬ hit g) → s.promise c d = 0) ∧
    (d ≠ 0 → c.sem ≠ 3 → (∀ g ∈ pagesOf c.spans, hit g) → s.promise c d = s.cycle +
      16 * (s.core.copyq.filter (fun e => !e.started && e.kind ≠ .fence)).length +
      2 * ((first.map (fun k => levelLatency s.me.agent ⟨.spindle, s.homeSlice k⟩)).getD 0) + (c.len + 63) / 64 + 320))

/-- R205, R206, R23, R24. `gath`, `scat` and `red` hold their activity while the index list is read, ⌈4n/64⌉ + 2 cycles from the first try, with
the scoreboard entries of the list and of the data but under `.u`, and then enter the queue with the list; an index outside the tensor takes the copy fault RANGE with its position, unless `.zfill` is given. `scat` and
`red` of a speculative activity go to the held-effects buffer. (That poison in the index list does not stop them is the model's reading, log
36.) -/
def Obligations.RowCopies : Prop :=
  (∀ (r : R) (s : State) (d : Desc), Ready (.gath r) s →
    let p := s.prepare (.gath r)
    let n := (p.me.g r.e.toNat).toNat
    p.RowsPass .gath r d → { p with me := { p.me with listRead := none } }.CopyRoom r.unordered 1 →
    (p.cycle < p.me.firstTry.getD p.cycle + (4 * n + 63) / 64 + 2 → exec (.gath r) s = .next (p.listing r).holdIssue) ∧
    (p.me.firstTry.getD p.cycle + (4 * n + 63) / 64 + 2 ≤ p.cycle →
      (r.zfill = true ∨ p.badRow r d = none → exec (.gath r) s =
        .next ((p.enqueue { p.rowCmd .gath r d with due := p.firstDue (p.rowCmd .gath r d) }
          [⟨p.nextCmd, (p.me.g r.a.toNat).toNat, n * d.rbp, true⟩]).issued (.gath r) [])) ∧
      ∀ k, r.zfill = false → p.badRow r d = some k → exec (.gath r) s =
        .next (s.takeTrap 0x0C (BitVec.ofNat 64 (3 + k * 2 ^ 16 + (p.me.srcB r).toNat % 2 ^ 16 * 2 ^ 32)) false))) ∧
  (∀ x ∈ [(Instr.scat, CmdKind.scat), (.red, .red)], ∀ (r : R) (s : State) (d : Desc), Ready (x.1 r) s → s.me.speculative = false →
    let p := s.prepare (x.1 r)
    let n := (p.me.g r.e.toNat).toNat
    p.RowsPass x.2 r d → d.ro = false → (x.2 = .red → r.redOp ≠ 0) →
    { p with me := { p.me with listRead := none } }.CopyRoom r.unordered 1 →
    p.me.firstTry.getD p.cycle + (4 * n + 63) / 64 + 2 ≤ p.cycle → (r.zfill = true ∨ p.badRow r d = none) →
    p.Posts (x.1 r) (p.rowCmd x.2 r d) [⟨p.nextCmd, (p.me.g r.a.toNat).toNat, n * d.rbp, false⟩] (p.listing r) (exec (x.1 r) s)) ∧
  (∀ x ∈ [(Instr.scat, CmdKind.scat), (.red, .red)], ∀ (r : R) (s : State) (d : Desc), Ready (x.1 r) s → s.me.speculative = true →
    let p := s.prepare (x.1 r)
    let n := (p.me.g r.e.toNat).toNat
    let size := 64 + (n * d.rbp + 4 * n + 31) / 32 * 32
    p.RowsPass x.2 r d → d.ro = false → (x.2 = .red → r.redOp ≠ 0) →
    p.me.firstTry.getD p.cycle + (4 * n + 63) / 64 + 2 ≤ p.cycle → (r.zfill = true ∨ p.badRow r d = none) → size ≤ 8192 →
    p.heldUsed p.me.agent + size ≤ 16384 →
    (r.unordered = true ∨ p.me.rangeBusy p.nextCmd false (p.me.g r.a.toNat).toNat (n * d.rbp) = false) →
    ∃ copy : LMem, exec (x.1 r) s = .next ({ p with me := { p.me with
      helds := p.me.helds ++ [(⟨some { p.rowCmd x.2 r d with held := true, payload := some copy }, none, size, false⟩ : Held)] } }.issued (x.1 r) []))

/-- R199, R211, R255. The copy faults, cause 0x0C with the code and TID in XINFO, from the state as it was: TENSOR for tensor id 0 or an invalid
descriptor, TILE for a tile wholly outside, READONLY for a write; FORMAT and ALIGN of the matrix instructions. An unread descriptor
holds the instruction. (That TILE comes before READONLY, and READONLY before FORMAT, is the model's reading of step 4, log 18.) -/
def Obligations.CopyFaultTraps : Prop :=
  (∀ x ∈ [(Instr.cpy, true), (.cpyst, false)], ∀ (r : R) (s : State), Ready (x.1 r) s →
    let p := s.prepare (x.1 r)
    let tid := (p.me.srcB r).toNat % 2 ^ 16
    let info (code : Nat) : Word := BitVec.ofNat 64 (code + tid * 2 ^ 32)
    p.BarNamed r →
    (tid = 0 ∨ p.findDesc tid = some none → exec (x.1 r) s = .next (s.takeTrap 0x0C (info 1) false)) ∧
    (tid ≠ 0 → p.findDesc tid = none →
      exec (x.1 r) s = .next { p with me := { p.me with descWait := some tid } }.holdIssue) ∧
    (∀ d, tid ≠ 0 → p.findDesc tid = some (some d) → p.checkLocal x.2 (p.me.g r.a.toNat).toNat d.ll = none →
      (d.outside (p.me.g r.c.toNat).toNat (p.me.g r.e.toNat).toNat = true →
        exec (x.1 r) s = .next (s.takeTrap 0x0C (info 2) false)) ∧
      (d.outside (p.me.g r.c.toNat).toNat (p.me.g r.e.toNat).toNat = false → x.2 = false → d.ro = true →
        exec (x.1 r) s = .next (s.takeTrap 0x0C (info 8) false)))) ∧
  ((∀ (r : R) (s : State), Ready (.tld r) s →
    let p := s.prepare (.tld r)
    p.me.tsv r.d.toNat = 0 → (p.me.g r.a.toNat).toNat % 32 = 0 → p.BarNamed r →
    exec (.tld r) s = .next (s.takeTrap 0x0C 4 false)) ∧
  (∀ (r : R) (s : State), Ready (.tmov r) s → (s.prepare (.tmov r)).me.tsv r.a.toNat = 0 →
    exec (.tmov r) s = .next (s.takeTrap 0x0C 4 false)) ∧
  (∀ (r : R) (s : State) (h : Shape), Ready (.tst r) s →
    let p := s.prepare (.tst r)
    let y := (p.me.g r.a.toNat).toNat
    Shape.of (p.me.tsv r.b.toNat) = some h → p.checkLocal true y h.ll = none → y % 32 ≠ 0 →
    exec (.tst r) s = .next (s.takeTrap 0x0C 5 false)) ∧
  (∀ (r : R) (s : State), Ready (.mma r) s → r.lb = false →
    let p := s.prepare (.mma r)
    p.BarNamed r → (p.me.tsv r.a.toNat = 0 ∨ p.me.tsv r.b.toNat = 0 ∨
      mmaPair ((p.me.tsv r.a.toNat).toNat % 16) ((p.me.tsv r.b.toNat).toNat % 16) = none) →
    exec (.mma r) s = .next (s.takeTrap 0x0C 4 false)))

/-- R194, R207-R210, R223. `codeld`, every page of whose image is translated through the translation cache first, holds the job's code on the
core, `pwin` registers or removes a push window, `cpy.prog` asks for a program for
its window, `pwret` and `fence` enter the queue. (That a window is busy from the issue of `cpy.prog` on is the model's reading, log 32, as is the
translation of the image's pages at the issue of `codeld`, log 35.) -/
def Obligations.WindowsAndFences : Prop :=
  (∀ (r : R) (s t : State) (c : Cmd), Ready (.codeld r) s → s.me.speculative = false →
    let p := s.prepare (.codeld r)
    let va := (p.me.srcB r).toNat
    let w := (p.me.g r.c.toNat).toNat
    va % 2048 = 0 → w ≠ 0 → 4 * w ≤ p.me.xb →
    (∀ g ∈ pagesOf { p.newCmd .codeld r with len := 4 * w }.spans, p.walkHeld p.me.job.vd (p.asidOf { p.newCmd .codeld r with len := 4 * w }) (g * pageBytes) = false) →
    p.translateAll { p.newCmd .codeld r with len := 4 * w } = some (t, c) →
    t.CopyRoom r.unordered 0 →
    let q := t.enqueue c []
    exec (.codeld r) s = .next ({ q with core := { q.core with segs := q.core.segs.map (fun (g : CodeSeg) =>
      if g.jid = p.me.job.jid ∧ g.vd = p.me.job.vd then { g with held := true } else g) } }.issued (.codeld r) [])) ∧
  (∀ (r : R) (s : State), Ready (.pwin r) s → s.me.speculative = false →
    let p := s.prepare (.pwin r)
    let w := (p.me.g r.a.toNat).toNat
    let base := (p.me.g r.c.toNat).toNat
    let n := (p.me.srcB r).toNat
    p.checkLocal true base n = none → base % 32 = 0 → n % 32 = 0 → n ≤ 65536 → w ≤ 3 → p.me.windowBusy w = false →
    (n ≠ 0 → p.me.windowMeets w base n = false) →
    exec (.pwin r) s = .next ({ p with me := { p.me with
      windows := if n = 0 then p.me.windows.del w else p.me.windows.put w ⟨base, n, none, false⟩ } }.issued (.pwin r) [])) ∧
  (∀ (r : R) (s : State) (x : Window), Ready (.cpyProg r) s → s.me.speculative = false →
    let p := s.prepare (.cpyProg r)
    let w := (p.me.g r.a.toNat).toNat
    w ≤ 3 → p.me.windows.find w = some x → x.prog = none → x.asked = false → p.BarNamed r → p.CopyRoom r.unordered 0 →
    let q := p.enqueue (p.newCmd .cpyProg r) []
    exec (.cpyProg r) s = .next ({ q with me := { q.me with windows := q.me.windows.map (fun (z : Nat × Window) =>
      (z.1, if z.1 = w then { z.2 with asked := true } else z.2)) } }.issued (.cpyProg r) [])) ∧
  (∀ (r : R) (s : State), Ready (.pwret r) s → s.me.speculative = false →
    let p := s.prepare (.pwret r)
    (p.me.g r.a.toNat).toNat ≤ 3 → p.me.windowBusy (p.me.g r.a.toNat).toNat = true → p.CopyRoom r.unordered 0 →
    exec (.pwret r) s = .next ((p.enqueue (p.newCmd .pwret r) []).issued (.pwret r) [])) ∧
  (∀ (r : R) (s : State), Ready (.fence r) s → (s.me.speculative = false ∨ r.sem = 1) →
    let p := s.prepare (.fence r)
    p.CopyRoom r.unordered 0 → p.NoneLeaving →
    exec (.fence r) s = .next ((p.enqueue { p.newCmd .fence r with bar := 0 } []).issued (.fence r) []))

/-- R144, R194, R200, R201, R205, R211, R212, R223, R244, R301, R450. The copy queue at work, on a command that stands in it: it starts when it is its turn, a
release or sc command at `.sys` first having host, CXL and peer memory written through; a page is looked up, or walked once the request has
drawn its tokens and made its way; a unit's lines are filled; a load's unit lands once it has drawn the tokens of its way, each byte with its
whole beat, its bytes counted on the barrier; a write's unit is performed at its home: each byte that it writes reads there as its source
byte, or, of an update, as a byte of the element's new value (unless its sector was poisoned and is not written whole), and every other
byte of memory that could be read reads as before;
the last one of a write gives its arrival, or acknowledges its journal entry, which is freed or refused; a fence that is complete leaves
the queue, as does a `pwret`; a flush drops its tensor's lines; a code load that has ended replaces the segment. (The due cycle of a write,
one beat a cycle from its start, is the model's reading, log 41, as is the serving of a write's units by batch, log 116.) -/
def Obligations.CopyQueue : Prop :=
  (∀ (s : State) (c : Cmd), s.HasCmd c → c.kind ≠ .cpyProg → s.turnOf c = true →
    let n : State := { s with core := { s.core with startedAt := s.cycle + 1 } }
    let q := if (c.sem = 2 ∨ c.sem = 3) ∧ c.scope = 3 then n.writeThrough else n
    (c.kind = .fence → exec (.copyStart c.id) s = .next (q.dropCmd c)) ∧
    (c.kind = .pwret → exec (.copyStart c.id) s = .next ((q.returnWindow c.opA.toNat).dropCmd c)) ∧
    (c.kind ≠ .fence → c.kind ≠ .pwret → exec (.copyStart c.id) s = .next (q.putCmd { c with
      started := true
      startedAt := s.cycle
      due := if c.kind.isWrite then s.cycle + (c.len + 63) / 64 else c.due
      heldUnits := c.todo.filter (fun u => q.onHold (c.start s.cycle) u)
      covers := if c.kind.isWrite ∧ 2 ≤ c.sem then q.observed q.core (q.ownerOf c) c.id else [] }))) ∧
  (∀ (s : State) (c : Cmd) (g : Nat), s.HasCmd c → (pagesOf c.spans).find? (fun g => (AMap.find c.xlat g).isNone) = some g →
    let va := g * pageBytes
    (∀ x, s.core.tlbFind c.vd (s.asidOf c) va = some x → exec (.pageWalk c.id) s = .next ({ s with core := s.core.tlbFill x }.putCmd
      { c with xlat := AMap.put c.xlat g (some (x.pa + (va - x.va), x.writable)) })) ∧
    (s.core.tlbFind c.vd (s.asidOf c) va = none → s.walkHeld c.vd (s.asidOf c) va = false →
      c.issued + 2 * levelLatency s.core.agent (s.walker s.core.agent) ≤ s.cycle →
      s.hasPassed (.walk c.id g) (s.walkNeeds s.core.agent c.vd (s.asidOf c) va) = true →
      let q := s.fetchWalk c.vd (s.asidOf c) va
      (∀ x, s.walk c.vd (s.asidOf c) va = some x → exec (.pageWalk c.id) s = .next ({ q with core := q.core.tlbFill x }.putCmd
        { c with xlat := AMap.put c.xlat g (some (x.pa + (va - x.va), x.writable)) })) ∧
      (s.walk c.vd (s.asidOf c) va = none →
        exec (.pageWalk c.id) s = .next (q.putCmd { c with xlat := AMap.put c.xlat g none })))) ∧
  (∀ (s : State) (c : Cmd) (x : Target) (u : Nat) (k : LineKey), s.HasCmd c → c.target = some x → c.started = true → u ∈ c.todo →
    u ∉ c.filled → s.unitLines c u = [k] → (s.bucket k.bucket).hold = false → s.unitAt c u s.warmHeld = false → s.cache.home k = none →
    s.unitAt c u isSwitch = false → s.warmBehind c u = false →
    s.replicaFor c k = none → s.mayFill c u = true → s.fillTime c [k] ≤ s.cycle →
    exec (.lineFill c.id u false) s = .next ((s.fill c.vd k (s.homeSlice k) false (s.fillSet x c.xlat k)).putCmd
      { c with
        filled := setInsert c.filled u
        due := max c.due s.cycle })) ∧
  (∀ (s : State) (c : Cmd) (x : Target) (u : Nat), s.HasCmd c → s.loc? c.id = none → c.target = some x → c.kind.isLoad = true →
    c.started = true → u ∈ c.todo → s.unitReady c u = true → s.unitAt c u s.linkWaits = false → s.tripDone c u = true →
    let beats := ((c.unitSrc u).length + 63) / 64
    let rest : Cmd := { c with todo := c.todo.erase u, landing := c.landing.del u }
    let cells := c.staged ++ ((c.unitSrc u).drop (64 * (c.landed u).1)).map (fun z =>
      (c.base + z.1, ((s.asModule c.modid).readSrc c x (fun _ => false) z.2).toOption))
    c.due + beats ≤ s.cycle → s.core.portFree + beats ≤ s.cycle →
    exec (.landingUnit c.id u) s = .next (s.landUnit c u (fun _ => false)) ∧
    (c.bar = 0 → (s.landUnit c u (fun _ => false)).me.lm =
      s.me.lm.land (if c.apart = true ∨ rest.todo = [] then cells else cells.filter (fun y => !rest.owes (y.1 / 32)))) ∧
    (c.todo = [u] → ∀ d ∈ (s.landUnit c u (fun _ => false)).core.copyq, d.id ≠ c.id)) ∧
  (∀ (s : State) (c : Cmd) (u : Nat), s.HasCmd c →
    (c.kind = .cpyst ∨ c.kind = .cpylSt ∨ ((c.kind = .scat ∨ c.kind = .red) ∧ c.todo.head? = some u)) → c.started = true → u ∈ c.todo →
    s.unitAt c u isSwitch = false →
    (∀ v ∈ c.batch u, s.unitReady c v = true ∧ s.unitAt c v s.linkWaits = false ∧ s.tripDone c v = true) →
    exec (.storePerformed c.id u) s = .next (s.performNext c u (fun _ => false))) ∧
  (∀ (s : State) (c : Cmd) (x : Target) (u : Nat) (w : List (Loc × Byte)), c.target = some x → c.payload = none → s.UnitWrites c x u w →
    let t := (s.performUnit c u (fun _ => false)).1
    let b := s.countLines (s.unitLines c u)
    let n := fmtBits x.desc.fmt / 8
    (∀ l v, l.pa ∉ w.map (fun y => y.1.pa) → b.byteFor c l = .ok v → t.byteFor c l = .ok v) ∧
    (c.kind = .cpylSt ∨ c.kind = .scat ∨ (c.kind = .cpyst ∧ c.r.redOp = 0) →
      ∀ y ∈ w, noRead y.1.pa = false → t.byteFor c y.1 = .ok y.2 ∨ t.byteFor c y.1 = .error errPoison) ∧
    (c.kind = .red ∨ (c.kind = .cpyst ∧ c.r.redOp ≠ 0) → 0 < n → ∀ (e : Nat) (old : List Byte), n * (e + 1) ≤ w.length →
      ((w.drop (n * e)).take n).map (fun y => b.byteFor c y.1) = old.map Except.ok →
      let new := toBytes n (redElem c.r.redOp x.desc.fmt (ofBytes old) (ofBytes (((w.drop (n * e)).take n).map (fun y => y.2))))
      ∀ y ∈ ((w.drop (n * e)).take n).zip new, t.byteFor c y.1.1 = .ok y.2 ∨ t.byteFor c y.1.1 = .error errPoison)) ∧
  ReductionValues ∧
  (∀ (s : State) (c : Cmd) (e : JEntry) (n : Nat), s.HasCmd c → s.core.journal.find n = some e → e.cmd = c.id → c.started = true → c.todo = [] →
    (c.err = 0 → exec (.journalAck s.core.agent n) s = .next ((s.dropCmd c).modCore (fun k => { k with journal := k.journal.del n }))) ∧
    (c.err ≠ 0 → ∃ t, exec (.journalAck s.core.agent n) s = .next t ∧ t.me.trap.prs = true ∧
      t.core.journal.find n = some { e with
        code := c.err
        order := s.cycle })) ∧
  (∀ (s : State) (c : Cmd), s.HasCmd c → c.started = true → c.kind = .tflush → c.todo ≠ [] → s.tripDone c 0 = true →
    (∀ l ∈ s.cache.lines, l.key.vd = c.vd → l.key.tid = c.tid → (s.bucket l.key.bucket).hold = false) →
    exec (.tflushDone c.id) s = .next ((s.flushLines (fun l => l.key.vd = c.vd && l.key.tid = c.tid)).endWrite { c with todo := [] })) ∧
  (∀ (s : State) (c : Cmd) (pas : List Nat) (image : List Byte), s.HasCmd c → c.started = true → c.kind = .codeld →
    s.unitReady c 0 = true → s.unitAt c 0 s.linkWaits = false → s.tripDone c 0 = true →
    (List.range c.len).map (fun k => PageMap.apply c.xlat false (c.opB.toNat + k)) = pas.map Except.ok →
    pas.map (fun pa => (s.asModule c.modid).loadVia (s.replicaFor c (addrKey c.vd pa)) c.vd (addrLoc c.vd pa)) = image.map Except.ok →
    let q := s.countServed c (s.unitLines c 0)
    exec (.codeldDone c.id) s = .next ({ q with core := { q.core with segs := q.core.segs.map (fun (g : CodeSeg) =>
      if g.jid = c.jid ∧ g.vd = c.vd then g.load image (c.len / 4) else g) } }.dropCmd c)) ∧
  (∀ (s : State) (c : Cmd) (u : Nat), s.HasCmd c → c.started = true → c.kind = .cpyst → c.startedAt + 170000 ≤ s.cycle →
    (c.todo.find? (fun u => s.unitAt c u s.linkWaits) = some u →
      exec (.linkDownTimeout c.id) s = .next (s.performNext c u (fun pa => s.linkWaits pa))) ∧
    (c.todo.find? (fun u => s.unitAt c u (fun pa => match paKind pa with
      | .cxl _ _ => !s.warmHeld pa
      | _ => false)) = some u →
      exec (.cxlTimeout c.id) s = .next (s.performNext c u (fun pa => match paKind pa with
        | .cxl _ _ => !s.warmHeld pa
        | _ => false))))

/-- R193, R215, R207, R281, R287. A descriptor that an activity waits for is read and kept for its job once the read's time has passed; a
promise whose cycle has come before its phase completed sets XSTAT.PMP and is reported in order; an update on its way reaches its
barrier. (That a descriptor which cannot be read is an invalid one is the model's reading, log 42.) -/
def Obligations.DescriptorsAndPromises : Prop :=
  (∀ (s : State) (tid : Nat), s.core.agent = s.me.agent → s.me.descWait = some tid → s.me.agent.kind = .compute →
    s.findDesc tid = none →
    let pa := (s.vd s.me.job.vd).vdtab.toNat / 2 ^ 6 % 2 ^ 46 * 2 ^ 6 + 64 * tid
    s.addrHeld s.me.job.vd [pa] = false →
    s.me.firstTry.getD s.cycle + 6 + 2 * levelLatency s.me.agent (s.sliceAgent (addrKey s.me.job.vd pa)) ≤ s.cycle + 1 →
      ∃ t, exec (.descriptorRead s.me.uid) s = .next t ∧ t.me.descWait = none ∧
        t.findDesc tid = some (if (s.vd s.me.job.vd).vdasid.toNat / 2 ^ 32 % 2 ^ 17 ≤ tid then none
          else match s.loadPhys s.me.job.vd pa 64 with
            | .ok w => Desc.parse (toBytes 64 w)
            | .error _ => none)) ∧
  (∀ (s : State) (p : Promise), s.me.life ≠ .absent → s.me.promises.find? (fun q => q.cmd = p.cmd) = some p → p.cycle ≤ s.cycle →
    exec (.missedPromise p.cmd) s = .next { s with me := { s.me with
      promises := s.me.promises.filter (fun q => q.cmd ≠ p.cmd)
      trap := { s.me.trap with
        pmp := true
        missed := s.me.trap.missed ++ [(p.bar, p.cycle)] } } }) ∧
  (∀ (s : State) (m : Msg) (uid bar bytes arrivals code : Nat), s.msgs.find? (fun x => x.id = m.id) = some m →
    m.kind = .update uid bar bytes arrivals code → m.due ≤ s.cycle + 1 → (∀ z ∈ s.saved, z.act.uid ≠ uid) →
    exec (.returnUpdate m.id) s = .next ({ s with msgs := s.msgs.filter (fun n => n.id ≠ m.id) }.barNote uid bar bytes arrivals code))
/-! ## Spindle programs and streams (chapter 14) -/

/-- R282-R286. The stream instructions of a program whose requester is not saved, with operands that pass their checks, enter the queue:
`spush` and `sfmt` name the window's return barrier, `sfmt` and `sfill` take their local range on the scoreboard; while the requester is saved
they wait, and RUNC does not count. (That an SBAR of 0 takes back a return barrier named before is the model's reading, log 46.) -/
def Obligations.Streams : Prop :=
  (∀ (r : R) (s : State) (a : Activity) (w : Window) (d : Desc), Ready (.spush r) s →
    let p := s.prepare (.spush r)
    let tid := (p.me.g r.e.toNat).toNat % 2 ^ 16
    p.StreamInto false a w r d.ll → tid ≠ 0 → p.findDesc tid = some (some d) →
    d.outside (p.me.g r.a.toNat).toNat (p.me.g r.c.toNat).toNat = false → p.CopyRoom r.unordered 0 →
    let q := p.enqueue { p.streamCmd .spush r w with
      tid := tid
      desc := some d
      len := d.ll
      bar := 0
      sem := 0
      scope := 0 } []
    exec (.spush r) s = .next ({ q with me := { q.me with prog := q.me.prog.map (fun (x : ProgCtx) => { x with ret := r.bar }) } }.issued
      (.spush r) [])) ∧
  (∀ (r : R) (s : State) (a : Activity) (w : Window), Ready (.sfmt r) s →
    let p := s.prepare (.sfmt r)
    let y := (p.me.g r.a.toNat).toNat
    let n := (p.me.g r.c.toNat).toNat
    p.StreamInto false a w r n → p.checkLocal false y n = none → y % 32 = 0 → n % 32 = 0 → 32 ≤ n → n ≤ 65536 → p.CopyRoom r.unordered 1 →
    let q := p.enqueue { p.streamCmd .sfmt r w with
      len := n
      bar := 0
      sem := 0
      scope := 0 } [⟨p.nextCmd, y, n, false⟩]
    exec (.sfmt r) s = .next ({ q with me := { q.me with prog := q.me.prog.map (fun (x : ProgCtx) => { x with ret := r.bar }) } }.issued
      (.sfmt r) [])) ∧
  (∀ (r : R) (s : State) (a : Activity) (w : Window), Ready (.sfill r) s →
    let p := s.prepare (.sfill r)
    let y := (p.me.g r.a.toNat).toNat
    let n := (p.me.g r.c.toNat).toNat
    p.StreamInto false a w r n → p.checkLocal true y n = none → y % 32 = 0 → n % 32 = 0 → 32 ≤ n → n ≤ 65536 → p.CopyRoom r.unordered 1 →
    exec (.sfill r) s = .next ((p.enqueue { p.streamCmd .sfill r w with
      len := n
      sem := 0
      scope := 0 } [⟨p.nextCmd, y, n, true⟩]).issued (.sfill r) [])) ∧
  (∀ (r : R) (s : State) (a : Activity) (w : Window) (d : Desc), Ready (.swb r) s →
    let p := s.prepare (.swb r)
    let tid := (p.me.g r.e.toNat).toNat % 2 ^ 16
    p.StreamInto false a w r d.ll → tid ≠ 0 → p.findDesc tid = some (some d) → d.ro = false →
    d.outside (p.me.g r.a.toNat).toNat (p.me.g r.c.toNat).toNat = false → p.CopyRoom r.unordered 0 → p.NoneLeaving →
    exec (.swb r) s = .next ((p.enqueue { p.streamCmd .swb r w with
      tid := tid
      desc := some d
      len := d.ll } []).issued (.swb r) [])) ∧
  (∀ x ∈ [(Instr.spush, false), (.swb, true)], ∀ (r : R) (s : State) (a : Activity) (w : Window) (d : Desc), Ready (x.1 r) s →
    let p := s.prepare (x.1 r)
    let tid := (p.me.g r.e.toNat).toNat % 2 ^ 16
    p.StreamInto true a w r d.ll → tid ≠ 0 → p.findDesc tid = some (some d) → (x.2 = true → d.ro = false) →
    d.outside (p.me.g r.a.toNat).toNat (p.me.g r.c.toNat).toNat = false →
    exec (x.1 r) s = .next { p with me := { p.me with quiet := some s.cycle } }.holdIssue) ∧
  (∀ x ∈ [(Instr.sfmt, false), (.sfill, true)], ∀ (r : R) (s : State) (a : Activity) (w : Window), Ready (x.1 r) s →
    let p := s.prepare (x.1 r)
    let y := (p.me.g r.a.toNat).toNat
    let n := (p.me.g r.c.toNat).toNat
    p.StreamInto true a w r n → p.checkLocal x.2 y n = none → y % 32 = 0 → n % 32 = 0 → 32 ≤ n → n ≤ 65536 →
    exec (x.1 r) s = .next { p with me := { p.me with quiet := some s.cycle } }.holdIssue)

/-- R209, R280, R281, R286, R288, R452. Programs and streams at work: a request enters its spindle's queue when there is room; the request at
the head starts a program of its own once its descriptor passes and a slot and pages are free, and a descriptor that does not pass is
refused at the requester's barrier; a push lands its bytes in the requester's window and counts them on its barrier; a program that
has ended leaves, with an arrival at the barrier. -/
def Obligations.StreamSteps : Prop :=
  (∀ (s : State) (c : Cmd), s.HasCmd c → c.kind = .cpyProg → s.turnOf c = true →
    let sp : Agent := ⟨.spindle, s.programSpindle s.core.agent.num⟩
    exec (.programRequestQueued c.id) s = .next (({ s with core := { s.core with startedAt := s.cycle + 1 } }.dropCmd c).modCoreOf sp (fun k => { k with progq := k.progq ++
      [(⟨c.owner, c.opA.toNat, c.opB.toNat, c.opC, c.opE, c.bar, c.vd, s.me.job.cls, c.issued⟩ : ProgReq)] }))) ∧
  (∀ (s : State) (n slot : Nat) (q : ProgReq) (req : Activity) (saved : Bool) (bs image : List Byte),
    let ag : Agent := ⟨.spindle, n⟩
    let f := s.focusCore ag
    let c := Card.parse bs
    (s.coreOf ag).progq.head? = some q → s.anyAct? q.owner = some (req, saved) → f.core.cardAt q.vd q.va = some bs →
    f.core.imageAt q.vd c.code (4 * c.cwords) = some image →
    q.issued + 4 + levelLatency (if req.agent.kind = .compute then req.agent else ag) ag ≤ s.cycle + 1 →
    (c.passes 64 q.vd = true → s.freeSlot ag 8 = some slot → s.spindleOut n = false → s.pagesUsed ag + c.footprint ≤ 64 →
      exec (.spindleProgramStart n) s = .next ({ f with
        core := (f.core.keepCard q.vd q.va bs).keepImage q.vd c.code image }.startProgram q c image slot)) ∧
    (c.passes 64 q.vd = false →
      exec (.spindleProgramStart n) s = .next ({ f with core := f.core.keepCard q.vd q.va bs }.refuseProgram q 5))) ∧
  (∀ (s : State) (c : Cmd) (a : Activity), s.HasCmd c → c.kind = .spush ∨ c.kind = .sfmt → c.started = true →
    (∀ d ∈ s.core.copyq, d.id < c.id → d.kind ≠ .spush ∧ d.kind ≠ .sfmt) → s.streamEnd = some (some a) →
    (∀ u ∈ (if c.kind = .sfmt then [0] else c.todo), s.tripDone c u = true) →
    (c.kind = .spush → ∀ u ∈ c.todo, s.unitReady c u = true ∧ s.unitAt c u s.linkWaits = false) →
    s.pushDue c a ≤ s.cycle → a.listMeets c.base c.len = false →
    let q := s.countLines ((List.range c.units).flatMap (s.unitLines c))
    exec (.pushLanded c.id) s = .next ((((q.modAct a.uid (fun a => { a with lm := a.lm.land (s.pushCells c).1 })).modCore (fun k => { k with
        pushFree := s.cycle - levelLatency s.core.agent a.agent })).barNote a.uid c.opB.toNat c.len 0
      (if c.err ≠ 0 then c.err else (s.pushCells c).2)).dropCmd c)) ∧
  (∀ (s : State) (c : Cmd) (a : Activity), s.HasCmd c → s.loc? c.id = none → c.kind = .sfill → c.started = true →
    s.streamEnd = some (some a) → c.issued + 5 + 2 * levelLatency s.core.agent a.agent + (c.len + 63) / 64 ≤ s.cycle →
    s.tripDone c 0 = true → exec (.landingUnit c.id 0) s = .next (s.landFill c a)) ∧
  (∀ (s : State) (c : Cmd) (a : Activity) (u : Nat), s.HasCmd c → c.kind = .swb → c.started = true → s.streamEnd = some (some a) →
    u ∈ c.todo → (∀ v ∈ c.batch u, s.unitReady c v = true ∧ s.unitAt c v s.linkWaits = false ∧ s.tripDone c v = true) →
    exec (.storePerformed c.id u) s = .next (s.performBack c u a (fun _ => false))) ∧
  (∀ (s : State) (uid : Nat) (a : Activity) (p : ProgCtx), s.act? uid = some a → a.prog = some p → a.agent.kind = .spindle →
    a.life = .ending → (s.coreOf a.agent).busyWith uid = false → p.fault = none →
    exec (.spindleProgramEnd uid) s = .next ((((s.focus uid).leaveWindow p).freeRefused uid).vacate))

/-! ## Meetings (chapters 15 and 16) -/

/-- R311, R312, R322-R328. The meeting instructions. `meet` with nothing outstanding leaves the activity at a blocking point, with its arrival
on the way to the key's directory after 2 + Ld cycles when the rendezvous port takes it (R20), gives REFUSED for more than 16 luggage
pages, and takes the travel-bound trap with a bound tile or accumulator or an engine command outstanding; `mget` and `mgetv` read a partner's
register, ready 4 cycles after issue, once it is refilled when it was spilled; `msync` completes when the partner waits in one and can issue in
the same cycle, and waits otherwise; `mcpy` queues a local copy; `mswap` exchanges pages; `part` waits for the partner, and ends the `msync` in
which that waits; `mcancel` sends its request. (That `mget` and `mgetv` give the value at issue is the model's reading, log 51, as is that
`ccancel` does not pin an open region, log 100.) -/
def Obligations.MeetingInstructions : Prop :=
  (∀ (r : R) (s : State), Ready (.meet r) s →
    let p := s.prepare (.meet r)
    let m := p.me
    let lb := (m.g r.c.toNat).toNat % 2 ^ 24
    let ln := (m.g r.c.toNat).toNat / 2 ^ 32 % 32
    let key := m.g r.a.toNat
    let t := (m.srcB r).toNat % 2 ^ 32
    m.party = none → m.coll = none → m.speculative = false → m.pend = [] → m.claimed = [] → p.writesOut = false → p.vecBusy = false →
    (m.boundMask ≠ 0 ∨ p.engineOut = true →
      exec (.meet r) s = .next (s.takeTrap 7 (BitVec.ofNat 64 (m.boundMask + if p.engineOut then 2 ^ 10 else 0)) false)) ∧
    (m.boundMask = 0 → p.engineOut = false → m.badLuggage lb ln = none → ln ≤ 16 → p.portFull = false → exec (.meet r) s = .next ({ p with
      msgs := p.msgs ++ [(⟨p.nextMsg, .meet m.uid m.agent, s.cycle + 2 + dirLatency m.agent (p.dirOf key m.job.keysp m.job.vd)⟩ : Msg)]
      nextMsg := p.nextMsg + 1
      me := { m.pinned with
        claimed := m.claimed ++ claimOf r.d.toNat
        party := some (Party.arrive key (if t = 0 then none else some (s.cycle + t)) r.d.toNat (lb / 0x800) ln)
        block := .meet } }.issued (.meet r) [])) ∧
    (m.boundMask = 0 → p.engineOut = false → m.badLuggage lb ln = none → 16 < ln → exec (.meet r) s = .next ({ p with me := m.pinned }.issued (.meet r)
      (newWrite .engine (s.cycle + 1) (Instr.meet r).srcs ⟨.g, r.d.toNat⟩ ((meetWord 5 0 0 false).setWidth 1024))))) ∧
  (∀ x ∈ [(Instr.mget, Cls.g), (.mgetv, .v)], ∀ (r : R) (s q : State) (b : Activity), Ready (x.1 r) s →
    let p := s.prepare (x.1 r)
    p.inMeeting = true → p.partner = some b → b.badHome [⟨x.2, r.a.toNat⟩] = none →
    ((⟨x.2, r.a.toNat⟩ : Reg) ∈ b.regs.spilled → exec (x.1 r) s = .next (p.refillOf b.uid ⟨x.2, r.a.toNat⟩).holdIssue) ∧
    ((⟨x.2, r.a.toNat⟩ : Reg) ∉ b.regs.spilled → p.readPartner = some q →
      exec (x.1 r) s = .next (q.issued (x.1 r) (newWrite .engine (s.cycle + 4) [] ⟨x.2, r.d.toNat⟩ (b.raw ⟨x.2, r.a.toNat⟩))))) ∧
  (∀ (r : R) (s : State) (b : Activity) (y z : Party), Ready (.msync r) s →
    let p := s.prepare (.msync r)
    p.me.party = some y → p.inMeeting = true → p.syncReady y = true → p.partner = some b → b.party = some z → z.parting = none →
    b.uid ≠ p.me.uid →
    (z.inSync.isSome = true → p.mayIssue b = true → exec (.msync r) s = .next (((p.finishSync b.uid).modMe (fun (m : Activity) => { m with
      party := some { y with
        syncs := y.syncs + 1
        inSync := none } })).issued (.msync r) [])) ∧
    (z.inSync = none ∨ p.mayIssue b = false → exec (.msync r) s = .next (p.modMe (fun (m : Activity) => { m with
      party := some { y with inSync := some ((Instr.msync r).bytes, (Instr.msync r).stl) } })).holdIssue)) ∧
  (∀ (r : R) (s q : State), Ready (.mcpy r) s →
    let p := s.prepare (.mcpy r)
    let y := (p.me.g r.a.toNat).toNat
    let w := (p.me.srcB r).toNat
    let n := (p.me.g r.c.toNat).toNat
    p.inMeeting = true → p.checkLocal true y n = none → p.checkLocal false w n = none → y % 32 = 0 → w % 32 = 0 → n % 32 = 0 →
    n ≠ 0 → n ≤ 32768 → p.core.copyFull = false → p.scoreUsed p.me.agent + 2 ≤ scoreSize p.me.agent.kind → p.readTaint w n = some q →
    exec (.mcpy r) s = .next ({ q with
      nextCmd := p.nextCmd + 1
      core := { q.core with locq := q.core.locq ++
        [(⟨p.nextCmd, q.me.uid, .mcpy, w, 0, y, n, 0, 0, 0, 0, 2 + (n + 127) / 128, none⟩ : LocCmd)] }
      me := { q.me with claims := q.me.claims ++ [(⟨p.nextCmd, y, n, true⟩ : Claim), ⟨p.nextCmd, w, n, false⟩] } }.issued (.mcpy r) [])) ∧
  (∀ (r : R) (s : State) (b : Activity) (y : Party), Ready (.mswap r) s →
    let p := s.prepare (.mswap r)
    let a := (p.me.g r.a.toNat).toNat
    let w := (p.me.srcB r).toNat
    let n := (p.me.g r.c.toNat).toNat
    let base := (windowFrame b w).getD 0
    let mine := 0x400000 + (a / 0x800 - y.lf) * 0x800
    let m := (List.range n).foldl (fun (xy : LMem × LMem) k => swapPage xy.1 (a / 0x800 + k) xy.2 (base / 0x800 + k)) (p.me.lm, b.lm)
    p.me.party = some y → p.inMeeting = true → p.partner = some b → b.uid ≠ p.me.uid → a % 0x800 = 0 → w % 0x800 = 0 → n ≠ 0 → n ≤ 16 →
    p.badSwap y a w n = none → p.me.speculative = false → b.speculative = false → p.me.rangeBusy p.nextCmd true a (n * 0x800) = false →
    p.me.rangeBusy p.nextCmd true w (n * 0x800) = false → b.rangeBusy p.nextCmd true base (n * 0x800) = false →
    b.rangeBusy p.nextCmd true mine (n * 0x800) = false →
    exec (.mswap r) s = .next (({ p with me := { p.me.pinned with lm := m.1 } }.modAct b.uid
      (fun (c : Activity) => { c with lm := m.2 })).issued (.mswap r) [])) ∧
  (∀ (r : R) (s : State) (y : Party), Ready (.part r) s →
    let p := s.prepare (.part r)
    let mode := (r.m.extractLsb' 0 2).toNat
    p.me.party = some y → p.inMeeting = true → p.me.speculative = false → p.me.pend = [] → p.me.claimed = [] → p.writesOut = false →
    p.cmdsOut = false → p.vecBusy = false → (p.me.boundMask = 0 ∨ (mode ≠ 2 ∧ (mode ≠ 0 ∨ y.away = false))) →
    let t : State := { p with me := { p.me.pinned with
      claimed := p.me.claimed ++ claimOf r.d.toNat
      party := some { y with
        parting := some (mode, (p.me.g r.a.toNat).toNat % 2 ^ 12, r.d.toNat)
        partAt := s.cycle } } }
    (y.partner = none → exec (.part r) s = .next (t.issued (.part r) [])) ∧
    (∀ q b, y.partner = some q → t.act? q = some b →
      (t.mayIssue b = true → exec (.part r) s = .next ((t.finishSync q).issued (.part r) [])) ∧
      (t.mayIssue b = false → exec (.part r) s = .next ((t.modAct q (fun (c : Activity) => { c with
        party := c.party.map (fun (x : Party) => { x with inSync := none }) })).issued (.part r) [])))) ∧
  (∀ x ∈ [(Instr.mcancel, false), (.ccancel, true)], ∀ (r : R) (s : State), Ready (x.1 r) s →
    let p := s.prepare (x.1 r)
    let key := p.me.g r.a.toNat
    (x.2 = true ∨ (p.me.party = none ∧ p.me.coll = none)) → p.me.speculative = false → p.portFull = false →
    exec (x.1 r) s = .next ({ p with
      msgs := p.msgs ++ [(⟨p.nextMsg, .cancel p.me.uid r.d.toNat p.me.job.vd p.me.job.keysp key x.2 p.me.agent,
        s.cycle + 2 + dirLatency p.me.agent (p.dirOf key p.me.job.keysp p.me.job.vd)⟩ : Msg)]
      nextMsg := p.nextMsg + 1
      me := { (if x.2 then p.me else p.me.pinned) with claimed := p.me.claimed ++ claimOf r.d.toNat } }.issued (x.1 r) [])) ∧
  (∀ x ∈ [Instr.mget, .mgetv, .msync, .mswap, .part], ∀ (r : R) (s : State), Ready (x r) s → s.me.party = none →
    exec (x r) s = .next (s.takeTrap 0x0C 0x0A false))

/-- R302, R307, R313, R314, R316-R319, R327-R330. The meeting engine at work. A directory that is free takes the first arrival of a key that waits:
alone it gets an entry, or is queued while the directory has none; with a waiting party of its triple it is matched: the meeting is placed on the
waiting party's core when that can accept the arrival, or has no place when both need more pages than a core has, and a saved party is to be
restored, on the arrival's home when that can take it. A party that waits beyond its deadline receives ALONE, a cancelled one CANCELLED with the
count 1 at the sender. A decision reaches its party. A shuttle that has drawn the tokens of its way lands: at the place of its meeting, with
every bound register, its luggage and the job's code there, met when its partner is there; at home again; or on the core that `.to` names, from
which it sets out for home when that cannot take it; one that holds an uncorrectable error is lost (R330). Two parties that part leave
together. (That a saved party whose arrival was queued can be matched is the model's choice, log 124.) -/
def Obligations.MeetingSteps : Prop :=
  (∀ (s : State) (m : Msg) (uid b : Nat) (sender : Agent) (a : Activity) (p : Party), s.msgs.find? (fun x => x.id = m.id) = some m →
    m.kind = .meet uid sender → s.act? uid = some a → s.msgKey m = some (b, sender) → s.msgReady m b sender = true → a.party = some p →
    let d := (s.keyEntry b).dir
    let t := ((s.dropMsg m.id).dirBusy d).countArrival d b
    (s.waiting a.job.vd a.job.keysp p.key = none →
      let full : Bool := decide (256 ≤ t.dirUsed (t.dirOf p.key a.job.keysp a.job.vd))
      exec (.directoryArrival m.id) s = .next ({ t with dirs := { t.dirs with
        waiters := t.dirs.waiters ++ [(⟨t.dirs.nextNum, a.uid, a.job.vd, a.job.keysp, p.key, p.deadline, full, false⟩ : Waiter)]
        nextNum := t.dirs.nextNum + 1 } }.modParty a.uid (fun (x : Party) => { x with phase := if full then .queued else .parked }))) ∧
    (∀ (w : Waiter) (q : Activity) (x : Party), s.waiting a.job.vd a.job.keysp p.key = some w → s.act? w.uid = some q → q.uid = w.uid → a.uid = uid →
      w.uid ≠ uid → q.party = some x → s.saved.find? (fun z => z.act.uid = w.uid) = none → x.away = false →
      let t := t.dropWaiter w.uid
      ((t.act? w.uid).bind Activity.party).map Party.phase = some .parked → q.agent = coreAgent q.home →
      (t.canAccept q.home [a.footprint] = true → t.freeSlot (coreAgent q.home) 16 ≠ none →
        ∃ r b c, exec (.directoryArrival m.id) s = .next r ∧ r.act? w.uid = some b ∧ r.act? uid = some c ∧
          s.Matched (t.dirOf x.key q.job.keysp q.job.vd) 0 q.home false q a b ∧ s.Matched (t.dirOf p.key a.job.keysp a.job.vd) 1 q.home true a q c ∧
          r.codeOn a.job.vd a.job.jid q.home = true) ∧
      (t.canAccept q.home [a.footprint] = false →
        96 < q.footprint.pages + a.footprint.pages + codeSum (fun _ => true) [q.footprint, a.footprint] →
        ∃ r b c, exec (.directoryArrival m.id) s = .next r ∧ r.act? w.uid = some b ∧ r.act? uid = some c ∧
          b.party.bind Party.status = some 5 ∧ c.party.bind Party.status = some 5)) ∧
    (∀ (w : Waiter) (z : Saved), s.waiting a.job.vd a.job.keysp p.key = some w → s.saved.find? (fun z => z.act.uid = w.uid) = some z → a.uid = uid →
      s.act? w.uid = none →
      let t := t.dropWaiter w.uid
      ∃ r y c, exec (.directoryArrival m.id) s = .next r ∧ r.saved.find? (fun z => z.act.uid = w.uid) = some y ∧ r.act? uid = some c ∧
        y.at_ = (if t.restoreHome z a then some a.home else none) ∧ y.act.party.bind Party.partner = z.act.party.map (fun _ => uid) ∧
        c.party.bind Party.partner = some w.uid)) ∧
  (∀ (s : State) (w : Waiter) (e : Nat), s.dirs.waiters.find? (fun x => x.uid = w.uid) = some w → w.deadline = some e →
    s.deadlineReady (s.waiterDir w) e w.num = true → (s.keyEntry (keyBucket w.key w.keysp w.vd)).hold = false →
    exec (.meetDeadline w.uid) s = .next (((s.dirBusy (s.waiterDir w)).dropWaiter w.uid).sendStatus w.uid 1)) ∧
  (∀ (s : State) (m : Msg) (uid dst vd keysp : Nat) (key : Word) (sender : Agent), s.msgs.find? (fun x => x.id = m.id) = some m →
    m.kind = .cancel uid dst vd keysp key false sender → s.msgReady m (keyBucket key keysp vd) sender = true →
    let d := (s.keyEntry (keyBucket key keysp vd)).dir
    let t := (s.dropMsg m.id).dirBusy d
    let answer (n : Nat) (f : State) : State := (f.modMe (fun (c : Activity) => { c with claimed := c.claimed.erase ⟨.g, dst⟩ })).pendWrite
      .engine (s.cycle + dirLatency sender d) [] ⟨.g, dst⟩ ((BitVec.ofNat 64 n).setWidth 1024)
    (s.waiting vd keysp key = none → (t.act? uid).isSome = true → (⟨.g, dst⟩ : Reg) ∈ (t.focus uid).me.claimed →
      exec (.directoryCancel m.id) s = .next (answer 0 (t.focus uid))) ∧
    (∀ w, s.waiting vd keysp key = some w →
      let f := (t.dropWaiter w.uid).sendStatus w.uid 2
      (f.act? uid).isSome = true → (⟨.g, dst⟩ : Reg) ∈ (f.focus uid).me.claimed →
      exec (.directoryCancel m.id) s = .next (answer 1 (f.focus uid)))) ∧
  (∀ (s : State) (uid d : Nat) (a : Activity) (p : Party), s.act? uid = some a → a.party = some p → p.decided = some d → d ≤ s.cycle →
    let f := s.focus uid
    (∀ st, p.status = some st → p.away = false → exec (.decisionArrives uid) s = .next ((f.modMe (fun (c : Activity) => { c with
      party := none
      block := .none
      nextIssue := max c.nextIssue (s.cycle + 1) })).deliver p.dst (meetWord st 0 0 p.moved))) ∧
    (∀ n, p.status = none → p.place = some n → p.travels = true → exec (.decisionArrives uid) s =
      .next (f.modMe (fun (c : Activity) => { c with party := some { p with
        decided := none
        lands := some (s.cycle + 1 + c.travel n + p.codeTime) } }))) ∧
    (∀ n, p.status = none → p.place = some n → p.travels = false → exec (.decisionArrives uid) s =
      .next ((f.modMe (fun (c : Activity) => { c with party := some { p with decided := none } })).tryMet uid))) ∧
  (∀ (s : State) (uid l : Nat) (a : Activity) (p : Party), s.act? uid = some a → a.uid = uid → a.party = some p → p.lands = some l → l ≤ s.cycle →
    s.hasPassed (.shuttle uid) (s.shuttleNeeds a) = true → (∀ b, a.bound = some b → s.codeHeld a b.num = false) →
    (p.damaged = true → exec (.shuttleLanded uid) s = .next (s.condemnAct uid 5)) ∧
    (∀ n q, p.damaged = false → p.phase ≠ .leaving → p.place = some n → p.partner = some q → s.usableCore a.job.vd n = true →
      (((s.focus uid).finishLoad (coreAgent n) a.job.vd a.job.jid).focus uid).codeLoaded a.job.vd a.job.jid n = true → q ≠ uid → p.dst < 64 → a.life ≠ .absent →
      ∃ r b y, exec (.shuttleLanded uid) s = .next r ∧ r.act? uid = some b ∧ r.codeLoaded a.job.vd a.job.jid n = true ∧
        b.agent = coreAgent n ∧ b.frames = p.luggage ∧ b.party = some y ∧ y.away = true ∧ y.moved = true ∧ y.travels = false ∧ y.lands = none ∧
        (p.away = false → y.homeFrames = a.frames ∧ y.homeReserve = a.reserve) ∧
        (∀ x ∈ a.boundRegs, x.1 ≠ ⟨.g, p.dst⟩ → b.raw x.1 = x.2) ∧
        (∀ c z, s.act? q = some c → c.party = some z → p.phase = .matched → p.decided = none → p.status = none → z.phase = .matched →
          z.decided = none → z.status = none → z.lands = none → z.travels = false → c.life ≠ .absent →
          y.phase = .met ∧ ((r.act? q).bind Activity.party).map Party.phase = some .met ∧
          ((⟨.g, p.dst⟩ : Reg) ∈ a.claimed → p.dst ≠ 0 → b.g p.dst = meetWord 0 c.actid p.side true))) ∧
    (∀ n dst, p.damaged = false → p.phase = .leaving → p.parting = some (0, n, dst) → p.away = true →
      ∃ r b, exec (.shuttleLanded uid) s = .next r ∧ r.act? uid = some b ∧ b.party = none ∧ b.agent = coreAgent a.home ∧
        b.frames = p.homeFrames ∧ ((⟨.g, dst⟩ : Reg) ∈ a.claimed → dst ≠ 0 → b.g dst = if p.replaced then 1 else 0)) ∧
    (∀ n dst, p.damaged = false → p.phase = .leaving → p.parting = some (2, n, dst) →
      (∀ k, (s.focus uid).mayMoveTo n = true → (s.focus uid).freeSlot (coreAgent n) 16 = some k →
        ∃ r b, exec (.shuttleLanded uid) s = .next r ∧ r.act? uid = some b ∧ b.party = none ∧ b.agent = coreAgent n ∧ b.home = n ∧ b.slot = k ∧
          b.frames = p.luggage ∧ ((⟨.g, dst⟩ : Reg) ∈ a.claimed → dst ≠ 0 → b.g dst = 0)) ∧
      ((s.focus uid).mayMoveTo n = false → p.away = true →
        ∃ r b y, exec (.shuttleLanded uid) s = .next r ∧ r.act? uid = some b ∧ b.agent = a.agent ∧ b.party = some y ∧ y.phase = .leaving ∧
          y.parting = some (0, n, dst) ∧ y.replaced = true ∧ y.lands = some (s.cycle + 1 + a.travel a.home)) ∧
      ((s.focus uid).mayMoveTo n = false → p.away = false →
        ∃ r b, exec (.shuttleLanded uid) s = .next r ∧ r.act? uid = some b ∧ b.party = none ∧ b.agent = a.agent ∧ b.frames = a.frames ∧
          ((⟨.g, dst⟩ : Reg) ∈ a.claimed → dst ≠ 0 → b.g dst = 1)))) ∧
  (∀ (s : State) (uid : Nat) (a : Activity) (p : Party), s.act? uid = some a → a.uid = uid → a.party = some p → p.phase = .met → p.parting.isSome = true →
    p.partAt < s.cycle → (s.focus uid).partnerParts p = true →
    (p.partner.bind s.act? = none → ∃ r b, exec (.partBarrier uid) s = .next r ∧ r.act? uid = some b ∧ s.Leaves True a b ∧
      (∀ n dst y, p.parting = some (2, n, dst) → b.party = some y → y.codeTime = s.codeTime a n)) ∧
    (∀ q z, p.partner.bind s.act? = some q → q.uid ≠ uid → p.partner = some q.uid → q.party = some z → z.phase = .met → z.partner = some uid → a.life ≠ .absent → q.life ≠ .absent →
      let room := s.poolUsed a.agent false + 2 ≤ (poolSize a.agent.kind).1 ∧ s.poolUsed q.agent false + 2 ≤ (poolSize q.agent.kind).1
      ∃ r b c, exec (.partBarrier uid) s = .next r ∧ r.act? uid = some b ∧ r.act? q.uid = some c ∧ s.Leaves room a b ∧ s.Leaves room q c))

/-! ## Collectives (chapters 17 and 18) -/

/-- R337-R344, R351. `coll` with a good descriptor takes its ranges and its register and sends its arrival. A directory opens a group for the
first rank of a key, lets others join, refuses a rank whose operation differs or whose number is taken, dissolves a forming group at its
deadline, for `ccancel` and for the arrival of a rank that has gone (log 120: the model's reading of R346), which a group that would have refused
it does not notice; a rank whose earlier writes, and the writes it has observed, are performed at the group's scope sends its luggage, its source
free once the last beat has left; results land at the destination once every rank's luggage has left and their tokens are drawn, count on the
barrier and give MET with N, and another status reaches its rank. -/
def Obligations.Collectives : Prop :=
  (∀ (r : R) (s : State), Ready (.coll r) s →
    let p := s.prepare (.coll r)
    let y := (p.me.g r.a.toNat).toNat
    let d := GroupDesc.parse (p.readLocal y 32)
    let o := d.op r
    let sl := o.sl d.rank
    let dl := o.dl d.rank
    let t := (p.me.srcB r).toNat % 2 ^ 32
    p.checkLocal false y 32 = none → y % 32 = 0 → p.BarNamed r → p.me.rangeBusy p.nextCmd false y 32 = false → p.poisonAt y 32 = none →
    d.fault o = 0 → p.checkLocal false d.src sl = none → p.checkLocal true d.dst dl = none → p.me.party = none → p.me.coll = none →
    p.me.speculative = false → p.portFull = false →
    p.scoreUsed p.me.agent + (if sl = 0 then 0 else 1) + (if dl = 0 then 0 else 1) ≤ scoreSize p.me.agent.kind →
    exec (.coll r) s = .next ({ p with
      nextCmd := p.nextCmd + 2
      msgs := p.msgs ++ [(⟨p.nextMsg, .coll p.me.uid p.me.agent, s.cycle + 2 + dirLatency p.me.agent (p.dirOf d.key p.me.job.keysp p.me.job.vd)⟩ : Msg)]
      nextMsg := p.nextMsg + 1
      me := { p.me.pinned with
        claims := p.me.claims ++ ((if sl = 0 then [] else [(⟨p.nextCmd, d.src, sl, false⟩ : Claim)]) ++
          (if dl = 0 then [] else [(⟨p.nextCmd + 1, d.dst, dl, true⟩ : Claim)]))
        claimed := p.me.claimed ++ claimOf r.d.toNat
        coll := some ⟨p.nextCmd, p.nextCmd + 1, d.key, o, d.rank, d.src, d.dst, r.bar, r.d.toNat,
          if t = 0 then none else some (s.cycle + t), none, false, none, false⟩ } }.issued (.coll r) [])) ∧
  (∀ (s : State) (m : Msg) (uid b : Nat) (saved : Bool) (sender : Agent) (a : Activity) (c : CollRank),
    s.msgs.find? (fun x => x.id = m.id) = some m → m.kind = .coll uid sender → s.anyAct? uid = some (a, saved) →
    s.msgKey m = some (b, sender) → s.msgReady m b sender = true → a.coll = some c →
    let d := (s.keyEntry b).dir
    let t := ((s.dropMsg m.id).dirBusy d).countArrival d b
    (s.forming a.job.vd a.job.keysp c.key = none → exec (.collArrival m.id) s = .next (t.openGroup a c)) ∧
    (∀ g, s.forming a.job.vd a.job.keysp c.key = some g →
      (g.op ≠ c.op ∨ (∃ x ∈ g.members, x.rank = c.rank) →
        exec (.collArrival m.id) s = .next (t.collStatus uid 5 0 (s.cycle + dirLatency a.agent d))) ∧
      (g.op = c.op → (∀ x ∈ g.members, x.rank ≠ c.rank) → exec (.collArrival m.id) s = .next (t.joinGroup g a c)))) ∧
  (∀ (s : State) (m : Msg) (vd jid keysp rank st : Nat) (key : Word) (op : CollOp) (spare : Bool) (sender : Agent),
    s.msgs.find? (fun x => x.id = m.id) = some m → m.kind = .quit vd jid keysp key op rank st spare sender →
    s.msgReady m (keyBucket key keysp vd) sender = true →
    let t := (s.dropMsg m.id).dirBusy (s.keyEntry (keyBucket key keysp vd)).dir
    (s.forming vd keysp key = none → exec (.collArrival m.id) s = .next t) ∧
    (∀ g, s.forming vd keysp key = some g →
      (g.op ≠ op ∨ (∃ x ∈ g.members, x.rank = rank) → exec (.collArrival m.id) s = .next t) ∧
      (g.op = op → (∀ x ∈ g.members, x.rank ≠ rank) →
        exec (.collArrival m.id) s = .next (t.dissolve g (g.others 0 vd jid spare) st)))) ∧
  (∀ (s : State) (g : Group) (e : Nat), s.dirs.groups.find? (fun h => h.id = g.id && h.complete.isNone) = some g → g.deadline = some e →
    s.deadlineReady (s.groupDir g) e g.id = true → (s.keyEntry (keyBucket g.key g.keysp g.vd)).hold = false →
    exec (.collDeadline g.id) s = .next ((s.dirBusy (s.groupDir g)).dissolve g g.members 1)) ∧
  (∀ (s : State) (m : Msg) (uid dst vd keysp : Nat) (key : Word) (sender : Agent) (g : Group),
    s.msgs.find? (fun x => x.id = m.id) = some m → m.kind = .cancel uid dst vd keysp key true sender →
    s.msgReady m (keyBucket key keysp vd) sender = true → s.forming vd keysp key = some g →
    let d := (s.keyEntry (keyBucket key keysp vd)).dir
    let f := ((s.dropMsg m.id).dirBusy d).dissolve g g.members 2
    (f.act? uid).isSome = true → (⟨.g, dst⟩ : Reg) ∈ (f.focus uid).me.claimed → exec (.collCancel m.id) s =
      .next (((f.focus uid).modMe (fun (c : Activity) => { c with claimed := c.claimed.erase ⟨.g, dst⟩ })).pendWrite
        .engine (s.cycle + dirLatency sender d) [] ⟨.g, dst⟩ ((BitVec.ofNat 64 g.members.length).setWidth 1024))) ∧
  (∀ (s : State) (uid e : Nat) (a : Activity) (g : Group) (m : Member) (c : CollRank), s.act? uid = some a → a.uid = uid →
    s.collGroup uid = some (g, m) → a.coll = some c → g.complete = some e →
    let f := s.focus uid
    let sl := c.op.sl c.rank
    (c.sent = false → e + dirLatency a.agent (s.groupDir g) ≤ s.cycle → s.reedFull g = false → f.releasedRank g.scope c.srcCmd = true →
      f.me.rangeBusy c.srcCmd false c.src sl = false → ∃ (lug : LMem) (ids : List Nat), exec (.collGo uid) s = .next ((f.putGroup { g with
        members := g.members.map (fun (x : Member) => if x.uid = uid then { x with
          luggage := some lug
          sentAt := s.cycle
          covers := ids } else x) }).modMe (fun (b : Activity) => { b with coll := some { c with sent := true } })) ∧
        ids = f.observed f.core f.me c.srcCmd ∧ lug.bytes.readN 0 sl = f.readLocal c.src sl ∧
        (c.src % 8 = 0 → ∀ w, 8 * w < sl → (w ∈ lug.poison ↔ (f.poisonAt (c.src + 8 * w) 8).isSome = true))) ∧
    (c.sent = true → c.left = false → m.sentAt + (sl + 63) / 64 ≤ s.cycle → s.hasPassed (.luggage uid) (s.luggageNeeds g m) = true →
      exec (.collGo uid) s = .next (f.modMe (fun (b : Activity) => { b with
        claims := b.claims.filter (fun x => x.cmd ≠ c.srcCmd)
        coll := some { c with left := true } })))) ∧
  (∀ (s : State) (g : Group) (m : Member) (c : CollRank), s.core.agent = s.me.agent → s.collGroup s.me.uid = some (g, m) →
    s.me.coll = some c → g.complete.isSome = true → s.allLeft g = true → g.due m ≤ s.cycle →
    s.hasPassed (.result s.me.uid) (s.resultNeeds g m) = true → c.status = none →
    s.me.rangeBusy c.dstCmd true c.dst (c.op.dl c.rank) = false →
    let cells := (g.result c.rank).map (fun x => (c.dst + x.1, x.2))
    (c.bar = 0 → ∃ t, exec (.collResultsLanded s.me.uid) s = .next t ∧ t.me.coll = none ∧ t.me.lm = s.me.lm.land cells ∧
      t.me.claims = s.me.claims.filter (fun x => x.cmd ≠ c.srcCmd && x.cmd ≠ c.dstCmd) ∧
      (∀ id, (∃ x ∈ g.members, x.uid ≠ s.me.uid ∧ id ∈ x.covers) → s.allPerformed 2 [id] = false → id ∈ t.me.seen) ∧
      (c.reg ≠ 0 → (⟨.g, c.reg⟩ : Reg) ∈ s.me.claimed → t.me.g c.reg = BitVec.ofNat 64 (g.op.n * 2 ^ 32))) ∧
    (∃ (t : State) (seen : List Nat), t = { s with me := { s.me with
        lm := s.me.lm.land cells
        seen := seen } } ∧
      exec (.collResultsLanded s.me.uid) s = .next (((((t.barNote s.me.uid c.bar (c.op.dl c.rank) 0 0).barNote s.me.uid c.bar 0 1
        (if ∃ x ∈ cells, x.2 = none then 4 else 0)).endColl c 0 g.op.n).leaveGroup g.id s.me.uid)))) ∧
  (∀ (s : State) (st n at_ : Nat) (c : CollRank), s.core.agent = s.me.agent → s.me.coll = some c → c.status = some (st, n, at_) →
    at_ ≤ s.cycle →
    (c.bar = 0 → ∃ t, exec (.groupDissolvedStatus s.me.uid) s = .next t ∧ t.me.coll = none ∧
      (c.reg ≠ 0 → (⟨.g, c.reg⟩ : Reg) ∈ s.me.claimed → t.me.g c.reg = BitVec.ofNat 64 (st + n * 2 ^ 32))) ∧
    (c.group = none → exec (.groupDissolvedStatus s.me.uid) s =
      .next ((s.barNote s.me.uid c.bar (c.op.dl c.rank) 1 5).endColl c st n)))


/-! ## Forecasts (chapters 19 and 20) -/

/-- R354, R355, R358, R360, R363-R367. `fcast` with a good descriptor in an open region that is not pinned: when the phase is complete it copies
the tiles and gives the barrier's error and age in bits 12 and 13; when it is pending it takes the next tag of the core, which it gives, and
queues the prediction, unless the activity holds four tags or the core sixteen. `fwait` on a tag that is not outstanding gives 1, on another
it waits; `fstat` gives the counts and flags. The comparator decides the tag whose phase completed first, once its prediction is written
and the beats of its tiles have passed: it passes, and is a tag of the activity no longer, when the phase had no error and every element is
within the tolerance, and otherwise the activity is squashed, with no tag left. An activity that waits for room among the held effects goes on
when there is room. (That `fcast` does not look at poison in its descriptor is the model's reading, log 59.) -/
def Obligations.Forecasts : Prop :=
  ((∀ (r : R) (s : State), Ready (.fcast r) s →
    let p := s.prepare (.fcast r)
    let y := (p.me.g r.a.toNat).toNat
    let f := FDesc.parse (p.readLocal y 64)
    let b := p.me.bar f.bar
    let id := p.nextCmd
    let n := f.n
    p.checkLocal false y 64 = none → y % 64 = 0 → p.me.region.open_ = true → p.me.region.pin = false →
    p.me.rangeBusy id false y 64 = false → f.fault y = 0 → p.checkLocal true f.d n = none → p.checkLocal false f.s n = none →
    p.checkLocal false f.h1 n = none → (f.mode ≠ 0 → p.checkLocal false f.h2 n = none) → p.checkLocal true f.bar 16 = none →
    (b.ahead f.tok ≠ 0 → p.scoreUsed p.me.agent + 2 ≤ scoreSize p.me.agent.kind → exec (.fcast r) s = .next ({ p with
      nextCmd := id + 1
      core := { p.core with locq := p.core.locq ++ [(⟨id, p.me.uid, .copy, f.s, 0, f.d, n, f.fmt, 0, 0, 0, 2 + (n + 127) / 128, none⟩ : LocCmd)] }
      me := { p.me with claims := p.me.claims ++ [(⟨id, f.s, n, false⟩ : Claim), ⟨id, f.d, n, true⟩] } }.issued (.fcast r)
      (newWrite .engine (s.cycle + 2) (Instr.fcast r).srcs ⟨.g, r.d.toNat⟩
        ((BitVec.ofNat 64 ((if b.elast then 0x1000 else 0) + (if 2 ≤ b.ahead f.tok then 0x2000 else 0))).setWidth 1024)))) ∧
    (b.ahead f.tok = 0 → p.me.tags.length < 4 → (p.coreTags p.me.agent).length < 16 →
      p.scoreUsed p.me.agent + (if f.mode = 0 then 4 else 5) ≤ scoreSize p.me.agent.kind →
      let t := nextTag (p.coreTags p.me.agent) 17 p.core.tagCtr
      exec (.fcast r) s = .next ({ p with
        nextCmd := id + 2
        core := { p.core with
          locq := p.core.locq ++ [(⟨id, p.me.uid, .predict, f.h1, f.h2, f.d, n, f.fmt, f.mode, f.j, t, 2 + (n + 127) / 128, none⟩ : LocCmd)]
          tagCtr := t }
        me := { p.me with
          claims := p.me.claims ++ ([(⟨id, f.h1, n, false⟩ : Claim)] ++ (if f.mode = 0 then [] else [(⟨id, f.h2, n, false⟩ : Claim)]) ++
            [(⟨id, f.d, n, true⟩ : Claim), ⟨id + 1, f.d, n, false⟩, ⟨id + 1, f.s, n, false⟩])
          tags := p.me.tags ++ [(⟨t, f.d, f.s, f.rows, f.rby, f.fmt, BitVec.ofNat 32 f.abs, BitVec.ofNat 32 f.rel, f.rpl, f.bar, f.tok,
            id + 1, none, none⟩ : Tag)] } }.issued (.fcast r)
        (newWrite .engine (s.cycle + 2) (Instr.fcast r).srcs ⟨.g, r.d.toNat⟩ ((BitVec.ofNat 64 t).setWidth 1024)))) ∧
    (b.ahead f.tok = 0 → 4 ≤ p.me.tags.length ∨ 16 ≤ (p.coreTags p.me.agent).length → exec (.fcast r) s = .next p.holdIssue)) ∧
  (∀ (r : R) (s : State), Ready (.fcast r) s →
    let p := s.prepare (.fcast r)
    let y := (p.me.g r.a.toNat).toNat
    let f := FDesc.parse (p.readLocal y 64)
    p.checkLocal false y 64 = none → y % 64 = 0 → (p.me.region.open_ = false ∨ p.me.region.pin = true →
      exec (.fcast r) s = .next (s.takeTrap 0x0C (faultInfo 0xA 0 0) false)) ∧
    (p.me.region.open_ = true → p.me.region.pin = false → p.me.rangeBusy p.nextCmd false y 64 = false → f.fault y ≠ 0 →
      exec (.fcast r) s = .next (s.takeTrap 0x0C (faultInfo (f.fault y) 0 0) false))) ∧
  (∀ (r : R) (s : State), Ready (.fwait r) s →
    let p := s.prepare (.fwait r)
    let t := (p.me.g r.a.toNat).toNat % 0x1000
    ((∀ x ∈ p.me.tags, x.num ≠ t) → exec (.fwait r) s = .next (p.issued (.fwait r)
      (newWrite .engine (s.cycle + 1) (Instr.fwait r).srcs ⟨.g, r.d.toNat⟩ ((1 : Word).setWidth 1024)))) ∧
    ((∃ x ∈ p.me.tags, x.num = t) →
      let q := p.flushPending
      exec (.fwait r) s = .next ({ q with me := { q.me with
        claimed := q.me.claimed ++ claimOf r.d.toNat
        block := .fwait t r.d.toNat } }.issued (.fwait r) []))) ∧
  (∀ (r : R) (s : State), Ready (.fstat r) s →
    let p := s.prepare (.fstat r)
    let t := (p.me.g r.a.toNat).toNat % 0x1000
    ∃ v : Word, exec (.fstat r) s = .next (p.issued (.fstat r) (newWrite .engine (s.cycle + 2) (Instr.fstat r).srcs ⟨.g, r.d.toNat⟩
        (v.setWidth 1024))) ∧
      (p.me.tags.length < 8 →
        (v.extractLsb' 0 3).toNat = p.me.tags.length ∧ (v.getLsbD 3 = true ↔ ∃ x ∈ p.me.tags, x.num = t) ∧
        (v.getLsbD 4 = true ↔ p.me.region.open_ = true ∧ p.me.region.pin = true) ∧ (v.getLsbD 5 = true ↔ p.me.taints ≠ []) ∧
        (v.extractLsb' 8 9).toNat = (p.me.heldBytes + 63) / 64 % 512 ∧ v.extractLsb' 6 2 = 0 ∧ v.extractLsb' 17 47 = 0))) ∧
  ((∀ (s : State) (uid p w : Nat) (e : Bool) (a : Activity) (t : Tag), s.act? uid = some a →
    a.tags.find? (fun x => x.num = t.num) = some t → t.completed = some (p, e) → t.written = some w →
    let f := s.focus uid
    let q : State := { f with
      cycle := s.cycle + 1
      core := { f.core with cmpFree := s.cycle + 2 } }
    a.uid = uid → a.life ≠ .absent →
    s.servedBefore a.agent p t.cmd = false → max (p + 1) (max (w + 1) f.core.cmpFree) + (t.rows * t.rby + 127) / 128 ≤ s.cycle + 1 →
    (e = false → q.tagPasses t = true → exec (.verdict uid t.num) s = .next { q.passTag t with cycle := s.cycle } ∧
      ∃ b, (q.passTag t).act? uid = some b ∧ ∀ x, x ∈ b.tags ↔ x ∈ a.tags ∧ x.num ≠ t.num) ∧
    (e = true ∨ q.tagPasses t = false → exec (.verdict uid t.num) s = .next { q.failTag e (s.cycle + 1) with cycle := s.cycle } ∧
      ∃ b, (q.failTag e (s.cycle + 1)).act? uid = some b ∧ b.tags = [] ∧ b.taints = [])) ∧
  (∀ (f : Nat) (abs rel x y : Nat), ∀ v w : Val, elemVal f x = v → elemVal f y = w → v.isNan = false → w.isNan = false →
    v.isFinite = true → w.isFinite = true →
    elemPasses f (fFp32.decode abs) (fFp32.decode rel) x y =
      (v.eq w || !(((fFp32.decode abs).add false ((fFp32.decode rel).mul v.abs)).lt (v.add false w.neg).abs))) ∧
  (∀ (s : State) (need : Nat), s.me.block = .held need →
    s.heldUsed s.me.agent + need ≤ 16384 ∨ s.me.speculative = false →
    exec (.heldBufferSpace s.me.uid) s = .next { s with me := { s.me with
      block := .none
      nextIssue := max s.me.nextIssue (s.cycle + 1) } }))


/-! ## Jobs (chapter 21) -/

/-- R379-R381. `jobpost` with a card address that is a multiple of 64 below 2^56, and with no write of the activity outstanding, sends its
request, which reaches the unit 14 cycles later; under speculation it is held; a bad address is a copy fault. `jobwait` on the
activity's own job gives 0x7F, on a job that is not held its status byte, or 0x7E when the VD keeps no array, and on a held job waits; while the status
byte's line moves, it is held (R296). -/
def Obligations.JobInstructions : Prop :=
  (∀ (r : R) (s : State), Ready (.jobpost r) s →
    let p := s.prepare (.jobpost r)
    let v := (p.me.srcB r).toNat
    (v % 64 = 0 → v < 2 ^ 56 → p.me.speculative = false → p.writesOut = false → exec (.jobpost r) s = .next ({ p with
      msgs := p.msgs ++ [(⟨p.nextMsg, .jobpost p.me.uid r.d.toNat v p.me.job.vd p.me.agent, s.cycle + 14⟩ : Msg)]
      nextMsg := p.nextMsg + 1
      me := { p.me.pinned with claimed := p.me.claimed ++ claimOf r.d.toNat } }.issued (.jobpost r) [])) ∧
    (v % 64 = 0 → v < 2 ^ 56 → p.me.speculative = true → p.heldUsed p.me.agent + 64 ≤ 16384 → exec (.jobpost r) s = .next ({ p with
      me := { p.me with
        claimed := p.me.claimed ++ claimOf r.d.toNat
        helds := p.me.helds ++ [(⟨none, some (r.d.toNat, v), 64, false⟩ : Held)] } }.issued (.jobpost r) [])) ∧
    (v % 64 ≠ 0 ∨ 2 ^ 56 ≤ v → exec (.jobpost r) s = .next (s.takeTrap 0x0C 5 false)) ∧
    (v % 64 = 0 → v < 2 ^ 56 → p.me.speculative = false → p.writesOut = true → exec (.jobpost r) s = .next p.holdIssue)) ∧
  (∀ (r : R) (s : State), Ready (.jobwait r) s →
    let p := s.prepare (.jobwait r)
    let id := (p.me.g r.a.toNat).toNat % 0x10000
    let answer (byte : Nat) : List Pend := newWrite .engine (s.cycle + 1) (Instr.jobwait r).srcs ⟨.g, r.d.toNat⟩
      ((BitVec.ofNat 64 (id + byte * 0x10000)).setWidth 1024)
    (id = p.me.job.jid → exec (.jobwait r) s = .next (p.issued (.jobwait r) (answer 0x7F))) ∧
    (id ≠ p.me.job.jid → p.held p.me.job.vd id = true →
      let q := p.flushPending
      exec (.jobwait r) s = .next ({ q with me := { q.me with
        claimed := q.me.claimed ++ claimOf r.d.toNat
        block := .jobwait id r.d.toNat } }.issued (.jobwait r) [])) ∧
    (id ≠ p.me.job.jid → p.held p.me.job.vd id = false → p.keepsArray p.me.job.vd = true →
      p.addrHeld p.me.job.vd [p.statusAddr p.me.job.vd id] = true → exec (.jobwait r) s = .next p.holdIssue) ∧
    (id ≠ p.me.job.jid → p.held p.me.job.vd id = false →
      (p.keepsArray p.me.job.vd = true → p.addrHeld p.me.job.vd [p.statusAddr p.me.job.vd id] = false) →
      (p.keepsArray p.me.job.vd = false → exec (.jobwait r) s = .next (p.issued (.jobwait r) (answer 0x7E))) ∧
      (∀ b, p.keepsArray p.me.job.vd = true →
        p.loadByte p.me.job.vd (addrLoc p.me.job.vd (p.statusAddr p.me.job.vd id)) = .ok b →
        let q : State := { p.keepAddrs p.me.job.vd [p.statusAddr p.me.job.vd id] with choiceCtr := p.choiceCtr + 1 }
        exec (.jobwait r) s = .next (q.issued (.jobwait r) (answer b.toNat)))))

/-- R36, R374, R376, R380, R385. A unit that is free takes the first post that waits: it answers FETCH for a card it cannot read, FULL without
room in the table, and else accepts the card and answers its id. The unit of die 0 takes the entry at HEAD of the queue whose turn it
is. A card that passes R36 stands in the table under an id that is not held, with its status byte 0. 68 cycles after acceptance the
argument tensor's descriptor is read, and a job whose predecessors have completed is ready from the next cycle on. Each of these waits while a
line that it needs moves (R296). (That a VD's first id is 1 is the model's choice, log 6; how entries of host queues come among the posts is its
reading, log 119.) -/
def Obligations.JobAcceptance : Prop :=
  (∀ (s : State) (m : Msg) (uid d va vd : Nat) (g : Agent), s.msgs.find? (fun x => x.id = m.id) = some m →
    m.kind = .jobpost uid d va vd g → s.unitTakes m (agentDie g) g.num = true →
    s.cardHeld vd va = false →
    let u := (s.unitBusy (agentDie g)).dropMsg m.id
    let t := u.keepVirt vd (u.dasid vd) va 64
    (∀ e, u.readCard vd va = .error e → exec (.jobpostRequest m.id) s = .next (t.postResult uid d 0x30000)) ∧
    (∀ c, u.readCard vd va = .ok c → t.tableRoom vd = false → exec (.jobpostRequest m.id) s = .next (t.postResult uid d 0x20000)) ∧
    (∀ c, u.readCard vd va = .ok c → t.tableRoom vd = true → exec (.jobpostRequest m.id) s =
      .next ((t.acceptJob vd c).1.postResult uid d
        (BitVec.ofNat 64 ((t.acceptJob vd c).2.1 + (if t.cardOk vd c = true then 0 else 0x10000)))))) ∧
  (∀ (s : State) (vd : Nat) (c : Card), s.cardOk vd c = true →
    let id := s.nextId vd (s.disp.jobs.length + 1) ((s.disp.counters.find vd).getD 1)
    (s.acceptJob vd c).1 = State.putStatus vd id 0 { s with disp := { s.disp with
        jobs := s.disp.jobs ++ [({ vd := vd, jid := id, owner := c.ownerDie, card := c
                                   preds := (c.preds.filter (fun n => n ≠ 0 && s.held vd n)).eraseDups
                                   readyAt := none, argt := none, argtRead := false, accepted := s.cycle, back := [], next := 0
                                   lastDealt := 0, retired := 0, stat := 0, nerr := 0, stranded := false } : Job)]
        counters := s.disp.counters.put vd (stepId id) } }) ∧
  (∀ n, 1 ≤ stepId n ∧ stepId n ≤ 0xFFFF ∧ (1 ≤ n → n < 0xFFFF → stepId n = n + 1)) ∧
  (∀ (s : State) (vd q : Nat), s.nextQueue = some (vd, q) → s.unitIdle 0 = true →
    let ctl := (s.vd vd).jqctlOf q
    let entry := (s.vd vd).jqbaseOf q % 2 ^ 56 + 8 * (ringHead ctl % ringSize ctl)
    let moved (k : State) (err : Bool) : State :=
      State.modVd vd (fun v => { v with jqctl := v.jqctl.put q (BitVec.ofNat 64 (ringAdvance ctl err)) })
        { k.unitBusy 0 with disp := { (k.unitBusy 0).disp with turn := (vd, k.disp.turn.2.put vd q) } }
    let f := s.keepVirt vd (s.dasid vd) entry 8
    s.virtHeld vd (s.dasid vd) entry 8 = false →
    (∀ bs, allOk (s.readVirt vd (s.dasid vd) entry 8) = .ok bs → s.cardHeld vd (ofBytes bs) = false) →
    (∀ bs c, allOk (s.readVirt vd (s.dasid vd) entry 8) = .ok bs → ofBytes bs < 2 ^ 56 → ofBytes bs % 64 = 0 →
      s.readCard vd (ofBytes bs) = .ok c →
      exec (.jobQueueEntry vd q) s = .next ((moved (f.keepVirt vd (f.dasid vd) (ofBytes bs) 64) false).acceptJob vd c).1) ∧
    (∀ bs, allOk (s.readVirt vd (s.dasid vd) entry 8) = .ok bs → 2 ^ 56 ≤ ofBytes bs ∨ ofBytes bs % 64 ≠ 0 →
      exec (.jobQueueEntry vd q) s = .next (moved (f.keepVirt vd (f.dasid vd) (ofBytes bs) 64) true)) ∧
    (∀ e, allOk (s.readVirt vd (s.dasid vd) entry 8) = .error e → exec (.jobQueueEntry vd q) s = .next (moved f true))) ∧
  (∀ ctl : Nat, ringSize ctl ≤ 2 ^ 16 → ringHead (ringAdvance ctl false) = (ringHead ctl + 1) % ringSize ctl ∧
    ringTail (ringAdvance ctl false) = ringTail ctl ∧ ringOn (ringAdvance ctl false) = ringOn ctl) ∧
  (∀ (s : State) (vd jid : Nat) (j : Job), jid < 0x10000 → s.jobOf vd jid = some j → j.vd = vd → j.jid = jid → j.argtRead = false →
    j.accepted + 68 ≤ s.cycle + 1 → s.unitFree j.owner = true → s.recordHeld vd jid j.card = false →
    let v := s.vd vd
    let tid := j.card.argt
    let va := v.vdtab.toNat / 64 % 2 ^ 46 * 64 + 64 * tid
    let size := v.vdasid.toNat / 2 ^ 32 % 2 ^ 17
    let noted (k : State) (d : Option Desc) : State := k.modJob vd jid (fun (k : Job) => { k with argt := d, argtRead := true })
    let u := s.unitBusy j.owner
    let f := u.keepAddrs vd [va, va + 32]
    (tid ≠ 0 → tid < size → s.addrHeld vd [va, va + 32] = false) →
    (∀ w d, tid ≠ 0 → tid < size → u.loadPhys vd va 64 = .ok w → Desc.parse (toBytes 64 w) = some d →
      (j.card.rcount ≠ 0 → exec (.argtDescriptorRead (vd * 0x10000 + jid)) s = .next (noted f (some d))) ∧
      (j.card.rcount = 0 → exec (.argtDescriptorRead (vd * 0x10000 + jid)) s = .next ((noted f (some d)).completeJob vd jid))) ∧
    (tid = 0 ∨ size ≤ tid → exec (.argtDescriptorRead (vd * 0x10000 + jid)) s =
      .next (((noted u none).modJob vd jid (fun (k : Job) => k.error 1 1)).completeJob vd jid))) ∧
  (∀ (s : State) (vd jid : Nat) (j : Job), jid < 0x10000 → s.jobOf vd jid = some j → j.vd = vd → j.jid = jid → j.preds = [] →
    j.readyAt = none → exec (.jobReady (vd * 0x10000 + jid)) s =
      .next (s.modJob vd jid (fun (k : Job) => { k with readyAt := some (s.cycle + 1) })))

/-- R39, R40, R42, R54, R93, R386-R388, R392. A unit that is free deals the next chunk to the core of the highest free count; a chunk holds
the first records that are left, in order. A core's oldest unstarted activity starts in its lowest free slot, with the record in its
data pages, its record number, the record's address, the stage and the top of the data pages in g1, g2, g3 and g63, unless a saved
activity of no lower class waits; its code is loaded, and 3 cycles after its pages, its record and its code are there it issues. A
retirement that reaches the owner unit counts; once all its activities have retired a job's completion reaches its unit, which takes it in its
turn among what reaches it (log 119): the job's id is then free, and its successors wait for it no longer. -/
def Obligations.DealingAndStarting : Prop :=
  (∀ (s : State) (die n : Nat) (j : Job), s.unitFree (8 + die) = true → s.strandedJob die = none → s.nextDeal die = some j →
    s.dealCore j = some n →
    let x := j.take (j.chunk (s.usableSpan j.card j.vd).length)
    let t := (s.unitBusy (8 + die)).modJob j.vd j.jid (fun (_ : Job) => { x.2 with lastDealt := s.cycle })
    exec (.dealChunk die) s = .next { t with disp := { t.disp with
      unstarted := t.disp.unstarted ++
        x.1.map (fun (i : Nat) => (⟨j.vd, j.jid, i, n, s.cycle, s.cycle + 2 + unitLatency die n, false⟩ : Unstarted)) } }) ∧
  (∀ (j : Job) (n : Nat), j.next ≤ j.card.rcount →
    (j.take n).1.length = min n j.left ∧ (j.take n).2.left = j.left - min n j.left ∧
    (j.back = [] → (j.take n).1 = (List.range (min n j.left)).map (fun (i : Nat) => j.next + i))) ∧
  (∀ (j : Job) (cores : Nat), 0 < cores → j.card.cmin ≤ j.left → j.left ≤ 2 * cores * j.card.cmin → j.chunk cores = j.card.cmin) ∧
  (∀ (s : State) (n slot : Nat) (u : Unstarted) (j : Job) (d : Desc), s.firstUnstarted n = some u → s.jobOf u.vd u.jid = some j →
    s.freeSlot ⟨.compute, n⟩ 16 = some slot → s.canTake n ⟨u.vd, u.jid, j.card.dpages + j.card.spages, j.card.pages⟩ u.reserved = true →
    (∀ z, s.firstSaved n = some z → z.act.job.cls < j.card.cls) → j.argt = some d →
    let xb := j.card.pages * 0x800
    let ctx := j.card.ctx u.jid u.record
    let va := d.base + u.record * (8 * j.card.rsize)
    let k := s.keepVirt j.card.vd (s.dasid j.card.vd) va (8 * j.card.rsize)
    s.virtHeld j.card.vd (s.dasid j.card.vd) va (8 * j.card.rsize) = false →
    let t : State := { k with disp := { k.disp with unstarted := k.disp.unstarted.erase u } }
    exec (.activityStart ⟨.compute, n⟩) s = .next ((t.ensureSeg u.vd u.jid j.card.pages n).place
      { Activity.start s.nextUid ⟨.compute, n⟩ slot 0 s.cycle ctx with
        lm := s.recordImage j.card d u.record xb
        nextIssue := s.cycle + max ((j.card.dpages * 2048 + 1535) / 1536) (s.missTime ⟨.compute, n⟩ j.card.vd va (8 * j.card.rsize)) }
      [(1, BitVec.ofNat 64 u.record), (2, BitVec.ofNat 64 xb), (3, BitVec.ofNat 64 j.card.stage),
       (63, BitVec.ofNat 64 ((j.card.pages + j.card.dpages) * 0x800))])) ∧
  (∀ (s : State) (ag : Agent) (vd jid since : Nat) (j : Job) (g : CodeSeg) (image : List Byte), jid < 0x10000 →
    (s.coreOf ag).segs.find? (fun (h : CodeSeg) => (h.jid = jid && h.vd = vd) && h.loading.isSome) = some g → g.loading = some since →
    s.jobOf vd jid = some j →
    let n := 2048 * j.card.pages
    since + s.missTime ag vd j.card.code n ≤ s.cycle + 1 → s.virtHeld vd (s.dasid vd) j.card.code n = false → allOk (s.readVirt vd (s.dasid vd) j.card.code n) = .ok image →
    exec (.codeLoad ag (vd * 0x10000 + jid)) s = .next ((s.keepVirt vd (s.dasid vd) j.card.code n).modCoreOf ag (fun (c : Core) => { c with
      segs := c.segs.map (fun (h : CodeSeg) => if h.jid = jid && h.vd = vd then
        { h.load (image.take (4 * j.card.cwords)) j.card.cwords with loading := none, ready := s.cycle + 1 } else h) }))) ∧
  (∀ (s : State) (g : CodeSeg), s.me.fresh = true → s.me.nextIssue ≤ s.cycle → s.core.agent = s.me.agent → s.seg = some g →
    g.loading = none → g.held = false → s.badTarget s.me.pc.toNat = none →
    let t := if s.me.prog.isSome then s.cycle + 1 else max (max s.me.nextIssue g.ready + 3) (s.cycle + 1)
    t ≤ s.cycle + 1 → exec (.firstIssue s.me.uid) s = .next { s with me := { s.me with
      fresh := false
      nextIssue := t } }) ∧
  (∀ (s : State) (vd jid : Nat) (j : Job), jid < 0x10000 → s.jobOf vd jid = some j → j.vd = vd → j.jid = jid → j.argtRead = true →
    j.card.rcount ≤ j.retired → s.orphanWrites vd = false → s.recordHeld vd jid j.card = false →
    (s.completion j = none →
      let m : Msg := ⟨s.nextMsg, .complete vd jid, s.cycle⟩
      let t : State := { s with
        msgs := s.msgs ++ [m]
        nextMsg := s.nextMsg + 1 }
      (t.unitTakes m j.owner 0 = true →
        exec (.jobCompletion (vd * 0x10000 + jid)) s = .next (((t.unitBusy j.owner).dropMsg m.id).completeJob vd jid)) ∧
      (t.unitTakes m j.owner 0 = false → exec (.jobCompletion (vd * 0x10000 + jid)) s = .next t)) ∧
    (∀ m, s.completion j = some m → s.unitTakes m j.owner 0 = true →
      exec (.jobCompletion (vd * 0x10000 + jid)) s = .next (((s.unitBusy j.owner).dropMsg m.id).completeJob vd jid))) ∧
  (∀ (s : State) (vd jid : Nat), (s.jobOf vd jid).isSome = true → (s.completeJob vd jid).jobOf vd jid = none ∧
    ∀ k ∈ (s.completeJob vd jid).disp.jobs, k.vd = vd → jid ∉ k.preds) ∧
  (∀ (s : State) (m : Msg) (vd jid stat refused die num : Nat) (g : Agent), s.msgs.find? (fun x => x.id = m.id) = some m →
    m.kind = .retired vd jid stat refused g → s.msgUnit m = some (die, num) → s.unitTakes m die num = true →
    s.takeRetired m.id = ((s.unitBusy die).dropMsg m.id).modJob vd jid (fun (k : Job) => k.retire stat refused)) ∧
  (∀ (k : Job) (stat refused : Nat), (k.retire stat refused).retired = k.retired + 1 ∧ k.retire 0 0 = { k with retired := k.retired + 1 } ∧
    (stat ≠ 0 → refused = 0 → k.stat = 0 → (k.retire stat refused).stat = stat)) ∧
  (∀ (s : State) (id dst byte due : Nat), s.core.agent = s.me.agent → s.me.block = .jobDone id dst byte due → due ≤ s.cycle + 1 →
    id < 0x10000 → byte < 0x100 →
    ∃ t, exec (.jobwaitWake s.me.uid) s = .next t ∧ t.me.block = .none ∧ t.me.nextIssue = max s.me.nextIssue (s.cycle + 1) ∧
      (dst ≠ 0 → dst < 64 → (⟨.g, dst⟩ : Reg) ∈ s.me.claimed → t.me.g dst = BitVec.ofNat 64 (id + byte * 0x10000)))

/-! ## The life of an activity (chapters 2, 5 and 7) -/

/-- R49, R53, R87, R123, R146, R151-R155, R212, R220, R392. A result takes effect at its cycle: the register then holds it, and before its cycle
nothing changes. An overrun sets XSTAT.PRB and starts the counter again; a run-budget trap, a missed promise and a refused store are taken
by an activity outside a handler, with the cause, and clear what they report; one that is speculative, or has vector accesses under way,
waits for them first; an activity that ended retires when nothing of its own is outstanding, and tells its job's unit; one that its budget, a nested trap or its code image condemned is killed. A free monitor entry goes to
the first in the queue, and a woken `bar.wait` gives its status. -/
def Obligations.ResultsAndActivityLife : Prop :=
  (∀ x ∈ [(Instr.registerWriteback, PendKind.fixed), (.registerWriteback, .engine), (.loadResult, .load), (.divideResult, .divide)],
    ∀ (s : State) (n due : Nat) (v : Vec) (keep : List Reg), s.core.agent = s.me.agent →
    s.me.pend = [⟨⟨.g, n⟩, v, due, x.2, keep⟩] → 0 < n → n < 64 →
    (due ≤ s.cycle → ∃ t, exec (x.1 s.me.uid) s = .next t ∧ t.me.g n = v.setWidth 64 ∧ t.me.pend = [] ∧ t.me.pc = s.me.pc ∧
      t.me.lm = s.me.lm) ∧
    (s.cycle < due → exec (x.1 s.me.uid) s = .next s)) ∧
  ((∀ s : State, s.me.job.runb ≠ 0 → s.me.job.runb < s.me.runc → s.me.overrun = false →
    (s.me.prog = none → exec (.firstOverrun s.me.uid) s = .next { s with me := { s.me with
      overrun := true
      runc := 0
      trap := { s.me.trap with prb := true } } }) ∧
    (∀ p, s.me.prog = some p → exec (.firstOverrun s.me.uid) s = .next { s with me := { s.me with
      life := .ending
      prog := some { p with fault := some (9, 0) }
      overrun := true
      runc := 0 } })) ∧
  (∀ s : State, s.core.agent = s.me.agent → s.me.life = .live → s.me.trap.inh = false → s.me.speculative = false → s.vecBusy = false →
    (s.me.trap.prb = true → exec (.runBudgetTrap s.me.uid) s = .next (State.takeTrap 9 0 true
      { s with me := { s.me with trap := { s.me.trap with prb := false } } })) ∧
    (∀ bar pr rest, s.me.trap.missed = (bar, pr) :: rest → s.me.trap.pmp = true → bar < 2 ^ 24 → pr < 2 ^ 32 →
      exec (.missedPromiseTrap s.me.uid) s = .next (State.takeTrap 8 (BitVec.ofNat 64 (bar + pr * 2 ^ 32)) true
        { s with me := { s.me with trap := { s.me.trap with missed := rest, pmp := rest ≠ [] } } })) ∧
    (∀ ag n e, s.firstRefused s.me.uid = some (ag, n, e) → s.me.trap.prs = true → n < 64 → e.code < 256 →
      let t := s.modCoreOf ag (fun (c : Core) => { c with journal := c.journal.del n })
      exec (.refusedStoreTrap s.me.uid) s = .next (State.takeTrap 0xB (BitVec.ofNat 64 (n + e.code * 256)) true
        { t with me := { t.me with trap := { t.me.trap with prs := t.refusedOf s.me.uid ≠ 0 }, psjpc := BitVec.ofNat 64 e.pc } }))) ∧
  (∀ s : State, s.core.agent = s.me.agent → s.me.life = .live → s.me.trap.inh = false → s.me.speculative = true ∨ s.vecBusy = true →
    (s.me.trap.prb = true → exec (.runBudgetTrap s.me.uid) s = .next (s.awaitEntry 9 0 true)) ∧
    (s.me.trap.missed ≠ [] → s.me.trap.pmp = true → exec (.missedPromiseTrap s.me.uid) s = .next (s.awaitEntry 8 0 true)) ∧
    ((s.firstRefused s.me.uid).isSome = true → s.me.trap.prs = true →
      exec (.refusedStoreTrap s.me.uid) s = .next (s.awaitEntry 0xB 0 true))) ∧
  (∀ (s : State) (j : Job), s.core.agent = s.me.agent → s.me.agent.kind = .compute → s.me.prog = none → s.me.speculative = false →
    s.me.life = .ending → s.core.busyWith s.me.uid = false → s.engineOut = false → s.updateOut = false → s.me.helds = [] →
    s.me.coll = none → s.me.claimed = [] → s.me.party = none → s.jobOf s.me.job.vd s.me.job.jid = some j →
    ∃ t, exec (.retirement s.me.uid) s = .next t ∧ t.me.life = .absent ∧ t.disp.jobs = s.disp.jobs ∧
      t.msgs = s.msgs ++ [(⟨s.nextMsg, .retired s.me.job.vd s.me.job.jid 0 (s.refusedOf s.me.uid) s.me.agent,
        s.cycle + 1 + unitLatency j.owner s.me.agent.num⟩ : Msg)]) ∧
  (∀ s : State, s.core.agent = s.me.agent → s.me.life ≠ .absent → s.me.life ≠ .killed → s.me.prog = none → s.me.killStat ≠ 0 →
    exec (.kill s.me.uid) s = .next (s.killMe s.me.killStat stLost stAbandoned false)) ∧
  (∀ a : Activity, a.killStat = (if a.doom ≠ 0 then a.doom else if a.overrun = true ∧ a.job.runb ≠ 0 ∧ a.job.runb < a.runc then 2 else 0)) ∧
  (∀ (s : State) (rest : List Nat) (y t d : Nat), s.core.agent = s.me.agent → s.core.monitorQueue = s.me.uid :: rest →
    s.core.monitors.length < monitorSize s.me.agent.kind → s.me.block = .monitor y t d →
    let b := s.me.bar y
    exec (.monitorGrant s.me.agent) s = .next { s with
      core := { s.core with monitorQueue := rest, monitors := s.core.monitors ++ [s.me.uid] }
      me := { s.me with block := if b.ahead t = 0 then .barWait y t d else .barDone d (b.status (if b.ahead t = 1 then 0 else 1)) (s.cycle + 1) } }) ∧
  (∀ (s : State) (dst st since : Nat), s.core.agent = s.me.agent → s.me.block = .barDone dst st since →
    ∃ t, exec (.barWaitWake s.me.uid) s = .next t ∧ t.me.block = .none ∧ t.me.nextIssue = max s.me.nextIssue (since + 1) ∧
      (0 < dst → dst < 64 → (⟨.g, dst⟩ : Reg) ∈ s.me.claimed → t.me.g dst = BitVec.ofNat 64 st)))


/-! ## Placement (chapters 2, 7 and 21) -/

/-- R51, R52, R163, R166, R378, R382-R384, R391. A write of CORESEL that changes RES or VD begins a switch, which withdraws the records of excluded
VDs and ends when no activity of them is left; an activity that was ordered out is evicted at a blocking point, and one that is not at one, or is
gone, is refused, as is one for whose context the save pool has no room; one whose area has been written stands among the saved with its PC, its
pages, its loads and its unstarted matrix commands, and leaves its core; a unit orders one victim in 16 cycles; a saved activity whose save area
reads as it was written returns, at its PC, with every register whose home is good, its pages and its slot, or a new one on another core, and is
lost, which its job learns, when the area reads otherwise (log 67: the model's reading of a bad home and of a bad area); a loaded core pushes its
oldest unstarted record, to which room is reserved. -/
def Obligations.Placement : Prop :=
  (∀ (s : State) (n : Nat) (value : Word), s.HostTurn (.reg (.coresel n) value) → n < 4096 →
    let c := s.coreOf (coreAgent n)
    (c.selBusy = false → value.getLsbD 7 ≠ c.selRes ∨ value.toNat % 64 ≠ c.selVd → exec (.coreselWrite n value) s =
      .next ((s.counted.modCoreOf (coreAgent n) (fun (k : Core) => { k with
        selRes := value.getLsbD 7
        selVd := value.toNat % 64
        selBusy := true })).withdraw n)) ∧
    (c.selBusy = true ∨ (value.getLsbD 7 = c.selRes ∧ value.toNat % 64 = c.selVd) → exec (.coreselWrite n value) s = .next s.counted)) ∧
  (∀ (s : State) (n : Nat), (s.coreOf (coreAgent n)).selBusy = true →
    (∀ a ∈ s.allActs, a.livesAt n = true ∨ a.visits n = true → s.excludes n a.job.vd = false) →
    (∀ u ∈ s.disp.unstarted, u.core = n → s.excludes n u.vd = false) →
    exec (.switchEnd n) s = .next (s.modCoreOf (coreAgent n) (fun (k : Core) => { k with selBusy := false }))) ∧
  (∀ s : State, s.me.uid ∈ s.disp.orders → s.me.uid ∉ s.disp.evicting →
    (s.me.evictable = false → exec (.eviction s.me.uid) s = .next { s with disp := s.disp.dropVictim s.me.uid }) ∧
    (s.me.evictable = true → s.core.agent = s.me.agent → s.me.speculative = false → s.poolRoom = false →
      exec (.eviction s.me.uid) s = .next { s with disp := s.disp.dropVictim s.me.uid }) ∧
    (s.me.evictable = true → s.core.agent = s.me.agent → s.me.speculative = false → s.poolRoom = true →
      let t : State := { s with disp := { s.disp with
        orders := s.disp.orders.filter (fun (u : Nat) => u ≠ s.me.uid)
        evicting := s.me.uid :: s.disp.evicting } }
      exec (.eviction s.me.uid) s = .next (if t.settled = true then t.saveMe else t))) ∧
  (∀ (s : State) (uid : Nat), s.act? uid = none → exec (.eviction uid) s = .next { s with disp := s.disp.dropVictim uid }) ∧
  (∀ s : State, s.core.agent = s.me.agent → s.me.life = .live → s.saveMe.me.life = .absent → ∃ z ∈ s.saveMe.saved, z.act.uid = s.me.uid ∧
    z.act.pc = s.me.pc ∧ z.act.frames = s.me.frames ∧ z.act.job = s.me.job ∧ z.act.home = s.me.home ∧ z.act.slot = s.me.slot ∧
    z.cmds = s.core.copyq.filter (fun c => c.owner = s.me.uid && c.kind.isLoad) ∧ z.mats = s.core.matq.filter (fun c => c.owner = s.me.uid) ∧
    s.me.uid ∉ s.saveMe.disp.orders ∧ s.me.uid ∉ s.saveMe.disp.evicting) ∧
  (∀ (d : Dispatch) (u v : Nat), (v ∈ (d.dropVictim u).orders ↔ v ∈ d.orders ∧ v ≠ u) ∧
    (v ∈ (d.dropVictim u).evicting ↔ v ∈ d.evicting ∧ v ≠ u)) ∧
  (∀ (s : State) (die : Nat) (v : Activity) (w : Waiting), (∀ e, s.disp.ordered.find die = some e → e + 16 ≤ s.cycle) →
    ((s.waitingFor die).filter (fun x => !s.hasVictim x)).findSome? (fun x => (s.victim x).map (fun y => (y, x))) = some (v, w) →
    exec (.victimChoice die) s = .next { s with disp := { s.disp with
      orders := s.disp.orders ++ [v.uid]
      victims := s.disp.victims ++ [(v.uid, w.who)]
      ordered := s.disp.ordered.put die s.cycle } }) ∧
  (∀ (s : State) (w : Waiting) (v : Activity), s.victim w = some v → v ∈ s.allActs ∧ v.job.cls < w.cls ∧ v.evictable = true ∧
    ∀ u ∈ s.allActs, s.candidate w u = true → v.job.cls ≤ u.job.cls) ∧
  (∀ (s : State) (z : Saved) (n : Nat), s.saved.find? (fun (y : Saved) => y.act.uid = z.act.uid) = some z → s.savedReady z = true →
    s.addrHeld z.act.job.vd (s.blockAddrs z.act.job.vd z.blocks) = false → z.at_ = none → s.restoreCores z = [n] →
    let t : State := { s with choiceCtr := s.choiceCtr + 1 }
    let k := t.keepBlocks none z.act.job.vd z.blocks
    (∀ x, t.poolRead z.act.job.vd z.blocks = (z.image, false) → k.restoreOn z n = some x → exec (.restore z.act.uid) s = .next x) ∧
    (∀ bs bad, t.poolRead z.act.job.vd z.blocks = (bs, bad) → bad = true ∨ bs ≠ z.image →
      exec (.restore z.act.uid) s = .next (k.loseSaved z))) ∧
  (∀ (s x : State) (z : Saved) (n : Nat), z.act.life = .live → s.restoreOn z n = some x → ∃ b, x.act? z.act.uid = some b ∧
    b.agent = coreAgent n ∧ b.home = n ∧ b.pc = z.act.pc ∧ b.frames = z.act.frames ∧ b.job = z.act.job ∧ b.runc = 0 ∧
    (n = z.act.home → b.slot = z.act.slot ∧ b.gen = z.act.gen) ∧ (n ≠ z.act.home → s.freeSlot (coreAgent n) 16 = some b.slot) ∧
    (z.act.reserve.bytes.wf = true → ∀ q ∈ z.act.boundRegs, z.act.badHome [q.1] = none → b.raw q.1 = q.2) ∧
    (∀ y ∈ x.saved, y.act.uid ≠ z.act.uid)) ∧
  (∀ (s : State) (z : Saved), (∀ y ∈ (s.loseSaved z).saved, y.act.uid ≠ z.act.uid) ∧ (∀ w ∈ (s.loseSaved z).dirs.waiters, w.uid ≠ z.act.uid) ∧
    ((s.jobOf z.act.job.vd z.act.job.jid).isSome = true →
      ∃ m ∈ (s.loseSaved z).msgs, m.kind = .retired z.act.job.vd z.act.job.jid 5 0 z.act.agent)) ∧
  (∀ (s : State) (n m : Nat) (u : Unstarted) (j : Job), s.cycle % 256 = 0 → (s.disp.pushed.find n).getD 0 ≠ s.cycle + 1 →
    s.disp.unstarted.find? (fun (v : Unstarted) => v.core = n) = some u → s.mayPush u.vd n = true → s.pushTarget u.vd u.jid n = some m →
    s.jobOf u.vd u.jid = some j → s.canAccept m [j.footprint] = true → exec (.migration n) s = .next { s with disp := { s.disp with
      pushed := s.disp.pushed.put n (s.cycle + 1)
      unstarted := s.disp.unstarted.map (fun (v : Unstarted) =>
        if v = u then { u with core := m, due := s.cycle + 1 + levelLatency (coreAgent n) (coreAgent m), reserved := true } else v) } }) ∧
  (∀ (s : State) (vd jid n m : Nat), s.pushTarget vd jid n = some m → m ≠ n ∧ m / 16 = n / 16 ∧ s.loadCount m + 2 ≤ s.loadCount n)

/-! ## Shares and moves (chapters 13, 14 and 22) -/

/-- R294-R296, R305, R306, R399. A refill adds RATE to a VD's bucket, and what the bucket cannot hold goes to the surplus; nothing is lost
but at the depth of the pool. A GO to RBCTL or KBCTL begins a move, which holds the bucket, or waits behind one in progress; the move
waits for what had been accepted before it, then changes the entry, with the lines of the bucket written back, or the waiting parties and the
forming groups of the bucket moved behind those that the new directory has (log 87: the model's reading of their order, and of the counts). At the
end of an interval the counts start again. -/
def Obligations.SharesAndMoves : Prop :=
  (∀ (h : Share) (v rate depth : Nat),
    ((h.add v rate depth).tokens.find v).getD 0 = min ((h.tokens.find v).getD 0 + rate) (depth * 1024) ∧
    ((h.add v rate depth).tokens.find v).getD 0 + (h.add v rate depth).surplus = (h.tokens.find v).getD 0 + rate + h.surplus) ∧
  (∀ (s : State) (c : Nat) (h : Share), (s.refillShare c h).surplus ≤ surplusDepth c * 1024) ∧
  (∀ (s : State) (a : Arbiter) (h : Share), s.arbs.find? (fun x => x.1 = a) = some (a, h) → exec (.tokenRefill a) s = .next { s with
    arbs := s.arbs.map (fun x => if x.1 = a then (a, s.refillShare (arbClass a) h) else x) }) ∧
  (∀ (s : State) (a : Arbiter), (∀ x ∈ s.arbs, x.1 ≠ a) → exec (.tokenRefill a) s = .next { s with
    idle := s.idle.put (arbClass a) (s.refillShare (arbClass a) ((s.idle.find (arbClass a)).getD Share.empty)) }) ∧
  (∀ (s : State) (value : Word), s.HostTurn (.reg .rbctl value) → value.getLsbD 63 = true →
    let t : State := { s.counted with cache := { s.cache with rbctl := keepBits value (bitsMask 49 28 + 1) } }
    (s.cache.move ≠ none → exec (.rbctlGo value) s = .next { t with cache := { t.cache with queued := some value } }) ∧
    (s.cache.move = none → s.sliceOk (value.toNat / 2 ^ 40 % 512) = true →
      let b := value.toNat / 2 ^ 28 % 4096
      let u := t.setBucket b { s.bucket b with hold := true }
      exec (.rbctlGo value) s = .next { u with cache := { u.cache with
        move := some ⟨b, value.toNat / 2 ^ 40 % 512, value.getLsbD 49⟩ } })) ∧
  (∀ (s : State) (m : Move), s.cache.move = some m → s.moveWaits m.bucket = false → s.cache.queued = none →
    let t := (s.flushLines (fun (l : Line) => l.key.bucket = m.bucket)).setBucket m.bucket ⟨false, m.repl, m.target⟩
    exec .bucketMove s = .next { t with cache := { t.cache with move := none, queued := none } }) ∧
  (∀ (s : State) (b c : Nat) (e : Bucket), (s.setBucket b e).bucket b = e ∧ (c ≠ b → (s.setBucket b e).bucket c = s.bucket c)) ∧
  (∀ (s : State) (value : Word), s.HostTurn (.reg .kbctl value) → value.getLsbD 63 = true →
    let t : State := { s.counted with dirs := { s.dirs with kbctl := keepBits value (bitsMask 47 28 + 1) } }
    (s.dirs.move ≠ none → exec (.kbctlGo value) s = .next { t with dirs := { t.dirs with queued := some value } }) ∧
    (s.dirs.move = none →
      let b := value.toNat / 2 ^ 28 % 4096
      let u := t.setKeyBucket b { s.keyEntry b with hold := true }
      exec (.kbctlGo value) s = .next { u with dirs := { u.dirs with move := some (b, value.toNat / 2 ^ 40 % 256, s.nextMsg) } })) ∧
  (∀ (s : State) (b d mark : Nat), s.dirs.move = some (b, d, mark) → s.keyMoveWaits b mark = true → exec .keyBucketMove s = .next s) ∧
  (∀ (s : State) (m : Move), s.cache.move = some m → s.moveWaits m.bucket = true → exec .bucketMove s = .next s) ∧
  (∀ (s : State) (b d mark : Nat), s.dirs.move = some (b, d, mark) → s.keyMoveWaits b mark = false → s.dirs.queued = none →
    let mine (w : Waiter) : Bool := decide (keyBucket w.key w.keysp w.vd = b)
    let ours (g : Group) : Bool := decide (keyBucket g.key g.keysp g.vd = b)
    let ws := s.dirs.waiters.filter (fun w => !mine w) ++ s.dirs.waiters.filter mine
    let gs := s.dirs.groups.filter (fun g => !ours g) ++ s.dirs.groups.filter ours
    ∃ t, exec .keyBucketMove s = .next t ∧ t.dirs.move = none ∧ t.dirs.queued = none ∧ t.keyEntry b = ⟨false, d⟩ ∧
      (∀ c, c ≠ b → t.keyEntry c = s.keyEntry c) ∧ t.msgs = s.msgs ∧
      t.dirs.waiters.map (fun w => { w with queued := false }) = ws.map (fun w => { w with queued := false }) ∧
      t.dirs.groups.map (fun g => { g with queued := false }) = gs.map (fun g => { g with queued := false }) ∧
      ((∀ w ∈ ws, w.queued = false) → (∀ g ∈ gs, g.queued = false) → t.dirs.waiters = ws ∧ t.dirs.groups = gs ∧ t.acts = s.acts ∧ t.me = s.me)) ∧
  (∀ s : State, s.cycle % 65536 = 0 →
    (s.cache.rbctl.getLsbD 0 = false ∨ s.cache.move ≠ none → exec .rebalancer s = .next { s with cache := { s.cache with
      hits := []
      bucketHits := [] } }) ∧
    (∀ m, s.cache.rbctl.getLsbD 0 = true → s.cache.move = none → s.rebalance = some m → exec .rebalancer s =
      .next (State.beginMove m { s with cache := { s.cache with hits := [], bucketHits := [] } })) ∧
    (s.dirs.kbctl.getLsbD 0 = false ∨ s.dirs.move ≠ none → exec .keyRebalancer s = .next { s with dirs := { s.dirs with
      hits := []
      bucketHits := [] } }) ∧
    (∀ b d, s.dirs.kbctl.getLsbD 0 = true → s.dirs.move = none → s.rebalanceKeys = some (b, d) → exec .keyRebalancer s =
      .next (State.beginKeyMove b d { s with dirs := { s.dirs with hits := [], bucketHits := [] } })))

/-! ## Registers that the host writes (chapters 21 to 24) -/

/-- R4, R376, R377, R393, R395, R398, R404, R406, R408, R410, R413, R417, R420, R429, R441. A posted write of a register is numbered, and waits
while a posted write that came before it does. It keeps the bits that the register has, and nothing else; registers of a VD change that VD alone.
JQCTL takes EN and TAIL with a good ring and sets ERR for another (log 84: the model's reading of what such a write does to the other fields); the
doorbell writes TAIL; VDCTL is refused while the VD holds a job, SERR is set where a share would break the sum, and else it acts once the cycle has
ended; WAYMSK comes into force then too, and the borrowed bits of the resident lines follow in the cycles after, set by set. Through BAR0 an offset
names a register, one without is ignored and reads 0, and a virtual function writes its queue registers alone; a read of ERRCTL clears DROPS. -/
def Obligations.RegisterWrites : Prop :=
  (∀ (s : State) (vd q : Nat) (value : Word), vd < 64 → q < 16 →
    let v := s.vd vd
    let old := v.jqctlOf q
    let bad : Bool := value.toNat / 2 ^ 32 % 16 > 12 || v.jqbaseOf q % 64 ≠ 0
    let ring (hi : Nat) : Word := BitVec.ofNat 64 (hi + value.toNat / 2 ^ 32 % 16 * 2 ^ 32 + ringHead old * 2 ^ 16 + value.toNat % 2 ^ 16)
    let put (w : Word) : State := s.counted.modVd vd (fun (x : Vd) => { x with jqctl := x.jqctl.put q w })
    (s.HostTurn (.reg (.jqctl vd q) value) →
      (value.getLsbD 63 = true → bad = false → old.testBit 62 = false → exec (.jqEnable vd q value) s = .next (put (ring (2 ^ 63)))) ∧
      (value.getLsbD 63 = true → bad = true → exec (.jqEnable vd q value) s = .next (put (ring (2 ^ 62)))) ∧
      (value.getLsbD 63 = false → old.testBit 62 = false → exec (.jqEnable vd q value) s = .next (put (ring 0)))) ∧
    (∀ tail : BitVec 16, s.HostTurn (.tail vd q tail) → exec (.jqDoorbell vd q tail) s = .next (s.counted.modVd vd (fun (w : Vd) => { w with
        jqctl := w.jqctl.put q (mergeBits (BitVec.ofNat 64 (w.jqctlOf q)) (tail.setWidth 64) 0xFFFF) })))) ∧
  (∀ (s : State) (vd : Nat) (value : Word), s.HostTurn (.reg (.vdctl vd) value) → vd < 64 →
    let v := s.vd vd
    let next : Bool := match v.next with
      | some w => w.getLsbD 0
      | none => v.en
    (value.getLsbD 0 ≠ next → (∃ j ∈ s.disp.jobs, j.vd = vd) → exec (.vdEnable vd value) s = .next s.counted) ∧
    (value.getLsbD 0 = next ∨ (∀ j ∈ s.disp.jobs, j.vd ≠ vd) →
      (value.getLsbD 0 = true → next = false → (∃ c, c < 6 ∧ shareCap c < s.rateAhead c vd + (v.shareOf c).1) →
        ∃ t, exec (.vdEnable vd value) s = .next t ∧ (t.vd vd).serr = true ∧ (t.vd vd).en = v.en ∧ (t.vd vd).enNext = v.enNext ∧
          ∀ w, w ≠ vd → t.vd w = s.vd w) ∧
      (value.getLsbD 0 = false ∨ next = true ∨ (∀ c, c < 6 → s.rateAhead c vd + (v.shareOf c).1 ≤ shareCap c) →
        exec (.vdEnable vd value) s = .next (s.counted.modVd vd (fun (w : Vd) => { w with next := some value }))))) ∧
  (∀ (s : State) (vd : Nat) (value : Word),
    let v := s.vd vd
    let t := s.setVdctl vd value
    (t.vd vd).en = value.getLsbD 0 ∧ (t.vd vd).spown = value.getLsbD 2 ∧ (t.vd vd).next = none ∧
    ((t.vd vd).serr = true ↔ v.serr = true ∧ value.getLsbD 1 = false) ∧ (∀ w, w ≠ vd → t.vd w = s.vd w) ∧
    (value.getLsbD 0 = true → v.en = false →
      (∀ c, c < 6 → (((t.idle.find c).getD Share.empty).tokens.find vd).getD 0 = (v.shareOf c).2 * 1024) ∧
      ∀ x ∈ t.arbs, (x.2.tokens.find vd).getD 0 = (v.shareOf (arbClass x.1)).2 * 1024) ∧
    (value.getLsbD 0 = v.en → v.en = true → t.arbs = s.arbs)) ∧
  (∀ (s : State) (vd c : Nat) (value : Word), s.HostTurn (.reg (.shr vd c) value) → vd < 64 → c < 6 →
    let v := s.vd vd
    let rate := value.toNat / 2 ^ 32 % 2 ^ 20
    (rate ≤ shareCap c → (v.enNext = true → s.rateAhead c vd + rate ≤ shareCap c) → exec (.shrWrite vd c value) s =
      .next (s.counted.modVd vd (fun (w : Vd) => { w with shr := w.shr.put c (rate, value.toNat % 2 ^ 16) }))) ∧
    (shareCap c < rate ∨ (v.enNext = true ∧ shareCap c < s.rateAhead c vd + rate) → ∃ t, exec (.shrWrite vd c value) s = .next t ∧
      (t.vd vd).serr = true ∧ (t.vd vd).shr = v.shr ∧ ∀ w, w ≠ vd → t.vd w = s.vd w)) ∧
  (∀ (s : State) (vd slice : Nat) (value : Word), s.HostTurn (.reg (.waymsk vd slice) value) → vd < 64 → slice < 384 →
    exec (.waymskWrite vd slice value) s = .next { s.counted with cache := { s.cache with
      remask := s.cache.remask ++ [(vd, slice, s.cycle, value.setWidth 16)] } }) ∧
  (∀ (s : State) (vd slice : Nat) (ways : BitVec 16) (l : List (Nat × Nat × Nat × BitVec 16)),
    s.cache.remask = l ++ [(vd, slice, s.cycle, ways)] → s.remaskSets.waymsk vd slice = ways) ∧
  (∀ (s : State) (vd slice at_ : Nat) (ways : BitVec 16), (vd, slice, at_, ways) ∈ s.cache.remask → ∀ l ∈ s.remaskSets.cache.lines,
    l.key.vd = vd → l.slice = slice → at_ + 1 + l.set = s.cycle → l.borrowed = !(s.remaskSets.waymsk vd slice).getLsbD l.way) ∧
  (∀ (s : State) (value : Word), s.booted = true →
    (s.HostTurn (.reg .dspcmd value) → exec (.dspcmdEndJob value) s = .next (s.counted.writeDspcmd value)) ∧
    (exec (.modidWrite value) s = .next { s with svc := { s.svc with modid := value.setWidth 9 } }) ∧
    (exec (.registerWrite .xlinv1 value) s = .next { s with svc := { s.svc with xlinv1 := value &&& BitVec.ofNat 64 (2 ^ 56 - 1) } }) ∧
    (exec (.registerWrite .thwarn value) s = .next { s with svc := { s.svc with thwarn := value &&& 0xFFFF } })) ∧
  (∀ (s : State) (value : Word) (vd q : Nat), vd < 64 → q < 16 →
    let base := s.counted.modVd vd (fun (w : Vd) => { w with jqbase := w.jqbase.put q (value &&& BitVec.ofNat 64 (2 ^ 56 - 1)) })
    (s.HostTurn (.reg (.jqbase vd q) value) → exec (.registerWrite (.jqbase vd q) value) s = .next base) ∧
    (s.HostTurn (.reg (.vdtab vd) value) → exec (.registerWrite (.vdtab vd) value) s = .next (s.counted.modVd vd (fun (w : Vd) => { w with
      vdtab := value &&& BitVec.ofNat 64 (2 ^ 52 - 2 ^ 6) }))) ∧
    (s.HostTurn (.reg (.vdrdir vd) value) → exec (.registerWrite (.vdrdir vd) value) s = .next (s.counted.modVd vd (fun (w : Vd) => { w with
      vdrdir := value &&& BitVec.ofNat 64 (2 ^ 52 - 2 ^ 12) }))) ∧
    (s.HostTurn (.reg (.bar0 (some vd) (16 * q) false) value) → exec (.registerWrite (.bar0 (some vd) (16 * q) false) value) s = .next base) ∧
    (s.HostTurn (.reg (.bar0 none (0x1000 * vd + 16 * q) false) value) →
      exec (.registerWrite (.bar0 none (0x1000 * vd + 16 * q) false) value) s = .next base) ∧
    (∀ o, s.HostTurn (.reg (.bar0 (some vd) o false) value) → 0x100 ≤ o →
      exec (.registerWrite (.bar0 (some vd) o false) value) s = .next s.counted) ∧
    (∀ o, s.HostTurn (.reg (.bar0 (some vd) o true) value) → 0x200 < o →
      exec (.registerWrite (.bar0 (some vd) o true) value) s = .next { s with svc := { s.svc with hostAnswer := some (List.replicate 8 0) } }) ∧
    (∀ o, s.booted = true → (∃ j ∈ s.svc.inbound, (Inbound.reg (.bar0 (some vd) o false) value).follows j = true) →
      exec (.registerWrite (.bar0 (some vd) o false) value) s = .next { s.counted with svc := { s.counted.svc with
        inbound := s.svc.inbound ++ [.reg (.bar0 (some vd) o false) value] } })) ∧
  (∀ s : State, s.svc.boot ≠ .pending → ∃ t, exec .errctlRead s = .next t ∧ t.svc.errDrops = 0 ∧ t.svc.errRead = s.svc.errctl ∧
    t.svc.errProd = s.svc.errProd ∧ t.mem = s.mem) ∧
  (∀ (s : State) (value : Word), s.svc.boot ≠ .pending → exec (.registerWrite .errctl value) s = .next { s with svc := { s.svc with
    errEn := value.getLsbD 63
    errOvf := s.svc.errOvf && !value.getLsbD 62
    errCons := value.toNat % 2 ^ 16 } })

/-! ## Service commands (chapter 24) -/

/-- R420, R431-R436, R438, R441, R442. While a command runs it does its step and ends with a status: an empty core is retired, a spindle
whose buckets have moved is retired, a lane is replaced while there is a spare, a route is set, a row is repaired while there is one; then
STATUS is written, and BUSY clears. A warm reset goes through its steps in order. A GO to GWCTL starts a gateway activity, and a GO to
XLINV an invalidation, which ends 2,200 cycles later at the earliest, when no command
translated in its range is left, with the lines of the freed frames written back. (The spare rows of a bank, log 26, which frames an invalidation
frees, log 63, and how the steps of a warm reset come, log 90, are the model's choices or readings.) -/
def Obligations.ServiceCommands : Prop :=
  (∀ (s : State) (n : Nat) (value : Word), s.HostTurn (.reg (.gwctl n) value) → n < 16 → value.getLsbD 63 = true →
    (s.counted.gwctlHeld (value.toNat / 2 ^ 56 % 64) (value.toNat % 2 ^ 56) = false →
      exec (.gatewayStart n value) s = .next (State.goGateway n (value.toNat / 2 ^ 56 % 64) (value.toNat % 2 ^ 56)
        { s with svc := { s.counted.svc with gwctl := s.svc.gwctl.put n (keepBits value (bitsMask 61 0)) } })) ∧
    (s.counted.gwctlHeld (value.toNat / 2 ^ 56 % 64) (value.toNat % 2 ^ 56) = true → exec (.gatewayStart n value) s =
      .next { s with svc := { s.counted.svc with inbound := s.svc.inbound ++ [.reg (.gwctl n) value] } })) ∧
  (∀ (s : State) (n : Nat), s.running 1 n = true →
    let t := s.withdraw n
    (t.slotHolders n = [] → exec (.retireComputeCore n) s = .next ((t.modCoreOf (coreAgent n) (fun (k : Core) => { k with retired := true })).endCommand 0)) ∧
    (t.slotHolders n ≠ [] → t.overdue = false → exec (.retireComputeCore n) s = .next t) ∧
    (t.slotHolders n ≠ [] → t.overdue = true → exec (.retireComputeCore n) s = .next (t.killAll (t.slotHolders n)))) ∧
  (∀ (s : State) (n : Nat), s.running 2 n = true → (s.coreOf ⟨.spindle, n⟩).progq = [] → s.residents ⟨.spindle, n⟩ = [] →
    s.cache.move = none → s.bucketOf (fun b => b = n) = none →
    exec (.retireSpindle n) s = .next (State.endCommand 0 { s with
      cache := { s.cache with lines := s.cache.lines.filter (fun (l : Line) => l.slice ≠ n) }
      svc := { s.svc with spindlesRetired := setInsert s.svc.spindlesRetired n } })) ∧
  (∀ (s : State) (iface lane : Nat), iface < 256 → s.running 4 (iface + lane * 256) = true →
    let k := (laneSpares iface lane).1
    let used := (s.svc.lanesSpared.find k).getD 0
    ((laneSpares iface lane).2 ≤ used → exec (.spareALane iface lane) s = .next (s.endCommand 2)) ∧
    (used < (laneSpares iface lane).2 → exec (.spareALane iface lane) s = .next (State.endCommand 0 { s with svc := { s.svc with
      lanesSpared := s.svc.lanesSpared.put k (used + 1) } }))) ∧
  (∀ (s : State) (m l : Nat), m < 512 → l < 16 →
    (s.running 6 (m + l * 512 + 8192) = true → s.requestsTo m = true → exec (.setRoute m l true) s = .next s) ∧
    (s.running 6 (m + l * 512 + 8192) = true → s.requestsTo m = false → exec (.setRoute m l true) s = .next (State.endCommand 0 { s with svc := { s.svc with
      routes := s.svc.routes.put m l } })) ∧
    (s.running 6 (m + l * 512) = true → s.requestsTo m = false → exec (.setRoute m l false) s = .next (State.endCommand 0 { s with svc := { s.svc with
      routes := s.svc.routes.del m } }))) ∧
  (∀ (s : State) (ch bank row : Nat), ch < 512 → bank < 32 → s.running 3 (ch + bank * 2 ^ 9 + row * 2 ^ 14) = true →
    let k := ch * 32 + bank
    let used := (s.svc.rowRepairs.find k).getD 0
    (Config.rowSpares ≤ used → exec (.repairDramRow ch bank row) s = .next (s.endCommand 2)) ∧
    (used < Config.rowSpares → ∃ t, exec (.repairDramRow ch bank row) s = .next t ∧ t.mem.bytes = s.mem.bytes ∧
      (t.svc.rowRepairs.find k).getD 0 = used + 1 ∧ (t.svc.run.map (fun (r : SvcRun) => r.status) = some 0 → t.mem.poison = s.mem.poison))) ∧
  (∀ (s : State) (r : SvcRun), s.svc.run = some r → r.done = true →
    let w := mergeBits s.svc.svccmd (BitVec.ofNat 64 (r.status * 2 ^ 56)) (bitsMask 61 56)
    exec .serviceCommandEnd s = .next (State.report 3 0 0xC none 0 w.toNat { s with svc := { s.svc with svccmd := w, run := none } })) ∧
  (∀ (s : State) (d : Nat), s.running 5 d = true →
    (s.svc.warm = none → exec (.dieWarmReset d) s = .next (s.warmBegin d)) ∧
    (s.svc.warm = some (d, 1) → s.dieActs d = [] → s.dieBusy d = false →
      exec (.dieWarmReset d) s = .next { s with svc := { s.svc with warm := some (d, 2) } }) ∧
    (s.svc.warm = some (d, 2) → s.dirs.move = none → (∀ b, b < 4096 → (s.keyEntry b).dir / 64 ≠ d) →
      exec (.dieWarmReset d) s = .next { s with svc := { s.svc with warm := some (d, 3) } }) ∧
    (s.svc.warm = some (d, 4) → ∃ t, exec (.dieWarmReset d) s = .next t ∧ t.svc.warm = none ∧ t.mem = s.mem ∧ t.vds = s.vds ∧
      (t.svc.run.map (fun (r : SvcRun) => (r.status, r.done)) = some (0, true)))) ∧
  (∀ (s : State) (value : Word), s.booted = true → s.svc.xlrun = none → value.getLsbD 63 = true → xlinvLen value ≠ some 0 →
    xlinvAligned value s.svc.xlinv1 = true → ∃ t, exec (.xlinvGo value) s = .next t ∧
      (∃ x, t.svc.xlrun = some x ∧ x.vd = value.toNat / 2 ^ 50 % 64 ∧ x.asid = value.toNat / 2 ^ 34 % 2 ^ 16 ∧ x.va = s.svc.xlinv1.toNat ∧
        ∀ y ∈ t.core.tlb, x.covers y.vd y.asid y.va y.size = false) ∧ t.mem = s.mem) ∧
  (∀ (s : State) (x : XlinvRun), s.svc.xlrun = some x → x.since + 2200 ≤ s.cycle + 1 → (∀ id ∈ x.cmds, s.cmd? id = none) →
    let t := s.flushLines (fun (l : Line) => l.key.vd = x.vd && l.inFrames (s.freedFrames x))
    exec .xlinvAck s = .next { t with
      svc := { t.svc with xlrun := none }
      cache := { t.cache with mapped := t.cache.mapped.filter (fun e => !x.covers e.vd e.asid e.va e.size) } })

/-! ## Resets, keys, monitors and replays (chapters 24 and 25) -/

/-- R415, R428, R444-R447. A cold reset runs the primary image when it passes the checks of the ROM, else the backup, else none, with the
fuses kept; in a secure session the fused version is raised, only raised, and never above that of the running image, and keys are set, erased and
selected while no enabled VD uses the slot; without a session these requests do nothing. An answer to an attestation request is kept with its
signatures, and KEY_EXCHANGE opens a session. A thermal trip, at 115 °C, stops every clock; the monitors' readings reach their registers; replays
are counted, and delay the events of the unit by a cycle. (How sessions and measurements stand in the model is log 83, what a cold reset keeps of
memory and fuses is log 98, and what memory reads as after a trip log 99: the model's readings or choices.) -/
def Obligations.ResetsKeysAndMonitors : Prop :=
  (∀ (s : State) (p b : Image), ∃ t, exec (.coldReset p b) s = .next t ∧ t.svc.boot = s.svc.bootWith p b ∧ t.svc.tripped = false ∧
    t.svc.fusedVersion = s.svc.fusedVersion ∧ t.svc.revoked = s.svc.revoked ∧ t.svc.keyHash = s.svc.keyHash ∧ t.svc.sessions = [] ∧ t.cycle = 0 ∧ t.acts = [] ∧ t.vds = [] ∧ t.svc.keys = [] ∧
    (∀ c ∈ t.mem.bytes, paKind c.1 ≠ .device)) ∧
  (∀ (v : Svc) (p b : Image),
    (v.imageOk p = true → v.bootWith p b = .running p) ∧
    (v.imageOk p = false → v.imageOk b = true → v.bootWith p b = .running b) ∧
    (v.imageOk p = false → v.imageOk b = false → v.bootWith p b = .failed) ∧
    (v.imageOk p = true → v.fusedVersion ≤ p.securityVersion ∧ p.keySlot ∉ v.revoked ∧ p.reserved = 0 ∧
      v.fusedKeys p.keySlot = (p.ecdsaKey, p.lmsKey) ∧ p.ecdsaVerifies = true ∧ p.lmsVerifies = true)) ∧
  (∀ (s : State) (i : Image) (n : Nat), s.svc.boot = .running i → s.svc.sessions ≠ [] →
    (n ≤ i.securityVersion → exec (.raiseFusedSecurityVersion n) s = .next { s with svc := { s.svc with
      fusedVersion := max s.svc.fusedVersion n } }) ∧
    (i.securityVersion < n → exec (.raiseFusedSecurityVersion n) s = .next s)) ∧
  (∀ (s : State) (slot n vd : Nat) (k1 k2 : BitVec 256), s.svc.sessions = [] → exec (.setKey slot k1 k2) s = .next s ∧
    exec (.eraseKey slot) s = .next s ∧ exec (.selectKey vd slot) s = .next s ∧ exec (.raiseFusedSecurityVersion n) s = .next s) ∧
  (∀ (s : State) (slot : Nat) (k1 k2 : BitVec 256), s.booted = true → s.svc.sessions ≠ [] → slot < 1024 →
    (s.slotInUse slot = false → ∃ t, exec (.setKey slot k1 k2) s = .next t ∧ t.svc.keys = s.svc.keys.put slot ⟨k1, k2⟩ ∧
      (⟨k1, k2⟩ : KeyPair) ∈ t.svc.keyHist ∧ t.mem = s.mem) ∧
    (s.slotInUse slot = false → exec (.eraseKey slot) s = .next { s with svc := { s.svc with keys := s.svc.keys.del slot } }) ∧
    (s.slotInUse slot = true → exec (.setKey slot k1 k2) s = .next s ∧ exec (.eraseKey slot) s = .next s) ∧
    (∀ vd, vd < 64 → (s.vd vd).en = false → exec (.selectKey vd slot) s = .next { s with svc := { s.svc with
      keysel := s.svc.keysel.put vd slot } })) ∧
  (∀ (s : State) (nonce index : Nat), s.booted = true →
    (exec (.spdmRequest (.keyExchange nonce)) s = .next { s with svc := { s.svc with
      answers := ([3, nonce], [Config.signature 0 [3, nonce]]) :: s.svc.answers
      sessions := s.svc.answers.length :: s.svc.sessions } }) ∧
    (1 ≤ index → index ≤ 5 → ∀ t, t = [2, nonce, index] ++ s.measurement index →
      exec (.spdmRequest (.measurement index true nonce)) s = .next { s with svc := { s.svc with
        answers := (t, [Config.signature 0 t, Config.signature 1 t]) :: s.svc.answers } })) ∧
  (∀ (s : State) (die : Nat), die < 4 → ∃ t, exec (.thermtrip die) s = .next t ∧ t.svc.tripped = true ∧ t.svc.linksUp = [] ∧
    (∀ c ∈ t.mem.bytes, paKind c.1 ≠ .device) ∧ t.svc.boot = s.svc.boot) ∧
  (∀ (s : State) (die : Nat) (w energy : Word) (power : BitVec 32), s.booted = true → die < 4 → s.cycle % 1024 = 0 →
    ((w.setWidth 16).toInt ≤ (s.svc.thwarn.setWidth 16).toInt → (w.setWidth 16).toInt < 1840 →
      exec (.telemetryUpdate die w power energy) s = .next { s with svc := { s.svc with
        telem := s.svc.telem.put die (w &&& BitVec.ofNat 64 (2 ^ 48 - 1))
        pwravg := power
        energy := energy } }) ∧
    (1840 ≤ (w.setWidth 16).toInt → ∃ t, exec (.telemetryUpdate die w power energy) s = .next t ∧ t.svc.tripped = true ∧ t.svc.linksUp = [] ∧
      ∀ c ∈ t.mem.bytes, paKind c.1 ≠ .device)) ∧
  (∀ (s : State) (ag : Agent) (n : Nat),
    let f (a : Activity) : Activity := if a.agent = ag then { a with
      nextIssue := max a.nextIssue s.updateCycle + 1
      pend := a.pend.map (fun (x : Pend) => { x with due := x.due + 1 }) } else a
    let t := State.modCoreOf ag (fun (c : Core) => { c with
      divBusy := c.divBusy + 1
      cmpFree := c.cmpFree + 1
      portFree := c.portFree + 1
      pushFree := c.pushFree + 1
      copyq := c.copyq.map (fun (d : Cmd) => if s.cycle < d.due then { d with due := d.due + 1 } else d)
      matq := c.matq.map (fun (d : MatCmd) => { d with started := d.started.map (fun (b : Nat) => b + 1) })
      locq := c.locq.map (fun (d : LocCmd) => { d with started := d.started.map (fun (b : Nat) => b + 1) })
      vecq := c.vecq.map (fun (d : VecCmd) => { d with due := d.due + 1 }) }) { s with me := f s.me, acts := s.acts.map f }
    exec (.timingReplay (.agent ag)) s = .next (t.report (kindCode ag.kind) ag.num 3 none 0 0) ∧
    exec (.timingReplay (.slice n)) s = .next (s.report 5 n 3 none 0 0) ∧ exec (.timingReplay (.router n)) s = .next (s.report 4 n 3 none 0 0)) ∧
  (∀ (s : State) (l : Nat), l ∈ s.svc.linksUp → exec (.flitReplay l) s = .next (s.report 8 l 9 none 0 0))

/-! ## Links (chapter 23) -/

/-- R411, R413, R414, R416, R419, R421-R424, R436. `baddq` gives the requantised sums of two blocks and their scales after 4 cycles; `bqtake` frees a
slot that the activity holds and takes the one takeable longest, or gives 0. A host access without a translation is reported or answers
with Completer Abort; one with it reads or writes memory, a write in its turn; one with a line that moves waits. An access or a record of a peer to a
module without a number is refused, as is a read with Q = 1; another is served for the tokens of its link; a good record lands in a free slot, and
waits while there is none. The link of a port that goes down is down; a round of the switch past its deadline is refused. (What a round's refusal
takes in is log 78, a BAR2 access of a disabled VD log 92, what of a record is checked log 93, and the slot that it takes log 135: the model's
readings or choices.) -/
def Obligations.LinksAndGateways : Prop :=
  (∀ (r : R) (s : State), Ready (.baddq r) s →
    let p := s.prepare (.baddq r)
    let cw := if r.xfmt = 7 then 4 else 8
    let d := drawsOf (r.rm = 4) p.me.seed 64
    let band := fBf16.decode (r.x.toNat / 2 ^ 16)
    let code (v : Vec) (k : Nat) : Nat := (element cw v (r.xpart * 64 + k)).toNat
    let nan (v : Vec) (j : Nat) : Bool := r.xfmt ≠ 7 && (List.range 8).any (fun i => ((floatFmt r.xfmt).decode (code v (8 * j + i))).isNan)
    let term (v : Vec) (g : Word) (j i : Nat) : Val :=
      blockElem (floatFmt r.xfmt) (nan v j) (code v (8 * j + i)) (g.extractLsb' (8 * j) 8).toNat band
    let block (j : Nat) : Nat × List Nat := requantise (floatFmt r.xfmt)
      (if r.xfmt = 5 then 448 else if r.xfmt = 6 then 57344 else 6) (RMode.of r.rm)
      ((List.range (if r.rm = 4 then 8 else 0)).map (fun i => d.2.getD (8 * j + i) 0)) band
      ((List.range 8).map (fun i => (term (p.me.v r.a.toNat) (p.me.g r.c.toNat) j i).add false
        (term (p.me.v r.b.toNat) (p.me.g r.e.toNat) j i)))
    ∃ (v : Vec) (g : Word), exec (.baddq r) s = .next ({ p with me := { p.me with seed := d.1 } }.issued (.baddq r)
        (newWrite .fixed (s.cycle + 4) (Instr.baddq r).srcs ⟨.v, r.d.toNat⟩ v ++
          newWrite .fixed (s.cycle + 4) (Instr.baddq r).srcs ⟨.g, r.e.toNat⟩ (g.setWidth 1024))) ∧
      (∀ k, k * cw < 1024 → element cw v k =
        if r.xpart * 64 ≤ k ∧ k < r.xpart * 64 + 64 then
          BitVec.ofNat cw ((block ((k - r.xpart * 64) / 8)).2.getD ((k - r.xpart * 64) % 8) 0)
        else element cw (p.me.v r.d.toNat) k) ∧
      ∀ j, j < 8 → g.extractLsb' (8 * j) 8 = BitVec.ofNat 8 (block j).1) ∧
  (∀ (r : R) (s : State), Ready (.bqtake r) s →
    let p := s.prepare (.bqtake r)
    let v := (p.me.g r.a.toNat).toNat
    let out (w : Nat) : List Pend := newWrite .engine (s.cycle + 2) (Instr.bqtake r).srcs ⟨.g, r.d.toNat⟩ ((BitVec.ofNat 64 w).setWidth 1024)
    let hold (l : List Nat) : Activity := { p.me with prog := p.me.prog.map (fun (x : ProgCtx) => { x with slots := l }) }
    (v = 0 → (p.core.blockReady = [] → exec (.bqtake r) s = .next ({ p with me := hold p.heldSlots }.issued (.bqtake r) (out 0))) ∧
      (∀ n rest, p.core.blockReady = n :: rest → exec (.bqtake r) s = .next ({ p with
        me := hold (p.heldSlots ++ [n])
        core := { p.core with blockReady := rest } }.issued (.bqtake r) (out (0x400000 + 128 * n))))) ∧
    (v ≠ 0 → (∀ n ∈ p.heldSlots, v ≠ 0x400000 + 128 * n) → exec (.bqtake r) s = .next (s.takeTrap 0x0C 7 false)) ∧
    (∀ n, v = 0x400000 + 128 * n → n ∈ p.heldSlots → p.core.blockReady = [] → exec (.bqtake r) s =
      .next ({ p with me := hold (p.heldSlots.filter (fun (m : Nat) => m ≠ n)) }.issued (.bqtake r) (out 0)))) ∧
  (∀ (s : State) (vd va : Nat) (data : List Byte), s.booted = true → vd < 64 → va + data.length ≤ 2 ^ 44 →
    let q := s.counted
    (s.virtHeld vd (s.dasid vd) va data.length = true → exec (.hostWrite vd va data true) s =
      .next { s with svc := { s.svc with inbound := s.svc.inbound ++ [.hostWrite vd va data true] } }) ∧
    (s.virtHeld vd (s.dasid vd) va data.length = false →
      (s.dmaAddrs vd va data.length true = none → exec (.hostWrite vd va data true) s = .next (s.report 9 0 0xA (some vd) va errXlate)) ∧
      (∀ pas t, s.dmaAddrs vd va data.length true = some pas → s.writeVirt vd (s.dasid vd) va data = (t, 0) →
        exec (.hostWrite vd va data true) s = .next t)) ∧
    (∀ pas t, s.HostTurn (.hostWrite vd va data false) → q.virtHeld vd (q.dasid vd) va data.length = false →
      q.dmaAddrs vd va data.length true = some pas → q.writeVirt vd (q.dasid vd) va data = (t, 0) →
      exec (.hostWrite vd va data false) s = .next t)) ∧
  (∀ (s : State) (vd va n : Nat), s.HostTurn (.hostRead vd va n) → vd < 64 → va + n ≤ 2 ^ 44 →
    s.virtHeld vd (s.dasid vd) va n = false →
    (∀ pas, s.dmaAddrs vd va n false = some pas →
      let k := s.keepVirt vd (s.dasid vd) va n
      exec (.hostRead vd va n) s = .next { k with svc := { k.svc with
        hostAnswer := (allOk (s.readVirt vd (s.dasid vd) va n)).toOption } }) ∧
    (s.dmaAddrs vd va n false = none → exec (.hostRead vd va n) s = .next { s with svc := { s.svc with
      hostAnswer := (allOk (s.readVirt vd (s.dasid vd) va n)).toOption } })) ∧
  (∀ (s : State) (link vd va : Nat) (data : List Byte) (write : Bool), s.booted = true → link ∈ s.svc.linksUp →
    (∀ j ∈ s.svc.inbound, (Inbound.peerAccess link vd va data write).follows j = false) →
    let refused : State := { s with svc := { s.svc with peerAnswer := (5, []) } }
    (s.takesPeer vd = false → exec (.peerAccess link vd va data write) s = .next refused) ∧
    (2 ^ 40 ≤ va → write = false → exec (.peerAccess link vd va data write) s = .next refused) ∧
    (s.takesPeer vd = true → va < 2 ^ 40 →
      (s.dmaAddrs vd va data.length write = none → exec (.peerAccess link vd va data write) s = .next refused) ∧
      (∀ pas, s.dmaAddrs vd va data.length write = some pas → s.virtHeld vd (s.dasid vd) va data.length = false →
        let q := s.chargeLink link vd data.length (!write)
        (∀ bs, write = false → allOk (q.readVirt vd (q.dasid vd) va data.length) = .ok bs →
          let t := q.keepVirt vd (q.dasid vd) va data.length
          exec (.peerAccess link vd va data write) s = .next { t with svc := { t.svc with peerAnswer := (0, bs) } }) ∧
        (∀ t e, write = true → q.writeVirt vd (q.dasid vd) va data = (t, e) →
          exec (.peerAccess link vd va data write) s = .next { t with svc := { t.svc with peerAnswer := (e, []) } })))) ∧
  (∀ (s : State) (link vd : Nat) (data : List Byte), s.booted = true → link ∈ s.svc.linksUp → data.length = 128 →
    (∀ j ∈ s.svc.inbound, (Inbound.blockRecord link vd data).follows j = false) →
    let n := ofBytes ((data.drop 0x4C).take 4) % 16
    let gw : Agent := ⟨.gateway, n⟩
    (s.takesPeer vd = false → exec (.blockRecord link vd data) s = .next { s with svc := { s.svc with peerAnswer := (5, []) } }) ∧
    (s.takesPeer vd = true → s.svc.gwavail.getLsbD n = true → (∃ a ∈ s.residents gw, a.job.vd = vd) →
      5 ≤ (data.getD 0x4A 0).toNat % 16 → (data.getD 0x4A 0).toNat % 16 ≤ 7 → (∀ b ∈ data.drop 0x52, b = 0) →
      let slot := lowest (fun (j : Nat) => j ∉ (s.coreOf gw).blockReady && j ∉ (s.residents gw).flatMap (fun (a : Activity) =>
        (a.prog.map (fun (x : ProgCtx) => x.slots)).getD [])) 64
      (∀ i, slot = some i →
        let t := (s.chargeLink link vd 128 false).modCoreOf gw (fun (k : Core) => { k with
          blockq := k.blockq.writeN (128 * i) data
          blockReady := k.blockReady ++ [i] })
        exec (.blockRecord link vd data) s = .next { t with svc := { t.svc with peerAnswer := (0, []) } }) ∧
      (slot = none → exec (.blockRecord link vd data) s = .next { s with svc := { s.svc with
        inbound := s.svc.inbound ++ [.blockRecord link vd data] } }))) ∧
  (∀ (s : State) (n : Nat),
    exec (.linkDown (.cxl n)) s = .next { s with svc := { s.svc with cxl := s.svc.cxl.del n } } ∧
    exec (.linkDown (.link n)) s = .next { s with svc := { s.svc with linksUp := s.svc.linksUp.filter (fun (m : Nat) => m ≠ n) } }) ∧
  (∀ (s : State) (r : SwRound) (g : SwGroup), s.switch.rounds.find? (fun (x : SwRound) => x.id = r.id) = some r →
    s.switch.groups.find r.group = some g →
    (r.opened + g.deadline ≤ s.cycle → exec (.switchReductionResult r.id) s = .next (s.endRound r errRefused)) ∧
    (s.cycle < r.opened + g.deadline → s.roundTargets g r = [] → exec (.switchReductionResult r.id) s =
      .next (State.endRound r 0 { s with choiceCtr := s.choiceCtr + 32 * g.members.length })))

/-! ## Encodings (chapter 4) -/

/-- R77, R80-R85, R97. Decoding the bytes of a well-formed instruction, whatever bytes follow, gives the instruction with every operand, and
the bytes that follow. -/
def Obligations.RoundTrip : Prop :=
  ∀ (i : Instr) (rest : List Byte), i.WellFormed → decode (encodeBytes i ++ rest) = .ok (i, rest)

/-- Chapters 4, 6, 8, 20 and 23. Words that the spec writes out decode to the instructions that they stand for, and a word with OP = 0 is refused
(R92). -/
def Obligations.DecodedWords : Prop :=
  decodeWords [0x07186020#32] = .ok (.add ⟨0, false, none, 6, 6, 7, 0, 0, 0, false, 0, 0⟩) ∧
  decodeWords [0x040050C0#32] = .ok (.addi 0 5 0 4) ∧
  decodeWords [0xFFF45480#32] = .ok (.loop 0 5 (-3)) ∧
  decodeWords [0x80087500#32] = .ok (.lw ⟨0, false, none, 7, 2, 0, 0, 0, 0, false, 0, 0⟩) ∧
  decodeWords [0x40144201#32, 0x0E400000#32, 0x00000000#32] = .ok (.bfxs ⟨0, true, none, 4, 5, 0, 0, 0, 0, false, 0x1C8, 0⟩) ∧
  decodeWords [0x06144841#32, 0x90080007#32, 0x00000000#32] = .ok (.vfma ⟨0, true, none, 4, 5, 6, 7, 0, 0, false, 0x1201, 0⟩) ∧
  decodeWords [0x02043F81#32, 0x00000185#32, 0x3F800007#32] = .ok (.baddq ⟨0, true, none, 3, 1, 2, 5, 6, 0, false, 0, 0x3F800007⟩) ∧
  decodeWords [0x0400AF00#32] = .ok (.jobpost ⟨0, false, none, 10, 0, 4, 0, 0, 0, false, 0, 0⟩) ∧
  decodeWords [0x0010AEC0#32] = .ok (.fcast ⟨0, false, none, 10, 4, 0, 0, 0, 0, false, 0, 0⟩) ∧
  (∀ ws : List (BitVec 32), decodeWords (0#32 :: ws) = .error .unassigned)

/-! ## The machine as a whole -/

/-- R90, R91, R94, R100, R154, R390. When it is an agent's turn and an activity is chosen that has no asynchronous trap to take, and the words at
its PC begin with those of a well-formed instruction, the step is that instruction's `exec` with the activity in focus; the activity
draws an issue token, and the agent's turn in this cycle is over, unless the instruction is held. A step of another unit on the agenda is
its `exec` too. -/
def Obligations.StepRunsTheInstruction : Prop :=
  (∀ (s : State) (l : List Agent) (ag : Agent) (a : Activity) (g : CodeSeg) (i : Instr) (more : List (BitVec 32)), s.Running → s.agenda = [] →
    s.phase = .issue l → s.nextAgent l = some ag → s.chosen ag = some a →
    let f := s.take a
    f.me.trap.prb = false → f.me.trap.prs = false → f.me.trap.pmp = false → f.seg = some g → i.WellFormed →
    g.wordsAt f.me.pc.toNat = encode i ++ more →
    ∃ t, exec i f = .next t ∧ step s = .next (if t.heldBack a.uid then t else
      { (t.drawIssue a).drawSync s a with phase := .issue (l.erase ag), choiceCtr := t.choiceCtr + 1 })) ∧
  (∀ (s : State) (i : Instr) (rest : List Instr), s.Running → s.agenda = i :: rest → i.enc = .step →
    step s = exec i { s with agenda := rest })

/-- R444. Every instruction and every step answers a next state, whatever the state; the machine stops only while THERMTRIP# is asserted, and
then always, until a cold reset. -/
def Obligations.NothingElseStops : Prop :=
  (∀ (i : Instr) (s : State), ∃ t, exec i s = .next t) ∧
  (∀ s : State, s.Running → ∃ t, step s = .next t) ∧
  (∀ s : State, s.svc.tripped = true → (∀ p b, Instr.coldReset p b ∉ s.agenda) → step s = .fault .clocksStopped) ∧
  (∀ (s : State) (p b : Image) (rest : List Instr), s.svc.tripped = true → s.agenda = .coldReset p b :: rest →
    step s = exec (.coldReset p b) s)

/-- R445, R447. No step lets an image run whose security version lies below the fused one: every step keeps this, from every state that
has it. -/
def Obligations.NoRollbackKept : Prop := ∀ s t : State, s.NoRollback → step s = .next t → t.NoRollback

/-- R4, R16, R42, R293, R304, R394, R395, R417, R444, R445. After reset CYCLE is 0, no activity exists, memory lists nothing and is in canonical
form, the tables of buckets spread their entries over the slices and the directories, every VD is disabled with its registers at their
Reset values, and no image runs, so the invariant holds. (What memory that nothing has written reads as is the model's choice, log 3.) -/
def Obligations.ResetState : Prop :=
  State.reset.cycle = 0 ∧ State.reset.allActs = [] ∧ State.reset.saved = [] ∧ State.reset.mem.bytes.wf = true ∧ State.reset.mem.bytes = [] ∧
  (∀ b, State.reset.bucket b = ⟨false, false, b % 384⟩) ∧ (∀ b, State.reset.keyEntry b = ⟨false, b % 256⟩) ∧
  (∀ v, (State.reset.vd v).en = false ∧ (State.reset.vd v).spown = false ∧ (State.reset.vd v).serr = false ∧ (State.reset.vd v).vdtab = 0 ∧
    (State.reset.vd v).vdasid = 0 ∧ (State.reset.vd v).vdrdir = 0) ∧
  State.reset.svc.modid = 0x1FF ∧ State.reset.svc.thwarn = 1520 ∧ State.reset.booted = false ∧ State.reset.Running ∧ State.reset.NoRollback

/-- R200, R205, R206, R212, R223, R244, R337-R341, R351, R411, R416, R421-R424. When each of these completes, and its effect: the copies
of rows, the steps of the copy queue, the steps of a collective, the gateway instructions, and the accesses from outside the module. (What a
round's refusal takes in is log 78, a BAR2 access of a disabled VD log 92, what of a record is checked log 93, and the slot that it takes log
135: the model's readings or choices, as are the batches of a write's units, log 116.) -/
def Obligations.CopiesCollectivesAndLinksComplete : Prop :=
  (∀ x ∈ [(Instr.gath, CmdKind.gath), (.scat, .scat), (.red, .red)], ∀ (r : R) (s : State) (d : Desc), Ready (x.1 r) s →
    s.me.speculative = false →
    let p := s.prepare (x.1 r)
    let c := p.rowCmd x.2 r d
    let n := (p.me.g r.e.toNat).toNat
    p.RowsPass x.2 r d → (x.2 = .gath ∨ (d.ro = false ∧ p.NoneLeaving ∧ (c.bar ≠ 0 ∨ p.core.freeEntry.isSome = true))) →
    (x.2 = .red → r.redOp ≠ 0) → { p with me := { p.me with listRead := none } }.CopyRoom r.unordered 1 →
    p.me.firstTry.getD p.cycle + (4 * n + 63) / 64 + 2 ≤ p.cycle → (r.zfill = true ∨ p.badRow r d = none) →
    ∃ t, exec (x.1 r) s = .next t ∧ ∃ e ∈ t.core.copyq, e.id = p.nextCmd ∧ e.kind = x.2 ∧ e.tid = c.tid) ∧
  (∀ (s : State) (c : Cmd), s.HasCmd c → c ∈ s.core.copyq → c.kind ≠ .cpyProg → s.turnOf c = true → ∃ t, exec (.copyStart c.id) s = .next t ∧
    (c.kind = .fence → ∀ d ∈ t.core.copyq, d.id ≠ c.id) ∧
    (c.kind ≠ .fence → c.kind ≠ .pwret → ∃ d ∈ t.core.copyq, d.id = c.id ∧ d.started = true)) ∧
  (∀ (s : State) (c : Cmd) (g : Nat), s.HasCmd c → c ∈ s.core.copyq → (pagesOf c.spans).find? (fun g => (AMap.find c.xlat g).isNone) = some g →
    let va := g * pageBytes
    ((s.core.tlbFind c.vd (s.asidOf c) va).isSome = true ∨ (s.walkHeld c.vd (s.asidOf c) va = false ∧
      c.issued + 2 * levelLatency s.core.agent (s.walker s.core.agent) ≤ s.cycle ∧
      s.hasPassed (.walk c.id g) (s.walkNeeds s.core.agent c.vd (s.asidOf c) va) = true)) →
    ∃ t, exec (.pageWalk c.id) s = .next t ∧ ∃ d ∈ t.core.copyq, d.id = c.id ∧ (AMap.find d.xlat g).isSome = true) ∧
  (∀ (s : State) (c : Cmd) (x : Target) (u : Nat) (k : LineKey), s.HasCmd c → c ∈ s.core.copyq → c.target = some x → c.started = true → u ∈ c.todo →
    u ∉ c.filled → s.unitLines c u = [k] → (s.bucket k.bucket).hold = false → s.unitAt c u s.warmHeld = false → s.cache.home k = none →
    s.unitAt c u isSwitch = false → s.warmBehind c u = false →
    s.replicaFor c k = none → s.mayFill c u = true → s.fillTime c [k] ≤ s.cycle →
    ∃ t, exec (.lineFill c.id u false) s = .next t ∧ ∃ d ∈ t.core.copyq, d.id = c.id ∧ u ∈ d.filled) ∧
  (∀ (s : State) (c : Cmd) (u : Nat), s.HasCmd c → s.loc? c.id = none → c.target.isSome = true → c.kind.isLoad = true → c.started = true →
    c.todo = [u] → s.unitReady c u = true → s.unitAt c u s.linkWaits = false → s.tripDone c u = true →
    let beats := ((c.unitSrc u).length + 63) / 64
    c.due + beats ≤ s.cycle → s.core.portFree + beats ≤ s.cycle →
    ∃ t, exec (.landingUnit c.id u) s = .next t ∧ t.UnitDone c u) ∧
  (∀ (s : State) (c : Cmd) (u : Nat), s.HasCmd c →
    (c.kind = .cpyst ∨ c.kind = .cpylSt ∨ ((c.kind = .scat ∨ c.kind = .red) ∧ c.todo.head? = some u)) → c.started = true → u ∈ c.todo →
    s.unitAt c u isSwitch = false →
    (∀ v ∈ c.batch u, s.unitReady c v = true ∧ s.unitAt c v s.linkWaits = false ∧ s.tripDone c v = true) →
    ∃ t, exec (.storePerformed c.id u) s = .next t ∧ t.UnitDone c u) ∧
  (∀ (s : State) (c : Cmd) (e : JEntry) (n : Nat), s.HasCmd c → s.core.journal.find n = some e → e.cmd = c.id → c.started = true →
    c.todo = [] → ∃ t, exec (.journalAck s.core.agent n) s = .next t ∧
      (c.err = 0 → t.core.journal.find n = none) ∧ (c.err ≠ 0 → (t.core.journal.find n).map (fun x => x.code) = some c.err)) ∧
  (∀ (s : State) (c : Cmd), s.HasCmd c → c.started = true → c.kind = .tflush → c.todo ≠ [] → s.tripDone c 0 = true →
    (∀ l ∈ s.cache.lines, l.key.vd = c.vd → l.key.tid = c.tid → (s.bucket l.key.bucket).hold = false) →
    ∃ t, exec (.tflushDone c.id) s = .next t ∧ ∀ l ∈ t.cache.lines, ¬ (l.key.vd = c.vd ∧ l.key.tid = c.tid)) ∧
  (∀ (s : State) (c : Cmd) (pas : List Nat) (image : List Byte), s.HasCmd c → c.started = true → c.kind = .codeld →
    (List.range c.len).map (fun k => PageMap.apply c.xlat false (c.opB.toNat + k)) = pas.map Except.ok →
    s.unitReady c 0 = true → s.unitAt c 0 s.linkWaits = false → s.tripDone c 0 = true →
    pas.map (fun pa => (s.asModule c.modid).loadVia (s.replicaFor c (addrKey c.vd pa)) c.vd (addrLoc c.vd pa)) = image.map Except.ok →
    ∃ t, exec (.codeldDone c.id) s = .next t ∧ (∀ d ∈ t.core.copyq, d.id ≠ c.id) ∧
      (∀ g ∈ s.core.segs, g.jid = c.jid → g.vd = c.vd → ∃ h ∈ t.core.segs, h.jid = c.jid ∧ h.vd = c.vd ∧ h.held = false)) ∧
  (∀ (s : State) (c : Cmd) (u : Nat), s.HasCmd c → c.started = true → c.kind = .cpyst → c.startedAt + 170000 ≤ s.cycle →
    (c.todo.find? (fun u => s.unitAt c u s.linkWaits) = some u → ∃ t, exec (.linkDownTimeout c.id) s = .next t ∧ t.UnitDone c u) ∧
    (c.todo.find? (fun u => s.unitAt c u (fun pa => match paKind pa with
      | .cxl _ _ => !s.warmHeld pa
      | _ => false)) = some u → ∃ t, exec (.cxlTimeout c.id) s = .next t ∧ t.UnitDone c u)) ∧
  (∀ (r : R) (s : State), Ready (.coll r) s →
    let p := s.prepare (.coll r)
    let y := (p.me.g r.a.toNat).toNat
    let d := GroupDesc.parse (p.readLocal y 32)
    let o := d.op r
    let sl := o.sl d.rank
    let dl := o.dl d.rank
    p.checkLocal false y 32 = none → y % 32 = 0 → p.BarNamed r → p.me.rangeBusy p.nextCmd false y 32 = false → p.poisonAt y 32 = none →
    d.fault o = 0 → p.checkLocal false d.src sl = none → p.checkLocal true d.dst dl = none → p.me.party = none → p.me.coll = none →
    p.me.speculative = false → p.portFull = false →
    p.scoreUsed p.me.agent + (if sl = 0 then 0 else 1) + (if dl = 0 then 0 else 1) ≤ scoreSize p.me.agent.kind →
    ∃ t, exec (.coll r) s = .next t ∧ t.me.coll.map (fun c => (c.key, c.rank, c.op)) = some (d.key, d.rank, o) ∧
      ∃ m ∈ t.msgs, m.kind = .coll p.me.uid p.me.agent) ∧
  (∀ (s : State) (m : Msg) (uid b : Nat) (saved : Bool) (sender : Agent) (a : Activity) (c : CollRank),
    s.msgs.find? (fun x => x.id = m.id) = some m → m.kind = .coll uid sender → s.anyAct? uid = some (a, saved) →
    s.msgKey m = some (b, sender) → s.msgReady m b sender = true → a.coll = some c → s.forming a.job.vd a.job.keysp c.key = none →
    ∃ t, exec (.collArrival m.id) s = .next t ∧ ∃ g ∈ t.dirs.groups, g.key = c.key ∧ g.op = c.op ∧ a.member c ∈ g.members) ∧
  (∀ (s : State) (g : Group) (e : Nat), s.dirs.groups.find? (fun h => h.id = g.id && h.complete.isNone) = some g → g.deadline = some e →
    s.deadlineReady (s.groupDir g) e g.id = true → (s.keyEntry (keyBucket g.key g.keysp g.vd)).hold = false →
    ∃ t, exec (.collDeadline g.id) s = .next t ∧ ∀ h ∈ t.dirs.groups, h.id ≠ g.id) ∧
  (∀ (s : State) (m : Msg) (uid dst vd keysp : Nat) (key : Word) (sender : Agent) (g : Group),
    s.msgs.find? (fun x => x.id = m.id) = some m → m.kind = .cancel uid dst vd keysp key true sender →
    s.msgReady m (keyBucket key keysp vd) sender = true → s.forming vd keysp key = some g →
    ∃ t, exec (.collCancel m.id) s = .next t ∧ ∀ h ∈ t.dirs.groups, h.id ≠ g.id) ∧
  (∀ (s : State) (uid e : Nat) (a : Activity) (g : Group) (m : Member) (c : CollRank), s.act? uid = some a → s.collGroup uid = some (g, m) →
    a.coll = some c → g.complete = some e → c.sent = false → e + dirLatency a.agent (s.groupDir g) ≤ s.cycle →
    s.reedFull g = false → (s.focus uid).releasedRank g.scope c.srcCmd = true → (s.focus uid).me.rangeBusy c.srcCmd false c.src (c.op.sl c.rank) = false →
    ∃ t, exec (.collGo uid) s = .next t ∧ t.me.coll.map (fun x => x.sent) = some true) ∧
  (∀ (s : State) (g : Group) (m : Member) (c : CollRank), s.core.agent = s.me.agent → s.collGroup s.me.uid = some (g, m) →
    s.me.coll = some c → g.complete.isSome = true → s.allLeft g = true → g.due m ≤ s.cycle →
    s.hasPassed (.result s.me.uid) (s.resultNeeds g m) = true → c.status = none →
    s.me.rangeBusy c.dstCmd true c.dst (c.op.dl c.rank) = false → c.bar = 0 →
    ∃ t, exec (.collResultsLanded s.me.uid) s = .next t ∧ t.me.coll = none) ∧
  (∀ (s : State) (st n at_ : Nat) (c : CollRank), s.core.agent = s.me.agent → s.me.coll = some c → c.status = some (st, n, at_) →
    at_ ≤ s.cycle → c.bar = 0 → ∃ t, exec (.groupDissolvedStatus s.me.uid) s = .next t ∧ t.me.coll = none) ∧
  (∀ (r : R) (s : State), Ready (.baddq r) s →
    let p := s.prepare (.baddq r)
    ∃ (seed : Word) (v : Vec) (g : Word), exec (.baddq r) s = .next ({ p with me := { p.me with seed := seed } }.issued (.baddq r)
      (newWrite .fixed (s.cycle + 4) (Instr.baddq r).srcs ⟨.v, r.d.toNat⟩ v ++
        newWrite .fixed (s.cycle + 4) (Instr.baddq r).srcs ⟨.g, r.e.toNat⟩ (g.setWidth 1024)))) ∧
  (∀ (r : R) (s : State), Ready (.bqtake r) s →
    let p := s.prepare (.bqtake r)
    (p.me.g r.a.toNat).toNat = 0 → ∃ t, exec (.bqtake r) s = .next t ∧ t.core.blockReady = p.core.blockReady.tail) ∧
  (∀ (s : State) (vd va : Nat) (data : List Byte) (pas : List Nat) (t : State), s.booted = true → vd < 64 → va + data.length ≤ 2 ^ 44 →
    s.virtHeld vd (s.dasid vd) va data.length = false →
    s.dmaAddrs vd va data.length true = some pas → s.writeVirt vd (s.dasid vd) va data = (t, 0) →
    exec (.hostWrite vd va data true) s = .next t) ∧
  (∀ (s : State) (vd va n : Nat), s.HostTurn (.hostRead vd va n) → vd < 64 → va + n ≤ 2 ^ 44 → s.virtHeld vd (s.dasid vd) va n = false →
    ∃ t, exec (.hostRead vd va n) s = .next t ∧ t.svc.hostAnswer = (allOk (s.readVirt vd (s.dasid vd) va n)).toOption) ∧
  (∀ (s : State) (link vd va : Nat) (data bs : List Byte) (pas : List Nat), s.booted = true → link ∈ s.svc.linksUp → s.takesPeer vd = true →
    (∀ j ∈ s.svc.inbound, (Inbound.peerAccess link vd va data false).follows j = false) → va < 2 ^ 40 →
    s.virtHeld vd (s.dasid vd) va data.length = false → s.dmaAddrs vd va data.length false = some pas →
    let q := s.chargeLink link vd data.length true
    allOk (q.readVirt vd (q.dasid vd) va data.length) = .ok bs →
    ∃ t, exec (.peerAccess link vd va data false) s = .next t ∧ t.svc.peerAnswer = (0, bs)) ∧
  (∀ (s : State) (link vd i : Nat) (data : List Byte), s.booted = true → link ∈ s.svc.linksUp → data.length = 128 →
    (∀ j ∈ s.svc.inbound, (Inbound.blockRecord link vd data).follows j = false) →
    let n := ofBytes ((data.drop 0x4C).take 4) % 16
    let gw : Agent := ⟨.gateway, n⟩
    s.takesPeer vd = true → s.svc.gwavail.getLsbD n = true → (∃ a ∈ s.residents gw, a.job.vd = vd) →
    5 ≤ (data.getD 0x4A 0).toNat % 16 → (data.getD 0x4A 0).toNat % 16 ≤ 7 → (∀ b ∈ data.drop 0x52, b = 0) →
    lowest (fun (j : Nat) => j ∉ (s.coreOf gw).blockReady && j ∉ (s.residents gw).flatMap (fun (a : Activity) =>
      (a.prog.map (fun (x : ProgCtx) => x.slots)).getD [])) 64 = some i →
    ∃ t, exec (.blockRecord link vd data) s = .next t ∧ t.svc.peerAnswer = (0, []) ∧ i ∈ (t.coreOf gw).blockReady) ∧
  (∀ (s : State) (n : Nat),
    (∃ t, exec (.linkDown (.cxl n)) s = .next t ∧ t.svc.cxl.find n = none) ∧
    (∃ t, exec (.linkDown (.link n)) s = .next t ∧ n ∉ t.svc.linksUp)) ∧
  (∀ (s : State) (r : SwRound) (g : SwGroup), s.switch.rounds.find? (fun (x : SwRound) => x.id = r.id) = some r →
    s.switch.groups.find r.group = some g → r.opened + g.deadline ≤ s.cycle →
    ∃ t, exec (.switchReductionResult r.id) s = .next t ∧ ∀ x ∈ t.switch.rounds, x.id ≠ r.id)
end

