-- ==== Sys2Proof/Laws/Arbiters.lean ====
section
/-! SUPPORT. What grants change: the buckets of arbiters and the passages of travellers, and nothing else (R399, R400). -/

namespace Sys2Proof.Machine

/-- Two states that differ in the buckets of arbiters and the passages of travellers alone. -/
def State.SameButGrants (s t : State) : Prop := ∃ arbs passing, t = { s with arbs := arbs, passing := passing }

theorem SameButGrants.refl (s : State) : s.SameButGrants s := ⟨s.arbs, s.passing, rfl⟩

theorem SameButGrants.trans {s t u : State} (h : s.SameButGrants t) (g : t.SameButGrants u) : s.SameButGrants u := by
  obtain ⟨x, y, rfl⟩ := h
  obtain ⟨z, w, rfl⟩ := g
  exact ⟨z, w, rfl⟩

/-- A grant changes the buckets of arbiters and the passages of travellers, and nothing else. -/
theorem grant_frame (a : Arbiter) (r : Request) (b : Bool) (s : State) : s.SameButGrants (s.grant a r b) := by
  simp only [State.grant]
  split <;> exact ⟨_, _, rfl⟩

/-- The grants of one arbiter in a cycle change buckets and passages only. -/
theorem grantsAt_frame (a : Arbiter) (rs : List Request) (n : Nat) (s : State) : s.SameButGrants (s.grantsAt a rs n) := by
  induction n generalizing s with
  | zero => exact SameButGrants.refl s
  | succ n ih =>
    unfold State.grantsAt
    split
    · exact SameButGrants.refl s
    · exact SameButGrants.trans (grant_frame a _ _ s) (ih _)

/-- What all arbiters grant in a cycle changes buckets and passages only. -/
theorem grants_frame (rs : List Request) (s : State) : s.SameButGrants (s.grants rs) := by
  have fold (f : State → Arbiter → State) (hf : ∀ (s : State) a, s.SameButGrants (f s a)) (as : List Arbiter) :
      ∀ s : State, s.SameButGrants (as.foldl f s) := by
    induction as with
    | nil => exact SameButGrants.refl
    | cons a as ih => exact fun s => SameButGrants.trans (hf s a) (ih _)
  unfold State.grants
  exact SameButGrants.trans (fold _ (fun (s : State) a => grantsAt_frame a _ _ s) _ s) ⟨_, _, rfl⟩

/-- A grant of a bucket token leaves the surplus, and the next turn begins after its VD (R399, R400). -/
@[simp] theorem spend_own (h : Share) (vd : Nat) : (h.spend vd false).surplus = h.surplus ∧ (h.spend vd false).lastOwn = vd := by
  simp [Share.spend]

/-- A borrowed grant costs the surplus one token and no bucket any (R399, R400). -/
@[simp] theorem spend_borrow (h : Share) (vd : Nat) : (h.spend vd true).tokens = h.tokens ∧
    (h.spend vd true).surplus = h.surplus - 1024 ∧ (h.spend vd true).lastBorrow = vd := by
  simp [Share.spend]

end Sys2Proof.Machine
end

