-- ==== Sys2Proof/Laws/Encoding.lean ====
section
/-! SUPPORT. The encoder and the decoder: the fields of a word that is put together from fields, and what decoding the words of an
instruction comes to, for each form. -/

namespace Sys2Proof

/-! ## Fields of a word -/

theorem append_low {n m : Nat} (x : BitVec n) (y : BitVec m) : (x ++ y).extractLsb' 0 m = y := by
  ext i hi; simp [BitVec.getLsbD_append, hi]
theorem append_high {n m : Nat} (x : BitVec n) (y : BitVec m) (k j : Nat) : (x ++ y).extractLsb' (m + k) j = x.extractLsb' k j := by
  ext i hi; simp [BitVec.getLsbD_append, show ¬ (m + k + i < m) by omega, show m + k + i - m = k + i by omega]
theorem extract_all {n : Nat} (x : BitVec n) : x.extractLsb' 0 n = x := by
  ext i hi; simp
section
variable (x0 : BitVec 2) (b a d : BitVec 6) (o : BitVec 7) (st : BitVec 3) (l : BitVec 2)
theorem w0_len : (x0 ++ b ++ a ++ d ++ o ++ st ++ l : BitVec 32).extractLsb' 0 2 = l := append_low _ _
theorem w0_stl : (x0 ++ b ++ a ++ d ++ o ++ st ++ l : BitVec 32).extractLsb' 2 3 = st :=
  (append_high _ l 0 3).trans (append_low _ _)
theorem w0_op : (x0 ++ b ++ a ++ d ++ o ++ st ++ l : BitVec 32).extractLsb' 5 7 = o :=
  (append_high _ l 3 7).trans ((append_high _ st 0 7).trans (append_low _ _))
theorem w0_d : (x0 ++ b ++ a ++ d ++ o ++ st ++ l : BitVec 32).extractLsb' 12 6 = d :=
  (append_high _ l 10 6).trans ((append_high _ st 7 6).trans ((append_high _ o 0 6).trans (append_low _ _)))
theorem w0_a : (x0 ++ b ++ a ++ d ++ o ++ st ++ l : BitVec 32).extractLsb' 18 6 = a :=
  (append_high _ l 16 6).trans ((append_high _ st 13 6).trans ((append_high _ o 6 6).trans ((append_high _ d 0 6).trans (append_low _ _))))
theorem w0_b : (x0 ++ b ++ a ++ d ++ o ++ st ++ l : BitVec 32).extractLsb' 24 6 = b :=
  (append_high _ l 22 6).trans ((append_high _ st 19 6).trans ((append_high _ o 12 6).trans ((append_high _ d 6 6).trans
    ((append_high _ a 0 6).trans (append_low _ _)))))
theorem w0_f : (x0 ++ b ++ a ++ d ++ o ++ st ++ l : BitVec 32).extractLsb' 30 2 = x0 :=
  (append_high _ l 28 2).trans ((append_high _ st 25 2).trans ((append_high _ o 18 2).trans ((append_high _ d 12 2).trans
    ((append_high _ a 6 2).trans ((append_high _ b 0 2).trans (extract_all _))))))
end
theorem w1_c (m : BitVec 13) (gn : BitVec 1) (g e c : BitVec 6) : (m ++ gn ++ g ++ e ++ c : BitVec 32).extractLsb' 0 6 = c := append_low _ _
theorem w1_e (m : BitVec 13) (gn : BitVec 1) (g e c : BitVec 6) : (m ++ gn ++ g ++ e ++ c : BitVec 32).extractLsb' 6 6 = e :=
  (append_high _ c 0 6).trans (append_low _ _)
theorem w1_g (m : BitVec 13) (gn : BitVec 1) (g e c : BitVec 6) : (m ++ gn ++ g ++ e ++ c : BitVec 32).extractLsb' 12 6 = g :=
  (append_high _ c 6 6).trans ((append_high _ e 0 6).trans (append_low _ _))
theorem w1_gn (m : BitVec 13) (gn : BitVec 1) (g e c : BitVec 6) : (m ++ gn ++ g ++ e ++ c : BitVec 32).extractLsb' 18 1 = gn :=
  (append_high _ c 12 1).trans ((append_high _ e 6 1).trans ((append_high _ g 0 1).trans (append_low _ _)))
theorem w1_m (m : BitVec 13) (gn : BitVec 1) (g e c : BitVec 6) : (m ++ gn ++ g ++ e ++ c : BitVec 32).extractLsb' 19 13 = m :=
  (append_high _ c 13 13).trans ((append_high _ e 7 13).trans ((append_high _ g 1 13).trans ((append_high _ gn 0 13).trans (extract_all _))))
theorem getLsbD_of_extract {n : Nat} (x : BitVec n) (k : Nat) (b : Bool) (h : x.extractLsb' k 1 = BitVec.ofBool b) : x.getLsbD k = b := by
  have := congrArg (fun y => y.getLsbD 0) h
  simpa using this

theorem ofNat_two_len (r : R) : (BitVec.ofNat 2 r.len).toNat = r.len := by
  have : r.len < 4 := by unfold R.len; split <;> split <;> omega
  simp; omega

theorem fieldLen_word0R (op f : Nat) (r : R) : fieldLen (word0R op f r) = r.len := by
  unfold fieldLen word0R; rw [w0_len]; exact ofNat_two_len r
theorem fieldOp_word0R {op : Nat} (h : op < 128) (f : Nat) (r : R) : fieldOp (word0R op f r) = op := by
  unfold fieldOp word0R; rw [w0_op]; simp; omega
theorem minor_word0R (op : Nat) {f : Nat} (h : f < 4) (r : R) : ((word0R op f r).extractLsb' 30 2).toNat = f := by
  unfold word0R; rw [w0_f]; simp; omega
theorem stl_word0R (op f : Nat) (r : R) : (word0R op f r).extractLsb' 2 3 = r.stl := by
  unfold word0R; rw [w0_stl]

/-- What word 1 and word 2 carry when they are present; else the fields are 0. -/
theorem fieldsR_word0R (op f : Nat) (r : R)
    (h : r.ext = false → r.c = 0 ∧ r.e = 0 ∧ r.g = 0 ∧ r.gn = false ∧ r.m = 0 ∧ r.x = 0) :
    fieldsR (word0R op f r) (if r.ext then some (word1R r, r.x) else none) r.lit = r := by
  obtain ⟨stl, ext, lit, d, a, b, c, e, g, gn, m, x⟩ := r
  cases ext with
  | false =>
    obtain ⟨rfl, rfl, rfl, rfl, rfl, rfl⟩ := h rfl
    simp only [fieldsR, fieldD, fieldA, fieldB, word0R, w0_stl, w0_d, w0_a, w0_b, Bool.false_eq_true, if_false, Option.isSome_none]
  | true =>
    have hg := getLsbD_of_extract (m ++ BitVec.ofBool gn ++ g ++ e ++ c : BitVec 32) 18 gn (w1_gn m (BitVec.ofBool gn) g e c)
    simp only [fieldsR, fieldD, fieldA, fieldB, word0R, word1R, w0_stl, w0_d, w0_a, w0_b, if_true, w1_c, w1_e, w1_g, w1_m, hg, Option.isSome_some]

theorem lit_words (l : Word) : (l.extractLsb' 32 32 ++ l.extractLsb' 0 32 : BitVec 64) = l := by
  apply BitVec.eq_of_getLsbD_eq
  intro i hi
  have h : (l.extractLsb' 32 32 ++ l.extractLsb' 0 32).getLsbD i = _ := BitVec.getLsbD_append
  refine h.trans ?_
  by_cases hlt : i < 32
  · simp [hlt]
  · simp [hlt, show i - 32 < 32 by omega, show 32 + (i - 32) = i by omega]

/-- Decoding the words of an encoded form-R instruction comes to the opcode map at its opcode and minor function, with its fields. -/
theorem decode_formR {i : Instr} {row : Row} {r : R} (he : i.enc = .r row r) (hl : i.legal = true)
    (hop : row.op < 128) (hf : row.f < 4) (hij : ∀ st w, formIJZ row.op st w = none) (hmap : formR row.op row.f r = some i)
    (more : List (BitVec 32)) : decodeWords (encode i ++ more) = .ok i := by
  have hfr : row.framed r = true := by
    unfold Instr.legal at hl; rw [he] at hl; simp only [Bool.and_eq_true] at hl; exact hl.1.1
  have hext : r.ext = false → r.c = 0 ∧ r.e = 0 ∧ r.g = 0 ∧ r.gn = false ∧ r.m = 0 ∧ r.x = 0 := by
    intro hx
    unfold Row.framed at hfr
    simp only [hx, Bool.false_or, Bool.and_eq_true, beq_iff_eq, Bool.not_eq_true'] at hfr
    exact ⟨hfr.1.1.2.1.1.1.1.1, hfr.1.1.2.1.1.1.1.2, hfr.1.1.2.1.1.1.2, hfr.1.1.2.1.1.2, hfr.1.1.2.1.2, hfr.1.1.2.2⟩
  have hfields := fieldsR_word0R row.op row.f r hext
  have hspell : spell (word0R row.op row.f r) (if r.ext then some (word1R r, r.x) else none) r.lit = .ok i := by
    unfold spell
    simp only [fieldOp_word0R hop, hij, minor_word0R _ hf, hfields, hmap]
  unfold encode decodeWords
  rw [he]
  simp only [List.cons_append, fieldLen_word0R]
  unfold R.len
  cases hx : r.ext <;> cases hlit : r.lit with
  | none => simp [hx, hlit] at hspell ⊢; simp [hspell, hl]
  | some l => simp [hx, hlit] at hspell ⊢; simp [lit_words, hspell, hl]

theorem len_w (x : BitVec 20) (o : BitVec 7) (st : BitVec 3) : fieldLen (x ++ o ++ st ++ 0#2 : BitVec 32) = 0 := by
  have h : (x ++ o ++ st ++ 0#2 : BitVec 32).extractLsb' 0 2 = 0#2 := append_low _ _
  unfold fieldLen; rw [h]; rfl

theorem op_w (x : BitVec 20) {op : Nat} (h : op < 128) (st : BitVec 3) : fieldOp (x ++ BitVec.ofNat 7 op ++ st ++ 0#2 : BitVec 32) = op := by
  have hx : (x ++ BitVec.ofNat 7 op ++ st ++ 0#2 : BitVec 32).extractLsb' 5 7 = BitVec.ofNat 7 op :=
    (append_high _ (0#2) 3 7).trans ((append_high _ st 0 7).trans (append_low _ _))
  unfold fieldOp; rw [hx]; simp; omega

theorem stl_w (x : BitVec 20) (o : BitVec 7) (st : BitVec 3) : (x ++ o ++ st ++ 0#2 : BitVec 32).extractLsb' 2 3 = st :=
  (append_high _ (0#2) 0 3).trans (append_low _ _)

theorem off_w (x : BitVec 20) (o : BitVec 7) (st : BitVec 3) : (x ++ o ++ st ++ 0#2 : BitVec 32).extractLsb' 12 20 = x :=
  (append_high _ (0#2) 10 20).trans ((append_high _ st 7 20).trans ((append_high _ o 0 20).trans (extract_all _)))

theorem extract_extract {n : Nat} (x : BitVec n) (k j m w : Nat) (h : m + w ≤ j) :
    (x.extractLsb' k j).extractLsb' m w = x.extractLsb' (k + m) w := by
  ext i hi; simp [show m + i < j by omega, Nat.add_assoc]

/-- Decoding the one word of an instruction of form I, J or Z. -/
theorem decode_word {i : Instr} {x : BitVec 20} {op : Nat} {st : BitVec 3} (hl : i.legal = true) (hop : op < 128)
    (he : encode i = [(x ++ BitVec.ofNat 7 op ++ st ++ 0#2 : BitVec 32)])
    (hmap : ∀ w : BitVec 32, w.extractLsb' 12 20 = x → formIJZ op st w = some i) (more : List (BitVec 32)) :
    decodeWords (encode i ++ more) = .ok i := by
  have h := hmap (x ++ BitVec.ofNat 7 op ++ st ++ 0#2 : BitVec 32) (off_w x _ st)
  have hspell : ∀ ext lit, spell (x ++ BitVec.ofNat 7 op ++ st ++ 0#2 : BitVec 32) ext lit = .ok i := by
    intro ext lit
    unfold spell
    simp only [op_w x hop st, stl_w, h, len_w, if_true]
  rw [he]
  simp only [List.cons_append, List.nil_append, decodeWords, len_w, hspell, hl, if_true]

theorem decode_formI {i : Instr} {op : Nat} {st : BitVec 3} {d a : BitVec 6} {imm : BitVec 8} (he : i.enc = .i op st d a imm)
    (hl : i.legal = true) (hop : op < 128)
    (hmap : ∀ w : BitVec 32, w.extractLsb' 12 6 = d → w.extractLsb' 18 6 = a → w.extractLsb' 24 8 = imm → formIJZ op st w = some i)
    (more : List (BitVec 32)) : decodeWords (encode i ++ more) = .ok i := by
  refine decode_word (x := imm ++ a ++ d) hl hop (by unfold encode; rw [he]) (fun w hw => hmap w ?_ ?_ ?_) more
  · rw [show w.extractLsb' 12 6 = (w.extractLsb' 12 20).extractLsb' 0 6 from (extract_extract w 12 20 0 6 (by omega)).symm, hw]
    exact append_low _ _
  · rw [show w.extractLsb' 18 6 = (w.extractLsb' 12 20).extractLsb' 6 6 from (extract_extract w 12 20 6 6 (by omega)).symm, hw]
    exact (append_high _ d 0 6).trans (append_low _ _)
  · rw [show w.extractLsb' 24 8 = (w.extractLsb' 12 20).extractLsb' 12 8 from (extract_extract w 12 20 12 8 (by omega)).symm, hw]
    exact (append_high _ d 6 8).trans ((append_high _ a 0 8).trans (extract_all _))

theorem decode_formZ {i : Instr} {op : Nat} {st : BitVec 3} {a : BitVec 6} {off : BitVec 14} (he : i.enc = .z op st a off)
    (hl : i.legal = true) (hop : op < 128)
    (hmap : ∀ w : BitVec 32, w.extractLsb' 12 6 = a → w.extractLsb' 18 14 = off → formIJZ op st w = some i)
    (more : List (BitVec 32)) : decodeWords (encode i ++ more) = .ok i := by
  refine decode_word (x := off ++ a) hl hop (by unfold encode; rw [he]) (fun w hw => hmap w ?_ ?_) more
  · rw [show w.extractLsb' 12 6 = (w.extractLsb' 12 20).extractLsb' 0 6 from (extract_extract w 12 20 0 6 (by omega)).symm, hw]
    exact append_low _ _
  · rw [show w.extractLsb' 18 14 = (w.extractLsb' 12 20).extractLsb' 6 14 from (extract_extract w 12 20 6 14 (by omega)).symm, hw]
    exact (append_high _ a 0 14).trans (extract_all _)

theorem decode_formJ {i : Instr} {op : Nat} {st : BitVec 3} {off : BitVec 20} (he : i.enc = .j op st off)
    (hl : i.legal = true) (hop : op < 128)
    (hmap : ∀ w : BitVec 32, w.extractLsb' 12 20 = off → formIJZ op st w = some i)
    (more : List (BitVec 32)) : decodeWords (encode i ++ more) = .ok i :=
  decode_word (x := off) hl hop (by unfold encode; rw [he]) hmap more

end Sys2Proof
end

