-- ==== Sys2Proof/Laws/State.lean ====
section
/-! SUPPORT. What the updates of the state leave in each of its fields: true by unfolding, so that no later proof opens a record update. -/

namespace Sys2Proof.Machine

/-! ## Changing the activity or the core in focus -/

@[simp] theorem State.modMe_cycle (f : Activity → Activity) (s : State) : (s.modMe f).cycle = s.cycle := rfl
@[simp] theorem State.modMe_me (f : Activity → Activity) (s : State) : (s.modMe f).me = f s.me := rfl
@[simp] theorem State.modMe_core (f : Activity → Activity) (s : State) : (s.modMe f).core = s.core := rfl
@[simp] theorem State.modMe_acts (f : Activity → Activity) (s : State) : (s.modMe f).acts = s.acts := rfl
@[simp] theorem State.modMe_cores (f : Activity → Activity) (s : State) : (s.modMe f).cores = s.cores := rfl
@[simp] theorem State.modMe_saved (f : Activity → Activity) (s : State) : (s.modMe f).saved = s.saved := rfl
@[simp] theorem State.modMe_mem (f : Activity → Activity) (s : State) : (s.modMe f).mem = s.mem := rfl
@[simp] theorem State.modMe_cache (f : Activity → Activity) (s : State) : (s.modMe f).cache = s.cache := rfl
@[simp] theorem State.modMe_dirs (f : Activity → Activity) (s : State) : (s.modMe f).dirs = s.dirs := rfl
@[simp] theorem State.modMe_disp (f : Activity → Activity) (s : State) : (s.modMe f).disp = s.disp := rfl
@[simp] theorem State.modMe_vds (f : Activity → Activity) (s : State) : (s.modMe f).vds = s.vds := rfl
@[simp] theorem State.modMe_svc (f : Activity → Activity) (s : State) : (s.modMe f).svc = s.svc := rfl
@[simp] theorem State.modMe_idle (f : Activity → Activity) (s : State) : (s.modMe f).idle = s.idle := rfl
@[simp] theorem State.modMe_arbs (f : Activity → Activity) (s : State) : (s.modMe f).arbs = s.arbs := rfl
@[simp] theorem State.modMe_passing (f : Activity → Activity) (s : State) : (s.modMe f).passing = s.passing := rfl
@[simp] theorem State.modMe_switch (f : Activity → Activity) (s : State) : (s.modMe f).switch = s.switch := rfl
@[simp] theorem State.modMe_msgs (f : Activity → Activity) (s : State) : (s.modMe f).msgs = s.msgs := rfl
@[simp] theorem State.modMe_agenda (f : Activity → Activity) (s : State) : (s.modMe f).agenda = s.agenda := rfl
@[simp] theorem State.modMe_phase (f : Activity → Activity) (s : State) : (s.modMe f).phase = s.phase := rfl
@[simp] theorem State.modMe_choiceCtr (f : Activity → Activity) (s : State) : (s.modMe f).choiceCtr = s.choiceCtr := rfl
@[simp] theorem State.modMe_nextUid (f : Activity → Activity) (s : State) : (s.modMe f).nextUid = s.nextUid := rfl
@[simp] theorem State.modMe_nextCmd (f : Activity → Activity) (s : State) : (s.modMe f).nextCmd = s.nextCmd := rfl
@[simp] theorem State.modMe_nextMsg (f : Activity → Activity) (s : State) : (s.modMe f).nextMsg = s.nextMsg := rfl
@[simp] theorem State.modMe_transits (f : Activity → Activity) (s : State) : (s.modMe f).transits = s.transits := rfl
@[simp] theorem State.modMe_nextTransit (f : Activity → Activity) (s : State) : (s.modMe f).nextTransit = s.nextTransit := rfl

@[simp] theorem State.modCore_cycle (f : Core → Core) (s : State) : (s.modCore f).cycle = s.cycle := rfl
@[simp] theorem State.modCore_me (f : Core → Core) (s : State) : (s.modCore f).me = s.me := rfl
@[simp] theorem State.modCore_core (f : Core → Core) (s : State) : (s.modCore f).core = f s.core := rfl
@[simp] theorem State.modCore_acts (f : Core → Core) (s : State) : (s.modCore f).acts = s.acts := rfl
@[simp] theorem State.modCore_cores (f : Core → Core) (s : State) : (s.modCore f).cores = s.cores := rfl
@[simp] theorem State.modCore_saved (f : Core → Core) (s : State) : (s.modCore f).saved = s.saved := rfl
@[simp] theorem State.modCore_mem (f : Core → Core) (s : State) : (s.modCore f).mem = s.mem := rfl
@[simp] theorem State.modCore_cache (f : Core → Core) (s : State) : (s.modCore f).cache = s.cache := rfl
@[simp] theorem State.modCore_dirs (f : Core → Core) (s : State) : (s.modCore f).dirs = s.dirs := rfl
@[simp] theorem State.modCore_disp (f : Core → Core) (s : State) : (s.modCore f).disp = s.disp := rfl
@[simp] theorem State.modCore_vds (f : Core → Core) (s : State) : (s.modCore f).vds = s.vds := rfl
@[simp] theorem State.modCore_svc (f : Core → Core) (s : State) : (s.modCore f).svc = s.svc := rfl
@[simp] theorem State.modCore_idle (f : Core → Core) (s : State) : (s.modCore f).idle = s.idle := rfl
@[simp] theorem State.modCore_arbs (f : Core → Core) (s : State) : (s.modCore f).arbs = s.arbs := rfl
@[simp] theorem State.modCore_passing (f : Core → Core) (s : State) : (s.modCore f).passing = s.passing := rfl
@[simp] theorem State.modCore_switch (f : Core → Core) (s : State) : (s.modCore f).switch = s.switch := rfl
@[simp] theorem State.modCore_msgs (f : Core → Core) (s : State) : (s.modCore f).msgs = s.msgs := rfl
@[simp] theorem State.modCore_agenda (f : Core → Core) (s : State) : (s.modCore f).agenda = s.agenda := rfl
@[simp] theorem State.modCore_phase (f : Core → Core) (s : State) : (s.modCore f).phase = s.phase := rfl
@[simp] theorem State.modCore_choiceCtr (f : Core → Core) (s : State) : (s.modCore f).choiceCtr = s.choiceCtr := rfl
@[simp] theorem State.modCore_nextUid (f : Core → Core) (s : State) : (s.modCore f).nextUid = s.nextUid := rfl
@[simp] theorem State.modCore_nextCmd (f : Core → Core) (s : State) : (s.modCore f).nextCmd = s.nextCmd := rfl
@[simp] theorem State.modCore_nextMsg (f : Core → Core) (s : State) : (s.modCore f).nextMsg = s.nextMsg := rfl
@[simp] theorem State.modCore_transits (f : Core → Core) (s : State) : (s.modCore f).transits = s.transits := rfl
@[simp] theorem State.modCore_nextTransit (f : Core → Core) (s : State) : (s.modCore f).nextTransit = s.nextTransit := rfl

/-! ## Scoreboard entries -/

@[simp] theorem State.claim_cycle (cs : List Claim) (s : State) : (s.claim cs).cycle = s.cycle := rfl
@[simp] theorem State.claim_me (cs : List Claim) (s : State) : (s.claim cs).me = { s.me with claims := s.me.claims ++ cs } := rfl
@[simp] theorem State.claim_core (cs : List Claim) (s : State) : (s.claim cs).core = s.core := rfl
@[simp] theorem State.claim_acts (cs : List Claim) (s : State) : (s.claim cs).acts = s.acts := rfl
@[simp] theorem State.claim_cores (cs : List Claim) (s : State) : (s.claim cs).cores = s.cores := rfl
@[simp] theorem State.claim_saved (cs : List Claim) (s : State) : (s.claim cs).saved = s.saved := rfl
@[simp] theorem State.claim_mem (cs : List Claim) (s : State) : (s.claim cs).mem = s.mem := rfl
@[simp] theorem State.claim_cache (cs : List Claim) (s : State) : (s.claim cs).cache = s.cache := rfl
@[simp] theorem State.claim_dirs (cs : List Claim) (s : State) : (s.claim cs).dirs = s.dirs := rfl
@[simp] theorem State.claim_disp (cs : List Claim) (s : State) : (s.claim cs).disp = s.disp := rfl
@[simp] theorem State.claim_vds (cs : List Claim) (s : State) : (s.claim cs).vds = s.vds := rfl
@[simp] theorem State.claim_svc (cs : List Claim) (s : State) : (s.claim cs).svc = s.svc := rfl
@[simp] theorem State.claim_idle (cs : List Claim) (s : State) : (s.claim cs).idle = s.idle := rfl
@[simp] theorem State.claim_arbs (cs : List Claim) (s : State) : (s.claim cs).arbs = s.arbs := rfl
@[simp] theorem State.claim_passing (cs : List Claim) (s : State) : (s.claim cs).passing = s.passing := rfl
@[simp] theorem State.claim_switch (cs : List Claim) (s : State) : (s.claim cs).switch = s.switch := rfl
@[simp] theorem State.claim_msgs (cs : List Claim) (s : State) : (s.claim cs).msgs = s.msgs := rfl
@[simp] theorem State.claim_agenda (cs : List Claim) (s : State) : (s.claim cs).agenda = s.agenda := rfl
@[simp] theorem State.claim_phase (cs : List Claim) (s : State) : (s.claim cs).phase = s.phase := rfl
@[simp] theorem State.claim_choiceCtr (cs : List Claim) (s : State) : (s.claim cs).choiceCtr = s.choiceCtr := rfl
@[simp] theorem State.claim_nextUid (cs : List Claim) (s : State) : (s.claim cs).nextUid = s.nextUid := rfl
@[simp] theorem State.claim_nextCmd (cs : List Claim) (s : State) : (s.claim cs).nextCmd = s.nextCmd := rfl
@[simp] theorem State.claim_nextMsg (cs : List Claim) (s : State) : (s.claim cs).nextMsg = s.nextMsg := rfl
@[simp] theorem State.claim_transits (cs : List Claim) (s : State) : (s.claim cs).transits = s.transits := rfl
@[simp] theorem State.claim_nextTransit (cs : List Claim) (s : State) : (s.claim cs).nextTransit = s.nextTransit := rfl

/-! ## Local memory -/

@[simp] theorem State.writeLocal_cycle (y : Nat) (bs : List Byte) (s : State) : (s.writeLocal y bs).cycle = s.cycle := rfl
@[simp] theorem State.writeLocal_me (y : Nat) (bs : List Byte) (s : State) : (s.writeLocal y bs).me = { s.me with lm := s.me.lm.write y bs } := rfl
@[simp] theorem State.writeLocal_core (y : Nat) (bs : List Byte) (s : State) : (s.writeLocal y bs).core = s.core := rfl
@[simp] theorem State.writeLocal_acts (y : Nat) (bs : List Byte) (s : State) : (s.writeLocal y bs).acts = s.acts := rfl
@[simp] theorem State.writeLocal_cores (y : Nat) (bs : List Byte) (s : State) : (s.writeLocal y bs).cores = s.cores := rfl
@[simp] theorem State.writeLocal_saved (y : Nat) (bs : List Byte) (s : State) : (s.writeLocal y bs).saved = s.saved := rfl
@[simp] theorem State.writeLocal_mem (y : Nat) (bs : List Byte) (s : State) : (s.writeLocal y bs).mem = s.mem := rfl
@[simp] theorem State.writeLocal_cache (y : Nat) (bs : List Byte) (s : State) : (s.writeLocal y bs).cache = s.cache := rfl
@[simp] theorem State.writeLocal_dirs (y : Nat) (bs : List Byte) (s : State) : (s.writeLocal y bs).dirs = s.dirs := rfl
@[simp] theorem State.writeLocal_disp (y : Nat) (bs : List Byte) (s : State) : (s.writeLocal y bs).disp = s.disp := rfl
@[simp] theorem State.writeLocal_vds (y : Nat) (bs : List Byte) (s : State) : (s.writeLocal y bs).vds = s.vds := rfl
@[simp] theorem State.writeLocal_svc (y : Nat) (bs : List Byte) (s : State) : (s.writeLocal y bs).svc = s.svc := rfl
@[simp] theorem State.writeLocal_idle (y : Nat) (bs : List Byte) (s : State) : (s.writeLocal y bs).idle = s.idle := rfl
@[simp] theorem State.writeLocal_arbs (y : Nat) (bs : List Byte) (s : State) : (s.writeLocal y bs).arbs = s.arbs := rfl
@[simp] theorem State.writeLocal_passing (y : Nat) (bs : List Byte) (s : State) : (s.writeLocal y bs).passing = s.passing := rfl
@[simp] theorem State.writeLocal_switch (y : Nat) (bs : List Byte) (s : State) : (s.writeLocal y bs).switch = s.switch := rfl
@[simp] theorem State.writeLocal_msgs (y : Nat) (bs : List Byte) (s : State) : (s.writeLocal y bs).msgs = s.msgs := rfl
@[simp] theorem State.writeLocal_agenda (y : Nat) (bs : List Byte) (s : State) : (s.writeLocal y bs).agenda = s.agenda := rfl
@[simp] theorem State.writeLocal_phase (y : Nat) (bs : List Byte) (s : State) : (s.writeLocal y bs).phase = s.phase := rfl
@[simp] theorem State.writeLocal_choiceCtr (y : Nat) (bs : List Byte) (s : State) : (s.writeLocal y bs).choiceCtr = s.choiceCtr := rfl
@[simp] theorem State.writeLocal_nextUid (y : Nat) (bs : List Byte) (s : State) : (s.writeLocal y bs).nextUid = s.nextUid := rfl
@[simp] theorem State.writeLocal_nextCmd (y : Nat) (bs : List Byte) (s : State) : (s.writeLocal y bs).nextCmd = s.nextCmd := rfl
@[simp] theorem State.writeLocal_nextMsg (y : Nat) (bs : List Byte) (s : State) : (s.writeLocal y bs).nextMsg = s.nextMsg := rfl
@[simp] theorem State.writeLocal_transits (y : Nat) (bs : List Byte) (s : State) : (s.writeLocal y bs).transits = s.transits := rfl
@[simp] theorem State.writeLocal_nextTransit (y : Nat) (bs : List Byte) (s : State) : (s.writeLocal y bs).nextTransit = s.nextTransit := rfl

/-! ## Holding, completing and transferring control -/

@[simp] theorem State.holdIssue_cycle (s : State) : s.holdIssue.cycle = s.cycle := rfl
@[simp] theorem State.holdIssue_core (s : State) : s.holdIssue.core = s.core := rfl
@[simp] theorem State.holdIssue_acts (s : State) : s.holdIssue.acts = s.acts := rfl
@[simp] theorem State.holdIssue_cores (s : State) : s.holdIssue.cores = s.cores := rfl
@[simp] theorem State.holdIssue_saved (s : State) : s.holdIssue.saved = s.saved := rfl
@[simp] theorem State.holdIssue_mem (s : State) : s.holdIssue.mem = s.mem := rfl
@[simp] theorem State.holdIssue_cache (s : State) : s.holdIssue.cache = s.cache := rfl
@[simp] theorem State.holdIssue_dirs (s : State) : s.holdIssue.dirs = s.dirs := rfl
@[simp] theorem State.holdIssue_disp (s : State) : s.holdIssue.disp = s.disp := rfl
@[simp] theorem State.holdIssue_vds (s : State) : s.holdIssue.vds = s.vds := rfl
@[simp] theorem State.holdIssue_svc (s : State) : s.holdIssue.svc = s.svc := rfl
@[simp] theorem State.holdIssue_idle (s : State) : s.holdIssue.idle = s.idle := rfl
@[simp] theorem State.holdIssue_arbs (s : State) : s.holdIssue.arbs = s.arbs := rfl
@[simp] theorem State.holdIssue_passing (s : State) : s.holdIssue.passing = s.passing := rfl
@[simp] theorem State.holdIssue_switch (s : State) : s.holdIssue.switch = s.switch := rfl
@[simp] theorem State.holdIssue_msgs (s : State) : s.holdIssue.msgs = s.msgs := rfl
@[simp] theorem State.holdIssue_agenda (s : State) : s.holdIssue.agenda = s.agenda := rfl
@[simp] theorem State.holdIssue_phase (s : State) : s.holdIssue.phase = s.phase := rfl
@[simp] theorem State.holdIssue_choiceCtr (s : State) : s.holdIssue.choiceCtr = s.choiceCtr := rfl
@[simp] theorem State.holdIssue_nextUid (s : State) : s.holdIssue.nextUid = s.nextUid := rfl
@[simp] theorem State.holdIssue_nextCmd (s : State) : s.holdIssue.nextCmd = s.nextCmd := rfl
@[simp] theorem State.holdIssue_nextMsg (s : State) : s.holdIssue.nextMsg = s.nextMsg := rfl
@[simp] theorem State.holdIssue_transits (s : State) : s.holdIssue.transits = s.transits := rfl
@[simp] theorem State.holdIssue_nextTransit (s : State) : s.holdIssue.nextTransit = s.nextTransit := rfl

@[simp] theorem State.resetRun_cycle (i : Instr) (s : State) : (s.resetRun i).cycle = s.cycle := by unfold State.resetRun; split <;> rfl
@[simp] theorem State.resetRun_core (i : Instr) (s : State) : (s.resetRun i).core = s.core := by unfold State.resetRun; split <;> rfl
@[simp] theorem State.resetRun_acts (i : Instr) (s : State) : (s.resetRun i).acts = s.acts := by unfold State.resetRun; split <;> rfl
@[simp] theorem State.resetRun_cores (i : Instr) (s : State) : (s.resetRun i).cores = s.cores := by unfold State.resetRun; split <;> rfl
@[simp] theorem State.resetRun_saved (i : Instr) (s : State) : (s.resetRun i).saved = s.saved := by unfold State.resetRun; split <;> rfl
@[simp] theorem State.resetRun_mem (i : Instr) (s : State) : (s.resetRun i).mem = s.mem := by unfold State.resetRun; split <;> rfl
@[simp] theorem State.resetRun_cache (i : Instr) (s : State) : (s.resetRun i).cache = s.cache := by unfold State.resetRun; split <;> rfl
@[simp] theorem State.resetRun_dirs (i : Instr) (s : State) : (s.resetRun i).dirs = s.dirs := by unfold State.resetRun; split <;> rfl
@[simp] theorem State.resetRun_disp (i : Instr) (s : State) : (s.resetRun i).disp = s.disp := by unfold State.resetRun; split <;> rfl
@[simp] theorem State.resetRun_vds (i : Instr) (s : State) : (s.resetRun i).vds = s.vds := by unfold State.resetRun; split <;> rfl
@[simp] theorem State.resetRun_svc (i : Instr) (s : State) : (s.resetRun i).svc = s.svc := by unfold State.resetRun; split <;> rfl
@[simp] theorem State.resetRun_idle (i : Instr) (s : State) : (s.resetRun i).idle = s.idle := by unfold State.resetRun; split <;> rfl
@[simp] theorem State.resetRun_arbs (i : Instr) (s : State) : (s.resetRun i).arbs = s.arbs := by unfold State.resetRun; split <;> rfl
@[simp] theorem State.resetRun_passing (i : Instr) (s : State) : (s.resetRun i).passing = s.passing := by unfold State.resetRun; split <;> rfl
@[simp] theorem State.resetRun_switch (i : Instr) (s : State) : (s.resetRun i).switch = s.switch := by unfold State.resetRun; split <;> rfl
@[simp] theorem State.resetRun_msgs (i : Instr) (s : State) : (s.resetRun i).msgs = s.msgs := by unfold State.resetRun; split <;> rfl
@[simp] theorem State.resetRun_agenda (i : Instr) (s : State) : (s.resetRun i).agenda = s.agenda := by unfold State.resetRun; split <;> rfl
@[simp] theorem State.resetRun_phase (i : Instr) (s : State) : (s.resetRun i).phase = s.phase := by unfold State.resetRun; split <;> rfl
@[simp] theorem State.resetRun_choiceCtr (i : Instr) (s : State) : (s.resetRun i).choiceCtr = s.choiceCtr := by unfold State.resetRun; split <;> rfl
@[simp] theorem State.resetRun_nextUid (i : Instr) (s : State) : (s.resetRun i).nextUid = s.nextUid := by unfold State.resetRun; split <;> rfl
@[simp] theorem State.resetRun_nextCmd (i : Instr) (s : State) : (s.resetRun i).nextCmd = s.nextCmd := by unfold State.resetRun; split <;> rfl
@[simp] theorem State.resetRun_nextMsg (i : Instr) (s : State) : (s.resetRun i).nextMsg = s.nextMsg := by unfold State.resetRun; split <;> rfl
@[simp] theorem State.resetRun_transits (i : Instr) (s : State) : (s.resetRun i).transits = s.transits := by unfold State.resetRun; split <;> rfl
@[simp] theorem State.resetRun_nextTransit (i : Instr) (s : State) : (s.resetRun i).nextTransit = s.nextTransit := by unfold State.resetRun; split <;> rfl

@[simp] theorem State.complete_cycle (i : Instr) (s : State) : (s.complete i).cycle = s.cycle := by simp [State.complete]
@[simp] theorem State.complete_core (i : Instr) (s : State) : (s.complete i).core = s.core := by simp [State.complete]
@[simp] theorem State.complete_acts (i : Instr) (s : State) : (s.complete i).acts = s.acts := by simp [State.complete]
@[simp] theorem State.complete_cores (i : Instr) (s : State) : (s.complete i).cores = s.cores := by simp [State.complete]
@[simp] theorem State.complete_saved (i : Instr) (s : State) : (s.complete i).saved = s.saved := by simp [State.complete]
@[simp] theorem State.complete_mem (i : Instr) (s : State) : (s.complete i).mem = s.mem := by simp [State.complete]
@[simp] theorem State.complete_cache (i : Instr) (s : State) : (s.complete i).cache = s.cache := by simp [State.complete]
@[simp] theorem State.complete_dirs (i : Instr) (s : State) : (s.complete i).dirs = s.dirs := by simp [State.complete]
@[simp] theorem State.complete_disp (i : Instr) (s : State) : (s.complete i).disp = s.disp := by simp [State.complete]
@[simp] theorem State.complete_vds (i : Instr) (s : State) : (s.complete i).vds = s.vds := by simp [State.complete]
@[simp] theorem State.complete_svc (i : Instr) (s : State) : (s.complete i).svc = s.svc := by simp [State.complete]
@[simp] theorem State.complete_idle (i : Instr) (s : State) : (s.complete i).idle = s.idle := by simp [State.complete]
@[simp] theorem State.complete_arbs (i : Instr) (s : State) : (s.complete i).arbs = s.arbs := by simp [State.complete]
@[simp] theorem State.complete_passing (i : Instr) (s : State) : (s.complete i).passing = s.passing := by simp [State.complete]
@[simp] theorem State.complete_switch (i : Instr) (s : State) : (s.complete i).switch = s.switch := by simp [State.complete]
@[simp] theorem State.complete_msgs (i : Instr) (s : State) : (s.complete i).msgs = s.msgs := by simp [State.complete]
@[simp] theorem State.complete_agenda (i : Instr) (s : State) : (s.complete i).agenda = s.agenda := by simp [State.complete]
@[simp] theorem State.complete_phase (i : Instr) (s : State) : (s.complete i).phase = s.phase := by simp [State.complete]
@[simp] theorem State.complete_choiceCtr (i : Instr) (s : State) : (s.complete i).choiceCtr = s.choiceCtr := by simp [State.complete]
@[simp] theorem State.complete_nextUid (i : Instr) (s : State) : (s.complete i).nextUid = s.nextUid := by simp [State.complete]
@[simp] theorem State.complete_nextCmd (i : Instr) (s : State) : (s.complete i).nextCmd = s.nextCmd := by simp [State.complete]
@[simp] theorem State.complete_nextMsg (i : Instr) (s : State) : (s.complete i).nextMsg = s.nextMsg := by simp [State.complete]
@[simp] theorem State.complete_transits (i : Instr) (s : State) : (s.complete i).transits = s.transits := by simp [State.complete]
@[simp] theorem State.complete_nextTransit (i : Instr) (s : State) : (s.complete i).nextTransit = s.nextTransit := by simp [State.complete]

@[simp] theorem State.transfer_cycle (i : Instr) (t : Int) (s : State) : (s.transfer i t).cycle = s.cycle := by simp [State.transfer]
@[simp] theorem State.transfer_core (i : Instr) (t : Int) (s : State) : (s.transfer i t).core = s.core := by simp [State.transfer]
@[simp] theorem State.transfer_acts (i : Instr) (t : Int) (s : State) : (s.transfer i t).acts = s.acts := by simp [State.transfer]
@[simp] theorem State.transfer_cores (i : Instr) (t : Int) (s : State) : (s.transfer i t).cores = s.cores := by simp [State.transfer]
@[simp] theorem State.transfer_saved (i : Instr) (t : Int) (s : State) : (s.transfer i t).saved = s.saved := by simp [State.transfer]
@[simp] theorem State.transfer_mem (i : Instr) (t : Int) (s : State) : (s.transfer i t).mem = s.mem := by simp [State.transfer]
@[simp] theorem State.transfer_cache (i : Instr) (t : Int) (s : State) : (s.transfer i t).cache = s.cache := by simp [State.transfer]
@[simp] theorem State.transfer_dirs (i : Instr) (t : Int) (s : State) : (s.transfer i t).dirs = s.dirs := by simp [State.transfer]
@[simp] theorem State.transfer_disp (i : Instr) (t : Int) (s : State) : (s.transfer i t).disp = s.disp := by simp [State.transfer]
@[simp] theorem State.transfer_vds (i : Instr) (t : Int) (s : State) : (s.transfer i t).vds = s.vds := by simp [State.transfer]
@[simp] theorem State.transfer_svc (i : Instr) (t : Int) (s : State) : (s.transfer i t).svc = s.svc := by simp [State.transfer]
@[simp] theorem State.transfer_idle (i : Instr) (t : Int) (s : State) : (s.transfer i t).idle = s.idle := by simp [State.transfer]
@[simp] theorem State.transfer_arbs (i : Instr) (t : Int) (s : State) : (s.transfer i t).arbs = s.arbs := by simp [State.transfer]
@[simp] theorem State.transfer_passing (i : Instr) (t : Int) (s : State) : (s.transfer i t).passing = s.passing := by simp [State.transfer]
@[simp] theorem State.transfer_switch (i : Instr) (t : Int) (s : State) : (s.transfer i t).switch = s.switch := by simp [State.transfer]
@[simp] theorem State.transfer_msgs (i : Instr) (t : Int) (s : State) : (s.transfer i t).msgs = s.msgs := by simp [State.transfer]
@[simp] theorem State.transfer_agenda (i : Instr) (t : Int) (s : State) : (s.transfer i t).agenda = s.agenda := by simp [State.transfer]
@[simp] theorem State.transfer_phase (i : Instr) (t : Int) (s : State) : (s.transfer i t).phase = s.phase := by simp [State.transfer]
@[simp] theorem State.transfer_choiceCtr (i : Instr) (t : Int) (s : State) : (s.transfer i t).choiceCtr = s.choiceCtr := by simp [State.transfer]
@[simp] theorem State.transfer_nextUid (i : Instr) (t : Int) (s : State) : (s.transfer i t).nextUid = s.nextUid := by simp [State.transfer]
@[simp] theorem State.transfer_nextCmd (i : Instr) (t : Int) (s : State) : (s.transfer i t).nextCmd = s.nextCmd := by simp [State.transfer]
@[simp] theorem State.transfer_nextMsg (i : Instr) (t : Int) (s : State) : (s.transfer i t).nextMsg = s.nextMsg := by simp [State.transfer]
@[simp] theorem State.transfer_transits (i : Instr) (t : Int) (s : State) : (s.transfer i t).transits = s.transits := by simp [State.transfer]
@[simp] theorem State.transfer_nextTransit (i : Instr) (t : Int) (s : State) : (s.transfer i t).nextTransit = s.nextTransit := by simp [State.transfer]

/-! ## Pending writes -/

@[simp] theorem State.pendWrite_cycle (k : PendKind) (due : Nat) (keep : List Reg) (x : Reg) (v : Vec) (s : State) :
    (s.pendWrite k due keep x v).cycle = s.cycle := by unfold State.pendWrite; split <;> rfl
@[simp] theorem State.pendWrite_core (k : PendKind) (due : Nat) (keep : List Reg) (x : Reg) (v : Vec) (s : State) :
    (s.pendWrite k due keep x v).core = s.core := by unfold State.pendWrite; split <;> rfl
@[simp] theorem State.pendWrite_acts (k : PendKind) (due : Nat) (keep : List Reg) (x : Reg) (v : Vec) (s : State) :
    (s.pendWrite k due keep x v).acts = s.acts := by unfold State.pendWrite; split <;> rfl
@[simp] theorem State.pendWrite_cores (k : PendKind) (due : Nat) (keep : List Reg) (x : Reg) (v : Vec) (s : State) :
    (s.pendWrite k due keep x v).cores = s.cores := by unfold State.pendWrite; split <;> rfl
@[simp] theorem State.pendWrite_saved (k : PendKind) (due : Nat) (keep : List Reg) (x : Reg) (v : Vec) (s : State) :
    (s.pendWrite k due keep x v).saved = s.saved := by unfold State.pendWrite; split <;> rfl
@[simp] theorem State.pendWrite_mem (k : PendKind) (due : Nat) (keep : List Reg) (x : Reg) (v : Vec) (s : State) :
    (s.pendWrite k due keep x v).mem = s.mem := by unfold State.pendWrite; split <;> rfl
@[simp] theorem State.pendWrite_cache (k : PendKind) (due : Nat) (keep : List Reg) (x : Reg) (v : Vec) (s : State) :
    (s.pendWrite k due keep x v).cache = s.cache := by unfold State.pendWrite; split <;> rfl
@[simp] theorem State.pendWrite_dirs (k : PendKind) (due : Nat) (keep : List Reg) (x : Reg) (v : Vec) (s : State) :
    (s.pendWrite k due keep x v).dirs = s.dirs := by unfold State.pendWrite; split <;> rfl
@[simp] theorem State.pendWrite_disp (k : PendKind) (due : Nat) (keep : List Reg) (x : Reg) (v : Vec) (s : State) :
    (s.pendWrite k due keep x v).disp = s.disp := by unfold State.pendWrite; split <;> rfl
@[simp] theorem State.pendWrite_vds (k : PendKind) (due : Nat) (keep : List Reg) (x : Reg) (v : Vec) (s : State) :
    (s.pendWrite k due keep x v).vds = s.vds := by unfold State.pendWrite; split <;> rfl
@[simp] theorem State.pendWrite_svc (k : PendKind) (due : Nat) (keep : List Reg) (x : Reg) (v : Vec) (s : State) :
    (s.pendWrite k due keep x v).svc = s.svc := by unfold State.pendWrite; split <;> rfl
@[simp] theorem State.pendWrite_idle (k : PendKind) (due : Nat) (keep : List Reg) (x : Reg) (v : Vec) (s : State) :
    (s.pendWrite k due keep x v).idle = s.idle := by unfold State.pendWrite; split <;> rfl
@[simp] theorem State.pendWrite_arbs (k : PendKind) (due : Nat) (keep : List Reg) (x : Reg) (v : Vec) (s : State) :
    (s.pendWrite k due keep x v).arbs = s.arbs := by unfold State.pendWrite; split <;> rfl
@[simp] theorem State.pendWrite_passing (k : PendKind) (due : Nat) (keep : List Reg) (x : Reg) (v : Vec) (s : State) :
    (s.pendWrite k due keep x v).passing = s.passing := by unfold State.pendWrite; split <;> rfl
@[simp] theorem State.pendWrite_switch (k : PendKind) (due : Nat) (keep : List Reg) (x : Reg) (v : Vec) (s : State) :
    (s.pendWrite k due keep x v).switch = s.switch := by unfold State.pendWrite; split <;> rfl
@[simp] theorem State.pendWrite_msgs (k : PendKind) (due : Nat) (keep : List Reg) (x : Reg) (v : Vec) (s : State) :
    (s.pendWrite k due keep x v).msgs = s.msgs := by unfold State.pendWrite; split <;> rfl
@[simp] theorem State.pendWrite_agenda (k : PendKind) (due : Nat) (keep : List Reg) (x : Reg) (v : Vec) (s : State) :
    (s.pendWrite k due keep x v).agenda = s.agenda := by unfold State.pendWrite; split <;> rfl
@[simp] theorem State.pendWrite_phase (k : PendKind) (due : Nat) (keep : List Reg) (x : Reg) (v : Vec) (s : State) :
    (s.pendWrite k due keep x v).phase = s.phase := by unfold State.pendWrite; split <;> rfl
@[simp] theorem State.pendWrite_choiceCtr (k : PendKind) (due : Nat) (keep : List Reg) (x : Reg) (v : Vec) (s : State) :
    (s.pendWrite k due keep x v).choiceCtr = s.choiceCtr := by unfold State.pendWrite; split <;> rfl
@[simp] theorem State.pendWrite_nextUid (k : PendKind) (due : Nat) (keep : List Reg) (x : Reg) (v : Vec) (s : State) :
    (s.pendWrite k due keep x v).nextUid = s.nextUid := by unfold State.pendWrite; split <;> rfl
@[simp] theorem State.pendWrite_nextCmd (k : PendKind) (due : Nat) (keep : List Reg) (x : Reg) (v : Vec) (s : State) :
    (s.pendWrite k due keep x v).nextCmd = s.nextCmd := by unfold State.pendWrite; split <;> rfl
@[simp] theorem State.pendWrite_nextMsg (k : PendKind) (due : Nat) (keep : List Reg) (x : Reg) (v : Vec) (s : State) :
    (s.pendWrite k due keep x v).nextMsg = s.nextMsg := by unfold State.pendWrite; split <;> rfl
@[simp] theorem State.pendWrite_transits (k : PendKind) (due : Nat) (keep : List Reg) (x : Reg) (v : Vec) (s : State) :
    (s.pendWrite k due keep x v).transits = s.transits := by unfold State.pendWrite; split <;> rfl
@[simp] theorem State.pendWrite_nextTransit (k : PendKind) (due : Nat) (keep : List Reg) (x : Reg) (v : Vec) (s : State) :
    (s.pendWrite k due keep x v).nextTransit = s.nextTransit := by unfold State.pendWrite; split <;> rfl

/-! ## The activity that has issued -/

@[simp] theorem State.complete_me_uid (i : Instr) (s : State) : (s.complete i).me.uid = s.me.uid := by
  unfold State.complete State.resetRun; split <;> rfl
@[simp] theorem State.complete_me_life (i : Instr) (s : State) : (s.complete i).me.life = s.me.life := by
  unfold State.complete State.resetRun; split <;> rfl
@[simp] theorem State.complete_me_agent (i : Instr) (s : State) : (s.complete i).me.agent = s.me.agent := by
  unfold State.complete State.resetRun; split <;> rfl
@[simp] theorem State.complete_me_home (i : Instr) (s : State) : (s.complete i).me.home = s.me.home := by
  unfold State.complete State.resetRun; split <;> rfl
@[simp] theorem State.complete_me_slot (i : Instr) (s : State) : (s.complete i).me.slot = s.me.slot := by
  unfold State.complete State.resetRun; split <;> rfl
@[simp] theorem State.complete_me_gen (i : Instr) (s : State) : (s.complete i).me.gen = s.me.gen := by
  unfold State.complete State.resetRun; split <;> rfl
@[simp] theorem State.complete_me_job (i : Instr) (s : State) : (s.complete i).me.job = s.me.job := by
  unfold State.complete State.resetRun; split <;> rfl
@[simp] theorem State.complete_me_pc (i : Instr) (s : State) : (s.complete i).me.pc = s.me.pc + BitVec.ofNat 64 i.bytes := by
  unfold State.complete State.resetRun; split <;> rfl
@[simp] theorem State.complete_me_nextIssue (i : Instr) (s : State) : (s.complete i).me.nextIssue = max (s.cycle + 1 + i.stl) s.me.nextIssue := by
  unfold State.complete State.resetRun; split <;> rfl
@[simp] theorem State.complete_me_lastIssue (i : Instr) (s : State) : (s.complete i).me.lastIssue = s.cycle := by
  unfold State.complete State.resetRun; split <;> rfl
@[simp] theorem State.complete_me_regs (i : Instr) (s : State) : (s.complete i).me.regs = s.me.regs := by
  unfold State.complete State.resetRun; split <;> rfl
@[simp] theorem State.complete_me_pend (i : Instr) (s : State) : (s.complete i).me.pend = s.me.pend := by
  unfold State.complete State.resetRun; split <;> rfl
@[simp] theorem State.complete_me_claimed (i : Instr) (s : State) : (s.complete i).me.claimed = s.me.claimed := by
  unfold State.complete State.resetRun; split <;> rfl
@[simp] theorem State.complete_me_tiles (i : Instr) (s : State) : (s.complete i).me.tiles = s.me.tiles := by
  unfold State.complete State.resetRun; split <;> rfl
@[simp] theorem State.complete_me_accs (i : Instr) (s : State) : (s.complete i).me.accs = s.me.accs := by
  unfold State.complete State.resetRun; split <;> rfl
@[simp] theorem State.complete_me_tspilled (i : Instr) (s : State) : (s.complete i).me.tspilled = s.me.tspilled := by
  unfold State.complete State.resetRun; split <;> rfl
@[simp] theorem State.complete_me_aspilled (i : Instr) (s : State) : (s.complete i).me.aspilled = s.me.aspilled := by
  unfold State.complete State.resetRun; split <;> rfl
@[simp] theorem State.complete_me_torder (i : Instr) (s : State) : (s.complete i).me.torder = s.me.torder := by
  unfold State.complete State.resetRun; split <;> rfl
@[simp] theorem State.complete_me_spillArea (i : Instr) (s : State) : (s.complete i).me.spillArea = s.me.spillArea := by
  unfold State.complete State.resetRun; split <;> rfl
@[simp] theorem State.complete_me_matDone (i : Instr) (s : State) : (s.complete i).me.matDone = s.me.matDone := by
  unfold State.complete State.resetRun; split <;> rfl
@[simp] theorem State.complete_me_barEnds (i : Instr) (s : State) : (s.complete i).me.barEnds = s.me.barEnds := by
  unfold State.complete State.resetRun; split <;> rfl
@[simp] theorem State.complete_me_ts (i : Instr) (s : State) : (s.complete i).me.ts = s.me.ts := by
  unfold State.complete State.resetRun; split <;> rfl
@[simp] theorem State.complete_me_schk (i : Instr) (s : State) : (s.complete i).me.schk = s.me.schk := by
  unfold State.complete State.resetRun; split <;> rfl
@[simp] theorem State.complete_me_seed (i : Instr) (s : State) : (s.complete i).me.seed = s.me.seed := by
  unfold State.complete State.resetRun; split <;> rfl
@[simp] theorem State.complete_me_trap (i : Instr) (s : State) : (s.complete i).me.trap = s.me.trap := by
  unfold State.complete State.resetRun; split <;> rfl
@[simp] theorem State.complete_me_region (i : Instr) (s : State) : (s.complete i).me.region = s.me.region := by
  unfold State.complete State.resetRun; split <;> rfl
@[simp] theorem State.complete_me_psjpc (i : Instr) (s : State) : (s.complete i).me.psjpc = s.me.psjpc := by
  unfold State.complete State.resetRun; split <;> rfl
@[simp] theorem State.complete_me_lm (i : Instr) (s : State) : (s.complete i).me.lm = s.me.lm := by
  unfold State.complete State.resetRun; split <;> rfl
@[simp] theorem State.complete_me_frames (i : Instr) (s : State) : (s.complete i).me.frames = s.me.frames := by
  unfold State.complete State.resetRun; split <;> rfl
@[simp] theorem State.complete_me_reserve (i : Instr) (s : State) : (s.complete i).me.reserve = s.me.reserve := by
  unfold State.complete State.resetRun; split <;> rfl
@[simp] theorem State.complete_me_claims (i : Instr) (s : State) : (s.complete i).me.claims = s.me.claims := by
  unfold State.complete State.resetRun; split <;> rfl
@[simp] theorem State.complete_me_block (i : Instr) (s : State) : (s.complete i).me.block = s.me.block := by
  unfold State.complete State.resetRun; split <;> rfl
@[simp] theorem State.complete_me_firstTry (i : Instr) (s : State) : (s.complete i).me.firstTry = none := by
  unfold State.complete State.resetRun; split <;> rfl
@[simp] theorem State.complete_me_listRead (i : Instr) (s : State) : (s.complete i).me.listRead = none := by
  unfold State.complete State.resetRun; split <;> rfl
@[simp] theorem State.complete_me_descWait (i : Instr) (s : State) : (s.complete i).me.descWait = none := by
  unfold State.complete State.resetRun; split <;> rfl
@[simp] theorem State.complete_me_windows (i : Instr) (s : State) : (s.complete i).me.windows = s.me.windows := by
  unfold State.complete State.resetRun; split <;> rfl
@[simp] theorem State.complete_me_prog (i : Instr) (s : State) : (s.complete i).me.prog = s.me.prog := by
  unfold State.complete State.resetRun; split <;> rfl
@[simp] theorem State.complete_me_party (i : Instr) (s : State) : (s.complete i).me.party = s.me.party := by
  unfold State.complete State.resetRun; split <;> rfl
@[simp] theorem State.complete_me_settling (i : Instr) (s : State) : (s.complete i).me.settling = s.me.settling := by
  unfold State.complete State.resetRun; split <;> rfl
@[simp] theorem State.complete_me_doom (i : Instr) (s : State) : (s.complete i).me.doom = s.me.doom := by
  unfold State.complete State.resetRun; split <;> rfl
@[simp] theorem State.complete_me_fresh (i : Instr) (s : State) : (s.complete i).me.fresh = s.me.fresh := by
  unfold State.complete State.resetRun; split <;> rfl
@[simp] theorem State.complete_me_tags (i : Instr) (s : State) : (s.complete i).me.tags = s.me.tags := by
  unfold State.complete State.resetRun; split <;> rfl
@[simp] theorem State.complete_me_taints (i : Instr) (s : State) : (s.complete i).me.taints = s.me.taints := by
  unfold State.complete State.resetRun; split <;> rfl
@[simp] theorem State.complete_me_coll (i : Instr) (s : State) : (s.complete i).me.coll = s.me.coll := by
  unfold State.complete State.resetRun; split <;> rfl
@[simp] theorem State.complete_me_lastPc (i : Instr) (s : State) : (s.complete i).me.lastPc = s.me.pc := by
  unfold State.complete State.resetRun; split <;> rfl
@[simp] theorem State.complete_me_blockAt (i : Instr) (s : State) : (s.complete i).me.blockAt = s.cycle := by
  unfold State.complete State.resetRun; split <;> rfl
@[simp] theorem State.complete_me_helds (i : Instr) (s : State) : (s.complete i).me.helds = s.me.helds := by
  unfold State.complete State.resetRun; split <;> rfl
@[simp] theorem State.complete_me_promises (i : Instr) (s : State) : (s.complete i).me.promises = s.me.promises := by
  unfold State.complete State.resetRun; split <;> rfl
@[simp] theorem State.complete_me_quiet (i : Instr) (s : State) : (s.complete i).me.quiet = s.me.quiet := by
  unfold State.complete State.resetRun; split <;> rfl
@[simp] theorem State.complete_me_trapping (i : Instr) (s : State) : (s.complete i).me.trapping = s.me.trapping := by
  unfold State.complete State.resetRun; split <;> rfl
@[simp] theorem State.complete_me_seen (i : Instr) (s : State) : (s.complete i).me.seen = s.me.seen := by
  unfold State.complete State.resetRun; split <;> rfl

@[simp] theorem State.transfer_me_uid (i : Instr) (t : Int) (s : State) : (s.transfer i t).me.uid = s.me.uid := by
  unfold State.transfer State.resetRun; split <;> rfl
@[simp] theorem State.transfer_me_life (i : Instr) (t : Int) (s : State) : (s.transfer i t).me.life = s.me.life := by
  unfold State.transfer State.resetRun; split <;> rfl
@[simp] theorem State.transfer_me_agent (i : Instr) (t : Int) (s : State) : (s.transfer i t).me.agent = s.me.agent := by
  unfold State.transfer State.resetRun; split <;> rfl
@[simp] theorem State.transfer_me_home (i : Instr) (t : Int) (s : State) : (s.transfer i t).me.home = s.me.home := by
  unfold State.transfer State.resetRun; split <;> rfl
@[simp] theorem State.transfer_me_slot (i : Instr) (t : Int) (s : State) : (s.transfer i t).me.slot = s.me.slot := by
  unfold State.transfer State.resetRun; split <;> rfl
@[simp] theorem State.transfer_me_gen (i : Instr) (t : Int) (s : State) : (s.transfer i t).me.gen = s.me.gen := by
  unfold State.transfer State.resetRun; split <;> rfl
@[simp] theorem State.transfer_me_job (i : Instr) (t : Int) (s : State) : (s.transfer i t).me.job = s.me.job := by
  unfold State.transfer State.resetRun; split <;> rfl
@[simp] theorem State.transfer_me_pc (i : Instr) (t : Int) (s : State) : (s.transfer i t).me.pc = BitVec.ofInt 64 t := by
  unfold State.transfer State.resetRun; split <;> rfl
@[simp] theorem State.transfer_me_lastIssue (i : Instr) (t : Int) (s : State) : (s.transfer i t).me.lastIssue = s.cycle := by
  unfold State.transfer State.resetRun; split <;> rfl
@[simp] theorem State.transfer_me_regs (i : Instr) (t : Int) (s : State) : (s.transfer i t).me.regs = s.me.regs := by
  unfold State.transfer State.resetRun; split <;> rfl
@[simp] theorem State.transfer_me_pend (i : Instr) (t : Int) (s : State) : (s.transfer i t).me.pend = s.me.pend := by
  unfold State.transfer State.resetRun; split <;> rfl
@[simp] theorem State.transfer_me_claimed (i : Instr) (t : Int) (s : State) : (s.transfer i t).me.claimed = s.me.claimed := by
  unfold State.transfer State.resetRun; split <;> rfl
@[simp] theorem State.transfer_me_tiles (i : Instr) (t : Int) (s : State) : (s.transfer i t).me.tiles = s.me.tiles := by
  unfold State.transfer State.resetRun; split <;> rfl
@[simp] theorem State.transfer_me_accs (i : Instr) (t : Int) (s : State) : (s.transfer i t).me.accs = s.me.accs := by
  unfold State.transfer State.resetRun; split <;> rfl
@[simp] theorem State.transfer_me_tspilled (i : Instr) (t : Int) (s : State) : (s.transfer i t).me.tspilled = s.me.tspilled := by
  unfold State.transfer State.resetRun; split <;> rfl
@[simp] theorem State.transfer_me_aspilled (i : Instr) (t : Int) (s : State) : (s.transfer i t).me.aspilled = s.me.aspilled := by
  unfold State.transfer State.resetRun; split <;> rfl
@[simp] theorem State.transfer_me_torder (i : Instr) (t : Int) (s : State) : (s.transfer i t).me.torder = s.me.torder := by
  unfold State.transfer State.resetRun; split <;> rfl
@[simp] theorem State.transfer_me_spillArea (i : Instr) (t : Int) (s : State) : (s.transfer i t).me.spillArea = s.me.spillArea := by
  unfold State.transfer State.resetRun; split <;> rfl
@[simp] theorem State.transfer_me_matDone (i : Instr) (t : Int) (s : State) : (s.transfer i t).me.matDone = s.me.matDone := by
  unfold State.transfer State.resetRun; split <;> rfl
@[simp] theorem State.transfer_me_barEnds (i : Instr) (t : Int) (s : State) : (s.transfer i t).me.barEnds = s.me.barEnds := by
  unfold State.transfer State.resetRun; split <;> rfl
@[simp] theorem State.transfer_me_ts (i : Instr) (t : Int) (s : State) : (s.transfer i t).me.ts = s.me.ts := by
  unfold State.transfer State.resetRun; split <;> rfl
@[simp] theorem State.transfer_me_schk (i : Instr) (t : Int) (s : State) : (s.transfer i t).me.schk = s.me.schk := by
  unfold State.transfer State.resetRun; split <;> rfl
@[simp] theorem State.transfer_me_seed (i : Instr) (t : Int) (s : State) : (s.transfer i t).me.seed = s.me.seed := by
  unfold State.transfer State.resetRun; split <;> rfl
@[simp] theorem State.transfer_me_trap (i : Instr) (t : Int) (s : State) : (s.transfer i t).me.trap = s.me.trap := by
  unfold State.transfer State.resetRun; split <;> rfl
@[simp] theorem State.transfer_me_region (i : Instr) (t : Int) (s : State) : (s.transfer i t).me.region = s.me.region := by
  unfold State.transfer State.resetRun; split <;> rfl
@[simp] theorem State.transfer_me_psjpc (i : Instr) (t : Int) (s : State) : (s.transfer i t).me.psjpc = s.me.psjpc := by
  unfold State.transfer State.resetRun; split <;> rfl
@[simp] theorem State.transfer_me_lm (i : Instr) (t : Int) (s : State) : (s.transfer i t).me.lm = s.me.lm := by
  unfold State.transfer State.resetRun; split <;> rfl
@[simp] theorem State.transfer_me_frames (i : Instr) (t : Int) (s : State) : (s.transfer i t).me.frames = s.me.frames := by
  unfold State.transfer State.resetRun; split <;> rfl
@[simp] theorem State.transfer_me_reserve (i : Instr) (t : Int) (s : State) : (s.transfer i t).me.reserve = s.me.reserve := by
  unfold State.transfer State.resetRun; split <;> rfl
@[simp] theorem State.transfer_me_claims (i : Instr) (t : Int) (s : State) : (s.transfer i t).me.claims = s.me.claims := by
  unfold State.transfer State.resetRun; split <;> rfl
@[simp] theorem State.transfer_me_block (i : Instr) (t : Int) (s : State) : (s.transfer i t).me.block = s.me.block := by
  unfold State.transfer State.resetRun; split <;> rfl
@[simp] theorem State.transfer_me_firstTry (i : Instr) (t : Int) (s : State) : (s.transfer i t).me.firstTry = none := by
  unfold State.transfer State.resetRun; split <;> rfl
@[simp] theorem State.transfer_me_listRead (i : Instr) (t : Int) (s : State) : (s.transfer i t).me.listRead = none := by
  unfold State.transfer State.resetRun; split <;> rfl
@[simp] theorem State.transfer_me_descWait (i : Instr) (t : Int) (s : State) : (s.transfer i t).me.descWait = none := by
  unfold State.transfer State.resetRun; split <;> rfl
@[simp] theorem State.transfer_me_windows (i : Instr) (t : Int) (s : State) : (s.transfer i t).me.windows = s.me.windows := by
  unfold State.transfer State.resetRun; split <;> rfl
@[simp] theorem State.transfer_me_prog (i : Instr) (t : Int) (s : State) : (s.transfer i t).me.prog = s.me.prog := by
  unfold State.transfer State.resetRun; split <;> rfl
@[simp] theorem State.transfer_me_party (i : Instr) (t : Int) (s : State) : (s.transfer i t).me.party = s.me.party := by
  unfold State.transfer State.resetRun; split <;> rfl
@[simp] theorem State.transfer_me_settling (i : Instr) (t : Int) (s : State) : (s.transfer i t).me.settling = s.me.settling := by
  unfold State.transfer State.resetRun; split <;> rfl
@[simp] theorem State.transfer_me_doom (i : Instr) (t : Int) (s : State) : (s.transfer i t).me.doom = s.me.doom := by
  unfold State.transfer State.resetRun; split <;> rfl
@[simp] theorem State.transfer_me_fresh (i : Instr) (t : Int) (s : State) : (s.transfer i t).me.fresh = s.me.fresh := by
  unfold State.transfer State.resetRun; split <;> rfl
@[simp] theorem State.transfer_me_tags (i : Instr) (t : Int) (s : State) : (s.transfer i t).me.tags = s.me.tags := by
  unfold State.transfer State.resetRun; split <;> rfl
@[simp] theorem State.transfer_me_taints (i : Instr) (t : Int) (s : State) : (s.transfer i t).me.taints = s.me.taints := by
  unfold State.transfer State.resetRun; split <;> rfl
@[simp] theorem State.transfer_me_coll (i : Instr) (t : Int) (s : State) : (s.transfer i t).me.coll = s.me.coll := by
  unfold State.transfer State.resetRun; split <;> rfl
@[simp] theorem State.transfer_me_lastPc (i : Instr) (t : Int) (s : State) : (s.transfer i t).me.lastPc = s.me.pc := by
  unfold State.transfer State.resetRun; split <;> rfl
@[simp] theorem State.transfer_me_blockAt (i : Instr) (t : Int) (s : State) : (s.transfer i t).me.blockAt = s.cycle := by
  unfold State.transfer State.resetRun; split <;> rfl
@[simp] theorem State.transfer_me_helds (i : Instr) (t : Int) (s : State) : (s.transfer i t).me.helds = s.me.helds := by
  unfold State.transfer State.resetRun; split <;> rfl
@[simp] theorem State.transfer_me_promises (i : Instr) (t : Int) (s : State) : (s.transfer i t).me.promises = s.me.promises := by
  unfold State.transfer State.resetRun; split <;> rfl
@[simp] theorem State.transfer_me_quiet (i : Instr) (t : Int) (s : State) : (s.transfer i t).me.quiet = s.me.quiet := by
  unfold State.transfer State.resetRun; split <;> rfl
@[simp] theorem State.transfer_me_trapping (i : Instr) (t : Int) (s : State) : (s.transfer i t).me.trapping = s.me.trapping := by
  unfold State.transfer State.resetRun; split <;> rfl
@[simp] theorem State.transfer_me_seen (i : Instr) (t : Int) (s : State) : (s.transfer i t).me.seen = s.me.seen := by
  unfold State.transfer State.resetRun; split <;> rfl

@[simp] theorem State.pendWrite_me_uid (k : PendKind) (due : Nat) (keep : List Reg) (x : Reg) (v : Vec) (s : State) :
    (s.pendWrite k due keep x v).me.uid = s.me.uid := by unfold State.pendWrite; split <;> rfl
@[simp] theorem State.pendWrite_me_life (k : PendKind) (due : Nat) (keep : List Reg) (x : Reg) (v : Vec) (s : State) :
    (s.pendWrite k due keep x v).me.life = s.me.life := by unfold State.pendWrite; split <;> rfl
@[simp] theorem State.pendWrite_me_agent (k : PendKind) (due : Nat) (keep : List Reg) (x : Reg) (v : Vec) (s : State) :
    (s.pendWrite k due keep x v).me.agent = s.me.agent := by unfold State.pendWrite; split <;> rfl
@[simp] theorem State.pendWrite_me_home (k : PendKind) (due : Nat) (keep : List Reg) (x : Reg) (v : Vec) (s : State) :
    (s.pendWrite k due keep x v).me.home = s.me.home := by unfold State.pendWrite; split <;> rfl
@[simp] theorem State.pendWrite_me_slot (k : PendKind) (due : Nat) (keep : List Reg) (x : Reg) (v : Vec) (s : State) :
    (s.pendWrite k due keep x v).me.slot = s.me.slot := by unfold State.pendWrite; split <;> rfl
@[simp] theorem State.pendWrite_me_gen (k : PendKind) (due : Nat) (keep : List Reg) (x : Reg) (v : Vec) (s : State) :
    (s.pendWrite k due keep x v).me.gen = s.me.gen := by unfold State.pendWrite; split <;> rfl
@[simp] theorem State.pendWrite_me_job (k : PendKind) (due : Nat) (keep : List Reg) (x : Reg) (v : Vec) (s : State) :
    (s.pendWrite k due keep x v).me.job = s.me.job := by unfold State.pendWrite; split <;> rfl
@[simp] theorem State.pendWrite_me_pc (k : PendKind) (due : Nat) (keep : List Reg) (x : Reg) (v : Vec) (s : State) :
    (s.pendWrite k due keep x v).me.pc = s.me.pc := by unfold State.pendWrite; split <;> rfl
@[simp] theorem State.pendWrite_me_nextIssue (k : PendKind) (due : Nat) (keep : List Reg) (x : Reg) (v : Vec) (s : State) :
    (s.pendWrite k due keep x v).me.nextIssue = s.me.nextIssue := by unfold State.pendWrite; split <;> rfl
@[simp] theorem State.pendWrite_me_lastIssue (k : PendKind) (due : Nat) (keep : List Reg) (x : Reg) (v : Vec) (s : State) :
    (s.pendWrite k due keep x v).me.lastIssue = s.me.lastIssue := by unfold State.pendWrite; split <;> rfl
@[simp] theorem State.pendWrite_me_regs (k : PendKind) (due : Nat) (keep : List Reg) (x : Reg) (v : Vec) (s : State) :
    (s.pendWrite k due keep x v).me.regs = s.me.regs := by unfold State.pendWrite; split <;> rfl
@[simp] theorem State.pendWrite_me_claimed (k : PendKind) (due : Nat) (keep : List Reg) (x : Reg) (v : Vec) (s : State) :
    (s.pendWrite k due keep x v).me.claimed = s.me.claimed := by unfold State.pendWrite; split <;> rfl
@[simp] theorem State.pendWrite_me_tiles (k : PendKind) (due : Nat) (keep : List Reg) (x : Reg) (v : Vec) (s : State) :
    (s.pendWrite k due keep x v).me.tiles = s.me.tiles := by unfold State.pendWrite; split <;> rfl
@[simp] theorem State.pendWrite_me_accs (k : PendKind) (due : Nat) (keep : List Reg) (x : Reg) (v : Vec) (s : State) :
    (s.pendWrite k due keep x v).me.accs = s.me.accs := by unfold State.pendWrite; split <;> rfl
@[simp] theorem State.pendWrite_me_tspilled (k : PendKind) (due : Nat) (keep : List Reg) (x : Reg) (v : Vec) (s : State) :
    (s.pendWrite k due keep x v).me.tspilled = s.me.tspilled := by unfold State.pendWrite; split <;> rfl
@[simp] theorem State.pendWrite_me_aspilled (k : PendKind) (due : Nat) (keep : List Reg) (x : Reg) (v : Vec) (s : State) :
    (s.pendWrite k due keep x v).me.aspilled = s.me.aspilled := by unfold State.pendWrite; split <;> rfl
@[simp] theorem State.pendWrite_me_torder (k : PendKind) (due : Nat) (keep : List Reg) (x : Reg) (v : Vec) (s : State) :
    (s.pendWrite k due keep x v).me.torder = s.me.torder := by unfold State.pendWrite; split <;> rfl
@[simp] theorem State.pendWrite_me_spillArea (k : PendKind) (due : Nat) (keep : List Reg) (x : Reg) (v : Vec) (s : State) :
    (s.pendWrite k due keep x v).me.spillArea = s.me.spillArea := by unfold State.pendWrite; split <;> rfl
@[simp] theorem State.pendWrite_me_matDone (k : PendKind) (due : Nat) (keep : List Reg) (x : Reg) (v : Vec) (s : State) :
    (s.pendWrite k due keep x v).me.matDone = s.me.matDone := by unfold State.pendWrite; split <;> rfl
@[simp] theorem State.pendWrite_me_barEnds (k : PendKind) (due : Nat) (keep : List Reg) (x : Reg) (v : Vec) (s : State) :
    (s.pendWrite k due keep x v).me.barEnds = s.me.barEnds := by unfold State.pendWrite; split <;> rfl
@[simp] theorem State.pendWrite_me_ts (k : PendKind) (due : Nat) (keep : List Reg) (x : Reg) (v : Vec) (s : State) :
    (s.pendWrite k due keep x v).me.ts = s.me.ts := by unfold State.pendWrite; split <;> rfl
@[simp] theorem State.pendWrite_me_schk (k : PendKind) (due : Nat) (keep : List Reg) (x : Reg) (v : Vec) (s : State) :
    (s.pendWrite k due keep x v).me.schk = s.me.schk := by unfold State.pendWrite; split <;> rfl
@[simp] theorem State.pendWrite_me_seed (k : PendKind) (due : Nat) (keep : List Reg) (x : Reg) (v : Vec) (s : State) :
    (s.pendWrite k due keep x v).me.seed = s.me.seed := by unfold State.pendWrite; split <;> rfl
@[simp] theorem State.pendWrite_me_runc (k : PendKind) (due : Nat) (keep : List Reg) (x : Reg) (v : Vec) (s : State) :
    (s.pendWrite k due keep x v).me.runc = s.me.runc := by unfold State.pendWrite; split <;> rfl
@[simp] theorem State.pendWrite_me_overrun (k : PendKind) (due : Nat) (keep : List Reg) (x : Reg) (v : Vec) (s : State) :
    (s.pendWrite k due keep x v).me.overrun = s.me.overrun := by unfold State.pendWrite; split <;> rfl
@[simp] theorem State.pendWrite_me_trap (k : PendKind) (due : Nat) (keep : List Reg) (x : Reg) (v : Vec) (s : State) :
    (s.pendWrite k due keep x v).me.trap = s.me.trap := by unfold State.pendWrite; split <;> rfl
@[simp] theorem State.pendWrite_me_region (k : PendKind) (due : Nat) (keep : List Reg) (x : Reg) (v : Vec) (s : State) :
    (s.pendWrite k due keep x v).me.region = s.me.region := by unfold State.pendWrite; split <;> rfl
@[simp] theorem State.pendWrite_me_psjpc (k : PendKind) (due : Nat) (keep : List Reg) (x : Reg) (v : Vec) (s : State) :
    (s.pendWrite k due keep x v).me.psjpc = s.me.psjpc := by unfold State.pendWrite; split <;> rfl
@[simp] theorem State.pendWrite_me_lm (k : PendKind) (due : Nat) (keep : List Reg) (x : Reg) (v : Vec) (s : State) :
    (s.pendWrite k due keep x v).me.lm = s.me.lm := by unfold State.pendWrite; split <;> rfl
@[simp] theorem State.pendWrite_me_frames (k : PendKind) (due : Nat) (keep : List Reg) (x : Reg) (v : Vec) (s : State) :
    (s.pendWrite k due keep x v).me.frames = s.me.frames := by unfold State.pendWrite; split <;> rfl
@[simp] theorem State.pendWrite_me_reserve (k : PendKind) (due : Nat) (keep : List Reg) (x : Reg) (v : Vec) (s : State) :
    (s.pendWrite k due keep x v).me.reserve = s.me.reserve := by unfold State.pendWrite; split <;> rfl
@[simp] theorem State.pendWrite_me_claims (k : PendKind) (due : Nat) (keep : List Reg) (x : Reg) (v : Vec) (s : State) :
    (s.pendWrite k due keep x v).me.claims = s.me.claims := by unfold State.pendWrite; split <;> rfl
@[simp] theorem State.pendWrite_me_block (k : PendKind) (due : Nat) (keep : List Reg) (x : Reg) (v : Vec) (s : State) :
    (s.pendWrite k due keep x v).me.block = s.me.block := by unfold State.pendWrite; split <;> rfl
@[simp] theorem State.pendWrite_me_firstTry (k : PendKind) (due : Nat) (keep : List Reg) (x : Reg) (v : Vec) (s : State) :
    (s.pendWrite k due keep x v).me.firstTry = s.me.firstTry := by unfold State.pendWrite; split <;> rfl
@[simp] theorem State.pendWrite_me_listRead (k : PendKind) (due : Nat) (keep : List Reg) (x : Reg) (v : Vec) (s : State) :
    (s.pendWrite k due keep x v).me.listRead = s.me.listRead := by unfold State.pendWrite; split <;> rfl
@[simp] theorem State.pendWrite_me_descWait (k : PendKind) (due : Nat) (keep : List Reg) (x : Reg) (v : Vec) (s : State) :
    (s.pendWrite k due keep x v).me.descWait = s.me.descWait := by unfold State.pendWrite; split <;> rfl
@[simp] theorem State.pendWrite_me_windows (k : PendKind) (due : Nat) (keep : List Reg) (x : Reg) (v : Vec) (s : State) :
    (s.pendWrite k due keep x v).me.windows = s.me.windows := by unfold State.pendWrite; split <;> rfl
@[simp] theorem State.pendWrite_me_prog (k : PendKind) (due : Nat) (keep : List Reg) (x : Reg) (v : Vec) (s : State) :
    (s.pendWrite k due keep x v).me.prog = s.me.prog := by unfold State.pendWrite; split <;> rfl
@[simp] theorem State.pendWrite_me_party (k : PendKind) (due : Nat) (keep : List Reg) (x : Reg) (v : Vec) (s : State) :
    (s.pendWrite k due keep x v).me.party = s.me.party := by unfold State.pendWrite; split <;> rfl
@[simp] theorem State.pendWrite_me_settling (k : PendKind) (due : Nat) (keep : List Reg) (x : Reg) (v : Vec) (s : State) :
    (s.pendWrite k due keep x v).me.settling = s.me.settling := by unfold State.pendWrite; split <;> rfl
@[simp] theorem State.pendWrite_me_doom (k : PendKind) (due : Nat) (keep : List Reg) (x : Reg) (v : Vec) (s : State) :
    (s.pendWrite k due keep x v).me.doom = s.me.doom := by unfold State.pendWrite; split <;> rfl
@[simp] theorem State.pendWrite_me_fresh (k : PendKind) (due : Nat) (keep : List Reg) (x : Reg) (v : Vec) (s : State) :
    (s.pendWrite k due keep x v).me.fresh = s.me.fresh := by unfold State.pendWrite; split <;> rfl
@[simp] theorem State.pendWrite_me_tags (k : PendKind) (due : Nat) (keep : List Reg) (x : Reg) (v : Vec) (s : State) :
    (s.pendWrite k due keep x v).me.tags = s.me.tags := by unfold State.pendWrite; split <;> rfl
@[simp] theorem State.pendWrite_me_taints (k : PendKind) (due : Nat) (keep : List Reg) (x : Reg) (v : Vec) (s : State) :
    (s.pendWrite k due keep x v).me.taints = s.me.taints := by unfold State.pendWrite; split <;> rfl
@[simp] theorem State.pendWrite_me_coll (k : PendKind) (due : Nat) (keep : List Reg) (x : Reg) (v : Vec) (s : State) :
    (s.pendWrite k due keep x v).me.coll = s.me.coll := by unfold State.pendWrite; split <;> rfl
@[simp] theorem State.pendWrite_me_lastPc (k : PendKind) (due : Nat) (keep : List Reg) (x : Reg) (v : Vec) (s : State) :
    (s.pendWrite k due keep x v).me.lastPc = s.me.lastPc := by unfold State.pendWrite; split <;> rfl
@[simp] theorem State.pendWrite_me_blockAt (k : PendKind) (due : Nat) (keep : List Reg) (x : Reg) (v : Vec) (s : State) :
    (s.pendWrite k due keep x v).me.blockAt = s.me.blockAt := by unfold State.pendWrite; split <;> rfl
@[simp] theorem State.pendWrite_me_helds (k : PendKind) (due : Nat) (keep : List Reg) (x : Reg) (v : Vec) (s : State) :
    (s.pendWrite k due keep x v).me.helds = s.me.helds := by unfold State.pendWrite; split <;> rfl
@[simp] theorem State.pendWrite_me_promises (k : PendKind) (due : Nat) (keep : List Reg) (x : Reg) (v : Vec) (s : State) :
    (s.pendWrite k due keep x v).me.promises = s.me.promises := by unfold State.pendWrite; split <;> rfl
@[simp] theorem State.pendWrite_me_quiet (k : PendKind) (due : Nat) (keep : List Reg) (x : Reg) (v : Vec) (s : State) :
    (s.pendWrite k due keep x v).me.quiet = s.me.quiet := by unfold State.pendWrite; split <;> rfl
@[simp] theorem State.pendWrite_me_trapping (k : PendKind) (due : Nat) (keep : List Reg) (x : Reg) (v : Vec) (s : State) :
    (s.pendWrite k due keep x v).me.trapping = s.me.trapping := by unfold State.pendWrite; split <;> rfl
@[simp] theorem State.pendWrite_me_seen (k : PendKind) (due : Nat) (keep : List Reg) (x : Reg) (v : Vec) (s : State) :
    (s.pendWrite k due keep x v).me.seen = s.me.seen := by unfold State.pendWrite; split <;> rfl
theorem State.pendWrite_me_pend (k : PendKind) (due : Nat) (keep : List Reg) (x : Reg) (v : Vec) (s : State) :
    (s.pendWrite k due keep x v).me.pend = s.me.pend ++ (if x.binds then [⟨x, v, due, k, keep⟩] else []) := by
  unfold State.pendWrite; cases x.binds <;> simp

end Sys2Proof.Machine
end

