-- ==== Sys2Proof/Laws/Ops.lean ====
section
/-! SUPPORT. Spec lemmas of the shared operations: the checks of R100, issuing, holding, completing and taking a trap. -/

namespace Sys2Proof.Machine

/-! ## The checks -/

theorem findSome_pend_none {a : Activity} : ∀ {l : List Reg}, (∀ x ∈ l, a.pendOf x = none) → a.firstShort l = none
  | [], _ => rfl
  | x :: l, h => by
    have hx := h x (List.mem_cons_self ..)
    have hl : a.firstShort l = none := findSome_pend_none (fun y hy => h y (List.mem_cons_of_mem _ hy))
    unfold Activity.firstShort at hl ⊢
    simp [hx, hl]

/-- The checks from the guard on, for a legal instruction of the agent whose system register exists and may be written. -/
def laterChecks (i : Instr) (s : State) : Pre :=
  let a := s.me
  let guard : Pre :=
    match i.guard with
    | none => .go
    | some (x, neg) =>
      if a.interlocked x then .hold
      else match a.pendOf x with
        | some p => if a.schk then .trap 3 (s.stallInfo x p.due)
          else if (a.g x.num ≠ 0) != neg then .go else .squelch
        | none =>
          match a.badHome [x] with
          | some w => .poison w
          | none => if (a.g x.num ≠ 0) != neg then .go else .squelch
  match guard with
  | .go =>
    let rs := a.reads i
    if rs.any a.interlocked || i.dsts.any a.interlocked then .hold
    else if a.schk && (a.firstShort rs).isSome then
      (match a.firstShort rs with
       | some (x, due) => .trap 3 (s.stallInfo x due)
       | none => .go)
    else if i.dsts.any (fun x => (a.pendOf x).isSome) then .hold
    else match a.badHome rs with
      | some w => .poison w
      | none => .go
  | p => p

theorem precheck_sys {i : Instr} {s : State} (hl : i.legal = true) (ha : i.onAgent s.me.agent.kind = true)
    (h1 : ∀ n w, sysRegOf i = some (n, w) → sysAssigned n s.me.agent.kind = true)
    (h2 : ∀ n, sysRegOf i = some (n, true) → sysWritable n = true) : precheck i s = laterChecks i s := by
  unfold precheck laterChecks
  rcases hs : sysRegOf i with _ | ⟨n, w⟩
  · simp only [hl, ha, Bool.not_true, Bool.or_self, Bool.false_eq_true, if_false]; try rfl
  · have e1 := h1 n w hs
    cases w with
    | false => simp only [hl, ha, e1, Bool.not_true, Bool.or_self, Bool.false_and, Bool.false_eq_true, if_false]; try rfl
    | true =>
      have e2 := h2 n hs
      simp only [hl, ha, e1, e2, Bool.not_true, Bool.or_self, Bool.and_false, Bool.false_eq_true, if_false]; try rfl

/-- A ready instruction passes every check. -/
theorem precheck_ready {i : Instr} {s : State} (h : Ready i s) : precheck i s = .go := by
  have hl : i.legal = true := h.legal
  have h3 : (s.me.reads i).any s.me.interlocked = false := by
    rw [List.any_eq_false]; intro x hx; simp [h.sources x hx]
  have h4 : i.dsts.any s.me.interlocked = false := by
    rw [List.any_eq_false]; intro x hx; simp [(h.targets x hx).1]
  have h6 : i.dsts.any (fun x => (s.me.pendOf x).isSome) = false := by
    rw [List.any_eq_false]; intro x hx; simp [(h.targets x hx).2]
  have h5 : (s.me.schk && (s.me.firstShort (s.me.reads i)).isSome) = false := by
    cases hc : s.me.schk with
    | false => rfl
    | true => simp [findSome_pend_none (h.stalled hc)]
  rw [precheck_sys hl h.agent h.assigned h.writable, laterChecks]
  cases hg : i.guard with
  | none => simp [h3, h4, h5, h6, h.homes]
  | some p =>
    obtain ⟨x, neg⟩ := p
    obtain ⟨g1, g2, g3⟩ := h.guarded x neg hg
    have g4 : decide (s.me.g x.num = 0#64) = neg := by
      cases neg <;> simp_all
    cases hp : s.me.pendOf x with
    | none => simp [hp, g1, g4, h3, h4, h5, h6, h.homes, h.gate x neg hg hp]
    | some q =>
      cases hc : s.me.schk with
      | true => exact absurd (g2 hc) (by simp [hp])
      | false => simp [hp, g1, g4, h3, h4, h6, h.homes]

/-- An instruction whose guard does not hold has no effect. -/
theorem precheck_guarded {i : Instr} {s : State} (h : Guarded i s) : precheck i s = .squelch := by
  have hl : i.legal = true := h.legal
  obtain ⟨x, neg, hg, g1, g2, g5, g3⟩ := h.fails
  have g4 : decide (s.me.g x.num = 0#64) = !neg := by
    cases neg <;> simp_all
  rw [precheck_sys hl h.agent h.assigned h.writable, laterChecks]
  simp only [hg]
  cases hp : s.me.pendOf x with
  | none => simp [g1, g4, g5 hp]
  | some q =>
    cases hc : s.me.schk with
    | true => exact absurd (g2 hc) (by simp [hp])
    | false => simp [g1, g4]

theorem firstShort_none {a : Activity} : ∀ {l : List Reg}, a.firstShort l = none → ∀ x ∈ l, a.pendOf x = none
  | [], _, _, hx => absurd hx (by simp)
  | y :: l, h, x, hx => by
    unfold Activity.firstShort at h
    rw [List.findSome?_eq_none_iff] at h
    simpa using h x hx

/-- What the first checks of R100 passed mean. -/
theorem sys_of_precheck {i : Instr} {s : State} (h : ∀ c w, precheck i s ≠ .trap c w) : i.legal = true ∧
    i.onAgent s.me.agent.kind = true ∧ (∀ n w, sysRegOf i = some (n, w) → sysAssigned n s.me.agent.kind = true) ∧
    (∀ n, sysRegOf i = some (n, true) → sysWritable n = true) := by
  by_cases h1 : i.legal = true
  · by_cases h2 : i.onAgent s.me.agent.kind = true
    · rcases hs : sysRegOf i with _ | ⟨n, w⟩
      · exact ⟨h1, h2, by simp, by simp⟩
      · by_cases h3 : sysAssigned n s.me.agent.kind = true
        · refine ⟨h1, h2, fun m v e => by cases e; exact h3, fun m e => ?_⟩
          cases e
          cases h4 : sysWritable n with
          | true => rfl
          | false => exact absurd (by simp only [precheck, h1, h2, hs, h3, h4]; rfl) (h 0x0D (BitVec.ofNat 64 n))
        · exact absurd (by simp only [precheck, h1, h2, hs, h3]; rfl) (h 1 (illegalInfo i))
    · exact absurd (by simp only [precheck, h1, h2]; rfl) (h 1 (illegalInfo i))
  · exact absurd (by simp only [precheck, h1]; rfl) (h 1 (illegalInfo i))

/-- What the checks of the operands passed mean. -/
theorem operands_of_checks {i : Instr} {a : Activity} {s : State}
    (h : (if (a.reads i).any a.interlocked || i.dsts.any a.interlocked then Pre.hold
      else if a.schk && (a.firstShort (a.reads i)).isSome then
        (match a.firstShort (a.reads i) with
         | some (x, due) => .trap 3 (s.stallInfo x due)
         | none => .go)
      else if i.dsts.any (fun x => (a.pendOf x).isSome) then .hold
      else match a.badHome (a.reads i) with
        | some w => .poison w
        | none => .go) = .go) :
    (∀ x ∈ a.reads i, a.interlocked x = false) ∧ (a.schk = true → ∀ x ∈ a.reads i, a.pendOf x = none) ∧
    (∀ x ∈ i.dsts, a.interlocked x = false ∧ a.pendOf x = none) ∧ a.badHome (a.reads i) = none := by
  split at h
  · cases h
  next h0 =>
    simp only [Bool.or_eq_true, not_or, Bool.not_eq_true] at h0
    obtain ⟨h1, h2⟩ := h0
    split at h
    next hc =>
      split at h
      · cases h
      next hn => simp [hn] at hc
    next hc =>
      split at h
      · cases h
      next hd =>
        split at h
        · cases h
        next hb =>
          simp only [Bool.not_eq_true] at hd
          refine ⟨fun x hx => by simpa using (List.any_eq_false.mp h1) x hx, fun hs x hx => firstShort_none ?_ x hx,
            fun x hx => ⟨by simpa using (List.any_eq_false.mp h2) x hx, by simpa using (List.any_eq_false.mp hd) x hx⟩, hb⟩
          simpa [hs] using hc

theorem laterChecks_go {i : Instr} {s : State} (h : laterChecks i s = .go) :
    (∀ x neg, i.guard = some (x, neg) →
      s.me.interlocked x = false ∧ (s.me.schk = true → s.me.pendOf x = none) ∧ ((s.me.g x.num ≠ 0) ↔ neg = false)) ∧
    (∀ x neg, i.guard = some (x, neg) → s.me.pendOf x = none → s.me.badHome [x] = none) ∧
    (∀ x ∈ s.me.reads i, s.me.interlocked x = false) ∧ (s.me.schk = true → ∀ x ∈ s.me.reads i, s.me.pendOf x = none) ∧
    (∀ x ∈ i.dsts, s.me.interlocked x = false ∧ s.me.pendOf x = none) ∧ s.me.badHome (s.me.reads i) = none := by
  unfold laterChecks at h
  rcases hg : i.guard with _ | ⟨x, neg⟩
  · rw [hg] at h
    exact ⟨by simp, by simp, operands_of_checks h⟩
  · rw [hg] at h
    dsimp only at h
    by_cases hi : s.me.interlocked x = true
    · rw [if_pos hi] at h; cases h
    rw [if_neg hi] at h
    have hb : s.me.pendOf x = none → s.me.badHome [x] = none := fun hp => by
      cases hw : s.me.badHome [x] with
      | none => rfl
      | some w => simp [hp, hw] at h
    have hn : ((s.me.g x.num ≠ 0) != neg) = true := by
      by_contra e
      simp only [e, if_false] at h
      cases hp : s.me.pendOf x with
      | none => simp [hp, hb hp] at h
      | some q => cases hc : s.me.schk <;> simp [hp, hc] at h
    have hs : s.me.schk = true → s.me.pendOf x = none := fun hc => by
      cases hp : s.me.pendOf x with
      | none => rfl
      | some p => simp [hp, hc] at h
    refine ⟨fun y m e => ?_, fun y m e => ?_, operands_of_checks (s := s) ?_⟩
    · cases e
      exact ⟨by simpa using hi, hs, by cases neg <;> simpa using hn⟩
    · cases e
      exact hb
    · cases hp : s.me.pendOf x with
      | none => simp only [hp, hb hp, hn, if_true] at h; exact h
      | some p =>
        cases hc : s.me.schk with
        | true => exact absurd (hs hc) (by simp [hp])
        | false => simp only [hp, hn, hc, if_true, Bool.false_eq_true, if_false] at h; exact h

/-- The checks passed make an instruction ready, if no blocking access waits for the vector unit. -/
theorem ready_of_precheck {i : Instr} {s : State} (h : precheck i s = .go) (v : (i.blocking && s.vecBusy) = false) : Ready i s := by
  obtain ⟨h1, h2, h3, h4⟩ := sys_of_precheck (i := i) (s := s) (by simp [h])
  rw [precheck_sys h1 h2 h3 h4] at h
  obtain ⟨g1, g6, g2, g3, g4, g5⟩ := laterChecks_go h
  exact ⟨h1, h2, h3, h4, g1, g6, g2, g3, g4, g5, fun hb => by simpa [hb] using v⟩

/-- An instruction that is squelched has a guard that does not hold. -/
theorem guarded_of_precheck {i : Instr} {s : State} (h : precheck i s = .squelch) : Guarded i s := by
  obtain ⟨h1, h2, h3, h4⟩ := sys_of_precheck (i := i) (s := s) (by simp [h])
  rw [precheck_sys h1 h2 h3 h4] at h
  refine ⟨h1, h2, h3, h4, ?_⟩
  unfold laterChecks at h
  rcases hg : i.guard with _ | ⟨x, neg⟩
  · simp only [hg] at h
    repeat' split at h
    all_goals cases h
  · rw [hg] at h
    dsimp only at h
    refine ⟨x, neg, rfl, ?_⟩
    by_cases hi : s.me.interlocked x = true
    · rw [if_pos hi] at h; cases h
    rw [if_neg hi] at h
    have hb : s.me.pendOf x = none → s.me.badHome [x] = none := fun hp => by
      cases hw : s.me.badHome [x] with
      | none => rfl
      | some w => simp [hp, hw] at h
    have hn : ((s.me.g x.num ≠ 0) != neg) = false := by
      by_contra e
      have e : ((s.me.g x.num ≠ 0) != neg) = true := by simpa using e
      simp only [e, if_true] at h
      repeat' split at h
      all_goals cases h
    refine ⟨by simpa using hi, fun hc => ?_, hb, ?_⟩
    · cases hp : s.me.pendOf x with
      | none => rfl
      | some p => simp [hp, hc] at h
    · cases neg <;> simpa using hn
/-! ## Issuing -/

/-- What a ready instruction comes to: what its own effect comes to. -/
theorem issue_ready {i : Instr} {s : State} (h : Ready i s) (eff : State → Eff) :
    issue i s eff = .next (match eff (s.prepare i) with
      | .done t => t.complete i
      | .jump t p => t.transfer i p
      | .trap c info => s.takeTrap c info false
      | .hold t => t.holdIssue
      | .poison src addr => s.takePoison src addr) := by
  have hv : (i.blocking && s.vecBusy) = false := by
    cases hb : i.blocking with
    | false => rfl
    | true => simp [h.vector hb]
  unfold issue
  simp only [precheck_ready h, hv, Bool.false_eq_true, if_false]
  try rfl

theorem issue_done {i : Instr} {s t : State} {eff : State → Eff} (h : Ready i s) (he : eff (s.prepare i) = .done t) :
    issue i s eff = .next (t.complete i) := by rw [issue_ready h, he]

theorem issue_jump {i : Instr} {s t : State} {p : Int} {eff : State → Eff} (h : Ready i s) (he : eff (s.prepare i) = .jump t p) :
    issue i s eff = .next (t.transfer i p) := by rw [issue_ready h, he]

theorem issue_trap {i : Instr} {s : State} {c : Nat} {info : Word} {eff : State → Eff} (h : Ready i s)
    (he : eff (s.prepare i) = .trap c info) : issue i s eff = .next (s.takeTrap c info false) := by rw [issue_ready h, he]

theorem issue_hold {i : Instr} {s t : State} {eff : State → Eff} (h : Ready i s) (he : eff (s.prepare i) = .hold t) :
    issue i s eff = .next t.holdIssue := by rw [issue_ready h, he]

theorem issue_squelch {i : Instr} {s : State} (h : Guarded i s) (eff : State → Eff) :
    issue i s eff = .next ((s.readRegs i.guardReg).complete i) := by
  unfold issue
  simp only [precheck_guarded h]

/-- An encoded instruction answers a next state whatever it meets: no fault and no refusal. -/
theorem issue_next (i : Instr) (s : State) (eff : State → Eff) : ∃ t, issue i s eff = .next t := ⟨_, rfl⟩

/-! ## Taking a trap (R154) -/

/-- A trap that may be taken at once. -/
theorem takeTrap_ready {cause : Nat} {s : State} (h : TrapReady cause s) (info : Word) (async : Bool) :
    (s.takeTrap cause info async).me.trap.xpc = s.flushPending.me.pc ∧
    (s.takeTrap cause info async).me.trap.xinfo = info ∧
    (s.takeTrap cause info async).me.trap.inh = true := by
  unfold State.takeTrap
  simp only [h.settled, h.vector, h.compute, h.outside, Bool.or_self, Bool.false_eq_true, if_false, Bool.false_and]
  split <;> simp [State.condemn]

end Sys2Proof.Machine
end

