-- ==== Sys2Proof/Laws/PerInstr.lean ====
section
/-! SUPPORT. Statements about every instruction, one lemma per constructor. The family Round: the decoder reads back the words of a
well-formed instruction, whatever words follow. A step has no words and is not well-formed. -/

namespace Sys2Proof.Laws.Round

/-- The decoder reads an instruction back from its words, with every operand (R77, R80-R85, R97). -/
def Statement (i : Instr) : Prop := i.WellFormed → ∀ more, decodeWords (encode i ++ more) = .ok i

/-! ## Instructions that share an opcode and a minor function -/

theorem extra_of {i : Instr} (h : i.WellFormed) : i.extra = true := by
  unfold Instr.WellFormed Instr.legal at h; simp only [Bool.and_eq_true] at h; exact h.2

theorem masked_of {i : Instr} {row : Row} {r : R} (he : i.enc = .r row r) (h : i.WellFormed) : (r.m &&& ~~~ row.m) = 0 := by
  unfold Instr.WellFormed Instr.legal at h; rw [he] at h
  simp only [Bool.and_eq_true, Row.fields, beq_iff_eq] at h; exact h.1.2.1.2

/-- A bit of M that the row does not use is 0. -/
theorem unused_bit {m mask : BitVec 13} {k : Nat} (h : (m &&& ~~~ mask) = 0) (hk : k < 13) (hm : mask.getLsbD k = false) : m.getLsbD k = false := by
  have := congrArg (fun y => y.getLsbD k) h
  have hm' : mask[k] = false := by rw [← hm]; exact (BitVec.getLsbD_eq_getElem hk).symm
  rw [BitVec.getLsbD_eq_getElem hk]
  simp [hk] at this
  cases hb : m[k] with
  | false => rfl
  | true => rw [this hb] at hm'; cases hm'

theorem map_vcun (r : R) (h : (Instr.vcun r).WellFormed) : formR 0x45 3 r = some (.vcun r) := by
  have e : isFp r.fmt = true := extra_of h
  have : intFmt r.m = false := by 
    unfold isFp R.fmt at e; unfold intFmt isInt
    simp only [decide_eq_true_eq] at e
    rw [Bool.and_eq_false_iff]; left; simp only [decide_eq_false_iff_not]; omega
  show some (if intFmt r.m then Instr.vcltu r else .vcun r) = _
  rw [this]; rfl

theorem map_vcltu (r : R) (h : (Instr.vcltu r).WellFormed) : formR 0x45 3 r = some (.vcltu r) := by
  have e : intFmt r.m = true := extra_of h
  show some (if intFmt r.m then Instr.vcltu r else .vcun r) = _
  rw [e]; rfl

theorem map_cpy (r : R) (h : (Instr.cpy r).WellFormed) : formR 0x68 0 r = some (.cpy r) := by
  have e : r.m.getLsbD 3 = false := unused_bit (masked_of rfl h) (by decide) (by decide)
  show some (if r.m.getLsbD 3 then Instr.cpyProg r else .cpy r) = _
  rw [e]; rfl

theorem map_cpyProg (r : R) (h : (Instr.cpyProg r).WellFormed) : formR 0x68 0 r = some (.cpyProg r) := by
  have e : r.m.getLsbD 3 = true := extra_of h
  show some (if r.m.getLsbD 3 then Instr.cpyProg r else .cpy r) = _
  rw [e]; rfl

theorem map_cpyl (r : R) (h : (Instr.cpyl r).WellFormed) : formR 0x68 2 r = some (.cpyl r) := by
  have e : r.m.getLsbD 1 = false := unused_bit (masked_of rfl h) (by decide) (by decide)
  show some (if r.m.getLsbD 1 then Instr.cpylSt r else .cpyl r) = _
  rw [e]; rfl

theorem map_cpylSt (r : R) (h : (Instr.cpylSt r).WellFormed) : formR 0x68 2 r = some (.cpylSt r) := by
  have e : r.m.getLsbD 1 = true := by
    have := extra_of h; simp only [Instr.extra, Bool.and_eq_true] at this; exact this.2
  show some (if r.m.getLsbD 1 then Instr.cpylSt r else .cpyl r) = _
  rw [e]; rfl

/-! ## One lemma per instruction -/

theorem add (r : R) : Statement (.add r) := fun h more => decode_formR rfl h (by decide) (by decide) (fun _ _ => rfl) rfl more
theorem sub (r : R) : Statement (.sub r) := fun h more => decode_formR rfl h (by decide) (by decide) (fun _ _ => rfl) rfl more
theorem adds (r : R) : Statement (.adds r) := fun h more => decode_formR rfl h (by decide) (by decide) (fun _ _ => rfl) rfl more
theorem subs (r : R) : Statement (.subs r) := fun h more => decode_formR rfl h (by decide) (by decide) (fun _ _ => rfl) rfl more
theorem and_ (r : R) : Statement (.and_ r) := fun h more => decode_formR rfl h (by decide) (by decide) (fun _ _ => rfl) rfl more
theorem or_ (r : R) : Statement (.or_ r) := fun h more => decode_formR rfl h (by decide) (by decide) (fun _ _ => rfl) rfl more
theorem xor (r : R) : Statement (.xor r) := fun h more => decode_formR rfl h (by decide) (by decide) (fun _ _ => rfl) rfl more
theorem andn (r : R) : Statement (.andn r) := fun h more => decode_formR rfl h (by decide) (by decide) (fun _ _ => rfl) rfl more
theorem shl (r : R) : Statement (.shl r) := fun h more => decode_formR rfl h (by decide) (by decide) (fun _ _ => rfl) rfl more
theorem shr (r : R) : Statement (.shr r) := fun h more => decode_formR rfl h (by decide) (by decide) (fun _ _ => rfl) rfl more
theorem sar (r : R) : Statement (.sar r) := fun h more => decode_formR rfl h (by decide) (by decide) (fun _ _ => rfl) rfl more
theorem ror (r : R) : Statement (.ror r) := fun h more => decode_formR rfl h (by decide) (by decide) (fun _ _ => rfl) rfl more
theorem mul (r : R) : Statement (.mul r) := fun h more => decode_formR rfl h (by decide) (by decide) (fun _ _ => rfl) rfl more
theorem mulh (r : R) : Statement (.mulh r) := fun h more => decode_formR rfl h (by decide) (by decide) (fun _ _ => rfl) rfl more
theorem mulhu (r : R) : Statement (.mulhu r) := fun h more => decode_formR rfl h (by decide) (by decide) (fun _ _ => rfl) rfl more
theorem div (r : R) : Statement (.div r) := fun h more => decode_formR rfl h (by decide) (by decide) (fun _ _ => rfl) rfl more
theorem divu (r : R) : Statement (.divu r) := fun h more => decode_formR rfl h (by decide) (by decide) (fun _ _ => rfl) rfl more
theorem rem (r : R) : Statement (.rem r) := fun h more => decode_formR rfl h (by decide) (by decide) (fun _ _ => rfl) rfl more
theorem remu (r : R) : Statement (.remu r) := fun h more => decode_formR rfl h (by decide) (by decide) (fun _ _ => rfl) rfl more
theorem addi (stl : BitVec 3) (d : BitVec 6) (a : BitVec 6) (imm : BitVec 8) : Statement (.addi stl d a imm) := fun h more =>
  decode_formI rfl h (by decide) (by rintro w rfl rfl rfl; rfl) more
theorem andi (stl : BitVec 3) (d : BitVec 6) (a : BitVec 6) (imm : BitVec 8) : Statement (.andi stl d a imm) := fun h more =>
  decode_formI rfl h (by decide) (by rintro w rfl rfl rfl; rfl) more
theorem ori (stl : BitVec 3) (d : BitVec 6) (a : BitVec 6) (imm : BitVec 8) : Statement (.ori stl d a imm) := fun h more =>
  decode_formI rfl h (by decide) (by rintro w rfl rfl rfl; rfl) more
theorem xori (stl : BitVec 3) (d : BitVec 6) (a : BitVec 6) (imm : BitVec 8) : Statement (.xori stl d a imm) := fun h more =>
  decode_formI rfl h (by decide) (by rintro w rfl rfl rfl; rfl) more
theorem shli (stl : BitVec 3) (d : BitVec 6) (a : BitVec 6) (imm : BitVec 8) : Statement (.shli stl d a imm) := fun h more =>
  decode_formI rfl h (by decide) (by rintro w rfl rfl rfl; rfl) more
theorem shri (stl : BitVec 3) (d : BitVec 6) (a : BitVec 6) (imm : BitVec 8) : Statement (.shri stl d a imm) := fun h more =>
  decode_formI rfl h (by decide) (by rintro w rfl rfl rfl; rfl) more
theorem sari (stl : BitVec 3) (d : BitVec 6) (a : BitVec 6) (imm : BitVec 8) : Statement (.sari stl d a imm) := fun h more =>
  decode_formI rfl h (by decide) (by rintro w rfl rfl rfl; rfl) more
theorem ceqi (stl : BitVec 3) (d : BitVec 6) (a : BitVec 6) (imm : BitVec 8) : Statement (.ceqi stl d a imm) := fun h more =>
  decode_formI rfl h (by decide) (by rintro w rfl rfl rfl; rfl) more
theorem clti (stl : BitVec 3) (d : BitVec 6) (a : BitVec 6) (imm : BitVec 8) : Statement (.clti stl d a imm) := fun h more =>
  decode_formI rfl h (by decide) (by rintro w rfl rfl rfl; rfl) more
theorem cltui (stl : BitVec 3) (d : BitVec 6) (a : BitVec 6) (imm : BitVec 8) : Statement (.cltui stl d a imm) := fun h more =>
  decode_formI rfl h (by decide) (by rintro w rfl rfl rfl; rfl) more
theorem ceq (r : R) : Statement (.ceq r) := fun h more => decode_formR rfl h (by decide) (by decide) (fun _ _ => rfl) rfl more
theorem cne (r : R) : Statement (.cne r) := fun h more => decode_formR rfl h (by decide) (by decide) (fun _ _ => rfl) rfl more
theorem clt (r : R) : Statement (.clt r) := fun h more => decode_formR rfl h (by decide) (by decide) (fun _ _ => rfl) rfl more
theorem cltu (r : R) : Statement (.cltu r) := fun h more => decode_formR rfl h (by decide) (by decide) (fun _ _ => rfl) rfl more
theorem min (r : R) : Statement (.min r) := fun h more => decode_formR rfl h (by decide) (by decide) (fun _ _ => rfl) rfl more
theorem max (r : R) : Statement (.max r) := fun h more => decode_formR rfl h (by decide) (by decide) (fun _ _ => rfl) rfl more
theorem minu (r : R) : Statement (.minu r) := fun h more => decode_formR rfl h (by decide) (by decide) (fun _ _ => rfl) rfl more
theorem maxu (r : R) : Statement (.maxu r) := fun h more => decode_formR rfl h (by decide) (by decide) (fun _ _ => rfl) rfl more
theorem sel (r : R) : Statement (.sel r) := fun h more => decode_formR rfl h (by decide) (by decide) (fun _ _ => rfl) rfl more
theorem bfxu (r : R) : Statement (.bfxu r) := fun h more => decode_formR rfl h (by decide) (by decide) (fun _ _ => rfl) rfl more
theorem bfxs (r : R) : Statement (.bfxs r) := fun h more => decode_formR rfl h (by decide) (by decide) (fun _ _ => rfl) rfl more
theorem bfi (r : R) : Statement (.bfi r) := fun h more => decode_formR rfl h (by decide) (by decide) (fun _ _ => rfl) rfl more
theorem clz (r : R) : Statement (.clz r) := fun h more => decode_formR rfl h (by decide) (by decide) (fun _ _ => rfl) rfl more
theorem ctz (r : R) : Statement (.ctz r) := fun h more => decode_formR rfl h (by decide) (by decide) (fun _ _ => rfl) rfl more
theorem popc (r : R) : Statement (.popc r) := fun h more => decode_formR rfl h (by decide) (by decide) (fun _ _ => rfl) rfl more
theorem bswap (r : R) : Statement (.bswap r) := fun h more => decode_formR rfl h (by decide) (by decide) (fun _ _ => rfl) rfl more
theorem adx2 (r : R) : Statement (.adx2 r) := fun h more => decode_formR rfl h (by decide) (by decide) (fun _ _ => rfl) rfl more
theorem adx4 (r : R) : Statement (.adx4 r) := fun h more => decode_formR rfl h (by decide) (by decide) (fun _ _ => rfl) rfl more
theorem adx8 (r : R) : Statement (.adx8 r) := fun h more => decode_formR rfl h (by decide) (by decide) (fun _ _ => rfl) rfl more
theorem adx16 (r : R) : Statement (.adx16 r) := fun h more => decode_formR rfl h (by decide) (by decide) (fun _ _ => rfl) rfl more
theorem br (stl : BitVec 3) (off : BitVec 20) : Statement (.br stl off) := fun h more =>
  decode_formJ rfl h (by decide) (by rintro w rfl; rfl) more
theorem call (stl : BitVec 3) (off : BitVec 20) : Statement (.call stl off) := fun h more =>
  decode_formJ rfl h (by decide) (by rintro w rfl; rfl) more
theorem bnz (stl : BitVec 3) (a : BitVec 6) (off : BitVec 14) : Statement (.bnz stl a off) := fun h more =>
  decode_formZ rfl h (by decide) (by rintro w rfl rfl; rfl) more
theorem bz (stl : BitVec 3) (a : BitVec 6) (off : BitVec 14) : Statement (.bz stl a off) := fun h more =>
  decode_formZ rfl h (by decide) (by rintro w rfl rfl; rfl) more
theorem loop (stl : BitVec 3) (a : BitVec 6) (off : BitVec 14) : Statement (.loop stl a off) := fun h more =>
  decode_formZ rfl h (by decide) (by rintro w rfl rfl; rfl) more
theorem jmp (r : R) : Statement (.jmp r) := fun h more => decode_formR rfl h (by decide) (by decide) (fun _ _ => rfl) rfl more
theorem jcall (r : R) : Statement (.jcall r) := fun h more => decode_formR rfl h (by decide) (by decide) (fun _ _ => rfl) rfl more
theorem beq (r : R) : Statement (.beq r) := fun h more => decode_formR rfl h (by decide) (by decide) (fun _ _ => rfl) rfl more
theorem bne (r : R) : Statement (.bne r) := fun h more => decode_formR rfl h (by decide) (by decide) (fun _ _ => rfl) rfl more
theorem blt (r : R) : Statement (.blt r) := fun h more => decode_formR rfl h (by decide) (by decide) (fun _ _ => rfl) rfl more
theorem bltu (r : R) : Statement (.bltu r) := fun h more => decode_formR rfl h (by decide) (by decide) (fun _ _ => rfl) rfl more
theorem end_ (r : R) : Statement (.end_ r) := fun h more => decode_formR rfl h (by decide) (by decide) (fun _ _ => rfl) rfl more
theorem nop (r : R) : Statement (.nop r) := fun h more => decode_formR rfl h (by decide) (by decide) (fun _ _ => rfl) rfl more
theorem lb (r : R) : Statement (.lb r) := fun h more => decode_formR rfl h (by decide) (by decide) (fun _ _ => rfl) rfl more
theorem lh (r : R) : Statement (.lh r) := fun h more => decode_formR rfl h (by decide) (by decide) (fun _ _ => rfl) rfl more
theorem lw (r : R) : Statement (.lw r) := fun h more => decode_formR rfl h (by decide) (by decide) (fun _ _ => rfl) rfl more
theorem ld (r : R) : Statement (.ld r) := fun h more => decode_formR rfl h (by decide) (by decide) (fun _ _ => rfl) rfl more
theorem lbu (r : R) : Statement (.lbu r) := fun h more => decode_formR rfl h (by decide) (by decide) (fun _ _ => rfl) rfl more
theorem lhu (r : R) : Statement (.lhu r) := fun h more => decode_formR rfl h (by decide) (by decide) (fun _ _ => rfl) rfl more
theorem lwu (r : R) : Statement (.lwu r) := fun h more => decode_formR rfl h (by decide) (by decide) (fun _ _ => rfl) rfl more
theorem sb (r : R) : Statement (.sb r) := fun h more => decode_formR rfl h (by decide) (by decide) (fun _ _ => rfl) rfl more
theorem sh (r : R) : Statement (.sh r) := fun h more => decode_formR rfl h (by decide) (by decide) (fun _ _ => rfl) rfl more
theorem sw (r : R) : Statement (.sw r) := fun h more => decode_formR rfl h (by decide) (by decide) (fun _ _ => rfl) rfl more
theorem sd (r : R) : Statement (.sd r) := fun h more => decode_formR rfl h (by decide) (by decide) (fun _ _ => rfl) rfl more
theorem barInit (r : R) : Statement (.barInit r) := fun h more => decode_formR rfl h (by decide) (by decide) (fun _ _ => rfl) rfl more
theorem barExp (r : R) : Statement (.barExp r) := fun h more => decode_formR rfl h (by decide) (by decide) (fun _ _ => rfl) rfl more
theorem barArr (r : R) : Statement (.barArr r) := fun h more => decode_formR rfl h (by decide) (by decide) (fun _ _ => rfl) rfl more
theorem barInval (r : R) : Statement (.barInval r) := fun h more => decode_formR rfl h (by decide) (by decide) (fun _ _ => rfl) rfl more
theorem barWait (r : R) : Statement (.barWait r) := fun h more => decode_formR rfl h (by decide) (by decide) (fun _ _ => rfl) rfl more
theorem barTest (r : R) : Statement (.barTest r) := fun h more => decode_formR rfl h (by decide) (by decide) (fun _ _ => rfl) rfl more
theorem fence (r : R) : Statement (.fence r) := fun h more => decode_formR rfl h (by decide) (by decide) (fun _ _ => rfl) rfl more
theorem sleep (r : R) : Statement (.sleep r) := fun h more => decode_formR rfl h (by decide) (by decide) (fun _ _ => rfl) rfl more
theorem sleepu (r : R) : Statement (.sleepu r) := fun h more => decode_formR rfl h (by decide) (by decide) (fun _ _ => rfl) rfl more
theorem mfs (r : R) : Statement (.mfs r) := fun h more => decode_formR rfl h (by decide) (by decide) (fun _ _ => rfl) rfl more
theorem mts (r : R) : Statement (.mts r) := fun h more => decode_formR rfl h (by decide) (by decide) (fun _ _ => rfl) rfl more
theorem xret (r : R) : Statement (.xret r) := fun h more => decode_formR rfl h (by decide) (by decide) (fun _ _ => rfl) rfl more
theorem yield_ (r : R) : Statement (.yield_ r) := fun h more => decode_formR rfl h (by decide) (by decide) (fun _ _ => rfl) rfl more
theorem freeG (r : R) : Statement (.freeG r) := fun h more => decode_formR rfl h (by decide) (by decide) (fun _ _ => rfl) rfl more
theorem freeV (r : R) : Statement (.freeV r) := fun h more => decode_formR rfl h (by decide) (by decide) (fun _ _ => rfl) rfl more
theorem freeK (r : R) : Statement (.freeK r) := fun h more => decode_formR rfl h (by decide) (by decide) (fun _ _ => rfl) rfl more
theorem region (r : R) : Statement (.region r) := fun h more => decode_formR rfl h (by decide) (by decide) (fun _ _ => rfl) rfl more
theorem rend (r : R) : Statement (.rend r) := fun h more => decode_formR rfl h (by decide) (by decide) (fun _ _ => rfl) rfl more
theorem vadd (r : R) : Statement (.vadd r) := fun h more => decode_formR rfl h (by decide) (by decide) (fun _ _ => rfl) rfl more
theorem vsub (r : R) : Statement (.vsub r) := fun h more => decode_formR rfl h (by decide) (by decide) (fun _ _ => rfl) rfl more
theorem vmul (r : R) : Statement (.vmul r) := fun h more => decode_formR rfl h (by decide) (by decide) (fun _ _ => rfl) rfl more
theorem vmin (r : R) : Statement (.vmin r) := fun h more => decode_formR rfl h (by decide) (by decide) (fun _ _ => rfl) rfl more
theorem vmax (r : R) : Statement (.vmax r) := fun h more => decode_formR rfl h (by decide) (by decide) (fun _ _ => rfl) rfl more
theorem vminu (r : R) : Statement (.vminu r) := fun h more => decode_formR rfl h (by decide) (by decide) (fun _ _ => rfl) rfl more
theorem vmaxu (r : R) : Statement (.vmaxu r) := fun h more => decode_formR rfl h (by decide) (by decide) (fun _ _ => rfl) rfl more
theorem vfma (r : R) : Statement (.vfma r) := fun h more => decode_formR rfl h (by decide) (by decide) (fun _ _ => rfl) rfl more
theorem vfms (r : R) : Statement (.vfms r) := fun h more => decode_formR rfl h (by decide) (by decide) (fun _ _ => rfl) rfl more
theorem vfnma (r : R) : Statement (.vfnma r) := fun h more => decode_formR rfl h (by decide) (by decide) (fun _ _ => rfl) rfl more
theorem vabs (r : R) : Statement (.vabs r) := fun h more => decode_formR rfl h (by decide) (by decide) (fun _ _ => rfl) rfl more
theorem vneg (r : R) : Statement (.vneg r) := fun h more => decode_formR rfl h (by decide) (by decide) (fun _ _ => rfl) rfl more
theorem vsel (r : R) : Statement (.vsel r) := fun h more => decode_formR rfl h (by decide) (by decide) (fun _ _ => rfl) rfl more
theorem vand (r : R) : Statement (.vand r) := fun h more => decode_formR rfl h (by decide) (by decide) (fun _ _ => rfl) rfl more
theorem vor (r : R) : Statement (.vor r) := fun h more => decode_formR rfl h (by decide) (by decide) (fun _ _ => rfl) rfl more
theorem vxor (r : R) : Statement (.vxor r) := fun h more => decode_formR rfl h (by decide) (by decide) (fun _ _ => rfl) rfl more
theorem vandn (r : R) : Statement (.vandn r) := fun h more => decode_formR rfl h (by decide) (by decide) (fun _ _ => rfl) rfl more
theorem vshl (r : R) : Statement (.vshl r) := fun h more => decode_formR rfl h (by decide) (by decide) (fun _ _ => rfl) rfl more
theorem vshr (r : R) : Statement (.vshr r) := fun h more => decode_formR rfl h (by decide) (by decide) (fun _ _ => rfl) rfl more
theorem vsar (r : R) : Statement (.vsar r) := fun h more => decode_formR rfl h (by decide) (by decide) (fun _ _ => rfl) rfl more
theorem vceq (r : R) : Statement (.vceq r) := fun h more => decode_formR rfl h (by decide) (by decide) (fun _ _ => rfl) rfl more
theorem vclt (r : R) : Statement (.vclt r) := fun h more => decode_formR rfl h (by decide) (by decide) (fun _ _ => rfl) rfl more
theorem vcle (r : R) : Statement (.vcle r) := fun h more => decode_formR rfl h (by decide) (by decide) (fun _ _ => rfl) rfl more
theorem vcun (r : R) : Statement (.vcun r) := by
  intro h more
  exact decode_formR rfl h (by decide) (by decide) (fun _ _ => rfl) (map_vcun r h) more
theorem vcltu (r : R) : Statement (.vcltu r) := by
  intro h more
  exact decode_formR rfl h (by decide) (by decide) (fun _ _ => rfl) (map_vcltu r h) more
theorem kand (r : R) : Statement (.kand r) := fun h more => decode_formR rfl h (by decide) (by decide) (fun _ _ => rfl) rfl more
theorem kor (r : R) : Statement (.kor r) := fun h more => decode_formR rfl h (by decide) (by decide) (fun _ _ => rfl) rfl more
theorem kxor (r : R) : Statement (.kxor r) := fun h more => decode_formR rfl h (by decide) (by decide) (fun _ _ => rfl) rfl more
theorem kandn (r : R) : Statement (.kandn r) := fun h more => decode_formR rfl h (by decide) (by decide) (fun _ _ => rfl) rfl more
theorem kpopc (r : R) : Statement (.kpopc r) := fun h more => decode_formR rfl h (by decide) (by decide) (fun _ _ => rfl) rfl more
theorem kfirst (r : R) : Statement (.kfirst r) := fun h more => decode_formR rfl h (by decide) (by decide) (fun _ _ => rfl) rfl more
theorem kset (r : R) : Statement (.kset r) := fun h more => decode_formR rfl h (by decide) (by decide) (fun _ _ => rfl) rfl more
theorem kget (r : R) : Statement (.kget r) := fun h more => decode_formR rfl h (by decide) (by decide) (fun _ _ => rfl) rfl more
theorem vbcast (r : R) : Statement (.vbcast r) := fun h more => decode_formR rfl h (by decide) (by decide) (fun _ _ => rfl) rfl more
theorem vext (r : R) : Statement (.vext r) := fun h more => decode_formR rfl h (by decide) (by decide) (fun _ _ => rfl) rfl more
theorem vins (r : R) : Statement (.vins r) := fun h more => decode_formR rfl h (by decide) (by decide) (fun _ _ => rfl) rfl more
theorem vidx (r : R) : Statement (.vidx r) := fun h more => decode_formR rfl h (by decide) (by decide) (fun _ _ => rfl) rfl more
theorem vperm (r : R) : Statement (.vperm r) := fun h more => decode_formR rfl h (by decide) (by decide) (fun _ _ => rfl) rfl more
theorem vrot (r : R) : Statement (.vrot r) := fun h more => decode_formR rfl h (by decide) (by decide) (fun _ _ => rfl) rfl more
theorem vcmpr (r : R) : Statement (.vcmpr r) := fun h more => decode_formR rfl h (by decide) (by decide) (fun _ _ => rfl) rfl more
theorem vrsum (r : R) : Statement (.vrsum r) := fun h more => decode_formR rfl h (by decide) (by decide) (fun _ _ => rfl) rfl more
theorem vrmax (r : R) : Statement (.vrmax r) := fun h more => decode_formR rfl h (by decide) (by decide) (fun _ _ => rfl) rfl more
theorem vrmin (r : R) : Statement (.vrmin r) := fun h more => decode_formR rfl h (by decide) (by decide) (fun _ _ => rfl) rfl more
theorem vrcp (r : R) : Statement (.vrcp r) := fun h more => decode_formR rfl h (by decide) (by decide) (fun _ _ => rfl) rfl more
theorem vrsqrt (r : R) : Statement (.vrsqrt r) := fun h more => decode_formR rfl h (by decide) (by decide) (fun _ _ => rfl) rfl more
theorem vexp2 (r : R) : Statement (.vexp2 r) := fun h more => decode_formR rfl h (by decide) (by decide) (fun _ _ => rfl) rfl more
theorem vlog2 (r : R) : Statement (.vlog2 r) := fun h more => decode_formR rfl h (by decide) (by decide) (fun _ _ => rfl) rfl more
theorem vsqrt (r : R) : Statement (.vsqrt r) := fun h more => decode_formR rfl h (by decide) (by decide) (fun _ _ => rfl) rfl more
theorem vcvt (r : R) : Statement (.vcvt r) := fun h more => decode_formR rfl h (by decide) (by decide) (fun _ _ => rfl) rfl more
theorem vqnt (r : R) : Statement (.vqnt r) := fun h more => decode_formR rfl h (by decide) (by decide) (fun _ _ => rfl) rfl more
theorem vdqnt (r : R) : Statement (.vdqnt r) := fun h more => decode_formR rfl h (by decide) (by decide) (fun _ _ => rfl) rfl more
theorem vld (r : R) : Statement (.vld r) := fun h more => decode_formR rfl h (by decide) (by decide) (fun _ _ => rfl) rfl more
theorem vst (r : R) : Statement (.vst r) := fun h more => decode_formR rfl h (by decide) (by decide) (fun _ _ => rfl) rfl more
theorem vlds (r : R) : Statement (.vlds r) := fun h more => decode_formR rfl h (by decide) (by decide) (fun _ _ => rfl) rfl more
theorem vsts (r : R) : Statement (.vsts r) := fun h more => decode_formR rfl h (by decide) (by decide) (fun _ _ => rfl) rfl more
theorem vldx (r : R) : Statement (.vldx r) := fun h more => decode_formR rfl h (by decide) (by decide) (fun _ _ => rfl) rfl more
theorem vstx (r : R) : Statement (.vstx r) := fun h more => decode_formR rfl h (by decide) (by decide) (fun _ _ => rfl) rfl more
theorem tld (r : R) : Statement (.tld r) := fun h more => decode_formR rfl h (by decide) (by decide) (fun _ _ => rfl) rfl more
theorem tst (r : R) : Statement (.tst r) := fun h more => decode_formR rfl h (by decide) (by decide) (fun _ _ => rfl) rfl more
theorem tzero (r : R) : Statement (.tzero r) := fun h more => decode_formR rfl h (by decide) (by decide) (fun _ _ => rfl) rfl more
theorem tmov (r : R) : Statement (.tmov r) := fun h more => decode_formR rfl h (by decide) (by decide) (fun _ _ => rfl) rfl more
theorem tcvt (r : R) : Statement (.tcvt r) := fun h more => decode_formR rfl h (by decide) (by decide) (fun _ _ => rfl) rfl more
theorem tfree (r : R) : Statement (.tfree r) := fun h more => decode_formR rfl h (by decide) (by decide) (fun _ _ => rfl) rfl more
theorem mma (r : R) : Statement (.mma r) := by
  intro h more
  cases hb : r.lb with
  | true =>
    exact decode_formR (i := .mma r) (row := ⟨0x62, 0, .dst .a, .src .t, .src .g, .none, .src .g, .may, 0, 0x1FC0, 0x3FFFF, .other⟩)
      (by simp only [Instr.enc, hb]; rfl) h (by decide) (by decide) (fun _ _ => rfl) rfl more
  | false =>
    exact decode_formR (i := .mma r) (row := ⟨0x62, 0, .dst .a, .src .t, .src .t, .none, .src .g, .may, 0, 0x1FC0, 0x3FFFF, .other⟩)
      (by simp only [Instr.enc, hb]; rfl) h (by decide) (by decide) (fun _ _ => rfl) rfl more
theorem accrd (r : R) : Statement (.accrd r) := fun h more => decode_formR rfl h (by decide) (by decide) (fun _ _ => rfl) rfl more
theorem accst (r : R) : Statement (.accst r) := fun h more => decode_formR rfl h (by decide) (by decide) (fun _ _ => rfl) rfl more
theorem azero (r : R) : Statement (.azero r) := fun h more => decode_formR rfl h (by decide) (by decide) (fun _ _ => rfl) rfl more
theorem afree (r : R) : Statement (.afree r) := fun h more => decode_formR rfl h (by decide) (by decide) (fun _ _ => rfl) rfl more
theorem cpy (r : R) : Statement (.cpy r) := by
  intro h more
  exact decode_formR rfl h (by decide) (by decide) (fun _ _ => rfl) (map_cpy r h) more
theorem cpyProg (r : R) : Statement (.cpyProg r) := by
  intro h more
  exact decode_formR rfl h (by decide) (by decide) (fun _ _ => rfl) (map_cpyProg r h) more
theorem cpyst (r : R) : Statement (.cpyst r) := fun h more => decode_formR rfl h (by decide) (by decide) (fun _ _ => rfl) rfl more
theorem cpyl (r : R) : Statement (.cpyl r) := by
  intro h more
  exact decode_formR rfl h (by decide) (by decide) (fun _ _ => rfl) (map_cpyl r h) more
theorem cpylSt (r : R) : Statement (.cpylSt r) := by
  intro h more
  exact decode_formR rfl h (by decide) (by decide) (fun _ _ => rfl) (map_cpylSt r h) more
theorem pfx (r : R) : Statement (.pfx r) := fun h more => decode_formR rfl h (by decide) (by decide) (fun _ _ => rfl) rfl more
theorem gath (r : R) : Statement (.gath r) := fun h more => decode_formR rfl h (by decide) (by decide) (fun _ _ => rfl) rfl more
theorem scat (r : R) : Statement (.scat r) := fun h more => decode_formR rfl h (by decide) (by decide) (fun _ _ => rfl) rfl more
theorem red (r : R) : Statement (.red r) := fun h more => decode_formR rfl h (by decide) (by decide) (fun _ _ => rfl) rfl more
theorem tflush (r : R) : Statement (.tflush r) := fun h more => decode_formR rfl h (by decide) (by decide) (fun _ _ => rfl) rfl more
theorem codeld (r : R) : Statement (.codeld r) := fun h more => decode_formR rfl h (by decide) (by decide) (fun _ _ => rfl) rfl more
theorem pwin (r : R) : Statement (.pwin r) := fun h more => decode_formR rfl h (by decide) (by decide) (fun _ _ => rfl) rfl more
theorem pwret (r : R) : Statement (.pwret r) := fun h more => decode_formR rfl h (by decide) (by decide) (fun _ _ => rfl) rfl more
theorem meet (r : R) : Statement (.meet r) := fun h more => decode_formR rfl h (by decide) (by decide) (fun _ _ => rfl) rfl more
theorem part (r : R) : Statement (.part r) := fun h more => decode_formR rfl h (by decide) (by decide) (fun _ _ => rfl) rfl more
theorem msync (r : R) : Statement (.msync r) := fun h more => decode_formR rfl h (by decide) (by decide) (fun _ _ => rfl) rfl more
theorem mcancel (r : R) : Statement (.mcancel r) := fun h more => decode_formR rfl h (by decide) (by decide) (fun _ _ => rfl) rfl more
theorem mget (r : R) : Statement (.mget r) := fun h more => decode_formR rfl h (by decide) (by decide) (fun _ _ => rfl) rfl more
theorem mgetv (r : R) : Statement (.mgetv r) := fun h more => decode_formR rfl h (by decide) (by decide) (fun _ _ => rfl) rfl more
theorem mcpy (r : R) : Statement (.mcpy r) := fun h more => decode_formR rfl h (by decide) (by decide) (fun _ _ => rfl) rfl more
theorem mswap (r : R) : Statement (.mswap r) := fun h more => decode_formR rfl h (by decide) (by decide) (fun _ _ => rfl) rfl more
theorem coll (r : R) : Statement (.coll r) := fun h more => decode_formR rfl h (by decide) (by decide) (fun _ _ => rfl) rfl more
theorem ccancel (r : R) : Statement (.ccancel r) := fun h more => decode_formR rfl h (by decide) (by decide) (fun _ _ => rfl) rfl more
theorem fcast (r : R) : Statement (.fcast r) := fun h more => decode_formR rfl h (by decide) (by decide) (fun _ _ => rfl) rfl more
theorem fwait (r : R) : Statement (.fwait r) := fun h more => decode_formR rfl h (by decide) (by decide) (fun _ _ => rfl) rfl more
theorem fstat (r : R) : Statement (.fstat r) := fun h more => decode_formR rfl h (by decide) (by decide) (fun _ _ => rfl) rfl more
theorem jobpost (r : R) : Statement (.jobpost r) := fun h more => decode_formR rfl h (by decide) (by decide) (fun _ _ => rfl) rfl more
theorem jobwait (r : R) : Statement (.jobwait r) := fun h more => decode_formR rfl h (by decide) (by decide) (fun _ _ => rfl) rfl more
theorem spush (r : R) : Statement (.spush r) := fun h more => decode_formR rfl h (by decide) (by decide) (fun _ _ => rfl) rfl more
theorem sfmt (r : R) : Statement (.sfmt r) := fun h more => decode_formR rfl h (by decide) (by decide) (fun _ _ => rfl) rfl more
theorem sfill (r : R) : Statement (.sfill r) := fun h more => decode_formR rfl h (by decide) (by decide) (fun _ _ => rfl) rfl more
theorem swb (r : R) : Statement (.swb r) := fun h more => decode_formR rfl h (by decide) (by decide) (fun _ _ => rfl) rfl more
theorem baddq (r : R) : Statement (.baddq r) := fun h more => decode_formR rfl h (by decide) (by decide) (fun _ _ => rfl) rfl more
theorem bqtake (r : R) : Statement (.bqtake r) := fun h more => decode_formR rfl h (by decide) (by decide) (fun _ _ => rfl) rfl more
theorem registerWriteback (uid : Nat) : Statement (.registerWriteback uid) := fun h => nomatch h
theorem loadResult (uid : Nat) : Statement (.loadResult uid) := fun h => nomatch h
theorem divideResult (uid : Nat) : Statement (.divideResult uid) := fun h => nomatch h
theorem vectorAccessDone (cmd : Nat) : Statement (.vectorAccessDone cmd) := fun h => nomatch h
theorem firstOverrun (uid : Nat) : Statement (.firstOverrun uid) := fun h => nomatch h
theorem kill (uid : Nat) : Statement (.kill uid) := fun h => nomatch h
theorem runBudgetTrap (uid : Nat) : Statement (.runBudgetTrap uid) := fun h => nomatch h
theorem missedPromise (cmd : Nat) : Statement (.missedPromise cmd) := fun h => nomatch h
theorem missedPromiseTrap (uid : Nat) : Statement (.missedPromiseTrap uid) := fun h => nomatch h
theorem refusedStoreTrap (uid : Nat) : Statement (.refusedStoreTrap uid) := fun h => nomatch h
theorem journalAck (agent : Agent) (entry : Nat) : Statement (.journalAck agent entry) := fun h => nomatch h
theorem retirement (uid : Nat) : Statement (.retirement uid) := fun h => nomatch h
theorem copyStart (cmd : Nat) : Statement (.copyStart cmd) := fun h => nomatch h
theorem descriptorRead (uid : Nat) : Statement (.descriptorRead uid) := fun h => nomatch h
theorem pageWalk (cmd : Nat) : Statement (.pageWalk cmd) := fun h => nomatch h
theorem lineFill (cmd : Nat) (unit : Nat) (replica : Bool) : Statement (.lineFill cmd unit replica) := fun h => nomatch h
theorem landingUnit (cmd : Nat) (unit : Nat) : Statement (.landingUnit cmd unit) := fun h => nomatch h
theorem storePerformed (cmd : Nat) (unit : Nat) : Statement (.storePerformed cmd unit) := fun h => nomatch h
theorem monitorGrant (agent : Agent) : Statement (.monitorGrant agent) := fun h => nomatch h
theorem barWaitWake (uid : Nat) : Statement (.barWaitWake uid) := fun h => nomatch h
theorem sleepWake (uid : Nat) : Statement (.sleepWake uid) := fun h => nomatch h
theorem tflushDone (cmd : Nat) : Statement (.tflushDone cmd) := fun h => nomatch h
theorem codeldDone (cmd : Nat) : Statement (.codeldDone cmd) := fun h => nomatch h
theorem programRequestQueued (cmd : Nat) : Statement (.programRequestQueued cmd) := fun h => nomatch h
theorem spindleProgramStart (spindle : Nat) : Statement (.spindleProgramStart spindle) := fun h => nomatch h
theorem spindleProgramEnd (uid : Nat) : Statement (.spindleProgramEnd uid) := fun h => nomatch h
theorem pushLanded (push : Nat) : Statement (.pushLanded push) := fun h => nomatch h
theorem returnUpdate (msg : Nat) : Statement (.returnUpdate msg) := fun h => nomatch h
theorem mmaStart (cmd : Nat) : Statement (.mmaStart cmd) := fun h => nomatch h
theorem kstepEnd (cmd : Nat) : Statement (.kstepEnd cmd) := fun h => nomatch h
theorem tilePortComplete (cmd : Nat) : Statement (.tilePortComplete cmd) := fun h => nomatch h
theorem directoryArrival (msg : Nat) : Statement (.directoryArrival msg) := fun h => nomatch h
theorem decisionArrives (uid : Nat) : Statement (.decisionArrives uid) := fun h => nomatch h
theorem shuttleLanded (uid : Nat) : Statement (.shuttleLanded uid) := fun h => nomatch h
theorem meetDeadline (uid : Nat) : Statement (.meetDeadline uid) := fun h => nomatch h
theorem directoryCancel (msg : Nat) : Statement (.directoryCancel msg) := fun h => nomatch h
theorem partBarrier (uid : Nat) : Statement (.partBarrier uid) := fun h => nomatch h
theorem collArrival (msg : Nat) : Statement (.collArrival msg) := fun h => nomatch h
theorem collGo (uid : Nat) : Statement (.collGo uid) := fun h => nomatch h
theorem collResultsLanded (uid : Nat) : Statement (.collResultsLanded uid) := fun h => nomatch h
theorem collDeadline (group : Nat) : Statement (.collDeadline group) := fun h => nomatch h
theorem collCancel (msg : Nat) : Statement (.collCancel msg) := fun h => nomatch h
theorem groupDissolvedStatus (uid : Nat) : Statement (.groupDissolvedStatus uid) := fun h => nomatch h
theorem verdict (uid : Nat) (tag : Nat) : Statement (.verdict uid tag) := fun h => nomatch h
theorem heldBufferSpace (uid : Nat) : Statement (.heldBufferSpace uid) := fun h => nomatch h
theorem jobQueueEntry (vd : Nat) (q : Nat) : Statement (.jobQueueEntry vd q) := fun h => nomatch h
theorem jobpostRequest (msg : Nat) : Statement (.jobpostRequest msg) := fun h => nomatch h
theorem argtDescriptorRead (job : Nat) : Statement (.argtDescriptorRead job) := fun h => nomatch h
theorem jobReady (job : Nat) : Statement (.jobReady job) := fun h => nomatch h
theorem dealChunk (die : Nat) : Statement (.dealChunk die) := fun h => nomatch h
theorem activityStart (agent : Agent) : Statement (.activityStart agent) := fun h => nomatch h
theorem codeLoad (agent : Agent) (job : Nat) : Statement (.codeLoad agent job) := fun h => nomatch h
theorem firstIssue (uid : Nat) : Statement (.firstIssue uid) := fun h => nomatch h
theorem migration (core : Nat) : Statement (.migration core) := fun h => nomatch h
theorem victimChoice (die : Nat) : Statement (.victimChoice die) := fun h => nomatch h
theorem eviction (uid : Nat) : Statement (.eviction uid) := fun h => nomatch h
theorem restore (uid : Nat) : Statement (.restore uid) := fun h => nomatch h
theorem jobwaitWake (uid : Nat) : Statement (.jobwaitWake uid) := fun h => nomatch h
theorem jobCompletion (job : Nat) : Statement (.jobCompletion job) := fun h => nomatch h
theorem switchEnd (core : Nat) : Statement (.switchEnd core) := fun h => nomatch h
theorem bucketMove : Statement (.bucketMove) := fun h => nomatch h
theorem keyBucketMove : Statement (.keyBucketMove) := fun h => nomatch h
theorem rebalancer : Statement (.rebalancer) := fun h => nomatch h
theorem keyRebalancer : Statement (.keyRebalancer) := fun h => nomatch h
theorem tokenRefill (arb : Arbiter) : Statement (.tokenRefill arb) := fun h => nomatch h
theorem jqEnable (vd : Nat) (q : Nat) (value : Word) : Statement (.jqEnable vd q value) := fun h => nomatch h
theorem jqDoorbell (vd : Nat) (q : Nat) (tail : BitVec 16) : Statement (.jqDoorbell vd q tail) := fun h => nomatch h
theorem vdEnable (vd : Nat) (value : Word) : Statement (.vdEnable vd value) := fun h => nomatch h
theorem shrWrite (vd : Nat) (c : Nat) (value : Word) : Statement (.shrWrite vd c value) := fun h => nomatch h
theorem waymskWrite (vd : Nat) (slice : Nat) (value : Word) : Statement (.waymskWrite vd slice value) := fun h => nomatch h
theorem coreselWrite (core : Nat) (value : Word) : Statement (.coreselWrite core value) := fun h => nomatch h
theorem rbctlGo (value : Word) : Statement (.rbctlGo value) := fun h => nomatch h
theorem kbctlGo (value : Word) : Statement (.kbctlGo value) := fun h => nomatch h
theorem dspcmdEndJob (value : Word) : Statement (.dspcmdEndJob value) := fun h => nomatch h
theorem gatewayStart (n : Nat) (value : Word) : Statement (.gatewayStart n value) := fun h => nomatch h
theorem retireComputeCore (core : Nat) : Statement (.retireComputeCore core) := fun h => nomatch h
theorem retireSpindle (spindle : Nat) : Statement (.retireSpindle spindle) := fun h => nomatch h
theorem repairDramRow (channel : Nat) (bank : Nat) (row : Nat) : Statement (.repairDramRow channel bank row) := fun h => nomatch h
theorem spareALane (iface : Nat) (lane : Nat) : Statement (.spareALane iface lane) := fun h => nomatch h
theorem dieWarmReset (die : Nat) : Statement (.dieWarmReset die) := fun h => nomatch h
theorem setRoute (module : Nat) (link : Nat) (valid : Bool) : Statement (.setRoute module link valid) := fun h => nomatch h
theorem serviceCommandEnd : Statement (.serviceCommandEnd) := fun h => nomatch h
theorem xlinvGo (value : Word) : Statement (.xlinvGo value) := fun h => nomatch h
theorem xlinvAck : Statement (.xlinvAck) := fun h => nomatch h
theorem modidWrite (value : Word) : Statement (.modidWrite value) := fun h => nomatch h
theorem errctlRead : Statement (.errctlRead) := fun h => nomatch h
theorem registerWrite (reg : HostReg) (value : Word) : Statement (.registerWrite reg value) := fun h => nomatch h
theorem timingReplay (unit : Latched) : Statement (.timingReplay unit) := fun h => nomatch h
theorem flitReplay (link : Nat) : Statement (.flitReplay link) := fun h => nomatch h
theorem telemetryUpdate (die : Nat) (telem : Word) (power : BitVec 32) (energy : Word) : Statement (.telemetryUpdate die telem power energy) := fun h => nomatch h
theorem thermtrip (die : Nat) : Statement (.thermtrip die) := fun h => nomatch h
theorem coldReset (primary : Image) (backup : Image) : Statement (.coldReset primary backup) := fun h => nomatch h
theorem hostWrite (vd : Nat) (va : Nat) (data : List Byte) (relaxed : Bool) : Statement (.hostWrite vd va data relaxed) := fun h => nomatch h
theorem hostRead (vd : Nat) (va : Nat) (len : Nat) : Statement (.hostRead vd va len) := fun h => nomatch h
theorem peerAccess (link : Nat) (vd : Nat) (va : Nat) (data : List Byte) (write : Bool) : Statement (.peerAccess link vd va data write) := fun h => nomatch h
theorem blockRecord (link : Nat) (vd : Nat) (data : List Byte) : Statement (.blockRecord link vd data) := fun h => nomatch h
theorem switchReductionResult (round : Nat) : Statement (.switchReductionResult round) := fun h => nomatch h
theorem cxlTimeout (cmd : Nat) : Statement (.cxlTimeout cmd) := fun h => nomatch h
theorem linkDownTimeout (cmd : Nat) : Statement (.linkDownTimeout cmd) := fun h => nomatch h
theorem setKey (slot : Nat) (key1 : BitVec 256) (key2 : BitVec 256) : Statement (.setKey slot key1 key2) := fun h => nomatch h
theorem eraseKey (slot : Nat) : Statement (.eraseKey slot) := fun h => nomatch h
theorem selectKey (vd : Nat) (slot : Nat) : Statement (.selectKey vd slot) := fun h => nomatch h
theorem raiseFusedSecurityVersion (version : Nat) : Statement (.raiseFusedSecurityVersion version) := fun h => nomatch h
theorem spdmRequest (request : Spdm) : Statement (.spdmRequest request) := fun h => nomatch h
theorem linkDown (port : Port) : Statement (.linkDown port) := fun h => nomatch h

end Sys2Proof.Laws.Round
end

