-- ==== Sys2Proof/Laws/Prepare.lean ====
section
/-! SUPPORT. What spilling, refilling and writing registers may change (R43, R44): the registers and the spill reserve of activities, and
nothing else of the state. -/

namespace Sys2Proof.Machine

/-- An activity that differs from another in its registers and its spill reserve only. -/
def Activity.SameButRegs (a b : Activity) : Prop := b = { a with regs := b.regs, reserve := b.reserve }

theorem Activity.SameButRegs.refl (a : Activity) : a.SameButRegs a := rfl

theorem Activity.SameButRegs.trans {a b c : Activity} (h : a.SameButRegs b) (k : b.SameButRegs c) : a.SameButRegs c := by
  unfold Activity.SameButRegs at *; rw [k, h]

theorem Activity.sameButRegs_spill (a : Activity) (x : Reg) : a.SameButRegs (a.spill x) := rfl

/-- A state that differs from another in registers and spill reserves only. -/
structure Moved (s t : State) : Prop where
  me : s.me.SameButRegs t.me
  acts : List.Forall₂ Activity.SameButRegs s.acts t.acts
  rest : t = { s with me := t.me, acts := t.acts }

theorem Moved.refl (s : State) : Moved s s :=
  ⟨rfl, List.forall₂_same.2 (fun a _ => Activity.SameButRegs.refl a), rfl⟩

theorem forall₂_sameButRegs_trans : ∀ {l m n : List Activity}, List.Forall₂ Activity.SameButRegs l m →
    List.Forall₂ Activity.SameButRegs m n → List.Forall₂ Activity.SameButRegs l n
  | [], _, _, .nil, .nil => .nil
  | _ :: _, _, _, .cons h hs, .cons k ks => .cons (h.trans k) (forall₂_sameButRegs_trans hs ks)

theorem Moved.trans {s t u : State} (h : Moved s t) (k : Moved t u) : Moved s u :=
  ⟨h.me.trans k.me, forall₂_sameButRegs_trans h.acts k.acts, by rw [k.rest, h.rest]⟩

theorem Moved.modAct {f : Activity → Activity} (hf : ∀ a : Activity, a.SameButRegs (f a)) (uid : Nat) (s : State) : Moved s (s.modAct uid f) := by
  unfold State.modAct
  split
  · exact ⟨hf s.me, List.forall₂_same.2 (fun a _ => Activity.SameButRegs.refl a), rfl⟩
  · refine ⟨rfl, ?_, rfl⟩
    show List.Forall₂ Activity.SameButRegs s.acts (s.acts.map _)
    rw [List.forall₂_map_right_iff, List.forall₂_same]
    intro a _
    split
    · exact hf a
    · exact Activity.SameButRegs.refl a

theorem Moved.modMe {f : Activity → Activity} (s : State) (hf : s.me.SameButRegs (f s.me)) : Moved s (s.modMe f) :=
  ⟨hf, List.forall₂_same.2 (fun a _ => Activity.SameButRegs.refl a), rfl⟩

theorem Moved.makeRoom (ag : Agent) (v : Bool) (need self : Nat) (keep : List Reg) :
    ∀ (fuel : Nat) (s : State), Moved s (State.makeRoom ag v need self keep fuel s)
  | 0, s => Moved.refl s
  | fuel + 1, s => by
    simp only [State.makeRoom]
    generalize (if v then (poolSize ag.kind).2 else (poolSize ag.kind).1) = size
    split
    · exact Moved.refl s
    · cases s.spillVictim ag v self keep with
      | none => exact Moved.refl s
      | some p => exact (Moved.modAct (fun a => a.sameButRegs_spill p.2) p.1 s).trans (Moved.makeRoom ag v need self keep fuel _)

/-- Writing a register moves registers only. -/
theorem Moved.writeReg (x : Reg) (val : Vec) (keep : List Reg) (s : State) : Moved s (s.writeReg x val keep) := by
  unfold State.writeReg
  split
  · exact Moved.refl s
  · split
    · exact Moved.modMe s rfl
    · exact (Moved.makeRoom _ _ _ _ _ _ s).trans (Moved.modMe _ rfl)

theorem Moved.refill (x : Reg) (keep : List Reg) (s : State) : Moved s (s.refill x keep) := by
  unfold State.refill
  split
  · exact Moved.writeReg x _ keep s
  · exact Moved.refl s

theorem Moved.foldl {α : Type} {f : State → α → State} (hf : ∀ s x, Moved s (f s x)) : ∀ (l : List α) (s : State), Moved s (l.foldl f s)
  | [], s => Moved.refl s
  | x :: l, s => (hf s x).trans (Moved.foldl hf l (f s x))

theorem Moved.refillAll (xs : List Reg) (s : State) : Moved s (s.refillAll xs) := Moved.foldl (fun s x => Moved.refill x xs s) xs s

/-- Preparing an instruction's operands moves registers only. -/
theorem Moved.prepare (i : Instr) (s : State) : Moved s (s.prepare i) := by
  unfold State.prepare
  exact (Moved.refillAll _ s).trans (Moved.modMe _ rfl)

/-! ## What preparing leaves -/

@[simp] theorem State.prepare_cycle (i : Instr) (s : State) : (s.prepare i).cycle = s.cycle := by rw [(Moved.prepare i s).rest]
@[simp] theorem State.prepare_core (i : Instr) (s : State) : (s.prepare i).core = s.core := by rw [(Moved.prepare i s).rest]
@[simp] theorem State.prepare_cores (i : Instr) (s : State) : (s.prepare i).cores = s.cores := by rw [(Moved.prepare i s).rest]
@[simp] theorem State.prepare_saved (i : Instr) (s : State) : (s.prepare i).saved = s.saved := by rw [(Moved.prepare i s).rest]
@[simp] theorem State.prepare_mem (i : Instr) (s : State) : (s.prepare i).mem = s.mem := by rw [(Moved.prepare i s).rest]
@[simp] theorem State.prepare_cache (i : Instr) (s : State) : (s.prepare i).cache = s.cache := by rw [(Moved.prepare i s).rest]
@[simp] theorem State.prepare_dirs (i : Instr) (s : State) : (s.prepare i).dirs = s.dirs := by rw [(Moved.prepare i s).rest]
@[simp] theorem State.prepare_disp (i : Instr) (s : State) : (s.prepare i).disp = s.disp := by rw [(Moved.prepare i s).rest]
@[simp] theorem State.prepare_vds (i : Instr) (s : State) : (s.prepare i).vds = s.vds := by rw [(Moved.prepare i s).rest]
@[simp] theorem State.prepare_svc (i : Instr) (s : State) : (s.prepare i).svc = s.svc := by rw [(Moved.prepare i s).rest]
@[simp] theorem State.prepare_idle (i : Instr) (s : State) : (s.prepare i).idle = s.idle := by rw [(Moved.prepare i s).rest]
@[simp] theorem State.prepare_arbs (i : Instr) (s : State) : (s.prepare i).arbs = s.arbs := by rw [(Moved.prepare i s).rest]
@[simp] theorem State.prepare_passing (i : Instr) (s : State) : (s.prepare i).passing = s.passing := by rw [(Moved.prepare i s).rest]
@[simp] theorem State.prepare_switch (i : Instr) (s : State) : (s.prepare i).switch = s.switch := by rw [(Moved.prepare i s).rest]
@[simp] theorem State.prepare_msgs (i : Instr) (s : State) : (s.prepare i).msgs = s.msgs := by rw [(Moved.prepare i s).rest]
@[simp] theorem State.prepare_agenda (i : Instr) (s : State) : (s.prepare i).agenda = s.agenda := by rw [(Moved.prepare i s).rest]
@[simp] theorem State.prepare_phase (i : Instr) (s : State) : (s.prepare i).phase = s.phase := by rw [(Moved.prepare i s).rest]
@[simp] theorem State.prepare_choiceCtr (i : Instr) (s : State) : (s.prepare i).choiceCtr = s.choiceCtr := by rw [(Moved.prepare i s).rest]
@[simp] theorem State.prepare_nextUid (i : Instr) (s : State) : (s.prepare i).nextUid = s.nextUid := by rw [(Moved.prepare i s).rest]
@[simp] theorem State.prepare_nextCmd (i : Instr) (s : State) : (s.prepare i).nextCmd = s.nextCmd := by rw [(Moved.prepare i s).rest]
@[simp] theorem State.prepare_nextMsg (i : Instr) (s : State) : (s.prepare i).nextMsg = s.nextMsg := by rw [(Moved.prepare i s).rest]
@[simp] theorem State.prepare_me_uid (i : Instr) (s : State) : (s.prepare i).me.uid = s.me.uid := by rw [(Moved.prepare i s).me]
@[simp] theorem State.prepare_me_life (i : Instr) (s : State) : (s.prepare i).me.life = s.me.life := by rw [(Moved.prepare i s).me]
@[simp] theorem State.prepare_me_agent (i : Instr) (s : State) : (s.prepare i).me.agent = s.me.agent := by rw [(Moved.prepare i s).me]
@[simp] theorem State.prepare_me_home (i : Instr) (s : State) : (s.prepare i).me.home = s.me.home := by rw [(Moved.prepare i s).me]
@[simp] theorem State.prepare_me_slot (i : Instr) (s : State) : (s.prepare i).me.slot = s.me.slot := by rw [(Moved.prepare i s).me]
@[simp] theorem State.prepare_me_gen (i : Instr) (s : State) : (s.prepare i).me.gen = s.me.gen := by rw [(Moved.prepare i s).me]
@[simp] theorem State.prepare_me_job (i : Instr) (s : State) : (s.prepare i).me.job = s.me.job := by rw [(Moved.prepare i s).me]
@[simp] theorem State.prepare_me_pc (i : Instr) (s : State) : (s.prepare i).me.pc = s.me.pc := by rw [(Moved.prepare i s).me]
@[simp] theorem State.prepare_me_nextIssue (i : Instr) (s : State) : (s.prepare i).me.nextIssue = s.me.nextIssue := by rw [(Moved.prepare i s).me]
@[simp] theorem State.prepare_me_lastIssue (i : Instr) (s : State) : (s.prepare i).me.lastIssue = s.me.lastIssue := by rw [(Moved.prepare i s).me]
@[simp] theorem State.prepare_me_pend (i : Instr) (s : State) : (s.prepare i).me.pend = s.me.pend := by rw [(Moved.prepare i s).me]
@[simp] theorem State.prepare_me_claimed (i : Instr) (s : State) : (s.prepare i).me.claimed = s.me.claimed := by rw [(Moved.prepare i s).me]
@[simp] theorem State.prepare_me_tiles (i : Instr) (s : State) : (s.prepare i).me.tiles = s.me.tiles := by rw [(Moved.prepare i s).me]
@[simp] theorem State.prepare_me_accs (i : Instr) (s : State) : (s.prepare i).me.accs = s.me.accs := by rw [(Moved.prepare i s).me]
@[simp] theorem State.prepare_me_tspilled (i : Instr) (s : State) : (s.prepare i).me.tspilled = s.me.tspilled := by rw [(Moved.prepare i s).me]
@[simp] theorem State.prepare_me_aspilled (i : Instr) (s : State) : (s.prepare i).me.aspilled = s.me.aspilled := by rw [(Moved.prepare i s).me]
@[simp] theorem State.prepare_me_torder (i : Instr) (s : State) : (s.prepare i).me.torder = s.me.torder := by rw [(Moved.prepare i s).me]
@[simp] theorem State.prepare_me_spillArea (i : Instr) (s : State) : (s.prepare i).me.spillArea = s.me.spillArea := by rw [(Moved.prepare i s).me]
@[simp] theorem State.prepare_me_matDone (i : Instr) (s : State) : (s.prepare i).me.matDone = s.me.matDone := by rw [(Moved.prepare i s).me]
@[simp] theorem State.prepare_me_barEnds (i : Instr) (s : State) : (s.prepare i).me.barEnds = s.me.barEnds := by rw [(Moved.prepare i s).me]
@[simp] theorem State.prepare_me_ts (i : Instr) (s : State) : (s.prepare i).me.ts = s.me.ts := by rw [(Moved.prepare i s).me]
@[simp] theorem State.prepare_me_schk (i : Instr) (s : State) : (s.prepare i).me.schk = s.me.schk := by rw [(Moved.prepare i s).me]
@[simp] theorem State.prepare_me_seed (i : Instr) (s : State) : (s.prepare i).me.seed = s.me.seed := by rw [(Moved.prepare i s).me]
@[simp] theorem State.prepare_me_runc (i : Instr) (s : State) : (s.prepare i).me.runc = s.me.runc := by rw [(Moved.prepare i s).me]
@[simp] theorem State.prepare_me_overrun (i : Instr) (s : State) : (s.prepare i).me.overrun = s.me.overrun := by rw [(Moved.prepare i s).me]
@[simp] theorem State.prepare_me_trap (i : Instr) (s : State) : (s.prepare i).me.trap = s.me.trap := by rw [(Moved.prepare i s).me]
@[simp] theorem State.prepare_me_region (i : Instr) (s : State) : (s.prepare i).me.region = s.me.region := by rw [(Moved.prepare i s).me]
@[simp] theorem State.prepare_me_psjpc (i : Instr) (s : State) : (s.prepare i).me.psjpc = s.me.psjpc := by rw [(Moved.prepare i s).me]
@[simp] theorem State.prepare_me_lm (i : Instr) (s : State) : (s.prepare i).me.lm = s.me.lm := by rw [(Moved.prepare i s).me]
@[simp] theorem State.prepare_me_frames (i : Instr) (s : State) : (s.prepare i).me.frames = s.me.frames := by rw [(Moved.prepare i s).me]
@[simp] theorem State.prepare_me_claims (i : Instr) (s : State) : (s.prepare i).me.claims = s.me.claims := by rw [(Moved.prepare i s).me]
@[simp] theorem State.prepare_me_block (i : Instr) (s : State) : (s.prepare i).me.block = s.me.block := by rw [(Moved.prepare i s).me]
@[simp] theorem State.prepare_me_firstTry (i : Instr) (s : State) : (s.prepare i).me.firstTry = s.me.firstTry := by rw [(Moved.prepare i s).me]
@[simp] theorem State.prepare_me_listRead (i : Instr) (s : State) : (s.prepare i).me.listRead = s.me.listRead := by rw [(Moved.prepare i s).me]
@[simp] theorem State.prepare_me_descWait (i : Instr) (s : State) : (s.prepare i).me.descWait = s.me.descWait := by rw [(Moved.prepare i s).me]
@[simp] theorem State.prepare_me_windows (i : Instr) (s : State) : (s.prepare i).me.windows = s.me.windows := by rw [(Moved.prepare i s).me]
@[simp] theorem State.prepare_me_prog (i : Instr) (s : State) : (s.prepare i).me.prog = s.me.prog := by rw [(Moved.prepare i s).me]
@[simp] theorem State.prepare_me_party (i : Instr) (s : State) : (s.prepare i).me.party = s.me.party := by rw [(Moved.prepare i s).me]
@[simp] theorem State.prepare_me_settling (i : Instr) (s : State) : (s.prepare i).me.settling = s.me.settling := by rw [(Moved.prepare i s).me]
@[simp] theorem State.prepare_me_doom (i : Instr) (s : State) : (s.prepare i).me.doom = s.me.doom := by rw [(Moved.prepare i s).me]
@[simp] theorem State.prepare_me_fresh (i : Instr) (s : State) : (s.prepare i).me.fresh = s.me.fresh := by rw [(Moved.prepare i s).me]
@[simp] theorem State.prepare_me_tags (i : Instr) (s : State) : (s.prepare i).me.tags = s.me.tags := by rw [(Moved.prepare i s).me]
@[simp] theorem State.prepare_me_taints (i : Instr) (s : State) : (s.prepare i).me.taints = s.me.taints := by rw [(Moved.prepare i s).me]
@[simp] theorem State.prepare_me_coll (i : Instr) (s : State) : (s.prepare i).me.coll = s.me.coll := by rw [(Moved.prepare i s).me]
@[simp] theorem State.prepare_me_lastPc (i : Instr) (s : State) : (s.prepare i).me.lastPc = s.me.lastPc := by rw [(Moved.prepare i s).me]
@[simp] theorem State.prepare_me_blockAt (i : Instr) (s : State) : (s.prepare i).me.blockAt = s.me.blockAt := by rw [(Moved.prepare i s).me]
@[simp] theorem State.prepare_me_helds (i : Instr) (s : State) : (s.prepare i).me.helds = s.me.helds := by rw [(Moved.prepare i s).me]
@[simp] theorem State.prepare_me_promises (i : Instr) (s : State) : (s.prepare i).me.promises = s.me.promises := by rw [(Moved.prepare i s).me]
@[simp] theorem State.prepare_me_quiet (i : Instr) (s : State) : (s.prepare i).me.quiet = s.me.quiet := by rw [(Moved.prepare i s).me]
@[simp] theorem State.prepare_me_trapping (i : Instr) (s : State) : (s.prepare i).me.trapping = s.me.trapping := by rw [(Moved.prepare i s).me]

end Sys2Proof.Machine
end

