-- ==== Sys2Proof/Laws/Store.lean ====
section
/-! SUPPORT. Laws of sparse maps and of byte memory: read after write, and every write keeps the canonical form. -/

namespace Sys2Proof

/-! ## Sparse maps -/

theorem AMap.sortedFrom_mono {α : Type} {lo hi : Nat} (h : lo ≤ hi) :
    ∀ {m : AMap α}, AMap.sortedFrom hi m = true → AMap.sortedFrom lo m = true
  | [], _ => rfl
  | (k, _) :: rest, hm => by
    simp only [AMap.sortedFrom, Bool.and_eq_true, decide_eq_true_eq] at hm ⊢
    exact ⟨by omega, hm.2⟩

theorem AMap.find_put_same {α : Type} (a : Nat) (x : α) : ∀ m : AMap α, AMap.find (AMap.put m a x) a = some x
  | [] => by simp [AMap.put, AMap.find]
  | (k, v) :: rest => by
    simp only [AMap.put]
    split
    · simp [AMap.find]
    · split
      · simp [AMap.find]
      · rename_i h1 h2
        simp only [AMap.find]
        rw [if_neg (fun h => h2 h.symm)]
        exact AMap.find_put_same a x rest

theorem AMap.find_put_other {α : Type} {a b : Nat} (x : α) (h : a ≠ b) :
    ∀ m : AMap α, AMap.find (AMap.put m a x) b = AMap.find m b
  | [] => by simp [AMap.put, AMap.find, h]
  | (k, v) :: rest => by
    simp only [AMap.put]
    split
    · simp [AMap.find, h]
    · split
      · rename_i h2; subst h2; simp [AMap.find, h]
      · simp only [AMap.find]; rw [AMap.find_put_other x h rest]

theorem AMap.find_del_same {α : Type} (a : Nat) : ∀ m : AMap α, AMap.find (AMap.del m a) a = none
  | [] => rfl
  | (k, v) :: rest => by
    simp only [AMap.del]
    split
    · exact AMap.find_del_same a rest
    · rename_i h; simp only [AMap.find]; rw [if_neg h]; exact AMap.find_del_same a rest

theorem AMap.find_del_other {α : Type} {a b : Nat} (h : a ≠ b) :
    ∀ m : AMap α, AMap.find (AMap.del m a) b = AMap.find m b
  | [] => rfl
  | (k, v) :: rest => by
    simp only [AMap.del]
    split
    · rename_i h2; subst h2; simp only [AMap.find]; rw [if_neg h]; exact AMap.find_del_other h rest
    · simp only [AMap.find]; rw [AMap.find_del_other h rest]

theorem AMap.sorted_put {α : Type} (a : Nat) (x : α) :
    ∀ {m : AMap α} {lo : Nat}, lo ≤ a → AMap.sortedFrom lo m = true → AMap.sortedFrom lo (AMap.put m a x) = true
  | [], lo, h, _ => by simp [AMap.put, AMap.sortedFrom, h]
  | (k, v) :: rest, lo, h, hm => by
    simp only [AMap.sortedFrom, Bool.and_eq_true, decide_eq_true_eq] at hm
    simp only [AMap.put]
    split
    · rename_i h1
      simp only [AMap.sortedFrom, Bool.and_eq_true, decide_eq_true_eq]
      exact ⟨h, by omega, hm.2⟩
    · split
      · rename_i h1 h2; subst h2
        simp only [AMap.sortedFrom, Bool.and_eq_true, decide_eq_true_eq]; exact ⟨h, hm.2⟩
      · simp only [AMap.sortedFrom, Bool.and_eq_true, decide_eq_true_eq]
        exact ⟨hm.1, AMap.sorted_put a x (by omega) hm.2⟩

theorem AMap.sorted_del {α : Type} (a : Nat) :
    ∀ {m : AMap α} {lo : Nat}, AMap.sortedFrom lo m = true → AMap.sortedFrom lo (AMap.del m a) = true
  | [], _, _ => rfl
  | (k, v) :: rest, lo, hm => by
    simp only [AMap.sortedFrom, Bool.and_eq_true, decide_eq_true_eq] at hm
    simp only [AMap.del]
    split
    · exact AMap.sorted_del a (AMap.sortedFrom_mono (by omega) hm.2)
    · simp only [AMap.sortedFrom, Bool.and_eq_true, decide_eq_true_eq]
      exact ⟨hm.1, AMap.sorted_del a hm.2⟩

theorem AMap.all_put {α : Type} (p : Nat × α → Bool) {a : Nat} {x : α} (hx : p (a, x) = true) :
    ∀ {m : AMap α}, m.all p = true → (AMap.put m a x).all p = true
  | [], _ => by simp [AMap.put, hx]
  | (k, v) :: rest, hm => by
    simp only [List.all_cons, Bool.and_eq_true] at hm
    simp only [AMap.put]
    split
    · simp [hx, hm.1, hm.2]
    · split
      · simp [hx, hm.2]
      · simp [hm.1, AMap.all_put p hx hm.2]

theorem AMap.all_del {α : Type} (p : Nat × α → Bool) (a : Nat) :
    ∀ {m : AMap α}, m.all p = true → (AMap.del m a).all p = true
  | [], _ => rfl
  | (k, v) :: rest, hm => by
    simp only [List.all_cons, Bool.and_eq_true] at hm
    simp only [AMap.del]
    split
    · exact AMap.all_del p a hm.2
    · simp [hm.1, AMap.all_del p a hm.2]

/-- A lookup below every listed key finds nothing. -/
theorem AMap.find_below {α : Type} {a : Nat} :
    ∀ {m : AMap α} {lo : Nat}, a < lo → AMap.sortedFrom lo m = true → AMap.find m a = none
  | [], _, _, _ => rfl
  | (k, v) :: rest, lo, h, hm => by
    simp only [AMap.sortedFrom, Bool.and_eq_true, decide_eq_true_eq] at hm
    simp only [AMap.find]
    rw [if_neg (by omega)]
    exact AMap.find_below (by omega) hm.2

/-- Two sorted maps with the same lookups are the same list. -/
theorem AMap.ext_sorted {α : Type} :
    ∀ {m n : AMap α} {lo : Nat}, AMap.sortedFrom lo m = true → AMap.sortedFrom lo n = true →
      (∀ a, AMap.find m a = AMap.find n a) → m = n
  | [], [], _, _, _, _ => rfl
  | [], (k, v) :: rest, _, _, _, h => by have := h k; simp [AMap.find] at this
  | (k, v) :: rest, [], _, _, _, h => by have := h k; simp [AMap.find] at this
  | (k, v) :: rest, (l, w) :: rest', lo, hm, hn, h => by
    simp only [AMap.sortedFrom, Bool.and_eq_true, decide_eq_true_eq] at hm hn
    have hkl : k = l := by
      rcases Nat.lt_trichotomy k l with c | c | c
      · have := h k
        rw [AMap.find, if_pos rfl, AMap.find, if_neg (by omega), AMap.find_below (by omega) hn.2] at this
        exact absurd this (by simp)
      · exact c
      · have := h l
        rw [AMap.find, if_neg (by omega), AMap.find_below (by omega) hm.2, AMap.find, if_pos rfl] at this
        exact absurd this (by simp)
    subst hkl
    have hv : v = w := by have := h k; simpa [AMap.find] using this
    subst hv
    have : rest = rest' := AMap.ext_sorted hm.2 hn.2 (fun a => by
      by_cases hak : k = a
      · subst hak; rw [AMap.find_below (by omega) hm.2, AMap.find_below (by omega) hn.2]
      · have := h a; simpa [AMap.find, hak] using this)
    rw [this]

namespace Machine

/-! ## Byte memory -/

/-- Read after write, at the same address. -/
@[simp] theorem Memory.read_write_same (m : Memory) (a : Nat) (b : Byte) : (m.write a b).read a = b := by
  unfold Memory.write Memory.read
  split
  · rename_i h; rw [AMap.find_del_same]; simp [h]
  · rw [AMap.find_put_same]; rfl

/-- A write leaves every other address alone. -/
theorem Memory.read_write_other (m : Memory) {a b : Nat} (x : Byte) (h : a ≠ b) : (m.write a x).read b = m.read b := by
  unfold Memory.write Memory.read
  split
  · rw [AMap.find_del_other h]
  · rw [AMap.find_put_other x h]

/-- A write keeps the canonical form. -/
theorem Memory.wf_write {m : Memory} (a : Nat) (b : Byte) (h : m.wf = true) : (m.write a b).wf = true := by
  simp only [Memory.wf, Bool.and_eq_true] at h ⊢
  unfold Memory.write
  split
  · exact ⟨AMap.sorted_del a h.1, AMap.all_del _ a h.2⟩
  · rename_i hb
    exact ⟨AMap.sorted_put a b (Nat.zero_le _) h.1, AMap.all_put _ (by simpa using hb) h.2⟩

/-- So does a write of several bytes. -/
theorem Memory.wf_writeN (bs : List Byte) : ∀ {m : Memory} (a : Nat), m.wf = true → (m.writeN a bs).wf = true := by
  induction bs with
  | nil => intro m a h; exact h
  | cons b bs ih => intro m a h; exact ih (a + 1) (Memory.wf_write a b h)

/-- A write of several bytes leaves the addresses outside its range alone. -/
theorem Memory.read_writeN_outside (bs : List Byte) :
    ∀ (m : Memory) (a b : Nat), b < a ∨ a + bs.length ≤ b → (m.writeN a bs).read b = m.read b := by
  induction bs with
  | nil => intro m a b _; rfl
  | cons x bs ih =>
    intro m a b h
    simp only [List.length_cons] at h
    simp only [Memory.writeN]
    rw [ih (m.write a x) (a + 1) b (by omega), Memory.read_write_other m x (by omega)]

/-- A write of several bytes, read within its range. -/
theorem Memory.read_writeN_inside (bs : List Byte) :
    ∀ (m : Memory) (a i : Nat), (h : i < bs.length) → (m.writeN a bs).read (a + i) = bs[i] := by
  induction bs with
  | nil => intro m a i h; exact absurd h (Nat.not_lt_zero _)
  | cons x bs ih =>
    intro m a i h
    simp only [Memory.writeN]
    cases i with
    | zero => rw [Memory.read_writeN_outside bs _ _ _ (by omega)]; simp
    | succ i =>
      have := ih (m.write a x) (a + 1) i (by simpa using h)
      rw [show a + (i + 1) = a + 1 + i by omega, this]; simp

/-- Read after write, of several bytes. -/
theorem Memory.readN_writeN (bs : List Byte) : ∀ (m : Memory) (a : Nat), (m.writeN a bs).readN a bs.length = bs := by
  induction bs with
  | nil => intro m a; rfl
  | cons x bs ih =>
    intro m a
    simp only [Memory.writeN, List.length_cons, Memory.readN]
    rw [ih, Memory.read_writeN_outside bs _ _ _ (by omega)]; simp

/-- A read of several bytes outside the range of a write. -/
theorem Memory.readN_writeN_outside (bs : List Byte) (m : Memory) (a : Nat) :
    ∀ (n b : Nat), b + n ≤ a ∨ a + bs.length ≤ b → (m.writeN a bs).readN b n = m.readN b n := by
  intro n
  induction n with
  | zero => intro b _; rfl
  | succ n ih =>
    intro b h
    simp only [Memory.readN]
    rw [Memory.read_writeN_outside bs m a b (by omega), ih (b + 1) (by omega)]

/-- Two canonical memories that read alike are equal data. -/
theorem Memory.ext_wf {m n : Memory} (hm : m.wf = true) (hn : n.wf = true) (h : ∀ a, m.read a = n.read a) : m = n := by
  simp only [Memory.wf, Bool.and_eq_true] at hm hn
  refine AMap.ext_sorted hm.1 hn.1 (fun a => ?_)
  have key : ∀ {m : Memory}, m.all (fun c => c.2 != Memory.background) = true → ∀ a x, AMap.find m a = some x → x ≠ Memory.background := by
    intro m
    induction m with
    | nil => intro _ a x hx; simp [AMap.find] at hx
    | cons c rest ih =>
      intro hall a x hx
      obtain ⟨k, v⟩ := c
      simp only [List.all_cons, Bool.and_eq_true, bne_iff_ne, ne_eq] at hall
      simp only [AMap.find] at hx
      split at hx
      · cases hx; exact hall.1
      · exact ih hall.2 a x hx
  have ha := h a
  unfold Memory.read at ha
  cases hfm : AMap.find m a with
  | none =>
    cases hfn : AMap.find n a with
    | none => rfl
    | some y => rw [hfm, hfn] at ha; exact absurd ha.symm (key hn.2 a y hfn)
  | some x =>
    cases hfn : AMap.find n a with
    | none => rw [hfm, hfn] at ha; exact absurd ha (key hm.2 a x hfm)
    | some y => rw [hfm, hfn] at ha; simpa using ha

@[simp] theorem toBytes_length : ∀ (n v : Nat), (toBytes n v).length = n
  | 0, _ => rfl
  | n + 1, v => by simp [toBytes, toBytes_length n]

/-- The bytes of a number that fits them spell it (R3). -/
theorem ofBytes_toBytes : ∀ (n v : Nat), v < 256 ^ n → ofBytes (toBytes n v) = v
  | 0, v, h => by simp at h; simp [toBytes, ofBytes, h]
  | n + 1, v, h => by
    simp only [toBytes, ofBytes, BitVec.toNat_ofNat]
    rw [ofBytes_toBytes n (v / 256) (by rw [Nat.div_lt_iff_lt_mul (by omega)]; rw [pow_succ] at h; omega)]
    omega

end Machine

end Sys2Proof
end

