-- ==== Sys2Proof/Tests/Slice0.lean ====
section
/-! SUPPORT. Tests: terms that well-formedness refuses, words that the manual encodes, values that it works out, and for every statement a state
and operands that meet the premises of each of its clauses. -/

namespace Sys2Proof.Tests

open Sys2Proof.Machine

/-! ## Small states -/

/-- The operand fields of an instruction of one word, all 0. -/
def r0 : R := ⟨0, false, none, 0, 0, 0, 0, 0, 0, false, 0, 0⟩

/-- An activity of VD 0 at the start of its code, with registers, one code page and four data pages. -/
def act (kind : AKind) (regs : List (Nat × Word)) : Activity :=
  { loadedActivity 1 kind 0 with
    job := ⟨0, 1, 1, 0, 0, 0, 1, 4, 5, 3, 4, 0, 0⟩
    frames := [1, 2, 3, 4]
    regs := ⟨regs, [], [], [], []⟩ }

/-- An image that the boot ROM accepts. -/
def img : Image :=
  { magic := 0x57465A4B, headerVersion := 1, securityVersion := 1, keySlot := 0, ecdsaVerifies := true, lmsVerifies := true }

/-- A booted machine with an activity in focus on its agent, whose segment is all instructions of one word. -/
def world (a : Activity) : State :=
  { State.reset with
    cycle := 1000
    me := a
    core := { Core.fresh a.agent with segs := [⟨a.segKey, 0, [], 64, List.range 64, false, 1, none, 0⟩] }
    vds := [(0, { Vd.reset with en := true })]
    svc := { Svc.reset with boot := .running img, keys := [(0, ⟨1, 2⟩)], keyHist := [⟨1, 2⟩] } }

/-- A booted machine with a compute activity. -/
def demo : State := world (act .compute [(1, 0x800), (2, 7), (3, 1), (4, 0x10), (5, 2)])

/-- The checks of R100 passed make an instruction ready. -/
theorem ready {i : Instr} {s : State} (h : precheck i s = .go) (v : (i.blocking && s.vecBusy) = false) : Ready i s := ready_of_precheck h v

/-- Local memory of the demo activity with bytes at an address. -/
def withLm (at_ : Nat) (bs : List Byte) (s : State) : State := s.modMe (fun a => { a with lm := { a.lm with bytes := a.lm.bytes.writeN at_ bs } })

/-- A guard that does not hold. -/
theorem guarded {i : Instr} {s : State} (h : precheck i s = .squelch) : Guarded i s := guarded_of_precheck h

theorem trapReady {c : Nat} {s : State} (h1 : s.me.speculative = false) (h2 : s.vecBusy = false) (h3 : s.me.prog = none)
    (h4 : s.me.trap.inh = false) (h5 : s.badTarget (s.me.job.handler c) = none) : TrapReady c s := ⟨h1, h2, h3, h4, h5⟩

/-- The demo activity in a handler that returns to an address. -/
def inHandler (pc : Word) : State := demo.modMe (fun a => { a with trap := { a.trap with inh := true, xpc := pc } })

/-- An activity that sleeps. -/
def sleeping (w : Nat) : Activity := { act .compute [] with block := .sleep w }

/-- The demo activity with g3 spilled to a home that holds an uncorrectable error. -/
def badHomed : State := demo.modMe (fun a => { a with
  regs := { a.regs with g := a.regs.g.filter (fun x => x.1 ≠ 3), spilled := [⟨.g, 3⟩] }
  reserve := { a.reserve with poison := [Reg.homeOffset ⟨.g, 3⟩ / 8] } })

/-- A tile register of zeros. -/
def tile0 : Tile := ⟨[], [], 0, false⟩

/-- A compute activity with INT8 tiles 1 and 2 of 32 and 64 rows of 32 bytes, a tile 3 like tile 1, and an INT accumulator 0. -/
def tiler : Activity :=
  { act .compute [(1, 0x800), (2, 7)] with
    ts := [(1, 0x202008), (2, 0x402008), (3, 0x202008)]
    tiles := [(1, tile0), (2, tile0), (3, tile0)]
    torder := [1, 2, 3]
    accs := [(0, ⟨[], .int, 0, false⟩)] }

/-- A matrix command of that activity. -/
def matc (k : MatKind) (r : R) (started : Option Nat) : MatCmd :=
  { id := 7, owner := 1, kind := k, r := r, pc := 0, issued := 900, y := 0x800, len := 0, ta := 0x202008, tb := 0x402008, td := 0x202008, opA := 0
    opB := 0, opC := 0, opE := 0, seed := 0, started := started, step := 0, latch := ⟨[], [], false, []⟩, bad := false, stale := false }

/-- A machine with that command in the matrix queue. -/
def withMat (c : MatCmd) : State := (world tiler).modCore (fun k => { k with matq := [c] })

/-- A vector load in the queue, whose register is claimed. -/
def vecc : VecCmd := ⟨3, 1, 0, true, false, [], 0, 4, 0, false, 0, 1, 1000, false⟩

/-- A tensor of 16 rows of 32 INT8 elements, one tile. -/
def ten : Desc := ⟨8, 0x100000, 32, 16, 1, 1, 32, 512, 512, 0, false, false, 0, 1, 16⟩

/-- A tensor that may only be read. -/
def tenRo : Desc := { ten with ro := true }

/-- What a core holds that has read the descriptors of tensors 1 to 3, the last one invalid, for VD 0. -/
def tensors (jid : Nat) (k : Core) : Core :=
  { k with descs := [⟨0, jid, 1, 0, some ten, []⟩, ⟨0, jid, 2, 0, some tenRo, []⟩, ⟨0, jid, 3, 0, none, []⟩] }

/-- A compute activity whose core holds the descriptors; g6 is 32. -/
def copier : State := (world (act .compute [(1, 0x800), (2, 7), (3, 1), (4, 0x10), (5, 2), (6, 32)])).modCore (tensors 1)

/-- A page table that maps the first 2^30 bytes of VD 0's ASID 0 to themselves. -/
def paged (s : State) : State :=
  { s with
    vds := [(0, { Vd.reset with en := true, vdrdir := 0x10000 })]
    mem := ⟨[(0x10000, 1), (0x10001, 0x10), (0x10002, 1), (0x11000, 1), (0x11001, 0x20), (0x11002, 1), (0x12000, 1), (0x12001, 0x30), (0x12002, 1), (0x13000, 7)], [], [], []⟩ }

/-- A started command on tensor 1, issued in cycle 0, with its page translated to an address. -/
def cmdAt (pa : Nat) (k : CmdKind) : Cmd :=
  { copier.newCmd k { r0 with lit := some 1 } with
    tid := 1, desc := some ten, base := 0x800, len := 512, issued := 0, started := true, todo := [0], xlat := [(16, some (pa, true))] }

/-- A started command whose lines have been filled. -/
def cmdOf (k : CmdKind) : Cmd := { cmdAt 0x100000 k with filled := [0] }

/-- The machine with that command in its copy queue. -/
def withCmd (c : Cmd) : State := copier.modCore (fun k => { k with copyq := [c] })

/-- A command that waits to be started. -/
def waiting (k : CmdKind) : Cmd := { cmdOf k with started := false }

/-- A requester with a stream window. -/
def asker : Activity := { act .compute [] with uid := 2, windows := [(0, ⟨0x800, 1024, none, false⟩)] }

/-- A spindle program that streams into that window. -/
def prog : Activity :=
  { act .spindle [(1, 0x800), (2, 7), (3, 1), (6, 32)] with prog := some ⟨some 2, 0, 0, 0, none, []⟩ }

/-- A machine with that program in focus. -/
def streamer : State := { (world prog).modCore (tensors 0) with acts := [asker] }

/-- That machine with the requester saved. -/
def awaySaved : State := { streamer with acts := [], saved := [⟨asker, [], [], [], [], 0, none, none, 0⟩] }

/-- That machine with a command in the spindle's queue. -/
def pushing (c : Cmd) : State := streamer.modCore (fun k => { k with copyq := [c] })

/-- A spindle with a request for the program whose descriptor is given. -/
def requested (bs : List Byte) : State :=
  { streamer with
    core := { streamer.core with progq := [⟨2, 0, 0x4000, 0, 0, 0, 0, 0, 0⟩], descs := [⟨0, 0, 0, 0x4000, none, bs⟩], images := [⟨0, 0, [0, 0, 0, 0]⟩] } }

/-- A machine whose matrix activity has a local address that is no multiple of 32. -/
def tilerAt : State := (world tiler).modMe (fun a => { a with regs := { a.regs with g := (5, 0x808) :: a.regs.g } })

/-- A compute activity with a stream window. -/
def windowed (p : Option Nat) : State := copier.modMe (fun a => { a with windows := [(0, ⟨0x800, 1024, p, false⟩)] })

/-- The line of tensor 1's tile, resident at its home. -/
def resident (s : State) : State :=
  { s with cache := { s.cache with lines := [⟨⟨0, 1, 0, 0⟩, s.homeSlice ⟨0, 1, 0, 0⟩, 0, 0, false, false, [], [], false, false⟩] } }

/-- A machine in which a unit of a command has drawn the tokens of its way. -/
def passed (c : Cmd) (u : Nat) (s : State) : State := { s with passing := [⟨.unit c.id u, 0, s.tripNeeds c u⟩] }

/-- A machine in which the walk of page 16 for command 1 has drawn its tokens. -/
def walked (s : State) : State := { s with passing := [⟨.walk 1 16, 0, s.walkNeeds s.core.agent 0 0 (16 * pageBytes)⟩] }

/-- A started command whose line is resident. -/
def loaded (k : CmdKind) : State := passed (cmdOf k) 0 (resident (withCmd (cmdOf k)))

/-- A write command with its journal entry. -/
def journaled (c : Cmd) : State := (withCmd c).modCore (fun k => { k with journal := [(0, ⟨1, 1, 0, 0, 0⟩)] })

/-- A stream command whose line is resident. -/
def pushing2 (c : Cmd) : State := passed c 0 (resident (pushing c))

/-- The copying activity with an index list of one index at 0xC00, whose address g7 holds. -/
def listed (x : Byte) (since : Option Nat) : State :=
  withLm 0xC00 [x] (copier.modMe (fun a => { a with regs := { a.regs with g := (7, 0xC00) :: a.regs.g }, firstTry := since }))

/-- A party under key 5 whose partner is activity 2. -/
def party (ph : PartyPhase) : Party := { Party.arrive 5 none 3 1 1 with phase := ph, partner := some 2 }

/-- An activity with registers that is a party. -/
def partyOf (p : Party) : Activity := { act .compute [(1, 0x800), (2, 7), (3, 1), (6, 32), (8, 0x1100000800)] with party := some p }

/-- The partner. -/
def other : Activity := { act .compute [] with uid := 2, slot := 1, party := some { party .met with partner := some 1 } }

/-- A machine with a party in focus and a partner. -/
def meeting (p : Party) (b : Activity) : State := { world (partyOf p) with acts := [b] }

/-- Issue tokens for the first compute core. -/
def tokens (s : State) : State := { s with arbs := [(.issue ⟨.compute, 0⟩, { Share.empty with surplus := 4096 })] }

/-- A partner whose g1 is spilled. -/
def spilledOther : Activity := { other with regs := ⟨[], [], [], [⟨.g, 1⟩], []⟩ }

/-- A machine with a party in focus and a message on its way. -/
def messaged (k : MsgKind) (ws : List Waiter) (p : Party) : State :=
  { world { partyOf p with claimed := [⟨.g, 3⟩] } with msgs := [⟨1, k, 1000⟩], dirs := { State.reset.dirs with waiters := ws } }

/-- A parked partner with so many pages beside its luggage. -/
def parkedOther (n : Nat) : Activity :=
  { other with party := some { party .parked with partner := none }, job := { other.job with spages := n } }

/-- A rank of a barrier collective of two. -/
def rankc : CollRank := ⟨50, 51, 5, ⟨2, 0, 0, false, 0, 0, 0⟩, 0, 0x800, 0xC00, 0, 3, none, none, false, none, false⟩

/-- An activity with that rank. -/
def ranker (c : CollRank) : Activity := { act .compute [(1, 0x800)] with coll := some c, claimed := [⟨.g, 3⟩] }

/-- A member of its group. -/
def memb (rank uid : Nat) : Member := ⟨rank, uid, ⟨.compute, 0⟩, 0, 1, some ⟨[], [], true, []⟩, false, 0, []⟩

/-- A group of it. -/
def group (ms : List Member) (deadline complete : Option Nat) : Group :=
  ⟨1, 0, 0, 5, ⟨2, 0, 0, false, 0, 0, 0⟩, ms, deadline, false, complete⟩

/-- A machine with the rank in focus, groups and messages. -/
def colling (c : CollRank) (gs : List Group) (ms : List Msg) : State :=
  { world (ranker c) with msgs := ms, dirs := { State.reset.dirs with groups := gs } }

/-- That rank once its source has left. -/
def leftc : CollRank := { rankc with sent := true, left := true }

/-- A machine in which the luggage and the results of a member of a complete group have drawn the tokens of their ways. -/
def collected (c : CollRank) (g : Group) (m : Member) : State :=
  let s := colling c [g] []
  { s with passing := [⟨.result 1, 0, s.resultNeeds g m⟩, ⟨.luggage 1, 0, s.luggageNeeds g m⟩] }

/-- A forecast descriptor at 0x800: D 0x1000, S 0x1400, H1 0x1800, a token, barrier 0x840, one row of 32 INT8 elements, last value. -/
def fdesc (tok : Byte) : List Byte :=
  [0, 0x10, 0, 0, 0, 0x14, 0, 0, 0, 0x18, 0, 0, 0, 0, 0, 0, 0x40, 8, 0, 0, tok, 0, 0, 0, 0, 0, 0, 0, 0, 0, 0, 0, 0, 0x80, 0x20, 1]

/-- A machine with a descriptor in an open region. -/
def caster (bs : List Byte) : State :=
  withLm 0x800 bs (demo.modMe (fun a => { a with region := { a.region with open_ := true } }))

/-- An outstanding tag, whose phase has completed. -/
def tagc (num : Nat) (bad : Bool) : Tag := ⟨num, 0x1000, 0x1400, 1, 32, 8, 0, 0, false, 0x840, 0, 9, some 900, some (900, bad)⟩

/-- A partner that waits in `msync`. -/
def synced : Activity := { other with party := some { party .met with partner := some 1, inSync := some (4, 0) } }

/-- A partner that waits in `part`. -/
def parts : Activity := { other with party := some { party .met with partner := some 1, parting := some (0, 0, 3) } }

/-- An activity with 17 data pages whose g8 names them all as luggage. -/
def wide : State := world { act .compute [(1, 0x800), (8, 0x1100000800)] with frames := (List.range 17).map (· + 1) }

/-- A job card for compute cores 0 to 3: one code word, four records of one word, one data page. -/
def card0 : Card := ⟨1, 0, 0, 0, 0, 1, 4, 1, 1, 0, 1, 1, 3, 1, 1, 0, 2, 0, [0, 0, 0, 0], 0, 0, true⟩

/-- Its job, ready since cycle 100, with its descriptor read. -/
def job0 : Job := ⟨0, 1, 0, card0, [], some 100, some ten, true, 100, [], 0, 0, 0, 0, 0, false⟩

/-- A machine with jobs and unstarted activities. -/
def jobs (js : List Job) (us : List Unstarted) (s : State) : State := { s with disp := { s.disp with jobs := js, unstarted := us } }

/-- A machine whose party is in a shuttle that has drawn its tokens and lands. -/
def landing (p : Party) : State :=
  let s := jobs [job0] [] (meeting { p with lands := some 900 } other)
  { s with passing := [⟨.shuttle 1, 0, s.shuttleNeeds s.me⟩] }

/-- A machine with a posted card on its way to the unit of die 0. -/
def posted (s : State) : State := { s with msgs := [⟨1, .jobpost 1 3 0x4000 0 ⟨.compute, 0⟩, 900⟩] }

/-- The registers of VD 0 changed. -/
def withVd (f : Vd → Vd) (s : State) : State := { s with vds := [(0, f (s.vd 0))] }

/-- A machine with an entry in host queue 0 of VD 0, whose base is given. -/
def queued0 (base : Word) (s : State) : State := withVd (fun v => { v with jqbase := [(0, base)], jqctl := [(0, 0x8000000000000001)] }) s

/-- The words of `ten` as a descriptor. -/
def tenWord : Nat :=
  0x100000 + 8 * 2 ^ 56 + (32 + 16 * 2 ^ 32) * 2 ^ 64 + (1 + 2 ^ 32) * 2 ^ 128 + 32 * 2 ^ 192 + 512 * 2 ^ 256 + 512 * 2 ^ 320 + 0x110 * 2 ^ 384

/-- A machine whose descriptor table holds that tensor under id 1. -/
def tabled (s : State) : State :=
  withVd (fun v => { v with vdasid := 0x400000000 }) { s with mem := { s.mem with bytes := Memory.writeN [] 64 (toBytes 64 tenWord) } }

/-- While no bucket moves, no card is held. -/
theorem cardHeld_still {s : State} {vd va : Nat} (h : s.cache.move = none) : s.cardHeld vd va = false := by
  unfold State.cardHeld State.recordHeld State.virtHeld State.addrHeld
  rw [h]; split <;> simp

/-- A machine in which a bucket moves. -/
def moving (b : Nat) (s : State) : State :=
  { s with cache := { s.cache with move := some ⟨b, 2, false⟩, buckets := [(b, { s.bucket b with hold := true })] } }

/-- An activity that sleeps and may be evicted, on a core that a large card waits for. -/
def crowded : State :=
  withVd (fun v => { v with spool := 0x1000000000 }) { jobs [{ job0 with card := { card0 with dpages := 88 } }] [⟨0, 1, 0, 0, 0, 0, false⟩] (world (sleeping 9)) with cycle := 2000 }

/-- A saved activity that may be restored. -/
def saved0 (image : List Byte) : Saved := ⟨{ sleeping 9 with uid := 2, slot := 1 }, [], image, [], [], 0, none, none, 0⟩

/-- A machine with that activity and one core in its job's span that is not retired. -/
def restoring (image : List Byte) : State :=
  { jobs [job0] [] demo with
    saved := [saved0 image]
    cores := [1, 2, 3].map (fun n => { Core.fresh (coreAgent n) with retired := true }) }

/-- A machine with four unstarted activities on core 0. -/
def piled : State := { jobs [job0] ((List.range 4).map (fun i => ⟨0, 1, i, 0, 0, 0, false⟩)) demo with cycle := 1024 }

/-- The segment of the job on a core that loads its image. -/
def segc : CodeSeg := ⟨1, 0, [], 4, [], false, 1, some 500, 0⟩

/-- The service controllers changed. -/
def withSvc (f : Svc → Svc) (s : State) : State := { s with svc := f s.svc }

/-- A machine that runs a service command. -/
def serving (op arg : Nat) (s : State) : State := withSvc (fun v => { v with run := some ⟨op, arg, 0, 0, false⟩ }) s

/-- A machine in which no bucket has slice 7. -/
def drained : State :=
  serving 2 7 { demo with cache := { demo.cache with buckets := (List.range 11).map (fun i => (7 + 384 * i, ⟨false, false, 8⟩)) } }

/-- A gateway activity, with slots that it holds. -/
def gate (slots : List Nat) : State :=
  world { act .gateway [(2, 7), (7, 0x400080)] with prog := some ⟨none, 0, 0, 0, none, slots⟩ }

/-- A module with a number and a link. -/
def linked (s : State) : State := withSvc (fun v => { v with modid := 5, linksUp := [2], gwavail := 1 }) s

/-- A machine that waits for contributions to a switch sector. -/
def switching (deadline : Nat) : State := { demo with switch := ⟨[(0, ⟨[], 0, deadline⟩)], [⟨1, 0, 0, false, 0, 0, 0, []⟩], 2⟩ }

/-- A machine whose next fetch finds `end`. -/
def fetching : State :=
  { demo.modCore (fun k => { k with segs := [⟨1, 0, [(0, 0xE0), (1, 4)], 64, List.range 64, false, 1, none, 0⟩] }) with
    phase := .issue [⟨.compute, 0⟩], arbs := [(.issue ⟨.compute, 0⟩, { Share.empty with surplus := 1024 })] }

/-! ## Well-formedness: for each check a term that it refuses -/

/-- The operand fields of an extended instruction with a modifier field. -/
def rm (m : BitVec 13) : R := { r0 with ext := true, m := m }

/-- R82, R83, R84, R85: framings that no entry, or not this one, allows; a step has no encoding. -/
theorem test_ill_formed_framing : [Instr.sel r0, .pfx r0, .add { r0 with c := 1 }, .add { r0 with e := 1 }, .add { r0 with g := 1 },
    .add { r0 with gn := true }, .add { r0 with m := 1 }, .add { r0 with x := 1 }, .add { rm 0 with gn := true },
    .add { r0 with lit := some 1, b := 1 }, .clz { r0 with lit := some 1 }, .pfx { rm 0 with lit := some 0x10000 }, .kill 1].all
    (fun i => !i.legal) = true := by decide

/-- R81, R97: operand fields that are not used or out of their class, and reserved bits of M and X. -/
theorem test_ill_formed_fields : [Instr.jmp { r0 with d := 1 }, .end_ { r0 with a := 1 }, .clz { r0 with b := 1 }, .add { rm 0 with c := 1 },
    .add { rm 0 with e := 1 }, .tld { r0 with d := 8 }, .kand { r0 with a := 8 }, .kand { r0 with b := 8 }, .azero { r0 with d := 2 },
    .vsel { r0 with a := 32 }, .add (rm 1), .add { rm 0 with x := 1 }].all (fun i => !i.legal) = true := by decide

/-- R97, R128, R131, R134: what scalar entries ask. -/
theorem test_ill_formed_scalar : [Instr.shli 0 1 1 64, .shri 0 1 1 64, .sari 0 1 1 64, .bfxu (rm 0xFFF), .bfxs (rm 0xFFF), .bfi (rm 0xFFF),
    .loop 0 0 1].all (fun i => !i.legal) = true := by decide

/-- R172, R175, R178-R180: formats and roundings of the vector entries. -/
theorem test_ill_formed_vector : [Instr.vadd (rm 3), .vsub (rm 0x50), .vmul (rm 0x180), .vfma (rm 0x18), .vfms (rm 3), .vfnma (rm 3), .vmin (rm 3),
    .vmax (rm 3), .vminu (rm 0), .vmaxu (rm 0), .vabs (rm 0x80), .vneg (rm 0x80), .vand (rm 5), .vor (rm 5), .vxor (rm 5), .vandn (rm 5),
    .vshl (rm 0), .vshr (rm 0), .vsar (rm 0), .vceq (rm 3), .vclt (rm 3), .vcle (rm 3), .vcun (rm 8), .vcltu (rm 0), .vsel (rm 5), .vbcast (rm 5),
    .vbcast { rm 3 with lit := some 256 }, .vext (rm 5), .vins (rm 5), .vidx (rm 5), .vperm (rm 5), .vrot (rm 5), .vcmpr (rm 5), .vrsum (rm 3),
    .vrmax (rm 3), .vrmin (rm 3), .vrcp (rm 2), .vrsqrt (rm 0x40), .vexp2 (rm 0x180), .vlog2 (rm 2), .vsqrt (rm 2)].all
    (fun i => !i.legal) = true := by decide

/-- R181-R183, R185: conversions, block quantisation, vector accesses. -/
theorem test_ill_formed_conversions : [Instr.vcvt (rm 5), .vcvt { rm 0 with x := 5 }, .vcvt { rm 0 with x := 0x20 }, .vcvt { rm 0x18 with x := 9 },
    .vcvt { rm 0x100 with x := 9 }, .vqnt { rm 2 with x := 5 }, .vqnt { rm 0x10 with x := 5 }, .vdqnt { rm 2 with x := 5 },
    .vdqnt { rm 0 with x := 5, lit := some 0x100000000 }, .vld (rm 5), .vst (rm 5), .vlds (rm 5), .vsts (rm 5), .vldx (rm 1), .vstx (rm 1)].all
    (fun i => !i.legal) = true := by decide

/-- R196, R197, R223: fences and copies. -/
theorem test_ill_formed_copies : [Instr.fence (rm 0), .cpy (rm 0x80), .cpy (rm 0x800), .cpy (rm 0x10), .cpyst (rm 0x40), .cpyst (rm 0x700),
    .cpyl (rm 0x80), .cpyl (rm 0x800), .cpylSt (rm 0), .cpylSt (rm 0x42), .cpyProg (rm 0), .gath (rm 4), .gath (rm 0x80), .scat (rm 0x40), .red (rm 0),
    .red (rm 0x700), .swb (rm 0x40)].all (fun i => !i.legal) = true := by decide

/-- R253, R254, R309, R334, R422: matrix, meeting, collective and link entries. -/
theorem test_ill_formed_others : [Instr.tld { rm 0 with e := 1 }, .mma { rm 0 with e := 1 }, .mma (rm 0x200), .tcvt (rm 0x140), .tcvt (rm 0x30), .accrd (rm 1),
    .accrd (rm 0x100), .accst (rm 2), .accst { rm 0 with b := 1 }, .accst (rm 0x30), .coll (rm 0x1000), .coll (rm 0x80), .coll (rm 0x980), .coll (rm 0x840),
    .baddq (rm 0), .baddq { rm 0x10 with x := 5 }, .baddq { rm 0 with x := 0x25 }, .part (rm 3), .part { r0 with a := 1 }, .part (rm 2)].all
    (fun i => !i.legal) = true := by decide

/-! ## Decoding: words that the manual writes out -/

/-- 06_scalar, the examples of R131 and R139. -/
theorem test_decode_scalar : decodeWords [0x000004E0] = .ok (.end_ r0) ∧ decodeWords [0x400004E0] = .ok (.nop r0) ∧
    decodeWords [0x00F804A0] = .ok (.jmp { r0 with a := 62 }) ∧ decodeWords [0x00000400] = .ok (.br 0 0) ∧
    decodeWords [0xFFF45480] = .ok (.loop 0 5 0x3FFD) ∧ decodeWords [0x0024B440] = .ok (.bnz 0 11 9) ∧
    decodeWords [0x00005022, 0xFFFFFFFE, 0xFFFFFFFF] = .ok (.add { r0 with lit := some 0xFFFFFFFFFFFFFFFE, d := 5 }) ∧
    decodeWords [0xCE100540] = .ok (.sd { r0 with a := 4, b := 14 }) ∧ decodeWords [0x80087501, 0, 0x40] = .ok (.lw { r0 with ext := true, d := 7, a := 2, x := 0x40 }) :=
  by decide

/-- 07_traps, the tables after R147 and R160. -/
theorem test_decode_system : decodeWords [0x00000720] = .ok (.xret r0) ∧ decodeWords [0x40000720] = .ok (.yield_ r0) ∧
    decodeWords [0x001C0740] = .ok (.freeG { r0 with a := 7 }) ∧ decodeWords [0x40000760] = .ok (.rend r0) ∧
    decodeWords [0x0000A701, 0, 0x10] = .ok (.mfs { r0 with ext := true, d := 10, x := 0x10 }) ∧
    decodeWords [0x00000763, 0, 0, 0x60, 0] = .ok (.region { r0 with ext := true, lit := some 0x60 }) := by decide

/-- 08_vector, the table after R187. -/
theorem test_decode_vector : decodeWords [0x00081A00] = .ok (.vld { r0 with d := 1, a := 2 }) ∧
    decodeWords [0x00044961, 0x00080000, 0] = .ok (.vrsum { rm 1 with d := 4, a := 1 }) ∧
    decodeWords [0x80141904] = .ok (.kset { r0 with stl := 1, d := 1, a := 5 }) := by decide

/-- 09_copy, 10_ordering and 11_copy_program: copies, fences and barriers. -/
theorem test_decode_copies : decodeWords [0x06149D01, 0x40000207, 0x1000] = .ok (.cpy { rm 0x800 with d := 9, a := 5, b := 6, c := 7, e := 8, x := 0x1000 }) ∧
    decodeWords [0x88100D01, 0x00100240, 0] = .ok (.cpylSt { rm 2 with a := 4, b := 8, e := 9 }) ∧
    decodeWords [0x00000641, 0x05000000, 0] = .ok (.fence (rm 0xA0)) ∧ decodeWords [0x0B10A620] = .ok (.barWait { r0 with d := 10, a := 4, b := 11 }) ∧
    decodeWords [0x19500D01, 0x00400617, 0x830] = .ok (.cpyProg { rm 8 with a := 20, b := 25, c := 23, e := 24, x := 0x830 }) := by decide

/-- 12_matrix and 14_spindles. -/
theorem test_decode_matrix_and_streams : decodeWords [0x00182C00] = .ok (.tld { r0 with d := 2, a := 6 }) ∧
    decodeWords [0x02000C41, 0x2C0, 0x1400] = .ok (.mma { rm 0 with b := 2, e := 11, x := 0x1400 }) ∧
    decodeWords [0x40100C61, 0x00080001, 0] = .ok (.accst { rm 1 with a := 4, c := 1 }) ∧
    decodeWords [0x0B18AF41, 0x1C0, 0x800] = .ok (.spush { rm 0 with d := 10, a := 6, b := 11, e := 7, x := 0x800 }) := by decide

/-- 15_meetings, 17_collectives, 19_forecast. -/
theorem test_decode_meetings : decodeWords [0x0010AE03, 6, 0, 0x3E8, 0] = .ok (.meet { rm 0 with lit := some 1000, d := 10, a := 4, c := 6 }) ∧
    decodeWords [0x40309E01, 0x00100000, 0] = .ok (.part { rm 2 with d := 9, a := 12 }) ∧ decodeWords [0x80000E00] = .ok (.msync r0) ∧
    decodeWords [0x001C5E20] = .ok (.mget { r0 with d := 5, a := 7 }) ∧ decodeWords [0x05100E41, 6, 0] = .ok (.mcpy { rm 0 with a := 4, b := 5, c := 6 }) ∧
    decodeWords [0x0010AE83, 0x52080000, 0x880, 0x1388, 0] = .ok (.coll { rm 0xA41 with lit := some 5000, d := 10, a := 4, x := 0x880 }) ∧
    decodeWords [0x40108E80] = .ok (.ccancel { r0 with d := 8, a := 4 }) ∧ decodeWords [0x0010AEC0] = .ok (.fcast { r0 with d := 10, a := 4 }) := by decide

/-- 21_dispatch and 23_links. -/
theorem test_decode_jobs_and_links : decodeWords [0x0400AF00] = .ok (.jobpost { r0 with d := 10, b := 4 }) ∧
    decodeWords [0x0028BF20] = .ok (.jobwait { r0 with d := 11, a := 10 }) ∧ decodeWords [0x4024AF80] = .ok (.bqtake { r0 with d := 10, a := 9 }) ∧
    decodeWords [0x02043F81, 0x185, 0x3F800007] = .ok (.baddq { rm 0 with d := 3, a := 1, b := 2, c := 5, e := 6, x := 0x3F800007 }) := by decide

/-! ## Values that the manual works out -/

/-- The word a step leaves on its way to a register. -/
def sent (o : Host.Outcome State Fault Refusal) : Option Nat :=
  match o with
  | .next t => t.me.pend.head?.map (fun p => p.val.toNat)
  | _ => none

/-- R131, the example: `bfxs.pos=8.wm1=7` of 0x9A00. -/
theorem test_bfxs : sent (exec (.bfxs { rm 0x1C8 with d := 4, a := 5 }) (world (act .compute [(5, 0x9A00)]))) = some 0xFFFFFFFFFFFFFF9A := by decide +kernel

/-- R218, the example: two copies counted, the first poisoned. -/
theorem test_barrier : ((Bar.ofNum 0x10000000000000001000).update 2048 0 4).toNum = 0x10001100000000000800 ∧
    ((Bar.ofNum 0x10001100000000000800).update 2048 0 0).toNum = 0x10001201000000001000 := by decide

/-- R220: the status of that barrier's phase 0. -/
theorem test_barrier_status : (Bar.ofNum 0x10001201000000001000).status 0 = 0x11100 := by decide

/-- R66, R68, the example: 464 and 470 in E4M3, and 470 with `.ovf=nan`. -/
theorem test_round_e4m3 : (floatFmt 3).round .rne 0 0 (Val.ofInt 464) = 0x7E ∧ (floatFmt 3).round .rne 0 0 (Val.ofInt 470) = 0x7E ∧
    (floatFmt 3).round .rne 2 0 (Val.ofInt 470) = 0x7F := by decide

/-- R303, the example: key 0x1234, KEYSP 2, VD 1. -/
theorem test_key_bucket : keyBucket 0x1234 2 1 = 0x315 := by decide

/-- R250, the examples: the tiles that two values of TS describe. -/
theorem test_tile_shapes : Shape.of 0x204001 = some ⟨32, 64, 1⟩ ∧ Shape.of 0x402007 = some ⟨64, 32, 7⟩ := by decide

/-- R92: a word of zeros is no instruction. -/
theorem test_zero_word : decodeWords [0, 0, 0, 0, 0] = .error .unassigned := by decide

/-- R43: a write of g0 is discarded, and the PC goes on. -/
theorem test_g0 : sent (exec (.addi 0 0 1 1) demo) = none ∧ sent (exec (.addi 0 3 1 1) demo) = some 0x801 := by decide +kernel

/-- R142: a store below the data pages takes cause 5, its address in XINFO. -/
theorem test_store_in_code : (match exec (.sw { r0 with a := 2, b := 1 }) demo with
    | .next t => (t.me.trap.xcause.toNat % 256, t.me.trap.xinfo.toNat % 2 ^ 48)
    | _ => (0, 0)) = (5, 7) := by decide +kernel

/-- A placed `nop` is what the next step runs: it ends at the next word. -/
theorem test_first_step : (match step (State.reset.withFetchWord 32 0x400004E0) with
    | .next t => some (t.me.pc, t.me.lastPc)
    | _ => none) = some (4, 0) := by decide +kernel

/-! ## The cipher of memory (R300): the example vector of FIPS 197, appendix C.3 -/

set_option maxRecDepth 20000 in
theorem test_aes_encrypts : aesEncrypt (List.range 32) ((List.range 16).map (fun i => 17 * i)) =
    [0x8E, 0xA2, 0xB7, 0xCA, 0x51, 0x67, 0x45, 0xBF, 0xEA, 0xFC, 0x49, 0x90, 0x4B, 0x49, 0x60, 0x89] := by decide

set_option maxRecDepth 20000 in
theorem test_aes_decrypts : aesDecrypt (List.range 32)
    [0x8E, 0xA2, 0xB7, 0xCA, 0x51, 0x67, 0x45, 0xBF, 0xEA, 0xFC, 0x49, 0x90, 0x4B, 0x49, 0x60, 0x89] =
    (List.range 16).map (fun i => 17 * i) := by decide

/-! ## Witnesses whose constructor the statement leaves open -/

theorem witness_VectorArithmetic : ∃ c ∈ roundingOps, Ready (c.make { r0 with d := 3, a := 1, b := 2 }) demo :=
  ⟨_, .head _, ready (by decide) (by decide)⟩

theorem witness_VectorElements :
    ∃ c ∈ selectingOps ++ logicOps ++ moveOps ++ functionOps, Ready (c.make { r0 with d := 3, a := 1, b := 2 }) demo :=
  ⟨_, .head _, ready (by decide) (by decide)⟩

/-- Premises of the values of the functions of R180, between two whole numbers and between two powers of 2. -/
theorem witness_VectorElements_values : ∃ p q i e : Nat, 0 < p ∧ 0 < q ∧ i < 4096 ∧ i * q < p ∧ p < (i + 1) * q ∧ 2 ^ e * q < p ∧ p < 2 ^ (e + 1) * q :=
  ⟨3, 2, 1, 0, by decide⟩

/-- Premises of the values of the updates of R201: codes of the format, of which one is NaN, and two are not. -/
theorem witness_CopyQueue_updates : ∃ f old x y : Nat, old < 2 ^ fmtBits f ∧ x < 2 ^ fmtBits f ∧ y < 2 ^ fmtBits f ∧ isInt f = false ∧
    ((floatFmt f).decode old).isNan = true ∧ ((floatFmt f).decode x).isNan = false ∧ ((floatFmt f).decode y).isNan = false :=
  ⟨0, 0x7FC00000, 0x3F800000, 0x40000000, by decide⟩

theorem find_const {α : Type} (x : α) (b : Nat) : ∀ l : List Nat, b ∈ l → AMap.find (l.map (fun k => (k, x))) b = some x
  | k :: l, h => by
    simp only [List.map_cons, AMap.find]
    split
    · rfl
    · next e => exact find_const x b l ((List.mem_cons.mp h).resolve_left (fun h => e h.symm))

/-- A machine in step 2 of die 1's warm reset, with every key bucket at directory 0. -/
def rekeyed : State :=
  withSvc (fun v => { v with warm := some (1, 2) })
    (serving 5 1 { demo with dirs := { demo.dirs with buckets := (List.range 4096).map (fun k => (k, ⟨false, 0⟩)) } })

/-- The clause of `ServiceCommands` on step 2 of a warm reset. -/
theorem witness_ServiceCommands_warm : rekeyed.running 5 1 = true ∧ rekeyed.svc.warm = some (1, 2) ∧ rekeyed.dirs.move = none ∧
    ∀ b, b < 4096 → (rekeyed.keyEntry b).dir / 64 ≠ 1 := by
  refine ⟨rfl, rfl, rfl, fun b hb => ?_⟩
  have h : rekeyed.keyEntry b = ⟨false, 0⟩ := by
    simp only [State.keyEntry, rekeyed, withSvc, serving, find_const _ b _ (List.mem_range.mpr hb), Option.getD_some]
  rw [h]; decide

/-- The clause of `ServiceCommands` on a repair that a spare row serves: how many spares a bank has is the module's (R434), so that one is
free is all that the witness asks. -/
theorem witness_ServiceCommands_repair (h : 0 < Config.rowSpares) : ∃ s : State, s.running 3 512 = true ∧
    (s.svc.rowRepairs.find 1).getD 0 < Config.rowSpares := ⟨serving 3 512 demo, rfl, h⟩


/-- R437's own words on die 2: traffic from die 3 to die 0 goes through die 1 while it is cut off, and through die 2 otherwise (R13). -/
theorem test_detour : boundaries (some 2) 3 0 = [.boundary 3 false, .boundary 0 false] ∧ boundaries none 3 0 = [.boundary 1 false, .boundary 2 false] ∧
    boundaries (some 2) 1 2 = boundaries none 1 2 := by decide
/-! ## Witnesses: what the premises of each clause of a statement are met by -/

theorem witness_RegisterArithmetic :
  (∃ c ∈ arithmeticOps, ∃ (r : R) (s : State), Ready (c.make r) s) ∧
  (∃ c ∈ divisionOps, ∃ (r : R) (s : State), Ready (c.make r) s ∧ s.core.divBusy ≤ s.cycle) ∧
  (∃ c ∈ [Instr.shl, .shr, .sar, .ror], ∃ (r : R) (l : Word), r.lit = some l ∧ 64 ≤ l.toNat) :=
  ⟨⟨_, .head _, { r0 with d := 3, a := 1, b := 2 }, demo, ready (by decide) (by decide)⟩,
   ⟨_, .head _, { r0 with d := 3, a := 1, b := 2 }, demo, ready (by decide) (by decide), by decide⟩,
   ⟨_, .head _, { r0 with lit := some 64 }, 64, rfl, by decide⟩⟩

theorem witness_ComparisonsAndScaledAdds :
  (∃ c ∈ compareOps, ∃ (r : R) (s : State), Ready (c.make r) s) ∧
  (∃ c ∈ scaledOps, ∃ (r : R) (s : State), Ready (c.make r) s) :=
  ⟨⟨_, .head _, { r0 with d := 3, a := 1, b := 2 }, demo, ready (by decide) (by decide)⟩,
   ⟨_, .head _, { r0 with d := 3, a := 1, b := 2 }, demo, ready (by decide) (by decide)⟩⟩

theorem witness_ImmediateForms :
  (∃ c ∈ immediateOps, ∃ (stl : BitVec 3) (d a : BitVec 6) (imm : BitVec 8) (s : State), Ready (c.1 stl d a imm) s) :=
  ⟨_, .head _, 0, 3, 1, 0x80, demo, ready (by decide) (by decide)⟩

theorem witness_SelectFieldsAndCounts :
  (∃ (r : R) (s : State), Ready (.sel r) s) ∧
  (∃ (r : R) (s : State), Ready (.bfxu r) s) ∧
  (∃ (r : R) (s : State), Ready (.bfxs r) s) ∧
  (∃ (r : R) (s : State), Ready (.bfi r) s) ∧
  (∃ (r : R) (s : State), Ready (.clz r) s) ∧
  (∃ (r : R) (s : State), Ready (.ctz r) s) ∧
  (∃ (r : R) (s : State), Ready (.popc r) s) ∧
  (∃ (r : R) (s : State), Ready (.bswap r) s) :=
  ⟨⟨{ r0 with ext := true, d := 3, a := 1, b := 2, c := 4 }, demo, ready (by decide) (by decide)⟩,
   ⟨{ r0 with ext := true, d := 3, a := 1, m := 63 * 64 }, demo, ready (by decide) (by decide)⟩,
   ⟨{ r0 with ext := true, d := 3, a := 1, m := 63 * 64 }, demo, ready (by decide) (by decide)⟩,
   ⟨{ r0 with ext := true, d := 3, a := 1, m := 63 * 64 }, demo, ready (by decide) (by decide)⟩,
   ⟨{ r0 with d := 3, a := 1 }, demo, ready (by decide) (by decide)⟩,
   ⟨{ r0 with d := 3, a := 1 }, demo, ready (by decide) (by decide)⟩,
   ⟨{ r0 with d := 3, a := 1 }, demo, ready (by decide) (by decide)⟩,
   ⟨{ r0 with d := 3, a := 1 }, demo, ready (by decide) (by decide)⟩⟩

theorem witness_TransfersAndTargets :
  (∃ (stl : BitVec 3) (off : BitVec 20) (s : State), Ready (.br stl off) s ∧ 
    let p := s.prepare (.br stl off)
    
    let t : Int := p.me.pc.toNat + 4 * off.toInt
    p.Reachable t) ∧
  (∃ (stl : BitVec 3) (off : BitVec 20) (s : State), Ready (.call stl off) s ∧ 
    let p := s.prepare (.call stl off)
    
    let t : Int := p.me.pc.toNat + 4 * off.toInt
    p.Reachable t) ∧
  (∃ (stl : BitVec 3) (a : BitVec 6) (off : BitVec 14) (s : State), Ready (.bnz stl a off) s ∧ 
    let p := s.prepare (.bnz stl a off)
    
    let t : Int := p.me.pc.toNat + 4 * off.toInt
    p.me.g a.toNat ≠ 0 ∧ p.Reachable t) ∧
  (∃ (stl : BitVec 3) (a : BitVec 6) (off : BitVec 14) (s : State), Ready (.bnz stl a off) s ∧ 
    let p := s.prepare (.bnz stl a off)
    p.me.g a.toNat = 0) ∧
  (∃ (stl : BitVec 3) (a : BitVec 6) (off : BitVec 14) (s : State), Ready (.bz stl a off) s ∧ 
    let p := s.prepare (.bz stl a off)
    
    let t : Int := p.me.pc.toNat + 4 * off.toInt
    p.me.g a.toNat = 0 ∧ p.Reachable t) ∧
  (∃ (stl : BitVec 3) (a : BitVec 6) (off : BitVec 14) (s : State), Ready (.bz stl a off) s ∧ 
    let p := s.prepare (.bz stl a off)
    p.me.g a.toNat ≠ 0) ∧
  (∃ (stl : BitVec 3) (a : BitVec 6) (off : BitVec 14) (s : State), Ready (.loop stl a off) s ∧ 
    let p := s.prepare (.loop stl a off)
    
    let t : Int := p.me.pc.toNat + 4 * off.toInt
    
    let v := BitVec.ofInt 64 ((p.me.g a.toNat).toNat - 1 : Int)
    v ≠ 0 ∧ p.Reachable t) ∧
  (∃ (stl : BitVec 3) (a : BitVec 6) (off : BitVec 14) (s : State), Ready (.loop stl a off) s ∧ 
    let p := s.prepare (.loop stl a off)
    
    let v := BitVec.ofInt 64 ((p.me.g a.toNat).toNat - 1 : Int)
    v = 0) ∧
  (∃ (r : R) (s : State), Ready (.jmp r) s ∧ 
    let p := s.prepare (.jmp r)
    p.Reachable (p.me.g r.a.toNat).toNat) ∧
  (∃ (r : R) (s : State), Ready (.jcall r) s ∧ 
    let p := s.prepare (.jcall r)
    p.Reachable (p.me.g r.a.toNat).toNat) ∧
  (∃ c ∈ branchOps, ∃ (r : R) (s : State), Ready (c.1 r) s ∧ 
    let p := s.prepare (c.1 r)
    c.2 (p.me.g r.a.toNat) (p.me.srcB r) ∧ p.Reachable r.x.toNat) ∧
  (∃ c ∈ branchOps, ∃ (r : R) (s : State), Ready (c.1 r) s ∧ 
    let p := s.prepare (c.1 r)
    ¬ c.2 (p.me.g r.a.toNat) (p.me.srcB r)) ∧
  (∃ (s : State) (i : Instr) (t : Int), Ready i s ∧ takenTransfer i (s.prepare i) = some t ∧ ¬ (s.prepare i).Reachable t) :=
  ⟨⟨0, 2, demo, ready (by decide) (by decide), by unfold State.Reachable; decide⟩,
   ⟨0, 2, demo, ready (by decide) (by decide), by unfold State.Reachable; decide⟩,
   ⟨0, 1, 2, demo, ready (by decide) (by decide), by decide, by unfold State.Reachable; decide⟩,
   ⟨0, 9, 2, demo, ready (by decide) (by decide), by decide⟩,
   ⟨0, 9, 2, demo, ready (by decide) (by decide), by decide, by unfold State.Reachable; decide⟩,
   ⟨0, 1, 2, demo, ready (by decide) (by decide), by decide⟩,
   ⟨0, 2, 2, demo, ready (by decide) (by decide), by decide, by unfold State.Reachable; decide⟩,
   ⟨0, 3, 2, demo, ready (by decide) (by decide), by decide⟩,
   ⟨{ r0 with a := 4 }, demo, ready (by decide) (by decide), by unfold State.Reachable; decide⟩,
   ⟨{ r0 with d := 6, a := 4 }, demo, ready (by decide) (by decide), by unfold State.Reachable; decide⟩,
   ⟨_, .head _, { r0 with ext := true, a := 1, b := 1, x := 8 }, demo, ready (by decide) (by decide), by dsimp only; decide, by unfold State.Reachable; decide⟩,
   ⟨_, .head _, { r0 with ext := true, a := 1, b := 2, x := 8 }, demo, ready (by decide) (by decide), by dsimp only; decide⟩,
   ⟨demo, .jmp { r0 with a := 5 }, 2, ready (by decide) (by decide), by decide, by unfold State.Reachable; decide⟩⟩

theorem witness_EndNopFreeAndYield :
  (∃ (r : R) (s : State), Ready (.nop r) s) ∧
  (∃ (r : R) (s : State), Ready (.end_ r) s) ∧
  (∃ c ∈ [(Instr.freeG, Cls.g), (.freeV, .v), (.freeK, .k)], ∃ (r : R) (s : State), Ready (c.1 r) s ∧ 
    let p := s.prepare (c.1 r)
    
    let x : Reg := ⟨c.2, r.a.toNat⟩
    p.me.interlocked x = false ∧ p.me.pendOf x = none ∧ x.binds = true) ∧
  (∃ (r : R) (s : State), Ready (.yield_ r) s) :=
  ⟨⟨r0, demo, ready (by decide) (by decide)⟩,
   ⟨r0, demo, ready (by decide) (by decide)⟩,
   ⟨_, .head _, { r0 with a := 1 }, demo, ready (by decide) (by decide), by decide, by decide, by decide⟩,
   ⟨r0, demo, ready (by decide) (by decide)⟩⟩

theorem witness_LocalLoads :
  (∃ c ∈ loadOps, ∃ (r : R) (s q : State), Ready (c.make r) s ∧ 
    let p := s.prepare (c.make r)
    
    let y := (p.me.ea r).toNat
    p.checkLocal false (p.me.ea r) c.size = none ∧ p.me.rangeBusy p.nextCmd false y c.size = false ∧ p.readTaint y c.size = some q ∧ q.poisonAt y c.size = none) :=
  ⟨_, .head _, { r0 with d := 3, a := 1 }, demo, demo.prepare (.lb { r0 with d := 3, a := 1 }), ready (by decide) (by decide), by decide, by decide, by decide, by decide⟩

theorem witness_LocalStores :
  (∃ c ∈ storeOps, ∃ (r : R) (s : State), Ready (c.1 r) s ∧ 
    let p := s.prepare (c.1 r)
    
    let y := (p.me.ea r).toNat
    p.checkLocal true (p.me.ea r) c.2 = none ∧ p.me.rangeBusy p.nextCmd true y c.2 = false) :=
  ⟨_, .head _, { r0 with a := 1, b := 2 }, demo, ready (by decide) (by decide), by decide, by decide⟩

theorem witness_StoreFrame :
  (∃ c ∈ storeOps, ∃ (r : R) (s t : State), Ready (c.1 r) s ∧ 
    let p := s.prepare (c.1 r)
    
    let y := (p.me.ea r).toNat
    p.checkLocal true (p.me.ea r) c.2 = none ∧ p.me.rangeBusy p.nextCmd true y c.2 = false ∧ exec (c.1 r) s = .next t ∧ ∃ a, (a < y ∨ y + c.2 ≤ a)) ∧
  (∃ c ∈ storeOps, ∃ (r : R) (s t : State), Ready (c.1 r) s ∧ 
    let p := s.prepare (c.1 r)
    
    let y := (p.me.ea r).toNat
    p.checkLocal true (p.me.ea r) c.2 = none ∧ p.me.rangeBusy p.nextCmd true y c.2 = false ∧ exec (c.1 r) s = .next t ∧ ∃ k, k < c.2) :=
  ⟨⟨_, .head _, { r0 with a := 1, b := 2 }, demo, _, ready (by decide) (by decide), by decide, by decide, rfl, 0, by decide⟩,
   ⟨_, .head _, { r0 with a := 1, b := 2 }, demo, _, ready (by decide) (by decide), by decide, by decide, rfl, 0, by decide⟩⟩

theorem witness_CheckLocalRules :
  (∃ (s : State) (_store : Bool) (_y : Int), s.me.agent.kind = .compute) ∧
  (∃ (s : State) (_store : Bool) (_y : Int), s.me.agent.kind ≠ .compute) :=
  ⟨⟨demo, false, 0, by decide⟩,
   ⟨world (act .spindle []), false, 0, by decide⟩⟩

theorem witness_LocalTrapsAndWaits :
  (∃ c ∈ loadOps, ∃ (r : R) (s : State) (z : Int) (k : Nat), Ready (c.make r) s ∧ (s.prepare (c.make r)).checkLocal false ((s.prepare (c.make r)).me.ea r) c.size = some (z, k)) ∧
  (∃ c ∈ storeOps, ∃ (r : R) (s : State) (z : Int) (k : Nat), Ready (c.1 r) s ∧ (s.prepare (c.1 r)).checkLocal true ((s.prepare (c.1 r)).me.ea r) c.2 = some (z, k)) ∧
  (∃ c ∈ loadOps, ∃ (r : R) (s : State), Ready (c.make r) s ∧ 
    let p := s.prepare (c.make r)
    p.checkLocal false (p.me.ea r) c.size = none ∧ p.me.rangeBusy p.nextCmd false (p.me.ea r).toNat c.size = true) ∧
  (∃ c ∈ storeOps, ∃ (r : R) (s : State), Ready (c.1 r) s ∧ 
    let p := s.prepare (c.1 r)
    p.checkLocal true (p.me.ea r) c.2 = none ∧ p.me.rangeBusy p.nextCmd true (p.me.ea r).toNat c.2 = true) :=
  ⟨⟨_, .head _, { r0 with d := 3 }, demo, 0, 5, ready (by decide) (by decide), by decide⟩,
   ⟨_, .head _, { r0 with b := 2 }, demo, 0, 5, ready (by decide) (by decide), by decide⟩,
   ⟨_, .head _, { r0 with d := 3, a := 1 }, demo.claim [⟨0, 0x800, 8, true⟩], ready (by decide) (by decide), by decide, by decide⟩,
   ⟨_, .head _, { r0 with a := 1, b := 2 }, demo.claim [⟨0, 0x800, 8, true⟩], ready (by decide) (by decide), by decide, by decide⟩⟩

theorem witness_SystemRegisters :
  (∃ (r : R) (s : State), Ready (.mfs r) s) ∧
  (∃ (r : R) (s : State), Ready (.mts r) s ∧ r.x.toNat = 0x02) ∧
  (∃ (r : R) (s : State), Ready (.mts r) s ∧ r.x.toNat = 0x05) ∧
  (∃ (r : R) (s : State), Ready (.mts r) s ∧ r.x.toNat = 0x10) ∧
  (∃ (r : R) (s : State), Ready (.mts r) s ∧ r.x.toNat = 0x13) ∧
  (∃ (r : R) (s : State), Ready (.mts r) s ∧ 
    let p := s.prepare (.mts r)
    
    let v := p.me.srcB r
    ∃ n, n < 8 ∧ r.x.toNat = 0x20 + n ∧ tsValid v = true) :=
  ⟨⟨{ r0 with ext := true, d := 3, x := 1 }, demo, ready (by decide) (by decide)⟩,
   ⟨{ r0 with ext := true, b := 2, x := 2 }, demo, ready (by decide) (by decide), by decide⟩,
   ⟨{ r0 with ext := true, b := 2, x := 5 }, demo, ready (by decide) (by decide), by decide⟩,
   ⟨{ r0 with ext := true, b := 2, x := 16 }, demo, ready (by decide) (by decide), by decide⟩,
   ⟨{ r0 with ext := true, b := 2, x := 19 }, demo, ready (by decide) (by decide), by decide⟩,
   ⟨{ r0 with ext := true, b := 0, x := 0x27 }, demo, ready (by decide) (by decide), 7, by decide, by decide, by decide⟩⟩

theorem witness_ChecksBeforeIssue :
  (∃ (r : R) (s : State), (Instr.mts r).WellFormed ∧ sysAssigned r.x.toNat s.me.agent.kind = true ∧ sysWritable r.x.toNat = false) ∧
  (∃ (s : State) (_eff : State → Eff) (i : Instr), (i.legal = false ∨ i.onAgent s.me.agent.kind = false ∨ (∃ n w, sysRegOf i = some (n, w) ∧ sysAssigned n s.me.agent.kind = false))) ∧
  (∃ (s : State) (_eff : State → Eff) (i : Instr), Guarded i s) :=
  ⟨⟨{ r0 with ext := true, b := 2, x := 1 }, demo, by unfold Instr.WellFormed; decide, by decide, by decide⟩,
   ⟨demo, .done, .spush { r0 with ext := true }, .inr (.inl (by decide))⟩,
   ⟨demo, .done, .add { r0 with ext := true, d := 3, a := 1, g := 9 }, guarded (by decide)⟩⟩

theorem witness_TrapEntry :
  (∃ (cause : Nat) (_info : Word) (_async : Bool) (s : State), TrapReady cause s) ∧
  (∃ (_cause : Nat) (_info : Word) (_async : Bool) (s : State), (s.me.speculative = true ∨ s.vecBusy = true)) ∧
  (∃ (_cause : Nat) (_info : Word) (_async : Bool) (s : State) (p : ProgCtx), s.me.speculative = false ∧ s.vecBusy = false ∧ s.me.prog = some p) ∧
  (∃ (cause : Nat) (_info : Word) (_async : Bool) (s : State), s.me.speculative = false ∧ s.vecBusy = false ∧ s.me.prog = none ∧ s.me.trap.inh = false ∧ (s.flushPending.badTarget (s.me.job.handler cause)).isSome = true) :=
  ⟨⟨3, 0, false, demo, trapReady (by decide) (by decide) (by decide) (by decide) (by decide)⟩,
   ⟨3, 0, false, demo.modMe (fun a => { a with taints := [1] }), .inl (by decide)⟩,
   ⟨3, 0, false, streamer, ⟨some 2, 0, 0, 0, none, []⟩, by decide, by decide, by decide⟩,
   ⟨3, 0, false, demo.modCore (fun k => { k with segs := k.segs.map (fun g => { g with starts := [] }) }), by decide, by decide, by decide, by decide, by decide⟩⟩

theorem witness_NestedTrapsAndReturn :
  (∃ (_cause : Nat) (_info : Word) (s : State), s.me.speculative = false ∧ s.vecBusy = false ∧ s.me.prog = none ∧ s.me.trap.inh = true) ∧
  (∃ (r : R) (s : State), Ready (.xret r) s ∧ 
    let p := s.prepare (.xret r)
    s.me.trap.inh = true ∧ p.Reachable s.me.trap.xpc.toNat) ∧
  (∃ (r : R) (s : State), Ready (.xret r) s ∧ 
    let p := s.prepare (.xret r)
    s.me.trap.inh = true ∧ ¬ p.Reachable s.me.trap.xpc.toNat) ∧
  (∃ (r : R) (s : State), Ready (.xret r) s ∧ s.me.trap.inh = false) :=
  ⟨⟨3, 0, inHandler 8, by decide, by decide, by decide, by decide⟩,
   ⟨r0, inHandler 8, ready (by decide) (by decide), by decide, by unfold State.Reachable; decide⟩,
   ⟨r0, inHandler 2, ready (by decide) (by decide), by decide, by unfold State.Reachable; decide⟩,
   ⟨r0, demo, ready (by decide) (by decide), by decide⟩⟩

theorem witness_Regions :
  (∃ (r : R) (s : State), Ready (.region r) s ∧ 
    let p := s.prepare (.region r)
    
    let m := p.me
    
    let gm := (m.srcB r).toNat / 2 * 2
    
    let km := (r.m.extractLsb' 0 8).toNat
    
    let size := 64 + 8 * popcount gm 64 + 16 * popcount km 8 + 128 * popcount r.x.toNat 32
    (∀ q, m.party = some q → q.away = false) ∧ size > (m.job.spages - 3) * 2048) ∧
  (∃ (r : R) (s : State), Ready (.region r) s ∧ 
    let p := s.prepare (.region r)
    
    let m := p.me
    
    let gm := (m.srcB r).toNat / 2 * 2
    
    let km := (r.m.extractLsb' 0 8).toNat
    
    let size := 64 + 8 * popcount gm 64 + 16 * popcount km 8 + 128 * popcount r.x.toNat 32
    (∀ q, m.party = some q → q.away = false) ∧ size ≤ (m.job.spages - 3) * 2048 ∧ m.pend = [] ∧ m.speculative = false ∧ p.vecBusy = false ∧ (∀ x ∈ liveIns gm r.x.toNat km, x ∉ m.claimed) ∧ ∃ w, m.badHome (liveIns gm r.x.toNat km) = some w) ∧
  (∃ (r : R) (s : State), Ready (.region r) s ∧ 
    let p := s.prepare (.region r)
    
    let m := p.me
    
    let gm := (m.srcB r).toNat / 2 * 2
    
    let km := (r.m.extractLsb' 0 8).toNat
    
    let size := 64 + 8 * popcount gm 64 + 16 * popcount km 8 + 128 * popcount r.x.toNat 32
    (∀ q, m.party = some q → q.away = false) ∧ size ≤ (m.job.spages - 3) * 2048 ∧ m.pend = [] ∧ m.speculative = false ∧ p.vecBusy = false ∧ (∀ x ∈ liveIns gm r.x.toNat km, x ∉ m.claimed) ∧ m.badHome (liveIns gm r.x.toNat km) = none) ∧
  (∃ (r : R) (s : State), Ready (.region r) s ∧ 
    let p := s.prepare (.region r)
    
    let m := p.me
    
    let gm := (m.srcB r).toNat / 2 * 2
    
    let km := (r.m.extractLsb' 0 8).toNat
    
    let size := 64 + 8 * popcount gm 64 + 16 * popcount km 8 + 128 * popcount r.x.toNat 32
    (∀ q, m.party = some q → q.away = false) ∧ size ≤ (m.job.spages - 3) * 2048 ∧ (∃ x ∈ liveIns gm r.x.toNat km, x ∈ m.claimed)) ∧
  (∃ (r : R) (s : State), Ready (.rend r) s ∧ s.me.speculative = false) ∧
  (∃ (r : R) (s : State), Ready (.rend r) s ∧ s.me.speculative = true) :=
  ⟨⟨{ r0 with ext := true, b := 1, x := 0xFFFFFFFF, m := 0xFE }, demo, ready (by decide) (by decide), (fun _ h => by cases h), by decide⟩,
   ⟨{ r0 with ext := true, lit := some 8, x := 0 }, badHomed, ready (by decide) (by decide), (fun _ h => by cases h), by decide, by decide, by decide, by decide, by decide, _, rfl⟩,
   ⟨{ r0 with ext := true, b := 1, x := 0 }, demo, ready (by decide) (by decide), (fun _ h => by cases h), by decide, by decide, by decide, by decide, by decide, by decide⟩,
   ⟨{ r0 with ext := true, lit := some 8, x := 0 }, demo.modMe (fun a => { a with claimed := [⟨.g, 3⟩] }), ready (by decide) (by decide), (fun _ h => by cases h), by decide, ⟨⟨.g, 3⟩, by decide, by decide⟩⟩,
   ⟨r0, demo, ready (by decide) (by decide), by decide⟩,
   ⟨r0, demo.modMe (fun a => { a with tags := [tagc 1 false] }), ready (by decide) (by decide), by decide⟩⟩

theorem witness_BarrierUpdateAndLayout :
  (∃ (b : Bar) (bytes arrivals _code : Nat), (b.pb - bytes = 0 ∧ b.pa - arrivals = 0 ∧ (b.pb ≠ 0 ∨ b.pa ≠ 0))) ∧
  (∃ (b : Bar) (bytes arrivals _code : Nat), (¬ (b.pb - bytes = 0 ∧ b.pa - arrivals = 0 ∧ (b.pb ≠ 0 ∨ b.pa ≠ 0)))) ∧
  (∃ b : Bar, b.pb < 2 ^ 32 ∧ b.pa < 2 ^ 16 ∧ b.phase < 256 ∧ b.code < 64 ∧ b.rlb < 2 ^ 32 ∧ b.rla < 2 ^ 16) :=
  ⟨⟨⟨1, 0, 0, false, false, 0, 1, 0⟩, 1, 0, 0, by decide⟩,
   ⟨⟨2, 0, 0, false, false, 0, 1, 0⟩, 1, 0, 0, by decide⟩,
   ⟨⟨2 ^ 32 - 1, 2 ^ 16 - 1, 255, true, true, 63, 2 ^ 32 - 1, 2 ^ 16 - 1⟩, by decide, by decide, by decide, by decide, by decide, by decide⟩⟩

theorem witness_BarrierInstructions :
  (∃ (r : R) (s : State), Ready (.barInit r) s ∧ 
    let p := s.prepare (.barInit r)
    
    let y := (p.me.g r.a.toNat).toNat
    
    let b := (p.me.srcB r).toNat % 2 ^ 32
    
    let a := (p.me.g r.c.toNat).toNat % 2 ^ 16
    p.BarrierAt y ∧ (b ≠ 0 ∨ a ≠ 0) ∧ p.barNamed y = false) ∧
  (∃ (r : R) (s : State), Ready (.barExp r) s ∧ 
    let p := s.prepare (.barExp r)
    
    let y := (p.me.g r.a.toNat).toNat
    p.BarrierAt y) ∧
  (∃ (r : R) (s : State), Ready (.barArr r) s ∧ 
    let p := s.prepare (.barArr r)
    
    let y := (p.me.g r.a.toNat).toNat
    
    let n := (p.me.srcB r).toNat % 2 ^ 16
    p.BarrierAt y ∧ n ≠ 0) ∧
  (∃ (r : R) (s : State), Ready (.barInval r) s ∧ 
    let p := s.prepare (.barInval r)
    
    let y := (p.me.g r.a.toNat).toNat
    p.BarrierAt y ∧ p.barNamed y = false) ∧
  (∃ (r : R) (s : State), Ready (.barTest r) s ∧ 
    let p := s.prepare (.barTest r)
    
    let y := (p.me.g r.a.toNat).toNat
    p.BarrierAt y) ∧
  (∃ (r : R) (s : State), Ready (.barWait r) s ∧ 
    let p := s.prepare (.barWait r)
    
    let y := (p.me.g r.a.toNat).toNat
    
    let t := (p.me.srcB r).toNat % 256
    
    let b := p.me.bar y
    
    let d := (b.phase + 256 - t) % 256
    p.BarrierAt y ∧ d ≠ 0) ∧
  (∃ (r : R) (s : State), Ready (.barWait r) s ∧ 
    let p := s.prepare (.barWait r)
    
    let y := (p.me.g r.a.toNat).toNat
    
    let t := (p.me.srcB r).toNat % 256
    
    let b := p.me.bar y
    
    let d := (b.phase + 256 - t) % 256
    p.BarrierAt y ∧ d = 0) :=
  ⟨⟨{ r0 with ext := true, d := 3, a := 1, b := 2 }, demo, ready (by decide) (by decide), ⟨by decide, by decide⟩, by decide, by decide⟩,
   ⟨{ r0 with ext := true, d := 3, a := 1, b := 2 }, demo, ready (by decide) (by decide), ⟨by decide, by decide⟩⟩,
   ⟨{ r0 with a := 1, b := 2 }, demo, ready (by decide) (by decide), ⟨by decide, by decide⟩, by decide⟩,
   ⟨{ r0 with a := 1 }, demo, ready (by decide) (by decide), ⟨by decide, by decide⟩, by decide⟩,
   ⟨{ r0 with d := 3, a := 1, b := 2 }, demo, ready (by decide) (by decide), ⟨by decide, by decide⟩⟩,
   ⟨{ r0 with d := 3, a := 1, b := 2 }, demo, ready (by decide) (by decide), ⟨by decide, by decide⟩, by decide⟩,
   ⟨{ r0 with d := 3, a := 1 }, demo, ready (by decide) (by decide), ⟨by decide, by decide⟩, by decide⟩⟩

theorem witness_Sleeping :
  (∃ c ∈ [(Instr.sleep, true), (.sleepu, false)], ∃ (r : R) (s : State), Ready (c.1 r) s ∧ 
    let p := s.prepare (c.1 r)
    
    let wake := (if c.2 then s.cycle else 0) + (p.me.srcB r).toNat
    wake ≤ s.cycle) ∧
  (∃ c ∈ [(Instr.sleep, true), (.sleepu, false)], ∃ (r : R) (s : State), Ready (c.1 r) s ∧ 
    let p := s.prepare (c.1 r)
    
    let wake := (if c.2 then s.cycle else 0) + (p.me.srcB r).toNat
    s.cycle < wake) ∧
  (∃ (uid w : Nat) (a : Activity) (s : State), s.act? uid = some a ∧ a.block = .sleep w ∧ w ≤ s.cycle) ∧
  (∃ (uid w : Nat) (a : Activity) (s : State), s.act? uid = some a ∧ a.block = .sleep w ∧ s.cycle < w) ∧
  (∃ (a : Activity) (w : Nat), a.block = .sleep w) :=
  ⟨⟨_, .head _, { r0 with b := 0 }, demo, ready (by decide) (by decide), by decide⟩,
   ⟨_, .head _, { r0 with b := 3 }, demo, ready (by decide) (by decide), by decide⟩,
   ⟨1, 1000, sleeping 1000, world (sleeping 1000), rfl, rfl, by decide⟩,
   ⟨1, 1001, sleeping 1001, world (sleeping 1001), rfl, rfl, by decide⟩,
   ⟨sleeping 9, 9, rfl⟩⟩

theorem witness_VectorCompares :
  (∃ c ∈ vectorCompares, ∃ (r : R) (s : State), Ready (c.1 r) s) ∧
  (∃ c ∈ vectorCompares, ∃ r : R, r.zm = true) ∧
  (∃ x y : Val, (x.isNan = true ∨ y.isNan = true)) :=
  ⟨⟨_, .head _, { r0 with d := 3, a := 1, b := 2 }, demo, ready (by decide) (by decide)⟩,
   ⟨_, .head _, { r0 with ext := true, m := 0x1000 }, by decide⟩,
   ⟨.nan, .fin false 0 0, .inl rfl⟩⟩

theorem witness_VectorSelectionsAndMasks :
  (∃ (r : R) (s : State), Ready (.vsel r) s) ∧
  (∃ (r : R) (s : State), Ready (.vins r) s) ∧
  (∃ (r : R) (s : State), Ready (.vcmpr r) s) ∧
  (∃ (r : R) (s : State), Ready (.vext r) s) ∧
  (∃ c ∈ [(Instr.kand, fun (x y : Mask) => x &&& y), (.kor, fun x y => x ||| y), (.kxor, fun x y => x ^^^ y), (.kandn, fun x y => x &&& ~~~y)], ∃ (r : R) (s : State), Ready (c.1 r) s) ∧
  (∃ (r : R) (s : State), Ready (.kpopc r) s) ∧
  (∃ (r : R) (s : State), Ready (.kfirst r) s) ∧
  (∃ (r : R) (s : State), Ready (.kset r) s) ∧
  (∃ (r : R) (s : State), Ready (.kget r) s) :=
  ⟨⟨{ r0 with d := 3, a := 1, b := 2 }, demo, ready (by decide) (by decide)⟩,
   ⟨{ r0 with d := 3, a := 1, b := 2 }, demo, ready (by decide) (by decide)⟩,
   ⟨{ r0 with d := 3, a := 1 }, demo, ready (by decide) (by decide)⟩,
   ⟨{ r0 with d := 3, a := 1, b := 2 }, demo, ready (by decide) (by decide)⟩,
   ⟨_, .head _, { r0 with d := 3, a := 1, b := 2 }, demo, ready (by decide) (by decide)⟩,
   ⟨{ r0 with d := 3, a := 1 }, demo, ready (by decide) (by decide)⟩,
   ⟨{ r0 with d := 3, a := 1 }, demo, ready (by decide) (by decide)⟩,
   ⟨{ r0 with d := 3, a := 1, b := 2 }, demo, ready (by decide) (by decide)⟩,
   ⟨{ r0 with d := 3, a := 1 }, demo, ready (by decide) (by decide)⟩⟩

theorem witness_Reductions :
  (∃ c ∈ reductions, ∃ (r : R) (s : State), Ready (c.1 r) s) :=
  ⟨_, .head _, { r0 with d := 3, a := 1 }, demo, ready (by decide) (by decide)⟩

theorem witness_Conversions :
  (∃ (r : R) (s : State), Ready (.vcvt r) s) ∧
  (∃ (r : R) (s : State), Ready (.vqnt r) s) ∧
  (∃ (r : R) (s : State), Ready (.vdqnt r) s) :=
  ⟨⟨{ r0 with ext := true, d := 3, a := 1, x := 1 }, demo, ready (by decide) (by decide)⟩,
   ⟨{ r0 with ext := true, d := 3, a := 1, b := 2, e := 4, x := 5 }, demo, ready (by decide) (by decide)⟩,
   ⟨{ r0 with ext := true, d := 3, a := 1, b := 2, c := 4, x := 5 }, demo, ready (by decide) (by decide)⟩⟩

theorem witness_RoundingIsExact :
  (∃ f ∈ [fFp32, fBf16, fFp16, fE4m3, fE5m2, fE2m1], ∃ (_rm : RMode) (_ovf _draw x : Nat), x < 2 ^ (f.sign + 1) ∧ (f.decode x).isNan = false) :=
  ⟨_, .head _, .rup, 0, 0, 0x7F7FFFFF, by decide, by decide⟩

theorem witness_VectorAccesses :
  (∃ c ∈ vectorLoads, ∃ (r : R) (s q : State), Ready (c.make r) s ∧ 
    let p := s.prepare (c.make r)
    
    let x := c.access r p.me
    
    let w := fmtWidth r.fmt
    (∀ e ∈ x, p.checkLocal false (c.addr r p.me e.1) (w / 8) = none) ∧ p.core.vecq.length < 16 ∧ p.me.rangeBusy p.nextCmd false (elemRange (w / 8) x).1 (elemRange (w / 8) x).2 = false ∧ ((elemRange (w / 8) x).2 ≠ 0 → p.scoreUsed p.me.agent < scoreSize p.me.agent.kind) ∧ p.readTaint 0x400000 (inWindow x) = some q ∧ q.vecPoison (w / 8) x = none) ∧
  (∃ c ∈ vectorStores, ∃ (r : R) (s : State), Ready (c.make r) s ∧ 
    let p := s.prepare (c.make r)
    
    let x := c.access r p.me
    
    let w := fmtWidth r.fmt
    (∀ e ∈ x, p.checkLocal true (c.addr r p.me e.1) (w / 8) = none) ∧ p.core.vecq.length < 16 ∧ p.me.rangeBusy p.nextCmd true (elemRange (w / 8) x).1 (elemRange (w / 8) x).2 = false ∧ ((elemRange (w / 8) x).2 ≠ 0 → p.scoreUsed p.me.agent < scoreSize p.me.agent.kind)) ∧
  (∃ c ∈ vectorLoads ++ vectorStores, ∃ (r : R) (s q : State), Ready (c.make r) s ∧ 
    let p := s.prepare (c.make r)
    
    let x := c.access r p.me
    
    let w := fmtWidth r.fmt
    (∀ e ∈ x, p.checkLocal c.store (c.addr r p.me e.1) (w / 8) = none) ∧ p.core.vecq.length < 16 ∧ p.me.rangeBusy p.nextCmd c.store (elemRange (w / 8) x).1 (elemRange (w / 8) x).2 = true ∧ ((elemRange (w / 8) x).2 ≠ 0 → p.scoreUsed p.me.agent < scoreSize p.me.agent.kind) ∧ if c.store = true then q = p else p.readTaint 0x400000 (inWindow x) = some q) ∧
  (∃ c ∈ vectorLoads ++ vectorStores, ∃ (r : R) (s : State), Ready (c.make r) s ∧ 
    let p := s.prepare (c.make r)
    
    let x := c.access r p.me
    
    let w := fmtWidth r.fmt
    ∃ (before after : List (Nat × Nat)) (e : Nat × Nat) (z : Int) (k : Nat), x = before ++ e :: after ∧ (∀ f ∈ before, p.checkLocal c.store (c.addr r p.me f.1) (w / 8) = none) ∧ p.checkLocal c.store (c.addr r p.me e.1) (w / 8) = some (z, k)) ∧
  (∃ (s : State) (c : VecCmd), s.vecCmd? c.id = some c ∧ s.me.uid = c.owner ∧ s.core.agent = s.me.agent ∧ c.waiting = false ∧ c.load = true ∧ c.due ≤ s.cycle + 4 ∧ (∃ x ∈ s.me.claims, x.cmd = c.id)) ∧
  (∃ (s : State) (c : VecCmd), s.vecCmd? c.id = some c ∧ s.me.uid = c.owner ∧ s.core.agent = s.me.agent ∧ c.waiting = false ∧ c.load = true ∧ c.due ≤ s.cycle + 1 ∧ (∀ x ∈ s.me.claims, x.cmd ≠ c.id) ∧ (⟨.v, c.dst⟩ : Reg) ∈ s.me.claimed ∧ c.stale = false) :=
  ⟨⟨_, .head _, { r0 with d := 3, a := 1 }, demo, _, ready (by decide) (by decide), by decide, by decide, by decide, (fun _ => by decide), rfl, by decide⟩,
   ⟨_, .head _, { r0 with a := 1, b := 2 }, demo, ready (by decide) (by decide), by decide, by decide, by decide, fun _ => by decide⟩,
   ⟨_, .head _, { r0 with d := 3, a := 1 }, demo.claim [⟨0, 0x800, 128, true⟩], _, ready (by decide) (by decide), by decide, by decide, by decide, (fun _ => by decide), rfl⟩,
   ⟨_, .head _, { r0 with d := 3 }, demo, ready (by decide) (by decide), [], _, (0, 0), 0, 5, rfl, (fun f h => by cases h), by decide⟩,
   ⟨{ world { act .compute [] with claims := [⟨3, 0x800, 128, false⟩], claimed := [⟨.v, 4⟩] } with core := { Core.fresh ⟨.compute, 0⟩ with vecq := [vecc] } }, vecc, rfl, by decide, by decide, by decide, by decide, by decide, ⟨_, .head _, rfl⟩⟩,
   ⟨{ world { act .compute [] with claimed := [⟨.v, 4⟩] } with core := { Core.fresh ⟨.compute, 0⟩ with vecq := [vecc] } }, vecc, rfl, by decide, by decide, by decide, by decide, by decide, (fun _ h => by cases h), by decide, by decide⟩⟩

set_option maxRecDepth 20000 in
theorem witness_MatrixIssue :
  (∃ (r : R) (s q : State) (h : Shape), Ready (.tld r) s ∧ 
    let p := s.prepare (.tld r)
    
    let y := (p.me.g r.a.toNat).toNat
    Shape.of (p.me.tsv r.d.toNat) = some h ∧ p.checkLocal false y h.ll = none ∧ y % 32 = 0 ∧ p.BarNamed r ∧ p.MatRoom ∧ p.readTaint y h.ll = some q) ∧
  (∃ (r : R) (s : State) (h : Shape), Ready (.tst r) s ∧ 
    let p := s.prepare (.tst r)
    
    let y := (p.me.g r.a.toNat).toNat
    Shape.of (p.me.tsv r.b.toNat) = some h ∧ p.checkLocal true y h.ll = none ∧ y % 32 = 0 ∧ p.MatRoom) ∧
  (∃ c ∈ [(Instr.tzero, MatKind.tzero), (.tfree, .tfree), (.azero, .azero), (.afree, .afree)], ∃ (r : R) (s : State), Ready (c.1 r) s ∧ 
    let p := s.prepare (c.1 r)
    p.MatRoom) ∧
  (∃ (r : R) (s : State), Ready (.tmov r) s ∧ 
    let p := s.prepare (.tmov r)
    p.me.tsv r.a.toNat ≠ 0 ∧ p.MatRoom) ∧
  (∃ (r : R) (s : State) (a d : Shape), Ready (.tcvt r) s ∧ 
    let p := s.prepare (.tcvt r)
    Shape.of (p.me.tsv r.a.toNat) = some a ∧ Shape.of (p.me.tsv r.d.toNat) = some d ∧ a.rows = d.rows ∧ a.elems = d.elems ∧ (r.ovfM = 2 → isInt d.fmt = false ∧ d.fmt ≠ 7) ∧ (isBlock d.fmt = true ∨ (r.b = 0 ∧ p.me.srcB r = 0)) ∧ p.MatRoom) ∧
  (∃ (r : R) (s q : State) (a b : Shape) (ka : Nat) (view : AccView), Ready (.mma r) s ∧ 
    let p := s.prepare (.mma r)
    
    let y := (p.me.srcB r).toNat
    Shape.of (p.me.tsv r.a.toNat) = some a ∧ Shape.of (p.me.tsv (if r.lb then r.bsh else r.b.toNat)) = some b ∧ a.rows = 32 ∧ b.rows = 64 ∧ mmaPair a.fmt b.fmt = some (ka, view) ∧ 16 * r.koff + a.rby / 32 * ka ≤ b.elems ∧ (p.viewAhead r.d.toNat = none ∨ p.viewAhead r.d.toNat = some view) ∧ p.BarNamed r ∧ p.MatRoom ∧ (r.lb = true → p.checkLocal false y b.ll = none ∧ y % 32 = 0 ∧ p.readTaint y b.ll = some q) ∧ (r.lb = false → q = p)) ∧
  (∃ (r : R) (s : State), Ready (.accrd r) s ∧ 
    let p := s.prepare (.accrd r)
    p.MatRoom) ∧
  (∃ (r : R) (s : State), Ready (.accst r) s ∧ 
    let p := s.prepare (.accst r)
    
    let y := (p.me.g r.a.toNat).toNat
    
    let row := 64 * (if r.fmt = 1 then 2 else 4)
    
    let stride := if p.me.g r.e.toNat = 0 then row else (p.me.g r.e.toNat).toNat
    p.checkLocal true y (31 * stride + row) = none ∧ y % 32 = 0 ∧ stride % 32 = 0 ∧ row ≤ stride ∧ p.MatRoom) :=
  ⟨⟨{ r0 with d := 1, a := 1 }, world tiler, _, ⟨32, 32, 8⟩, ready (by decide) (by decide), by decide, by decide, by decide, by unfold State.BarNamed; decide, by unfold State.MatRoom; decide, rfl⟩,
   ⟨{ r0 with a := 1, b := 1 }, world tiler, ⟨32, 32, 8⟩, ready (by decide) (by decide), by decide, by decide, by decide, by unfold State.MatRoom; decide⟩,
   ⟨_, .head _, { r0 with d := 1 }, world tiler, ready (by decide) (by decide), by unfold State.MatRoom; decide⟩,
   ⟨{ r0 with d := 2, a := 1 }, world tiler, ready (by decide) (by decide), by decide, by unfold State.MatRoom; decide⟩,
   ⟨{ r0 with d := 3, a := 1 }, world tiler, ⟨32, 32, 8⟩, ⟨32, 32, 8⟩, ready (by decide) (by decide), by decide, by decide, by decide, by decide, by decide, by decide, by unfold State.MatRoom; decide⟩,
   ⟨{ r0 with a := 1, b := 2 }, world tiler, _, ⟨32, 32, 8⟩, ⟨64, 32, 8⟩, 32, .int, ready (by decide) (by decide), by decide, by decide, by decide, by decide, by decide, by decide, by decide, by unfold State.BarNamed; decide, by unfold State.MatRoom; decide, (fun h => absurd h (by decide)), fun _ => rfl⟩,
   ⟨{ r0 with ext := true, d := 3 }, world tiler, ready (by decide) (by decide), by unfold State.MatRoom; decide⟩,
   ⟨{ r0 with ext := true, a := 1 }, world tiler, ready (by decide) (by decide), by decide, by decide, by decide, by decide, by unfold State.MatRoom; decide⟩⟩

theorem witness_AccumulatorStep :
  (∃ (c : Acc) (_o : MmaOps) (_step i j : Nat), i < 32 ∧ j < 64 ∧ c.view = .fp) ∧
  (∃ (c : Acc) (_o : MmaOps) (_step i j : Nat), i < 32 ∧ j < 64 ∧ c.view = .int) :=
  ⟨⟨⟨[], .fp, 0, false⟩, ⟨⟨32, 32, 0⟩, ⟨64, 32, 0⟩, tile0, tile0, 0, 8⟩, 0, 31, 63, by decide, by decide, rfl⟩,
   ⟨⟨[], .int, 0, false⟩, ⟨⟨32, 32, 8⟩, ⟨64, 32, 8⟩, tile0, tile0, 0, 32⟩, 0, 31, 63, by decide, by decide, rfl⟩⟩

theorem witness_TileLayout :
  (∃ (h : Shape) (_t : Tile) (_bad : Bool), ∃ k, k < h.payload) ∧
  (∃ (h : Shape) (_t : Tile) (_bad : Bool), ∃ k, h.payload ≤ k) ∧
  (∃ (h : Shape) (_t : Tile) (_bad : Bool), isBlock h.fmt = true ∧ ∃ k, k < h.sc) :=
  ⟨⟨⟨16, 32, 8⟩, tile0, false, 511, by decide⟩,
   ⟨⟨16, 32, 8⟩, tile0, false, 512, by decide⟩,
   ⟨⟨16, 32, 5⟩, tile0, false, by decide, 0, by decide⟩⟩

theorem witness_MatrixUnits :
  (∃ (s t : State) (c : MatCmd), s.HasMat c ∧ c.kind = .mma ∧ s.core.unitFree c = true ∧ s.olderReady c = false ∧ c.owner ∉ s.disp.evicting ∧ s.readyMat c = some t) ∧
  (∃ (s t : State) (c : MatCmd), s.HasMat c ∧ c.kind ≠ .mma ∧ c.kind ≠ .accrd ∧ c.started = none ∧ s.core.unitFree c = true ∧ s.olderReady c = false ∧ c.owner ∉ s.disp.evicting ∧ s.readyMat c = some t) ∧
  (∃ (t : State) (c : MatCmd), (∃ d ∈ t.core.matq, d.id = c.id)) ∧
  (∃ (_t : State) (c : MatCmd), c.kind = .azero) ∧
  (∃ (s : State) (c : MatCmd) (b : Nat), s.HasMat c ∧ c.started = some b ∧ b + c.portTime ≤ s.cycle + 1 ∧ s.TilesAt c ∧ s.spillBusy = false ∧ c.kind = .tld ∧ ∃ h, Shape.of c.td = some h ∧ s.poisonAt c.y c.len = none ∧ (s.readTaint c.y c.len).isSome = true) ∧
  (∃ (s : State) (c : MatCmd) (b : Nat), s.HasMat c ∧ c.started = some b ∧ b + c.portTime ≤ s.cycle + 1 ∧ s.TilesAt c ∧ s.spillBusy = false ∧ c.kind = .tst ∧ ∃ h, Shape.of c.tb = some h ∧ (s.me.tile c.r.b.toNat).poison = false) ∧
  (∃ (s : State) (c : MatCmd) (b : Nat), s.HasMat c ∧ c.started = some b ∧ b + c.portTime ≤ s.cycle + 1 ∧ s.TilesAt c ∧ s.spillBusy = false ∧ c.kind = .tmov) ∧
  (∃ (s : State) (c : MatCmd) (b : Nat), s.HasMat c ∧ c.started = some b ∧ b + c.portTime ≤ s.cycle + 1 ∧ s.TilesAt c ∧ s.spillBusy = false ∧ c.kind = .tzero) ∧
  (∃ (s : State) (c : MatCmd) (b : Nat), s.HasMat c ∧ c.started = some b ∧ b + c.portTime ≤ s.cycle + 1 ∧ s.TilesAt c ∧ s.spillBusy = false ∧ c.kind = .tcvt ∧ ∃ a d, Shape.of c.ta = some a ∧ Shape.of c.td = some d ∧ tsValid c.td = true) ∧
  (∃ (s : State) (c : MatCmd) (b : Nat), s.HasMat c ∧ c.started = some b ∧ b + c.portTime ≤ s.cycle + 1 ∧ s.TilesAt c ∧ s.spillBusy = false ∧ c.kind = .tfree) ∧
  (∃ (s : State) (c : MatCmd) (b : Nat), s.HasMat c ∧ c.started = some b ∧ b + c.portTime ≤ s.cycle + 1 ∧ s.TilesAt c ∧ s.spillBusy = false ∧ c.kind = .afree) ∧
  (∃ (s : State) (c : MatCmd) (b : Nat), s.HasMat c ∧ c.started = some b ∧ b + c.portTime ≤ s.cycle + 1 ∧ s.TilesAt c ∧ s.spillBusy = false ∧ c.kind = .accst ∧ s.me.accs ≠ [] ∧ s.me.aspilled = [] ∧ ∃ acc, s.me.accs.find c.r.c.toNat = some acc ∧ acc.poison = false) ∧
  (∃ (s : State) (c : MatCmd) (acc : Acc), s.HasMat c ∧ c.kind = .accrd ∧ c.started = none ∧ s.cycle ≠ c.issued ∧ c.issued ≤ s.cycle ∧ s.core.unitFree c = true ∧ s.olderReady c = false ∧ s.core.matOrdered c = true ∧ (∀ e ∈ s.core.matq, ¬(e.owner = c.owner ∧ e.acc = c.acc ∧ e.stepDue s.cycle = true)) ∧ c.r.bar = 0 ∧ s.me.matRange c = true ∧ s.me.aspilled = [] ∧ s.me.accs.find c.r.a.toNat = some acc ∧ acc.poison = false ∧ s.spillBusy = false ∧ c.stale = false) ∧
  (∃ (s : State) (c : MatCmd) (o : MmaOps) (acc : Acc), s.HasMat c ∧ c.kind = .mma ∧ c.stepDue s.cycle = true ∧ s.TilesAt c ∧ s.me.aspilled = [] ∧ s.me.accs.find c.r.d.toNat = some acc ∧ s.mmaOps c = some o ∧ (s.matTaint c).isSome = true ∧ c.bad = false ∧ o.a.poison = false ∧ o.b.poison = false ∧ acc.poison = false ∧ s.spillBusy = false) :=
  ⟨⟨withMat (matc .mma { r0 with a := 1, b := 2 } none), _, matc .mma { r0 with a := 1, b := 2 } none, by unfold State.HasMat; decide, by decide, by decide, by decide, by decide, rfl⟩,
   ⟨withMat (matc .tmov { r0 with d := 3, a := 1 } none), _, matc .tmov { r0 with d := 3, a := 1 } none, by unfold State.HasMat; decide, by decide, by decide, by decide, by decide, by decide, by decide, rfl⟩,
   ⟨withMat (matc .azero { r0 with d := 0 } none), matc .azero { r0 with d := 0 } none, ⟨_, .head _, rfl⟩⟩,
   ⟨withMat (matc .azero { r0 with d := 0 } none), matc .azero { r0 with d := 0 } none, by decide⟩,
   ⟨withMat (matc .tld { r0 with d := 1, a := 1 } (some 900)), matc .tld { r0 with d := 1, a := 1 } (some 900), 900, by unfold State.HasMat; decide, by decide, by decide, by unfold State.TilesAt; decide, by decide, by decide, ⟨32, 32, 8⟩, by decide, by decide, by decide⟩,
   ⟨withMat (matc .tst { r0 with a := 1, b := 2 } (some 900)), matc .tst { r0 with a := 1, b := 2 } (some 900), 900, by unfold State.HasMat; decide, by decide, by decide, by unfold State.TilesAt; decide, by decide, by decide, ⟨64, 32, 8⟩, by decide, by decide⟩,
   ⟨withMat (matc .tmov { r0 with d := 3, a := 1 } (some 900)), matc .tmov { r0 with d := 3, a := 1 } (some 900), 900, by unfold State.HasMat; decide, by decide, by decide, by unfold State.TilesAt; decide, by decide, by decide⟩,
   ⟨withMat (matc .tzero { r0 with d := 3 } (some 900)), matc .tzero { r0 with d := 3 } (some 900), 900, by unfold State.HasMat; decide, by decide, by decide, by unfold State.TilesAt; decide, by decide, by decide⟩,
   ⟨withMat (matc .tcvt { r0 with d := 3, a := 1 } (some 900)), matc .tcvt { r0 with d := 3, a := 1 } (some 900), 900, by unfold State.HasMat; decide, by decide, by decide, by unfold State.TilesAt; decide, by decide, by decide, ⟨32, 32, 8⟩, ⟨32, 32, 8⟩, by decide, by decide, by decide⟩,
   ⟨withMat (matc .tfree { r0 with a := 3 } (some 900)), matc .tfree { r0 with a := 3 } (some 900), 900, by unfold State.HasMat; decide, by decide, by decide, by unfold State.TilesAt; decide, by decide, by decide⟩,
   ⟨withMat (matc .afree { r0 with d := 0 } (some 900)), matc .afree { r0 with d := 0 } (some 900), 900, by unfold State.HasMat; decide, by decide, by decide, by unfold State.TilesAt; decide, by decide, by decide⟩,
   ⟨withMat (matc .accst { r0 with a := 1 } (some 300)), matc .accst { r0 with a := 1 } (some 300), 300, by unfold State.HasMat; decide, by decide, by decide, by unfold State.TilesAt; decide, by decide, by decide, by decide, by decide, ⟨[], .int, 0, false⟩, by decide, by decide⟩,
   ⟨withMat (matc .accrd { r0 with d := 3 } none), matc .accrd { r0 with d := 3 } none, ⟨[], .int, 0, false⟩, by unfold State.HasMat; decide, by decide, by decide, by decide, by decide, by decide, by decide, by decide, by decide, by decide, by decide, by decide, by decide, by decide, by decide, by decide⟩,
   ⟨withMat (matc .mma { r0 with a := 1, b := 2 } (some 900)), matc .mma { r0 with a := 1, b := 2 } (some 900), _, ⟨[], .int, 0, false⟩, by unfold State.HasMat; decide, by decide, by decide, by unfold State.TilesAt; decide, by decide, by decide, rfl, by decide, by decide, by decide, by decide, by decide, by decide⟩⟩

set_option maxRecDepth 20000 in
theorem witness_CopyIssue :
  (∃ (r : R) (s : State) (d : Desc), Ready (.cpy r) s ∧ 
    let p := s.prepare (.cpy r)
    
    let tid := (p.me.srcB r).toNat % 2 ^ 16
    
    let y := (p.me.g r.a.toNat).toNat
    tid ≠ 0 ∧ p.findDesc tid = some (some d) ∧ p.checkLocal true y d.ll = none ∧ d.outside (p.me.g r.c.toNat).toNat (p.me.g r.e.toNat).toNat = false ∧ p.BarNamed r ∧ p.CopyRoom r.unordered 1) ∧
  (∃ (r : R) (s : State) (d : Desc), Ready (.cpyl r) s ∧ 
    let p := s.prepare (.cpyl r)
    
    let tid := (p.me.srcB r).toNat % 2 ^ 16
    
    let y := (p.me.g r.a.toNat).toNat
    
    let n := (p.me.g r.e.toNat).toNat
    tid ≠ 0 ∧ p.findDesc tid = some (some d) ∧ p.LinearRange true y (p.me.g r.c.toNat).toNat n ∧ p.BarNamed r ∧ p.CopyRoom r.unordered 1) ∧
  (∃ (r : R) (s : State) (d : Desc), Ready (.cpyst r) s ∧ s.me.speculative = false ∧ 
    let p := s.prepare (.cpyst r)
    
    let tid := (p.me.srcB r).toNat % 2 ^ 16
    
    let y := (p.me.g r.a.toNat).toNat
    tid ≠ 0 ∧ p.findDesc tid = some (some d) ∧ p.checkLocal false y d.ll = none ∧ d.outside (p.me.g r.c.toNat).toNat (p.me.g r.e.toNat).toNat = false ∧ d.ro = false ∧ (r.redOp ≠ 0 → isBlock d.fmt = false) ∧ d.ll ≠ 0 ∧ p.BarNamed r ∧ p.CopyRoom r.unordered 1) ∧
  (∃ (r : R) (s : State) (d : Desc), Ready (.cpylSt r) s ∧ s.me.speculative = false ∧ 
    let p := s.prepare (.cpylSt r)
    
    let tid := (p.me.srcB r).toNat % 2 ^ 16
    
    let y := (p.me.g r.a.toNat).toNat
    
    let n := (p.me.g r.e.toNat).toNat
    tid ≠ 0 ∧ p.findDesc tid = some (some d) ∧ p.LinearRange false y (p.me.g r.c.toNat).toNat n ∧ d.ro = false ∧ p.BarNamed r ∧ p.CopyRoom r.unordered 1) ∧
  (∃ (r : R) (s : State) (d : Desc), Ready (.pfx r) s ∧ 
    let p := s.prepare (.pfx r)
    
    let tid := (p.me.srcB r).toNat % 2 ^ 16
    tid ≠ 0 ∧ p.findDesc tid = some (some d) ∧ d.outside (p.me.g r.c.toNat).toNat (p.me.g r.e.toNat).toNat = false ∧ p.CopyRoom r.unordered 0) ∧
  (∃ (r : R) (s : State) (d : Desc), Ready (.tflush r) s ∧ s.me.speculative = false ∧ 
    let p := s.prepare (.tflush r)
    
    let tid := (p.me.srcB r).toNat % 2 ^ 16
    tid ≠ 0 ∧ p.findDesc tid = some (some d) ∧ p.BarNamed r ∧ p.CopyRoom r.unordered 0) ∧
  (∃ (r : R) (s : State) (d : Desc), Ready (.cpyst r) s ∧ s.me.speculative = true ∧ 
    let p := s.prepare (.cpyst r)
    
    let tid := (p.me.srcB r).toNat % 2 ^ 16
    
    let y := (p.me.g r.a.toNat).toNat
    
    let size := 64 + (d.ll + 31) / 32 * 32
    tid ≠ 0 ∧ p.findDesc tid = some (some d) ∧ p.checkLocal false y d.ll = none ∧ d.outside (p.me.g r.c.toNat).toNat (p.me.g r.e.toNat).toNat = false ∧ d.ro = false ∧ (r.redOp ≠ 0 → isBlock d.fmt = false) ∧ p.BarNamed r ∧ size ≤ 8192 ∧ p.heldUsed p.me.agent + size ≤ 16384 ∧ (r.unordered = true ∨ p.me.rangeBusy p.nextCmd false y d.ll = false)) ∧
  (∃ (s : State) (c : Cmd) (d : BitVec 6), 
    let h := (s.core.translateHits (s.asidOf c) c).2
    
    let hit (g : Nat) : Prop := ∃ pa w, AMap.find h.xlat g = some (some (pa, w)) ∧ paKind pa = .device
    (d = 0 ∨ c.sem = 3 ∨ (∃ g ∈ pagesOf c.spans, ¬ hit g))) ∧
  (∃ (s : State) (c : Cmd) (d : BitVec 6), 
    let h := (s.core.translateHits (s.asidOf c) c).2
    
    let hit (g : Nat) : Prop := ∃ pa w, AMap.find h.xlat g = some (some (pa, w)) ∧ paKind pa = .device
    d ≠ 0 ∧ c.sem ≠ 3 ∧ (∀ g ∈ pagesOf c.spans, hit g)) :=
  ⟨⟨{ r0 with ext := true, lit := some 1, a := 1 }, copier, ten, ready (by decide) (by decide), by decide, by decide, by decide, by decide, ⟨by decide, by decide⟩, ⟨by decide, by decide⟩⟩,
   ⟨{ r0 with ext := true, lit := some 1, a := 1, e := 6 }, copier, ten, ready (by decide) (by decide), by decide, by decide, ⟨by decide, by decide, by decide, by decide, by decide, by decide⟩, ⟨by decide, by decide⟩, ⟨by decide, by decide⟩⟩,
   ⟨{ r0 with ext := true, lit := some 1, a := 1 }, copier, ten, ready (by decide) (by decide), by decide, by decide, by decide, by decide, by decide, by decide, fun _ => by decide, by decide, ⟨by decide, by decide⟩, ⟨by decide, by decide⟩⟩,
   ⟨{ r0 with ext := true, lit := some 1, a := 1, e := 6, m := 2 }, copier, ten, ready (by decide) (by decide), by decide, by decide, by decide, ⟨by decide, by decide, by decide, by decide, by decide, by decide⟩, by decide, ⟨by decide, by decide⟩, ⟨by decide, by decide⟩⟩,
   ⟨{ r0 with ext := true, lit := some 1 }, copier, ten, ready (by decide) (by decide), by decide, by decide, by decide, ⟨by decide, by decide⟩⟩,
   ⟨{ r0 with ext := true, lit := some 1 }, copier, ten, ready (by decide) (by decide), by decide, by decide, by decide, ⟨by decide, by decide⟩, ⟨by decide, by decide⟩⟩,
   ⟨{ r0 with ext := true, lit := some 1, a := 1 }, copier.modMe (fun a => { a with tags := [tagc 1 false] }), ten, ready (by decide) (by decide), by decide, by decide, by decide, by decide, by decide, by decide, fun _ => by decide, ⟨by decide, by decide⟩, by decide, by decide, .inr (by decide)⟩,
   ⟨copier, { copier.newCmd .cpy { r0 with lit := some 1 } with tid := 1, desc := some ten, len := 512 }, 0, .inl rfl⟩,
   ⟨copier.modCore (fun k => { k with tlb := [⟨0, 0, 0, 0x40000000, 0, true⟩] }), { copier.newCmd .cpy { r0 with lit := some 1 } with tid := 1, desc := some ten, len := 512 }, 1, by decide, by decide, (fun g h => ⟨0x100000, true, by revert g; decide⟩)⟩⟩

theorem witness_RowCopies :
  (∃ (r : R) (s : State) (d : Desc), Ready (.gath r) s ∧ 
    let p := s.prepare (.gath r)
    
    let n := (p.me.g r.e.toNat).toNat
    p.RowsPass .gath r d ∧ { p with me := { p.me with listRead := none } }.CopyRoom r.unordered 1 ∧ p.cycle < p.me.firstTry.getD p.cycle + (4 * n + 63) / 64 + 2) ∧
  (∃ (r : R) (s : State) (d : Desc), Ready (.gath r) s ∧ 
    let p := s.prepare (.gath r)
    
    let n := (p.me.g r.e.toNat).toNat
    p.RowsPass .gath r d ∧ { p with me := { p.me with listRead := none } }.CopyRoom r.unordered 1 ∧ p.me.firstTry.getD p.cycle + (4 * n + 63) / 64 + 2 ≤ p.cycle ∧ (r.zfill = true ∨ p.badRow r d = none)) ∧
  (∃ (r : R) (s : State) (d : Desc), Ready (.gath r) s ∧ 
    let p := s.prepare (.gath r)
    
    let n := (p.me.g r.e.toNat).toNat
    p.RowsPass .gath r d ∧ { p with me := { p.me with listRead := none } }.CopyRoom r.unordered 1 ∧ p.me.firstTry.getD p.cycle + (4 * n + 63) / 64 + 2 ≤ p.cycle ∧ ∃ k, r.zfill = false ∧ p.badRow r d = some k) ∧
  (∃ x ∈ [(Instr.scat, CmdKind.scat), (.red, .red)], ∃ (r : R) (s : State) (d : Desc), Ready (x.1 r) s ∧ s.me.speculative = false ∧ 
    let p := s.prepare (x.1 r)
    
    let n := (p.me.g r.e.toNat).toNat
    p.RowsPass x.2 r d ∧ d.ro = false ∧ (x.2 = .red → r.redOp ≠ 0) ∧ { p with me := { p.me with listRead := none } }.CopyRoom r.unordered 1 ∧ p.me.firstTry.getD p.cycle + (4 * n + 63) / 64 + 2 ≤ p.cycle ∧ (r.zfill = true ∨ p.badRow r d = none)) ∧
  (∃ x ∈ [(Instr.scat, CmdKind.scat), (.red, .red)], ∃ (r : R) (s : State) (d : Desc), Ready (x.1 r) s ∧ s.me.speculative = true ∧ 
    let p := s.prepare (x.1 r)
    
    let n := (p.me.g r.e.toNat).toNat
    
    let size := 64 + (n * d.rbp + 4 * n + 31) / 32 * 32
    p.RowsPass x.2 r d ∧ d.ro = false ∧ (x.2 = .red → r.redOp ≠ 0) ∧ p.me.firstTry.getD p.cycle + (4 * n + 63) / 64 + 2 ≤ p.cycle ∧ (r.zfill = true ∨ p.badRow r d = none) ∧ size ≤ 8192 ∧ p.heldUsed p.me.agent + size ≤ 16384 ∧ (r.unordered = true ∨ p.me.rangeBusy p.nextCmd false (p.me.g r.a.toNat).toNat (n * d.rbp) = false)) :=
  ⟨⟨{ r0 with ext := true, lit := some 1, a := 1, c := 7, e := 3, m := 0 }, listed 0 none, ten, ready (by decide) (by decide), ⟨by decide, by decide, by decide, by decide, by decide, by decide, by decide, by decide, by decide, by decide, ⟨by decide, by decide⟩, by decide⟩, ⟨by decide, by decide⟩, by decide⟩,
   ⟨{ r0 with ext := true, lit := some 1, a := 1, c := 7, e := 3, m := 0 }, listed 0 (some 0), ten, ready (by decide) (by decide), ⟨by decide, by decide, by decide, by decide, by decide, by decide, by decide, by decide, by decide, by decide, ⟨by decide, by decide⟩, by decide⟩, ⟨by decide, by decide⟩, by decide, .inr (by decide)⟩,
   ⟨{ r0 with ext := true, lit := some 1, a := 1, c := 7, e := 3, m := 0 }, listed 20 (some 0), ten, ready (by decide) (by decide), ⟨by decide, by decide, by decide, by decide, by decide, by decide, by decide, by decide, by decide, by decide, ⟨by decide, by decide⟩, by decide⟩, ⟨by decide, by decide⟩, by decide, 0, by decide, by decide⟩,
   ⟨_, .head _, { r0 with ext := true, lit := some 1, a := 1, c := 7, e := 3, m := 0 }, listed 0 (some 0), ten, ready (by decide) (by decide), by decide, ⟨by decide, by decide, by decide, by decide, by decide, by decide, by decide, by decide, by decide, by decide, ⟨by decide, by decide⟩, by decide⟩, by decide, (fun h => by cases h), ⟨by decide, by decide⟩, by decide, .inr (by decide)⟩,
   ⟨_, .head _, { r0 with ext := true, lit := some 1, a := 1, c := 7, e := 3, m := 0 }, (listed 0 (some 0)).modMe (fun a => { a with tags := [tagc 1 false] }), ten, ready (by decide) (by decide), by decide, ⟨by decide, by decide, by decide, by decide, by decide, by decide, by decide, by decide, by decide, by decide, ⟨by decide, by decide⟩, by decide⟩, by decide, (fun h => by cases h), by decide, .inr (by decide), by decide, by decide, .inr (by decide)⟩⟩

set_option maxRecDepth 20000 in
theorem witness_CopyFaultTraps :
  (∃ x ∈ [(Instr.cpy, true), (.cpyst, false)], ∃ (r : R) (s : State), Ready (x.1 r) s ∧ 
    let p := s.prepare (x.1 r)
    
    let tid := (p.me.srcB r).toNat % 2 ^ 16
    p.BarNamed r ∧ (tid = 0 ∨ p.findDesc tid = some none)) ∧
  (∃ x ∈ [(Instr.cpy, true), (.cpyst, false)], ∃ (r : R) (s : State), Ready (x.1 r) s ∧ 
    let p := s.prepare (x.1 r)
    
    let tid := (p.me.srcB r).toNat % 2 ^ 16
    p.BarNamed r ∧ tid ≠ 0 ∧ p.findDesc tid = none) ∧
  (∃ x ∈ [(Instr.cpy, true), (.cpyst, false)], ∃ (r : R) (s : State), Ready (x.1 r) s ∧ 
    let p := s.prepare (x.1 r)
    
    let tid := (p.me.srcB r).toNat % 2 ^ 16
    p.BarNamed r ∧ ∃ d, tid ≠ 0 ∧ p.findDesc tid = some (some d) ∧ p.checkLocal x.2 (p.me.g r.a.toNat).toNat d.ll = none ∧ d.outside (p.me.g r.c.toNat).toNat (p.me.g r.e.toNat).toNat = true) ∧
  (∃ x ∈ [(Instr.cpy, true), (.cpyst, false)], ∃ (r : R) (s : State), Ready (x.1 r) s ∧ 
    let p := s.prepare (x.1 r)
    
    let tid := (p.me.srcB r).toNat % 2 ^ 16
    p.BarNamed r ∧ ∃ d, tid ≠ 0 ∧ p.findDesc tid = some (some d) ∧ p.checkLocal x.2 (p.me.g r.a.toNat).toNat d.ll = none ∧ d.outside (p.me.g r.c.toNat).toNat (p.me.g r.e.toNat).toNat = false ∧ x.2 = false ∧ d.ro = true) ∧
  (∃ (r : R) (s : State), Ready (.tld r) s ∧ 
    let p := s.prepare (.tld r)
    p.me.tsv r.d.toNat = 0 ∧ (p.me.g r.a.toNat).toNat % 32 = 0 ∧ p.BarNamed r) ∧
  (∃ (r : R) (s : State), Ready (.tmov r) s ∧ (s.prepare (.tmov r)).me.tsv r.a.toNat = 0) ∧
  (∃ (r : R) (s : State) (h : Shape), Ready (.tst r) s ∧ 
    let p := s.prepare (.tst r)
    
    let y := (p.me.g r.a.toNat).toNat
    Shape.of (p.me.tsv r.b.toNat) = some h ∧ p.checkLocal true y h.ll = none ∧ y % 32 ≠ 0) ∧
  (∃ (r : R) (s : State), Ready (.mma r) s ∧ r.lb = false ∧ 
    let p := s.prepare (.mma r)
    p.BarNamed r ∧ (p.me.tsv r.a.toNat = 0 ∨ p.me.tsv r.b.toNat = 0 ∨
      mmaPair ((p.me.tsv r.a.toNat).toNat % 16) ((p.me.tsv r.b.toNat).toNat % 16) = none)) :=
  ⟨⟨_, .head _, { r0 with ext := true, a := 1 }, copier, ready (by decide) (by decide), ⟨by decide, by decide⟩, .inl (by decide)⟩,
   ⟨_, .head _, { r0 with ext := true, lit := some 9, a := 1 }, copier, ready (by decide) (by decide), ⟨by decide, by decide⟩, by decide, by decide⟩,
   ⟨_, .head _, { r0 with ext := true, lit := some 1, a := 1, c := 3 }, copier, ready (by decide) (by decide), ⟨by decide, by decide⟩, ten, by decide, by decide, by decide, by decide⟩,
   ⟨_, .tail _ (.head _), { r0 with ext := true, lit := some 2, a := 1 }, copier, ready (by decide) (by decide), ⟨by decide, by decide⟩, tenRo, by decide, by decide, by decide, by decide, by decide, by decide⟩,
   ⟨{ r0 with d := 5, a := 1 }, world tiler, ready (by decide) (by decide), by decide, by decide, ⟨by decide, by decide⟩⟩,
   ⟨{ r0 with d := 3, a := 5 }, world tiler, ready (by decide) (by decide), by decide⟩,
   ⟨{ r0 with a := 5, b := 2 }, tilerAt, ⟨64, 32, 8⟩, ready (by decide) (by decide), by decide, by decide, by decide⟩,
   ⟨{ r0 with a := 5, b := 2 }, world tiler, ready (by decide) (by decide), by decide, ⟨by decide, by decide⟩, .inl (by decide)⟩⟩

theorem witness_WindowsAndFences :
  (∃ (r : R) (s t : State) (c : Cmd), Ready (.codeld r) s ∧ s.me.speculative = false ∧ 
    let p := s.prepare (.codeld r)
    
    let va := (p.me.srcB r).toNat
    
    let w := (p.me.g r.c.toNat).toNat
    va % 2048 = 0 ∧ w ≠ 0 ∧ 4 * w ≤ p.me.xb ∧ (∀ g ∈ pagesOf { p.newCmd .codeld r with len := 4 * w }.spans, p.walkHeld p.me.job.vd (p.asidOf { p.newCmd .codeld r with len := 4 * w }) (g * pageBytes) = false) ∧ p.translateAll { p.newCmd .codeld r with len := 4 * w } = some (t, c) ∧ t.CopyRoom r.unordered 0) ∧
  (∃ (r : R) (s : State), Ready (.pwin r) s ∧ s.me.speculative = false ∧ 
    let p := s.prepare (.pwin r)
    
    let w := (p.me.g r.a.toNat).toNat
    
    let base := (p.me.g r.c.toNat).toNat
    
    let n := (p.me.srcB r).toNat
    p.checkLocal true base n = none ∧ base % 32 = 0 ∧ n % 32 = 0 ∧ n ≤ 65536 ∧ w ≤ 3 ∧ p.me.windowBusy w = false ∧ (n ≠ 0 → p.me.windowMeets w base n = false)) ∧
  (∃ (r : R) (s : State) (x : Window), Ready (.cpyProg r) s ∧ s.me.speculative = false ∧ 
    let p := s.prepare (.cpyProg r)
    
    let w := (p.me.g r.a.toNat).toNat
    w ≤ 3 ∧ p.me.windows.find w = some x ∧ x.prog = none ∧ x.asked = false ∧ p.BarNamed r ∧ p.CopyRoom r.unordered 0) ∧
  (∃ (r : R) (s : State), Ready (.pwret r) s ∧ s.me.speculative = false ∧ 
    let p := s.prepare (.pwret r)
    (p.me.g r.a.toNat).toNat ≤ 3 ∧ p.me.windowBusy (p.me.g r.a.toNat).toNat = true ∧ p.CopyRoom r.unordered 0) ∧
  (∃ (r : R) (s : State), Ready (.fence r) s ∧ (s.me.speculative = false ∨ r.sem = 1) ∧ 
    let p := s.prepare (.fence r)
    p.CopyRoom r.unordered 0 ∧ p.NoneLeaving) :=
  ⟨⟨{ r0 with ext := true, b := 0, c := 3 }, paged copier, _, _, ready (by decide) (by decide), by decide, by decide, by decide, by decide, by decide, rfl, ⟨by decide, by decide⟩⟩,
   ⟨{ r0 with ext := true, a := 3, c := 1, lit := some 32 }, copier, ready (by decide) (by decide), by decide, by decide, by decide, by decide, by decide, by decide, by decide, fun _ => by decide⟩,
   ⟨{ r0 with ext := true, a := 0, b := 2, m := 8 }, windowed none, ⟨0x800, 1024, none, false⟩, ready (by decide) (by decide), by decide, by decide, by decide, by decide, by decide, ⟨by decide, by decide⟩, ⟨by decide, by decide⟩⟩,
   ⟨{ r0 with ext := true, a := 0 }, windowed (some 9), ready (by decide) (by decide), by decide, by decide, by decide, ⟨by decide, by decide⟩⟩,
   ⟨{ r0 with ext := true, m := 0x40 }, copier, ready (by decide) (by decide), .inl (by decide), ⟨by decide, by decide⟩, by unfold State.NoneLeaving; decide⟩⟩

set_option maxRecDepth 20000 in
theorem witness_CopyQueue :
  (∃ (s : State) (c : Cmd), s.HasCmd c ∧ c.kind ≠ .cpyProg ∧ s.turnOf c = true ∧ c.kind = .fence) ∧
  (∃ (s : State) (c : Cmd), s.HasCmd c ∧ c.kind ≠ .cpyProg ∧ s.turnOf c = true ∧ c.kind = .pwret) ∧
  (∃ (s : State) (c : Cmd), s.HasCmd c ∧ c.kind ≠ .cpyProg ∧ s.turnOf c = true ∧ c.kind ≠ .fence ∧ c.kind ≠ .pwret) ∧
  (∃ (s : State) (c : Cmd) (g : Nat), s.HasCmd c ∧ (pagesOf c.spans).find? (fun g => (AMap.find c.xlat g).isNone) = some g ∧ 
    let va := g * pageBytes
    ∃ x, s.core.tlbFind c.vd (s.asidOf c) va = some x) ∧
  (∃ (s : State) (c : Cmd) (g : Nat), s.HasCmd c ∧ (pagesOf c.spans).find? (fun g => (AMap.find c.xlat g).isNone) = some g ∧ 
    let va := g * pageBytes
    s.core.tlbFind c.vd (s.asidOf c) va = none ∧ s.walkHeld c.vd (s.asidOf c) va = false ∧ c.issued + 2 * levelLatency s.core.agent (s.walker s.core.agent) ≤ s.cycle ∧ s.hasPassed (.walk c.id g) (s.walkNeeds s.core.agent c.vd (s.asidOf c) va) = true ∧ ∃ x, s.walk c.vd (s.asidOf c) va = some x) ∧
  (∃ (s : State) (c : Cmd) (g : Nat), s.HasCmd c ∧ (pagesOf c.spans).find? (fun g => (AMap.find c.xlat g).isNone) = some g ∧ 
    let va := g * pageBytes
    s.core.tlbFind c.vd (s.asidOf c) va = none ∧ s.walkHeld c.vd (s.asidOf c) va = false ∧ c.issued + 2 * levelLatency s.core.agent (s.walker s.core.agent) ≤ s.cycle ∧ s.hasPassed (.walk c.id g) (s.walkNeeds s.core.agent c.vd (s.asidOf c) va) = true ∧ s.walk c.vd (s.asidOf c) va = none) ∧
  (∃ (s : State) (c : Cmd) (x : Target) (u : Nat) (k : LineKey), s.HasCmd c ∧ c.target = some x ∧ c.started = true ∧ u ∈ c.todo ∧ u ∉ c.filled ∧ s.unitLines c u = [k] ∧ (s.bucket k.bucket).hold = false ∧ s.unitAt c u s.warmHeld = false ∧ s.cache.home k = none ∧ s.unitAt c u isSwitch = false ∧ s.warmBehind c u = false ∧ s.replicaFor c k = none ∧ s.mayFill c u = true ∧ s.fillTime c [k] ≤ s.cycle) ∧
  (∃ (s : State) (c : Cmd) (x : Target) (u : Nat), s.HasCmd c ∧ s.loc? c.id = none ∧ c.target = some x ∧ c.kind.isLoad = true ∧ c.started = true ∧ u ∈ c.todo ∧ s.unitReady c u = true ∧ s.unitAt c u s.linkWaits = false ∧ s.tripDone c u = true ∧ 
    let beats := ((c.unitSrc u).length + 63) / 64
    c.due + beats ≤ s.cycle ∧ s.core.portFree + beats ≤ s.cycle ∧ c.bar = 0) ∧
  (∃ (s : State) (c : Cmd) (x : Target) (u : Nat), s.HasCmd c ∧ s.loc? c.id = none ∧ c.target = some x ∧ c.kind.isLoad = true ∧ c.started = true ∧ u ∈ c.todo ∧ s.unitReady c u = true ∧ s.unitAt c u s.linkWaits = false ∧ s.tripDone c u = true ∧ 
    let beats := ((c.unitSrc u).length + 63) / 64
    c.due + beats ≤ s.cycle ∧ s.core.portFree + beats ≤ s.cycle ∧ c.todo = [u]) ∧
  (∃ (s : State) (c : Cmd) (u : Nat), s.HasCmd c ∧ (c.kind = .cpyst ∨ c.kind = .cpylSt ∨ ((c.kind = .scat ∨ c.kind = .red) ∧ c.todo.head? = some u)) ∧ c.started = true ∧ u ∈ c.todo ∧ s.unitAt c u isSwitch = false ∧ (∀ v ∈ c.batch u, s.unitReady c v = true ∧ s.unitAt c v s.linkWaits = false ∧ s.tripDone c v = true)) ∧
  (∃ (s : State) (c : Cmd) (x : Target) (u : Nat) (w : List (Loc × Byte)), c.target = some x ∧ c.payload = none ∧ s.UnitWrites c x u w ∧ 
    let b := s.countLines (s.unitLines c u)
    ∃ l v, l.pa ∉ w.map (fun y => y.1.pa) ∧ b.byteFor c l = .ok v) ∧
  (∃ (s : State) (c : Cmd) (x : Target) (u : Nat) (w : List (Loc × Byte)), c.target = some x ∧ c.payload = none ∧ s.UnitWrites c x u w ∧ (c.kind = .cpylSt ∨ c.kind = .scat ∨ (c.kind = .cpyst ∧ c.r.redOp = 0)) ∧ ∃ y ∈ w, noRead y.1.pa = false) ∧
  (∃ (s : State) (c : Cmd) (x : Target) (u : Nat) (w : List (Loc × Byte)), c.target = some x ∧ c.payload = none ∧ s.UnitWrites c x u w ∧ 
    let b := s.countLines (s.unitLines c u)
    
    let n := fmtBits x.desc.fmt / 8
    (c.kind = .red ∨ (c.kind = .cpyst ∧ c.r.redOp ≠ 0)) ∧ 0 < n ∧ ∃ (e : Nat) (old : List Byte), n * (e + 1) ≤ w.length ∧ ((w.drop (n * e)).take n).map (fun y => b.byteFor c y.1) = old.map Except.ok) ∧
  (∃ (s : State) (c : Cmd) (e : JEntry) (n : Nat), s.HasCmd c ∧ s.core.journal.find n = some e ∧ e.cmd = c.id ∧ c.started = true ∧ c.todo = [] ∧ c.err = 0) ∧
  (∃ (s : State) (c : Cmd) (e : JEntry) (n : Nat), s.HasCmd c ∧ s.core.journal.find n = some e ∧ e.cmd = c.id ∧ c.started = true ∧ c.todo = [] ∧ c.err ≠ 0) ∧
  (∃ (s : State) (c : Cmd), s.HasCmd c ∧ c.started = true ∧ c.kind = .tflush ∧ c.todo ≠ [] ∧ s.tripDone c 0 = true ∧ (∀ l ∈ s.cache.lines, l.key.vd = c.vd → l.key.tid = c.tid → (s.bucket l.key.bucket).hold = false)) ∧
  (∃ (s : State) (c : Cmd) (pas : List Nat) (image : List Byte), s.HasCmd c ∧ c.started = true ∧ c.kind = .codeld ∧ s.unitReady c 0 = true ∧ s.unitAt c 0 s.linkWaits = false ∧ s.tripDone c 0 = true ∧ (List.range c.len).map (fun k => PageMap.apply c.xlat false (c.opB.toNat + k)) = pas.map Except.ok ∧ pas.map (fun pa => (s.asModule c.modid).loadVia (s.replicaFor c (addrKey c.vd pa)) c.vd (addrLoc c.vd pa)) = image.map Except.ok) ∧
  (∃ (s : State) (c : Cmd) (u : Nat), s.HasCmd c ∧ c.started = true ∧ c.kind = .cpyst ∧ c.startedAt + 170000 ≤ s.cycle ∧ c.todo.find? (fun u => s.unitAt c u s.linkWaits) = some u) ∧
  (∃ (s : State) (c : Cmd) (u : Nat), s.HasCmd c ∧ c.started = true ∧ c.kind = .cpyst ∧ c.startedAt + 170000 ≤ s.cycle ∧ c.todo.find? (fun u => s.unitAt c u (fun pa => match paKind pa with
      | .cxl _ _ => !s.warmHeld pa
      | _ => false)) = some u) :=
  ⟨⟨withCmd (waiting .fence), waiting .fence, ⟨by decide, by decide, by decide⟩, by decide, by decide, by decide⟩,
   ⟨withCmd (waiting .pwret), waiting .pwret, ⟨by decide, by decide, by decide⟩, by decide, by decide, by decide⟩,
   ⟨withCmd (waiting .cpyst), waiting .cpyst, ⟨by decide, by decide, by decide⟩, by decide, by decide, by decide, by decide⟩,
   ⟨(withCmd { cmdOf .cpyst with xlat := [] }).modCore (fun k => { k with tlb := [⟨0, 0, 0, 0x40000000, 0, true⟩] }), { cmdOf .cpyst with xlat := [] }, 16, ⟨by decide, by decide, by decide⟩, by decide, ⟨0, 0, 0, 0x40000000, 0, true⟩, by decide⟩,
   ⟨walked (paged (withCmd { cmdOf .cpyst with xlat := [] })), { cmdOf .cpyst with xlat := [] }, 16, ⟨by decide, by decide, by decide⟩, by decide, by decide, by decide, by decide, by decide, ⟨0, 0, 0, 0x40000000, 0, true⟩, by decide⟩,
   ⟨walked (withCmd { cmdOf .cpyst with xlat := [] }), { cmdOf .cpyst with xlat := [] }, 16, ⟨by decide, by decide, by decide⟩, by decide, by decide, by decide, by decide, by decide, by decide⟩,
   ⟨passed (cmdAt 0x100000 .cpyst) 0 (withCmd (cmdAt 0x100000 .cpyst)), cmdAt 0x100000 .cpyst, ⟨0, 1, ten⟩, 0, _, ⟨by decide, by decide, by decide⟩, by decide, by decide, by decide, by decide, rfl, by decide, by decide, by decide, by decide, by decide, by decide, by decide, by decide⟩,
   ⟨loaded .cpy, cmdOf .cpy, ⟨0, 1, ten⟩, 0, ⟨by decide, by decide, by decide⟩, by decide, by decide, by decide, by decide, by decide, by decide, by decide, by decide, by decide, by decide, by decide⟩,
   ⟨loaded .cpy, cmdOf .cpy, ⟨0, 1, ten⟩, 0, ⟨by decide, by decide, by decide⟩, by decide, by decide, by decide, by decide, by decide, by decide, by decide, by decide, by decide, by decide, by decide⟩,
   ⟨loaded .cpyst, cmdOf .cpyst, 0, ⟨by decide, by decide, by decide⟩, .inl (by decide), by decide, by decide, by decide, by decide⟩,
   ⟨withCmd { cmdOf .red with idx := [0] }, { cmdOf .red with idx := [0] }, ⟨0, 1, ten⟩, 0, (List.range 32).map (fun i => ((⟨⟨0, 1, 0, 0⟩, 0, .cell, 0x100000 + i⟩ : Loc), (0 : Byte))), by decide, by decide, ⟨by decide, by decide, by decide, by decide⟩, ⟨⟨0, 1, 0, 0⟩, 0, .cell, 0⟩, 0, by decide, by decide⟩,
   ⟨withCmd { cmdOf .scat with idx := [0] }, { cmdOf .scat with idx := [0] }, ⟨0, 1, ten⟩, 0, (List.range 32).map (fun i => ((⟨⟨0, 1, 0, 0⟩, 0, .cell, 0x100000 + i⟩ : Loc), (0 : Byte))), by decide, by decide, ⟨by decide, by decide, by decide, by decide⟩, .inr (.inl rfl), ((⟨⟨0, 1, 0, 0⟩, 0, .cell, 0x100000⟩ : Loc), (0 : Byte)), by decide, by decide⟩,
   ⟨withCmd { cmdOf .red with idx := [0] }, { cmdOf .red with idx := [0] }, ⟨0, 1, ten⟩, 0, (List.range 32).map (fun i => ((⟨⟨0, 1, 0, 0⟩, 0, .cell, 0x100000 + i⟩ : Loc), (0 : Byte))), by decide, by decide, ⟨by decide, by decide, by decide, by decide⟩, .inl rfl, by decide, 0, [0], by decide, by decide⟩,
   ⟨journaled { cmdOf .cpyst with todo := [] }, { cmdOf .cpyst with todo := [] }, ⟨1, 1, 0, 0, 0⟩, 0, ⟨by decide, by decide, by decide⟩, by decide, by decide, by decide, by decide, by decide⟩,
   ⟨journaled { cmdOf .cpyst with todo := [], err := 1 }, { cmdOf .cpyst with todo := [], err := 1 }, ⟨1, 1, 0, 0, 0⟩, 0, ⟨by decide, by decide, by decide⟩, by decide, by decide, by decide, by decide, by decide⟩,
   ⟨passed (cmdOf .tflush) 0 (withCmd (cmdOf .tflush)), cmdOf .tflush, ⟨by decide, by decide, by decide⟩, by decide, by decide, by decide, by decide, (fun l h => by cases h)⟩,
   ⟨passed { cmdOf .codeld with len := 4, xlat := [(0, some (0, true))] } 0 (withCmd { cmdOf .codeld with len := 4, xlat := [(0, some (0, true))] }), { cmdOf .codeld with len := 4, xlat := [(0, some (0, true))] }, [1, 2, 3, 4], [0, 0, 0, 0], ⟨by decide, by decide, by decide⟩, by decide, by decide, by decide, by decide, by decide, by decide, by decide⟩,
   ⟨{ withCmd (cmdAt 0xC000000000000 .cpyst) with cycle := 200000, svc := { copier.svc with routes := [(0, 1)] } }, cmdAt 0xC000000000000 .cpyst, 0, ⟨by decide, by decide, by decide⟩, by decide, by decide, by decide, by decide⟩,
   ⟨{ withCmd (cmdAt 0x100000000000 .cpyst) with cycle := 200000 }, cmdAt 0x100000000000 .cpyst, 0, ⟨by decide, by decide, by decide⟩, by decide, by decide, by decide, by decide⟩⟩

theorem witness_DescriptorsAndPromises :
  (∃ (s : State) (tid : Nat), s.core.agent = s.me.agent ∧ s.me.descWait = some tid ∧ s.me.agent.kind = .compute ∧ s.findDesc tid = none ∧ 
    let pa := (s.vd s.me.job.vd).vdtab.toNat / 2 ^ 6 % 2 ^ 46 * 2 ^ 6 + 64 * tid
    s.addrHeld s.me.job.vd [pa] = false ∧ s.me.firstTry.getD s.cycle + 6 + 2 * levelLatency s.me.agent (s.sliceAgent (addrKey s.me.job.vd pa)) ≤ s.cycle + 1) ∧
  (∃ (s : State) (p : Promise), s.me.life ≠ .absent ∧ s.me.promises.find? (fun q => q.cmd = p.cmd) = some p ∧ p.cycle ≤ s.cycle) :=
  ⟨⟨copier.modMe (fun a => { a with descWait := some 9, firstTry := some 0 }), 9, by decide, by decide, by decide, by decide, by decide⟩,
   ⟨copier.modMe (fun a => { a with promises := [⟨4, 0, 0, 900⟩] }), ⟨4, 0, 0, 900⟩, by decide, by decide, by decide⟩⟩

set_option maxRecDepth 20000 in
theorem witness_Streams :
  (∃ (r : R) (s : State) (a : Activity) (w : Window) (d : Desc), Ready (.spush r) s ∧ 
    let p := s.prepare (.spush r)
    
    let tid := (p.me.g r.e.toNat).toNat % 2 ^ 16
    p.StreamInto false a w r d.ll ∧ tid ≠ 0 ∧ p.findDesc tid = some (some d) ∧ d.outside (p.me.g r.a.toNat).toNat (p.me.g r.c.toNat).toNat = false ∧ p.CopyRoom r.unordered 0) ∧
  (∃ (r : R) (s : State) (a : Activity) (w : Window), Ready (.sfmt r) s ∧ 
    let p := s.prepare (.sfmt r)
    
    let y := (p.me.g r.a.toNat).toNat
    
    let n := (p.me.g r.c.toNat).toNat
    p.StreamInto false a w r n ∧ p.checkLocal false y n = none ∧ y % 32 = 0 ∧ n % 32 = 0 ∧ 32 ≤ n ∧ n ≤ 65536 ∧ p.CopyRoom r.unordered 1) ∧
  (∃ (r : R) (s : State) (a : Activity) (w : Window), Ready (.sfill r) s ∧ 
    let p := s.prepare (.sfill r)
    
    let y := (p.me.g r.a.toNat).toNat
    
    let n := (p.me.g r.c.toNat).toNat
    p.StreamInto false a w r n ∧ p.checkLocal true y n = none ∧ y % 32 = 0 ∧ n % 32 = 0 ∧ 32 ≤ n ∧ n ≤ 65536 ∧ p.CopyRoom r.unordered 1) ∧
  (∃ (r : R) (s : State) (a : Activity) (w : Window) (d : Desc), Ready (.swb r) s ∧ 
    let p := s.prepare (.swb r)
    
    let tid := (p.me.g r.e.toNat).toNat % 2 ^ 16
    p.StreamInto false a w r d.ll ∧ tid ≠ 0 ∧ p.findDesc tid = some (some d) ∧ d.ro = false ∧ d.outside (p.me.g r.a.toNat).toNat (p.me.g r.c.toNat).toNat = false ∧ p.CopyRoom r.unordered 0 ∧ p.NoneLeaving) ∧
  (∃ x ∈ [(Instr.spush, false), (.swb, true)], ∃ (r : R) (s : State) (a : Activity) (w : Window) (d : Desc), Ready (x.1 r) s ∧ 
    let p := s.prepare (x.1 r)
    
    let tid := (p.me.g r.e.toNat).toNat % 2 ^ 16
    p.StreamInto true a w r d.ll ∧ tid ≠ 0 ∧ p.findDesc tid = some (some d) ∧ (x.2 = true → d.ro = false) ∧ d.outside (p.me.g r.a.toNat).toNat (p.me.g r.c.toNat).toNat = false) ∧
  (∃ x ∈ [(Instr.sfmt, false), (.sfill, true)], ∃ (r : R) (s : State) (a : Activity) (w : Window), Ready (x.1 r) s ∧ 
    let p := s.prepare (x.1 r)
    
    let y := (p.me.g r.a.toNat).toNat
    
    let n := (p.me.g r.c.toNat).toNat
    p.StreamInto true a w r n ∧ p.checkLocal x.2 y n = none ∧ y % 32 = 0 ∧ n % 32 = 0 ∧ 32 ≤ n ∧ n ≤ 65536) :=
  ⟨⟨{ r0 with ext := true, e := 3 }, streamer, asker, ⟨0x800, 1024, none, false⟩, ten, ready (by decide) (by decide), ⟨by decide, by decide, by decide, ⟨by decide, by decide⟩, by decide, .inl (by decide)⟩, by decide, by decide, by decide, ⟨by decide, by decide⟩⟩,
   ⟨{ r0 with ext := true, a := 1, c := 6 }, streamer, asker, ⟨0x800, 1024, none, false⟩, ready (by decide) (by decide), ⟨by decide, by decide, by decide, ⟨by decide, by decide⟩, by decide, .inl (by decide)⟩, by decide, by decide, by decide, by decide, by decide, ⟨by decide, by decide⟩⟩,
   ⟨{ r0 with ext := true, a := 1, c := 6 }, streamer, asker, ⟨0x800, 1024, none, false⟩, ready (by decide) (by decide), ⟨by decide, by decide, by decide, ⟨by decide, by decide⟩, by decide, .inl (by decide)⟩, by decide, by decide, by decide, by decide, by decide, ⟨by decide, by decide⟩⟩,
   ⟨{ r0 with ext := true, e := 3 }, streamer, asker, ⟨0x800, 1024, none, false⟩, ten, ready (by decide) (by decide), ⟨by decide, by decide, by decide, ⟨by decide, by decide⟩, by decide, .inl (by decide)⟩, by decide, by decide, by decide, by decide, ⟨by decide, by decide⟩, by unfold State.NoneLeaving; decide⟩,
   ⟨_, .head _, { r0 with ext := true, e := 3 }, awaySaved, asker, ⟨0x800, 1024, none, false⟩, ten, ready (by decide) (by decide), ⟨by decide, by decide, by decide, ⟨by decide, by decide⟩, by decide, .inl (by decide)⟩, by decide, by decide, by decide, by decide⟩,
   ⟨_, .head _, { r0 with ext := true, a := 1, c := 6 }, awaySaved, asker, ⟨0x800, 1024, none, false⟩, ready (by decide) (by decide), ⟨by decide, by decide, by decide, ⟨by decide, by decide⟩, by decide, .inl (by decide)⟩, by decide, by decide, by decide, by decide, by decide⟩⟩

set_option maxRecDepth 20000 in
theorem witness_StreamSteps :
  (∃ (s : State) (c : Cmd), s.HasCmd c ∧ c.kind = .cpyProg ∧ s.turnOf c = true) ∧
  (∃ (s : State) (n slot : Nat) (q : ProgReq) (req : Activity) (saved : Bool) (bs image : List Byte), 
    let ag : Agent := ⟨.spindle, n⟩
    
    let f := s.focusCore ag
    
    let c := Card.parse bs
    (s.coreOf ag).progq.head? = some q ∧ s.anyAct? q.owner = some (req, saved) ∧ f.core.cardAt q.vd q.va = some bs ∧ f.core.imageAt q.vd c.code (4 * c.cwords) = some image ∧ q.issued + 4 + levelLatency (if req.agent.kind = .compute then req.agent else ag) ag ≤ s.cycle + 1 ∧ c.passes 64 q.vd = true ∧ s.freeSlot ag 8 = some slot ∧ s.spindleOut n = false ∧ s.pagesUsed ag + c.footprint ≤ 64) ∧
  (∃ (s : State) (n _slot : Nat) (q : ProgReq) (req : Activity) (saved : Bool) (bs image : List Byte), 
    let ag : Agent := ⟨.spindle, n⟩
    
    let f := s.focusCore ag
    
    let c := Card.parse bs
    (s.coreOf ag).progq.head? = some q ∧ s.anyAct? q.owner = some (req, saved) ∧ f.core.cardAt q.vd q.va = some bs ∧ f.core.imageAt q.vd c.code (4 * c.cwords) = some image ∧ q.issued + 4 + levelLatency (if req.agent.kind = .compute then req.agent else ag) ag ≤ s.cycle + 1 ∧ c.passes 64 q.vd = false) ∧
  (∃ (s : State) (c : Cmd) (a : Activity), s.HasCmd c ∧ (c.kind = .spush ∨ c.kind = .sfmt) ∧ c.started = true ∧ (∀ d ∈ s.core.copyq, d.id < c.id → d.kind ≠ .spush ∧ d.kind ≠ .sfmt) ∧ s.streamEnd = some (some a) ∧ (∀ u ∈ (if c.kind = .sfmt then [0] else c.todo), s.tripDone c u = true) ∧ (c.kind = .spush → ∀ u ∈ c.todo, s.unitReady c u = true ∧ s.unitAt c u s.linkWaits = false) ∧ s.pushDue c a ≤ s.cycle ∧ a.listMeets c.base c.len = false) ∧
  (∃ (s : State) (c : Cmd) (a : Activity), s.HasCmd c ∧ s.loc? c.id = none ∧ c.kind = .sfill ∧ c.started = true ∧ s.streamEnd = some (some a) ∧ c.issued + 5 + 2 * levelLatency s.core.agent a.agent + (c.len + 63) / 64 ≤ s.cycle ∧ s.tripDone c 0 = true) ∧
  (∃ (s : State) (c : Cmd) (a : Activity) (u : Nat), s.HasCmd c ∧ c.kind = .swb ∧ c.started = true ∧ s.streamEnd = some (some a) ∧ u ∈ c.todo ∧ (∀ v ∈ c.batch u, s.unitReady c v = true ∧ s.unitAt c v s.linkWaits = false ∧ s.tripDone c v = true)) ∧
  (∃ (s : State) (uid : Nat) (a : Activity) (p : ProgCtx), s.act? uid = some a ∧ a.prog = some p ∧ a.agent.kind = .spindle ∧ a.life = .ending ∧ (s.coreOf a.agent).busyWith uid = false ∧ p.fault = none) :=
  ⟨⟨withCmd (waiting .cpyProg), waiting .cpyProg, ⟨by decide, by decide, by decide⟩, by decide, by decide⟩,
   ⟨requested [0, 0, 0, 0, 0, 0, 0, 0, 0, 0, 0, 0, 0, 0, 0, 0, 1], 0, 1, ⟨2, 0, 0x4000, 0, 0, 0, 0, 0, 0⟩, asker, false, [0, 0, 0, 0, 0, 0, 0, 0, 0, 0, 0, 0, 0, 0, 0, 0, 1], [0, 0, 0, 0], by decide, by decide, by decide, by decide, by decide, by decide, by decide, by decide, by decide⟩,
   ⟨requested [], 0, 1, ⟨2, 0, 0x4000, 0, 0, 0, 0, 0, 0⟩, asker, false, [], [], by decide, by decide, by decide, by decide, by decide, by decide⟩,
   ⟨passed (cmdOf .sfmt) 0 (pushing (cmdOf .sfmt)), cmdOf .sfmt, asker, ⟨by decide, by decide, by decide⟩, by decide, by decide, by decide, by decide, by decide, by decide, by decide⟩,
   ⟨passed (cmdOf .sfill) 0 (pushing (cmdOf .sfill)), cmdOf .sfill, asker, ⟨by decide, by decide, by decide⟩, by decide, by decide, by decide, by decide, by decide, by decide⟩,
   ⟨pushing2 (cmdOf .swb), cmdOf .swb, asker, 0, ⟨by decide, by decide, by decide⟩, by decide, by decide, by decide, by decide, by decide⟩,
   ⟨world { prog with life := .ending }, 1, { prog with life := .ending }, ⟨some 2, 0, 0, 0, none, []⟩, by decide, by decide, by decide, by decide, by decide, by decide⟩⟩

set_option maxRecDepth 20000 in
theorem witness_MeetingInstructions :
  (∃ (r : R) (s : State), Ready (.meet r) s ∧ 
    let p := s.prepare (.meet r)
    
    let m := p.me
    m.party = none ∧ m.coll = none ∧ m.speculative = false ∧ m.pend = [] ∧ m.claimed = [] ∧ p.writesOut = false ∧ p.vecBusy = false ∧ (m.boundMask ≠ 0 ∨ p.engineOut = true)) ∧
  (∃ (r : R) (s : State), Ready (.meet r) s ∧ 
    let p := s.prepare (.meet r)
    
    let m := p.me
    
    let lb := (m.g r.c.toNat).toNat % 2 ^ 24
    
    let ln := (m.g r.c.toNat).toNat / 2 ^ 32 % 32
    m.party = none ∧ m.coll = none ∧ m.speculative = false ∧ m.pend = [] ∧ m.claimed = [] ∧ p.writesOut = false ∧ p.vecBusy = false ∧ m.boundMask = 0 ∧ p.engineOut = false ∧ m.badLuggage lb ln = none ∧ ln ≤ 16 ∧ p.portFull = false) ∧
  (∃ (r : R) (s : State), Ready (.meet r) s ∧ 
    let p := s.prepare (.meet r)
    
    let m := p.me
    
    let lb := (m.g r.c.toNat).toNat % 2 ^ 24
    
    let ln := (m.g r.c.toNat).toNat / 2 ^ 32 % 32
    m.party = none ∧ m.coll = none ∧ m.speculative = false ∧ m.pend = [] ∧ m.claimed = [] ∧ p.writesOut = false ∧ p.vecBusy = false ∧ m.boundMask = 0 ∧ p.engineOut = false ∧ m.badLuggage lb ln = none ∧ 16 < ln) ∧
  (∃ x ∈ [(Instr.mget, Cls.g), (.mgetv, .v)], ∃ (r : R) (s _q : State) (b : Activity), Ready (x.1 r) s ∧ 
    let p := s.prepare (x.1 r)
    p.inMeeting = true ∧ p.partner = some b ∧ b.badHome [⟨x.2, r.a.toNat⟩] = none ∧ (⟨x.2, r.a.toNat⟩ : Reg) ∈ b.regs.spilled) ∧
  (∃ x ∈ [(Instr.mget, Cls.g), (.mgetv, .v)], ∃ (r : R) (s q : State) (b : Activity), Ready (x.1 r) s ∧ 
    let p := s.prepare (x.1 r)
    p.inMeeting = true ∧ p.partner = some b ∧ b.badHome [⟨x.2, r.a.toNat⟩] = none ∧ (⟨x.2, r.a.toNat⟩ : Reg) ∉ b.regs.spilled ∧ p.readPartner = some q) ∧
  (∃ (r : R) (s : State) (b : Activity) (y z : Party), Ready (.msync r) s ∧ 
    let p := s.prepare (.msync r)
    p.me.party = some y ∧ p.inMeeting = true ∧ p.syncReady y = true ∧ p.partner = some b ∧ b.party = some z ∧ z.parting = none ∧ b.uid ≠ p.me.uid ∧ z.inSync.isSome = true ∧ p.mayIssue b = true) ∧
  (∃ (r : R) (s : State) (b : Activity) (y z : Party), Ready (.msync r) s ∧ 
    let p := s.prepare (.msync r)
    p.me.party = some y ∧ p.inMeeting = true ∧ p.syncReady y = true ∧ p.partner = some b ∧ b.party = some z ∧ z.parting = none ∧ b.uid ≠ p.me.uid ∧ (z.inSync = none ∨ p.mayIssue b = false)) ∧
  (∃ (r : R) (s q : State), Ready (.mcpy r) s ∧ 
    let p := s.prepare (.mcpy r)
    
    let y := (p.me.g r.a.toNat).toNat
    
    let w := (p.me.srcB r).toNat
    
    let n := (p.me.g r.c.toNat).toNat
    p.inMeeting = true ∧ p.checkLocal true y n = none ∧ p.checkLocal false w n = none ∧ y % 32 = 0 ∧ w % 32 = 0 ∧ n % 32 = 0 ∧ n ≠ 0 ∧ n ≤ 32768 ∧ p.core.copyFull = false ∧ p.scoreUsed p.me.agent + 2 ≤ scoreSize p.me.agent.kind ∧ p.readTaint w n = some q) ∧
  (∃ (r : R) (s : State) (b : Activity) (y : Party), Ready (.mswap r) s ∧ 
    let p := s.prepare (.mswap r)
    
    let a := (p.me.g r.a.toNat).toNat
    
    let w := (p.me.srcB r).toNat
    
    let n := (p.me.g r.c.toNat).toNat
    
    let base := (windowFrame b w).getD 0
    
    let mine := 0x400000 + (a / 0x800 - y.lf) * 0x800
    p.me.party = some y ∧ p.inMeeting = true ∧ p.partner = some b ∧ b.uid ≠ p.me.uid ∧ a % 0x800 = 0 ∧ w % 0x800 = 0 ∧ n ≠ 0 ∧ n ≤ 16 ∧ p.badSwap y a w n = none ∧ p.me.speculative = false ∧ b.speculative = false ∧ p.me.rangeBusy p.nextCmd true a (n * 0x800) = false ∧ p.me.rangeBusy p.nextCmd true w (n * 0x800) = false ∧ b.rangeBusy p.nextCmd true base (n * 0x800) = false ∧ b.rangeBusy p.nextCmd true mine (n * 0x800) = false) ∧
  (∃ (r : R) (s : State) (y : Party), Ready (.part r) s ∧ 
    let p := s.prepare (.part r)
    
    let mode := (r.m.extractLsb' 0 2).toNat
    p.me.party = some y ∧ p.inMeeting = true ∧ p.me.speculative = false ∧ p.me.pend = [] ∧ p.me.claimed = [] ∧ p.writesOut = false ∧ p.cmdsOut = false ∧ p.vecBusy = false ∧ (p.me.boundMask = 0 ∨ (mode ≠ 2 ∧ (mode ≠ 0 ∨ y.away = false))) ∧ y.partner = none) ∧
  (∃ (r : R) (s : State) (y : Party), Ready (.part r) s ∧ 
    let p := s.prepare (.part r)
    
    let mode := (r.m.extractLsb' 0 2).toNat
    p.me.party = some y ∧ p.inMeeting = true ∧ p.me.speculative = false ∧ p.me.pend = [] ∧ p.me.claimed = [] ∧ p.writesOut = false ∧ p.cmdsOut = false ∧ p.vecBusy = false ∧ (p.me.boundMask = 0 ∨ (mode ≠ 2 ∧ (mode ≠ 0 ∨ y.away = false))) ∧ 
    let t : State := { p with me := { p.me.pinned with
      claimed := p.me.claimed ++ claimOf r.d.toNat
      party := some { y with
      parting := some (mode, (p.me.g r.a.toNat).toNat % 2 ^ 12, r.d.toNat)
      partAt := s.cycle } } }
    ∃ q b, y.partner = some q ∧ t.act? q = some b ∧ t.mayIssue b = true) ∧
  (∃ (r : R) (s : State) (y : Party), Ready (.part r) s ∧ 
    let p := s.prepare (.part r)
    
    let mode := (r.m.extractLsb' 0 2).toNat
    p.me.party = some y ∧ p.inMeeting = true ∧ p.me.speculative = false ∧ p.me.pend = [] ∧ p.me.claimed = [] ∧ p.writesOut = false ∧ p.cmdsOut = false ∧ p.vecBusy = false ∧ (p.me.boundMask = 0 ∨ (mode ≠ 2 ∧ (mode ≠ 0 ∨ y.away = false))) ∧ 
    let t : State := { p with me := { p.me.pinned with
      claimed := p.me.claimed ++ claimOf r.d.toNat
      party := some { y with
      parting := some (mode, (p.me.g r.a.toNat).toNat % 2 ^ 12, r.d.toNat)
      partAt := s.cycle } } }
    ∃ q b, y.partner = some q ∧ t.act? q = some b ∧ t.mayIssue b = false) ∧
  (∃ x ∈ [(Instr.mcancel, false), (.ccancel, true)], ∃ (r : R) (s : State), Ready (x.1 r) s ∧ 
    let p := s.prepare (x.1 r)
    (x.2 = true ∨ (p.me.party = none ∧ p.me.coll = none)) ∧ p.me.speculative = false ∧ p.portFull = false) ∧
  (∃ x ∈ [Instr.mget, .mgetv, .msync, .mswap, .part], ∃ (r : R) (s : State), Ready (x r) s ∧ s.me.party = none) :=
  ⟨⟨{ r0 with ext := true, d := 3, a := 1 }, withCmd (cmdOf .cpy), ready (by decide) (by decide), by decide, by decide, by decide, by decide, by decide, by decide, by decide, .inr (by decide)⟩,
   ⟨{ r0 with ext := true, d := 3, a := 1 }, demo, ready (by decide) (by decide), by decide, by decide, by decide, by decide, by decide, by decide, by decide, by decide, by decide, by decide, by decide, by decide⟩,
   ⟨{ r0 with ext := true, d := 3, a := 1, c := 8 }, wide, ready (by decide) (by decide), by decide, by decide, by decide, by decide, by decide, by decide, by decide, by decide, by decide, by decide, by decide⟩,
   ⟨_, .head _, { r0 with d := 3, a := 1 }, meeting (party .met) spilledOther, demo, spilledOther, ready (by decide) (by decide), by decide, by decide, by decide, by decide⟩,
   ⟨_, .head _, { r0 with d := 3, a := 1 }, meeting (party .met) other, _, other, ready (by decide) (by decide), by decide, by decide, by decide, by decide, rfl⟩,
   ⟨r0, tokens (meeting (party .met) synced), synced, party .met, { party .met with partner := some 1, inSync := some (4, 0) }, ready (by decide) (by decide), by decide, by decide, by decide, by decide, by decide, by decide, by decide, by decide⟩,
   ⟨r0, meeting (party .met) other, other, party .met, { party .met with partner := some 1 }, ready (by decide) (by decide), by decide, by decide, by decide, by decide, by decide, by decide, by decide, .inl (by decide)⟩,
   ⟨{ r0 with ext := true, a := 1, lit := some 0x1000, c := 6 }, meeting (party .met) other, _, ready (by decide) (by decide), by decide, by decide, by decide, by decide, by decide, by decide, by decide, by decide, by decide, by decide, rfl⟩,
   ⟨{ r0 with ext := true, a := 1, lit := some 0x400000, c := 3 }, meeting (party .met) other, other, party .met, ready (by decide) (by decide), by decide, by decide, by decide, by decide, by decide, by decide, by decide, by decide, by decide, by decide, by decide, by decide, by decide, by decide, by decide⟩,
   ⟨{ r0 with d := 3 }, world (partyOf { party .met with partner := none }), { party .met with partner := none }, ready (by decide) (by decide), by decide, by decide, by decide, by decide, by decide, by decide, by decide, by decide, .inr ⟨by decide, .inr (by decide)⟩, by decide⟩,
   ⟨{ r0 with d := 3 }, tokens (meeting (party .met) other), party .met, ready (by decide) (by decide), by decide, by decide, by decide, by decide, by decide, by decide, by decide, by decide, .inr ⟨by decide, .inr (by decide)⟩, 2, other, by decide, by decide, by decide⟩,
   ⟨{ r0 with d := 3 }, meeting (party .met) other, party .met, ready (by decide) (by decide), by decide, by decide, by decide, by decide, by decide, by decide, by decide, by decide, .inr ⟨by decide, .inr (by decide)⟩, 2, other, by decide, by decide, by decide⟩,
   ⟨_, .head _, { r0 with d := 3, a := 1 }, demo, ready (by decide) (by decide), .inr (by decide), by decide, by decide⟩,
   ⟨_, .head _, { r0 with d := 3, a := 1 }, demo, ready (by decide) (by decide), by decide⟩⟩

set_option maxRecDepth 20000 in
theorem witness_MeetingSteps :
  (∃ (s : State) (m : Msg) (uid b : Nat) (sender : Agent) (a : Activity) (p : Party), s.msgs.find? (fun x => x.id = m.id) = some m ∧ m.kind = .meet uid sender ∧ s.act? uid = some a ∧ s.msgKey m = some (b, sender) ∧ s.msgReady m b sender = true ∧ a.party = some p ∧ s.waiting a.job.vd a.job.keysp p.key = none) ∧
  (∃ (s : State) (m : Msg) (uid b : Nat) (sender : Agent) (a : Activity) (p : Party), s.msgs.find? (fun x => x.id = m.id) = some m ∧ m.kind = .meet uid sender ∧ s.act? uid = some a ∧ s.msgKey m = some (b, sender) ∧ s.msgReady m b sender = true ∧ a.party = some p ∧ 
    let d := (s.keyEntry b).dir
    
    let t := ((s.dropMsg m.id).dirBusy d).countArrival d b
    ∃ (w : Waiter) (q : Activity) (x : Party), s.waiting a.job.vd a.job.keysp p.key = some w ∧ s.act? w.uid = some q ∧ q.uid = w.uid ∧ a.uid = uid ∧ w.uid ≠ uid ∧ q.party = some x ∧ s.saved.find? (fun z => z.act.uid = w.uid) = none ∧ x.away = false ∧ 
    let t := t.dropWaiter w.uid
    ((t.act? w.uid).bind Activity.party).map Party.phase = some .parked ∧ q.agent = coreAgent q.home ∧ t.canAccept q.home [a.footprint] = true ∧ t.freeSlot (coreAgent q.home) 16 ≠ none) ∧
  (∃ (s : State) (m : Msg) (uid b : Nat) (sender : Agent) (a : Activity) (p : Party), s.msgs.find? (fun x => x.id = m.id) = some m ∧ m.kind = .meet uid sender ∧ s.act? uid = some a ∧ s.msgKey m = some (b, sender) ∧ s.msgReady m b sender = true ∧ a.party = some p ∧ 
    let d := (s.keyEntry b).dir
    
    let t := ((s.dropMsg m.id).dirBusy d).countArrival d b
    ∃ (w : Waiter) (q : Activity) (x : Party), s.waiting a.job.vd a.job.keysp p.key = some w ∧ s.act? w.uid = some q ∧ q.uid = w.uid ∧ a.uid = uid ∧ w.uid ≠ uid ∧ q.party = some x ∧ s.saved.find? (fun z => z.act.uid = w.uid) = none ∧ x.away = false ∧ 
    let t := t.dropWaiter w.uid
    ((t.act? w.uid).bind Activity.party).map Party.phase = some .parked ∧ q.agent = coreAgent q.home ∧ t.canAccept q.home [a.footprint] = false ∧ 96 < q.footprint.pages + a.footprint.pages + codeSum (fun _ => true) [q.footprint, a.footprint]) ∧
  (∃ (s : State) (m : Msg) (uid b : Nat) (sender : Agent) (a : Activity) (p : Party), s.msgs.find? (fun x => x.id = m.id) = some m ∧ m.kind = .meet uid sender ∧ s.act? uid = some a ∧ s.msgKey m = some (b, sender) ∧ s.msgReady m b sender = true ∧ a.party = some p ∧ ∃ (w : Waiter) (z : Saved), s.waiting a.job.vd a.job.keysp p.key = some w ∧ s.saved.find? (fun z => z.act.uid = w.uid) = some z ∧ a.uid = uid ∧ s.act? w.uid = none) ∧
  (∃ (s : State) (w : Waiter) (e : Nat), s.dirs.waiters.find? (fun x => x.uid = w.uid) = some w ∧ w.deadline = some e ∧ s.deadlineReady (s.waiterDir w) e w.num = true ∧ (s.keyEntry (keyBucket w.key w.keysp w.vd)).hold = false) ∧
  (∃ (s : State) (m : Msg) (uid dst vd keysp : Nat) (key : Word) (sender : Agent), s.msgs.find? (fun x => x.id = m.id) = some m ∧ m.kind = .cancel uid dst vd keysp key false sender ∧ s.msgReady m (keyBucket key keysp vd) sender = true ∧ 
    let d := (s.keyEntry (keyBucket key keysp vd)).dir
    
    let t := (s.dropMsg m.id).dirBusy d
    s.waiting vd keysp key = none ∧ (t.act? uid).isSome = true ∧ (⟨.g, dst⟩ : Reg) ∈ (t.focus uid).me.claimed) ∧
  (∃ (s : State) (m : Msg) (uid dst vd keysp : Nat) (key : Word) (sender : Agent), s.msgs.find? (fun x => x.id = m.id) = some m ∧ m.kind = .cancel uid dst vd keysp key false sender ∧ s.msgReady m (keyBucket key keysp vd) sender = true ∧ 
    let d := (s.keyEntry (keyBucket key keysp vd)).dir
    
    let t := (s.dropMsg m.id).dirBusy d
    ∃ w, s.waiting vd keysp key = some w ∧ 
    let f := (t.dropWaiter w.uid).sendStatus w.uid 2
    (f.act? uid).isSome = true ∧ (⟨.g, dst⟩ : Reg) ∈ (f.focus uid).me.claimed) ∧
  (∃ (s : State) (uid d : Nat) (a : Activity) (p : Party), s.act? uid = some a ∧ a.party = some p ∧ p.decided = some d ∧ d ≤ s.cycle ∧ ∃ st, p.status = some st ∧ p.away = false) ∧
  (∃ (s : State) (uid d : Nat) (a : Activity) (p : Party), s.act? uid = some a ∧ a.party = some p ∧ p.decided = some d ∧ d ≤ s.cycle ∧ ∃ n, p.status = none ∧ p.place = some n ∧ p.travels = true) ∧
  (∃ (s : State) (uid d : Nat) (a : Activity) (p : Party), s.act? uid = some a ∧ a.party = some p ∧ p.decided = some d ∧ d ≤ s.cycle ∧ ∃ n, p.status = none ∧ p.place = some n ∧ p.travels = false) ∧
  (∃ (s : State) (uid l : Nat) (a : Activity) (p : Party), s.act? uid = some a ∧ a.uid = uid ∧ a.party = some p ∧ p.lands = some l ∧ l ≤ s.cycle ∧ s.hasPassed (.shuttle uid) (s.shuttleNeeds a) = true ∧ (∀ b, a.bound = some b → s.codeHeld a b.num = false) ∧ p.damaged = true) ∧
  (∃ (s : State) (uid l : Nat) (a : Activity) (p : Party), s.act? uid = some a ∧ a.uid = uid ∧ a.party = some p ∧ p.lands = some l ∧ l ≤ s.cycle ∧ s.hasPassed (.shuttle uid) (s.shuttleNeeds a) = true ∧ (∀ b, a.bound = some b → s.codeHeld a b.num = false) ∧ ∃ n q, p.damaged = false ∧ p.phase ≠ .leaving ∧ p.place = some n ∧ p.partner = some q ∧ s.usableCore a.job.vd n = true ∧ (((s.focus uid).finishLoad (coreAgent n) a.job.vd a.job.jid).focus uid).codeLoaded a.job.vd a.job.jid n = true ∧ q ≠ uid ∧ p.dst < 64 ∧ a.life ≠ .absent) ∧
  (∃ (s : State) (uid l : Nat) (a : Activity) (p : Party), s.act? uid = some a ∧ a.uid = uid ∧ a.party = some p ∧ p.lands = some l ∧ l ≤ s.cycle ∧ s.hasPassed (.shuttle uid) (s.shuttleNeeds a) = true ∧ (∀ b, a.bound = some b → s.codeHeld a b.num = false) ∧ ∃ n dst, p.damaged = false ∧ p.phase = .leaving ∧ p.parting = some (0, n, dst) ∧ p.away = true) ∧
  (∃ (s : State) (uid l : Nat) (a : Activity) (p : Party), s.act? uid = some a ∧ a.uid = uid ∧ a.party = some p ∧ p.lands = some l ∧ l ≤ s.cycle ∧ s.hasPassed (.shuttle uid) (s.shuttleNeeds a) = true ∧ (∀ b, a.bound = some b → s.codeHeld a b.num = false) ∧ ∃ n dst, p.damaged = false ∧ p.phase = .leaving ∧ p.parting = some (2, n, dst) ∧ ∃ k, (s.focus uid).mayMoveTo n = true ∧ (s.focus uid).freeSlot (coreAgent n) 16 = some k) ∧
  (∃ (s : State) (uid l : Nat) (a : Activity) (p : Party), s.act? uid = some a ∧ a.uid = uid ∧ a.party = some p ∧ p.lands = some l ∧ l ≤ s.cycle ∧ s.hasPassed (.shuttle uid) (s.shuttleNeeds a) = true ∧ (∀ b, a.bound = some b → s.codeHeld a b.num = false) ∧ ∃ n dst, p.damaged = false ∧ p.phase = .leaving ∧ p.parting = some (2, n, dst) ∧ (s.focus uid).mayMoveTo n = false ∧ p.away = true) ∧
  (∃ (s : State) (uid l : Nat) (a : Activity) (p : Party), s.act? uid = some a ∧ a.uid = uid ∧ a.party = some p ∧ p.lands = some l ∧ l ≤ s.cycle ∧ s.hasPassed (.shuttle uid) (s.shuttleNeeds a) = true ∧ (∀ b, a.bound = some b → s.codeHeld a b.num = false) ∧ ∃ n dst, p.damaged = false ∧ p.phase = .leaving ∧ p.parting = some (2, n, dst) ∧ (s.focus uid).mayMoveTo n = false ∧ p.away = false) ∧
  (∃ (s : State) (uid : Nat) (a : Activity) (p : Party), s.act? uid = some a ∧ a.uid = uid ∧ a.party = some p ∧ p.phase = .met ∧ p.parting.isSome = true ∧ p.partAt < s.cycle ∧ (s.focus uid).partnerParts p = true ∧ p.partner.bind s.act? = none) ∧
  (∃ (s : State) (uid : Nat) (a : Activity) (p : Party), s.act? uid = some a ∧ a.uid = uid ∧ a.party = some p ∧ p.phase = .met ∧ p.parting.isSome = true ∧ p.partAt < s.cycle ∧ (s.focus uid).partnerParts p = true ∧ ∃ q z, p.partner.bind s.act? = some q ∧ q.uid ≠ uid ∧ p.partner = some q.uid ∧ q.party = some z ∧ z.phase = .met ∧ z.partner = some uid ∧ a.life ≠ .absent ∧ q.life ≠ .absent) :=
  ⟨⟨messaged (.meet 1 ⟨.compute, 0⟩) [] (party .arriving), ⟨1, .meet 1 ⟨.compute, 0⟩, 1000⟩, 1, _, ⟨.compute, 0⟩, _, party .arriving, rfl, rfl, rfl, rfl, by decide, rfl, by decide⟩,
   ⟨{ messaged (.meet 1 ⟨.compute, 0⟩) [⟨0, 2, 0, 0, 5, none, false, false⟩] (party .arriving) with acts := [parkedOther 4] }, ⟨1, .meet 1 ⟨.compute, 0⟩, 1000⟩, 1, _, ⟨.compute, 0⟩, _, party .arriving, rfl, rfl, rfl, rfl, by decide, rfl, ⟨0, 2, 0, 0, 5, none, false, false⟩, parkedOther 4, _, by decide, rfl, by decide, by decide, by decide, rfl, by decide, by decide, by decide, by decide, by decide +kernel, by decide⟩,
   ⟨{ messaged (.meet 1 ⟨.compute, 0⟩) [⟨0, 2, 0, 0, 5, none, false, false⟩] (party .arriving) with acts := [parkedOther 95] }, ⟨1, .meet 1 ⟨.compute, 0⟩, 1000⟩, 1, _, ⟨.compute, 0⟩, _, party .arriving, rfl, rfl, rfl, rfl, by decide, rfl, ⟨0, 2, 0, 0, 5, none, false, false⟩, parkedOther 95, _, by decide, rfl, by decide, by decide, by decide, rfl, by decide, by decide, by decide, by decide, by decide +kernel, by decide +kernel⟩,
   ⟨{ messaged (.meet 1 ⟨.compute, 0⟩) [⟨0, 2, 0, 0, 5, none, false, false⟩] (party .arriving) with saved := [saved0 []] }, ⟨1, .meet 1 ⟨.compute, 0⟩, 1000⟩, 1, _, ⟨.compute, 0⟩, _, party .arriving, rfl, rfl, rfl, rfl, by decide, rfl, ⟨0, 2, 0, 0, 5, none, false, false⟩, saved0 [], by decide, by decide, by decide, by decide⟩,
   ⟨messaged (.meet 1 ⟨.compute, 0⟩) [⟨0, 2, 0, 0, 5, some 900, false, false⟩] (party .arriving), ⟨0, 2, 0, 0, 5, some 900, false, false⟩, 900, by decide, by decide, by decide, by decide⟩,
   ⟨messaged (.cancel 1 3 0 0 5 false ⟨.compute, 0⟩) [] (party .arriving), ⟨1, .cancel 1 3 0 0 5 false ⟨.compute, 0⟩, 1000⟩, 1, 3, 0, 0, 5, ⟨.compute, 0⟩, rfl, rfl, by decide, by decide, by decide, by decide⟩,
   ⟨messaged (.cancel 1 3 0 0 5 false ⟨.compute, 0⟩) [⟨0, 2, 0, 0, 5, none, false, false⟩] (party .arriving), ⟨1, .cancel 1 3 0 0 5 false ⟨.compute, 0⟩, 1000⟩, 1, 3, 0, 0, 5, ⟨.compute, 0⟩, rfl, rfl, by decide, ⟨0, 2, 0, 0, 5, none, false, false⟩, by decide, by decide, by decide⟩,
   ⟨meeting { party .matched with decided := some 900, status := some 1 } other, 1, 900, _, _, rfl, rfl, by decide, by decide, 1, by decide, by decide⟩,
   ⟨meeting { party .matched with decided := some 900, place := some 0, travels := true } other, 1, 900, _, _, rfl, rfl, by decide, by decide, 0, by decide, by decide, by decide⟩,
   ⟨meeting { party .matched with decided := some 900, place := some 0 } other, 1, 900, _, _, rfl, rfl, by decide, by decide, 0, by decide, by decide, by decide⟩,
   ⟨landing { party .matched with place := some 0, damaged := true }, 1, 900, _, _, rfl, by decide, rfl, by decide, by decide, by decide, (fun b h => by have e := Option.some.inj (h.symm.trans rfl); subst e; decide), by decide⟩,
   ⟨landing { party .matched with place := some 0 }, 1, 900, _, _, rfl, by decide, rfl, by decide, by decide, by decide, (fun b h => by have e := Option.some.inj (h.symm.trans rfl); subst e; decide), 0, 2, by decide, by decide, by decide, by decide, by decide, by decide +kernel, by decide, by decide, by decide⟩,
   ⟨landing { party .leaving with parting := some (0, 0, 3), away := true }, 1, 900, _, _, rfl, by decide, rfl, by decide, by decide, by decide, (fun b h => by have e := Option.some.inj (h.symm.trans rfl); subst e; decide), 0, 3, by decide, by decide, by decide, by decide⟩,
   ⟨landing { party .leaving with parting := some (2, 1, 3) }, 1, 900, _, _, rfl, by decide, rfl, by decide, by decide, by decide, (fun b h => by have e := Option.some.inj (h.symm.trans rfl); subst e; decide), 1, 3, by decide, by decide, by decide, 0, by decide +kernel, by decide +kernel⟩,
   ⟨landing { party .leaving with parting := some (2, 300, 3), away := true }, 1, 900, _, _, rfl, by decide, rfl, by decide, by decide, by decide, (fun b h => by have e := Option.some.inj (h.symm.trans rfl); subst e; decide), 300, 3, by decide, by decide, by decide, by decide +kernel, by decide⟩,
   ⟨landing { party .leaving with parting := some (2, 300, 3) }, 1, 900, _, _, rfl, by decide, rfl, by decide, by decide, by decide, (fun b h => by have e := Option.some.inj (h.symm.trans rfl); subst e; decide), 300, 3, by decide, by decide, by decide, by decide +kernel, by decide⟩,
   ⟨world (partyOf { party .met with parting := some (0, 0, 3) }), 1, _, _, rfl, by decide, rfl, by decide, by decide, by decide, by decide, by decide⟩,
   ⟨meeting { party .met with parting := some (0, 0, 3) } parts, 1, _, _, rfl, by decide, rfl, by decide, by decide, by decide, by decide, parts, { party .met with partner := some 1, parting := some (0, 0, 3) }, by decide, by decide, by decide, by decide, by decide, by decide, by decide, by decide⟩⟩

set_option maxRecDepth 20000 in
theorem witness_Collectives :
  (∃ (r : R) (s : State), Ready (.coll r) s ∧ 
    let p := s.prepare (.coll r)
    
    let y := (p.me.g r.a.toNat).toNat
    
    let d := GroupDesc.parse (p.readLocal y 32)
    
    let o := d.op r
    
    let sl := o.sl d.rank
    
    let dl := o.dl d.rank
    p.checkLocal false y 32 = none ∧ y % 32 = 0 ∧ p.BarNamed r ∧ p.me.rangeBusy p.nextCmd false y 32 = false ∧ p.poisonAt y 32 = none ∧ d.fault o = 0 ∧ p.checkLocal false d.src sl = none ∧ p.checkLocal true d.dst dl = none ∧ p.me.party = none ∧ p.me.coll = none ∧ p.me.speculative = false ∧ p.portFull = false ∧ p.scoreUsed p.me.agent + (if sl = 0 then 0 else 1) + (if dl = 0 then 0 else 1) ≤ scoreSize p.me.agent.kind) ∧
  (∃ (s : State) (m : Msg) (uid b : Nat) (saved : Bool) (sender : Agent) (a : Activity) (c : CollRank), s.msgs.find? (fun x => x.id = m.id) = some m ∧ m.kind = .coll uid sender ∧ s.anyAct? uid = some (a, saved) ∧ s.msgKey m = some (b, sender) ∧ s.msgReady m b sender = true ∧ a.coll = some c ∧ s.forming a.job.vd a.job.keysp c.key = none) ∧
  (∃ (s : State) (m : Msg) (uid b : Nat) (saved : Bool) (sender : Agent) (a : Activity) (c : CollRank), s.msgs.find? (fun x => x.id = m.id) = some m ∧ m.kind = .coll uid sender ∧ s.anyAct? uid = some (a, saved) ∧ s.msgKey m = some (b, sender) ∧ s.msgReady m b sender = true ∧ a.coll = some c ∧ ∃ g, s.forming a.job.vd a.job.keysp c.key = some g ∧ (g.op ≠ c.op ∨ (∃ x ∈ g.members, x.rank = c.rank))) ∧
  (∃ (s : State) (m : Msg) (uid b : Nat) (saved : Bool) (sender : Agent) (a : Activity) (c : CollRank), s.msgs.find? (fun x => x.id = m.id) = some m ∧ m.kind = .coll uid sender ∧ s.anyAct? uid = some (a, saved) ∧ s.msgKey m = some (b, sender) ∧ s.msgReady m b sender = true ∧ a.coll = some c ∧ ∃ g, s.forming a.job.vd a.job.keysp c.key = some g ∧ g.op = c.op ∧ (∀ x ∈ g.members, x.rank ≠ c.rank)) ∧
  (∃ (s : State) (m : Msg) (vd jid keysp rank st : Nat) (key : Word) (op : CollOp) (spare : Bool) (sender : Agent), s.msgs.find? (fun x => x.id = m.id) = some m ∧ m.kind = .quit vd jid keysp key op rank st spare sender ∧ s.msgReady m (keyBucket key keysp vd) sender = true ∧ s.forming vd keysp key = none) ∧
  (∃ (s : State) (m : Msg) (vd jid keysp rank st : Nat) (key : Word) (op : CollOp) (spare : Bool) (sender : Agent), s.msgs.find? (fun x => x.id = m.id) = some m ∧ m.kind = .quit vd jid keysp key op rank st spare sender ∧ s.msgReady m (keyBucket key keysp vd) sender = true ∧ ∃ g, s.forming vd keysp key = some g ∧ (g.op ≠ op ∨ (∃ x ∈ g.members, x.rank = rank))) ∧
  (∃ (s : State) (m : Msg) (vd jid keysp rank st : Nat) (key : Word) (op : CollOp) (spare : Bool) (sender : Agent), s.msgs.find? (fun x => x.id = m.id) = some m ∧ m.kind = .quit vd jid keysp key op rank st spare sender ∧ s.msgReady m (keyBucket key keysp vd) sender = true ∧ ∃ g, s.forming vd keysp key = some g ∧ g.op = op ∧ (∀ x ∈ g.members, x.rank ≠ rank)) ∧
  (∃ (s : State) (g : Group) (e : Nat), s.dirs.groups.find? (fun h => h.id = g.id && h.complete.isNone) = some g ∧ g.deadline = some e ∧ s.deadlineReady (s.groupDir g) e g.id = true ∧ (s.keyEntry (keyBucket g.key g.keysp g.vd)).hold = false) ∧
  (∃ (s : State) (m : Msg) (uid dst vd keysp : Nat) (key : Word) (sender : Agent) (g : Group), s.msgs.find? (fun x => x.id = m.id) = some m ∧ m.kind = .cancel uid dst vd keysp key true sender ∧ s.msgReady m (keyBucket key keysp vd) sender = true ∧ s.forming vd keysp key = some g ∧ 
    let d := (s.keyEntry (keyBucket key keysp vd)).dir
    
    let f := ((s.dropMsg m.id).dirBusy d).dissolve g g.members 2
    (f.act? uid).isSome = true ∧ (⟨.g, dst⟩ : Reg) ∈ (f.focus uid).me.claimed) ∧
  (∃ (s : State) (uid e : Nat) (a : Activity) (g : Group) (m : Member) (c : CollRank), s.act? uid = some a ∧ a.uid = uid ∧ s.collGroup uid = some (g, m) ∧ a.coll = some c ∧ g.complete = some e ∧ 
    let f := s.focus uid
    
    let sl := c.op.sl c.rank
    c.sent = false ∧ e + dirLatency a.agent (s.groupDir g) ≤ s.cycle ∧ s.reedFull g = false ∧ f.releasedRank g.scope c.srcCmd = true ∧ f.me.rangeBusy c.srcCmd false c.src sl = false) ∧
  (∃ (s : State) (uid e : Nat) (a : Activity) (g : Group) (m : Member) (c : CollRank), s.act? uid = some a ∧ a.uid = uid ∧ s.collGroup uid = some (g, m) ∧ a.coll = some c ∧ g.complete = some e ∧ 
    let sl := c.op.sl c.rank
    c.sent = true ∧ c.left = false ∧ m.sentAt + (sl + 63) / 64 ≤ s.cycle ∧ s.hasPassed (.luggage uid) (s.luggageNeeds g m) = true) ∧
  (∃ (s : State) (g : Group) (m : Member) (c : CollRank), s.core.agent = s.me.agent ∧ s.collGroup s.me.uid = some (g, m) ∧ s.me.coll = some c ∧ g.complete.isSome = true ∧ s.allLeft g = true ∧ g.due m ≤ s.cycle ∧ s.hasPassed (.result s.me.uid) (s.resultNeeds g m) = true ∧ c.status = none ∧ s.me.rangeBusy c.dstCmd true c.dst (c.op.dl c.rank) = false ∧ c.bar = 0) ∧
  (∃ (s : State) (st n at_ : Nat) (c : CollRank), s.core.agent = s.me.agent ∧ s.me.coll = some c ∧ c.status = some (st, n, at_) ∧ at_ ≤ s.cycle ∧ c.bar = 0) ∧
  (∃ (s : State) (st n at_ : Nat) (c : CollRank), s.core.agent = s.me.agent ∧ s.me.coll = some c ∧ c.status = some (st, n, at_) ∧ at_ ≤ s.cycle ∧ c.group = none) :=
  ⟨⟨{ r0 with ext := true, d := 3, a := 1 }, withLm 0x800 [5, 0, 0, 0, 0, 0, 0, 0, 2] demo, ready (by decide) (by decide), by decide, by decide, ⟨by decide, by decide⟩, by decide, by decide, by decide, by decide, by decide, by decide, by decide, by decide, by decide, by decide⟩,
   ⟨colling rankc [] [⟨1, .coll 1 ⟨.compute, 0⟩, 1000⟩], ⟨1, .coll 1 ⟨.compute, 0⟩, 1000⟩, 1, _, false, ⟨.compute, 0⟩, _, rankc, rfl, rfl, rfl, rfl, by decide, rfl, by decide⟩,
   ⟨colling rankc [group [memb 0 2] none none] [⟨1, .coll 1 ⟨.compute, 0⟩, 1000⟩], ⟨1, .coll 1 ⟨.compute, 0⟩, 1000⟩, 1, _, false, ⟨.compute, 0⟩, _, rankc, rfl, rfl, rfl, rfl, by decide, rfl, group [memb 0 2] none none, by decide, .inr ⟨_, .head _, rfl⟩⟩,
   ⟨colling rankc [group [memb 1 2] none none] [⟨1, .coll 1 ⟨.compute, 0⟩, 1000⟩], ⟨1, .coll 1 ⟨.compute, 0⟩, 1000⟩, 1, _, false, ⟨.compute, 0⟩, _, rankc, rfl, rfl, rfl, rfl, by decide, rfl, group [memb 1 2] none none, by decide, by decide, by decide⟩,
   ⟨colling rankc [] [⟨1, .quit 0 1 0 5 ⟨2, 0, 0, false, 0, 0, 0⟩ 1 5 false ⟨.compute, 0⟩, 1000⟩], ⟨1, .quit 0 1 0 5 ⟨2, 0, 0, false, 0, 0, 0⟩ 1 5 false ⟨.compute, 0⟩, 1000⟩, 0, 1, 0, 1, 5, 5, ⟨2, 0, 0, false, 0, 0, 0⟩, false, ⟨.compute, 0⟩, rfl, rfl, by decide, by decide⟩,
   ⟨colling rankc [group [memb 1 2] none none] [⟨1, .quit 0 1 0 5 ⟨2, 0, 0, false, 0, 0, 0⟩ 1 5 false ⟨.compute, 0⟩, 1000⟩], ⟨1, .quit 0 1 0 5 ⟨2, 0, 0, false, 0, 0, 0⟩ 1 5 false ⟨.compute, 0⟩, 1000⟩, 0, 1, 0, 1, 5, 5, ⟨2, 0, 0, false, 0, 0, 0⟩, false, ⟨.compute, 0⟩, rfl, rfl, by decide, group [memb 1 2] none none, by decide, .inr ⟨_, .head _, rfl⟩⟩,
   ⟨colling rankc [group [memb 0 2] none none] [⟨1, .quit 0 1 0 5 ⟨2, 0, 0, false, 0, 0, 0⟩ 1 5 false ⟨.compute, 0⟩, 1000⟩], ⟨1, .quit 0 1 0 5 ⟨2, 0, 0, false, 0, 0, 0⟩ 1 5 false ⟨.compute, 0⟩, 1000⟩, 0, 1, 0, 1, 5, 5, ⟨2, 0, 0, false, 0, 0, 0⟩, false, ⟨.compute, 0⟩, rfl, rfl, by decide, group [memb 0 2] none none, by decide, by decide, by decide⟩,
   ⟨colling rankc [group [memb 1 2] (some 900) none] [], group [memb 1 2] (some 900) none, 900, by decide, by decide, by decide, by decide⟩,
   ⟨colling rankc [group [memb 0 1] none none] [⟨1, .cancel 1 3 0 0 5 true ⟨.compute, 0⟩, 1000⟩], ⟨1, .cancel 1 3 0 0 5 true ⟨.compute, 0⟩, 1000⟩, 1, 3, 0, 0, 5, ⟨.compute, 0⟩, group [memb 0 1] none none, rfl, rfl, by decide, by decide, by decide, by decide⟩,
   ⟨colling rankc [group [memb 0 1] none (some 100)] [], 1, 100, _, group [memb 0 1] none (some 100), memb 0 1, rankc, rfl, by decide, by decide, by decide, by decide, by decide, by decide, by decide, by decide, by decide⟩,
   ⟨collected { rankc with sent := true } (group [memb 0 1] none (some 100)) (memb 0 1), 1, 100, _, group [memb 0 1] none (some 100), memb 0 1, { rankc with sent := true }, rfl, by decide, by decide, by decide, by decide, by decide, by decide, by decide, by decide⟩,
   ⟨collected leftc (group [memb 0 1] none (some 100)) (memb 0 1), group [memb 0 1] none (some 100), memb 0 1, leftc, by decide, by decide, by decide, by decide, by decide, by decide, by decide, by decide, by decide, by decide⟩,
   ⟨colling { rankc with status := some (1, 1, 900) } [] [], 1, 1, 900, { rankc with status := some (1, 1, 900) }, by decide, by decide, by decide, by decide, by decide⟩,
   ⟨colling { rankc with status := some (1, 1, 900) } [] [], 1, 1, 900, { rankc with status := some (1, 1, 900) }, by decide, by decide, by decide, by decide, by decide⟩⟩

set_option maxRecDepth 20000 in
theorem witness_Forecasts :
  (∃ (r : R) (s : State), Ready (.fcast r) s ∧ 
    let p := s.prepare (.fcast r)
    
    let y := (p.me.g r.a.toNat).toNat
    
    let f := FDesc.parse (p.readLocal y 64)
    
    let b := p.me.bar f.bar
    
    let id := p.nextCmd
    
    let n := f.n
    p.checkLocal false y 64 = none ∧ y % 64 = 0 ∧ p.me.region.open_ = true ∧ p.me.region.pin = false ∧ p.me.rangeBusy id false y 64 = false ∧ f.fault y = 0 ∧ p.checkLocal true f.d n = none ∧ p.checkLocal false f.s n = none ∧ p.checkLocal false f.h1 n = none ∧ (f.mode ≠ 0 → p.checkLocal false f.h2 n = none) ∧ p.checkLocal true f.bar 16 = none ∧ b.ahead f.tok ≠ 0 ∧ p.scoreUsed p.me.agent + 2 ≤ scoreSize p.me.agent.kind) ∧
  (∃ (r : R) (s : State), Ready (.fcast r) s ∧ 
    let p := s.prepare (.fcast r)
    
    let y := (p.me.g r.a.toNat).toNat
    
    let f := FDesc.parse (p.readLocal y 64)
    
    let b := p.me.bar f.bar
    
    let id := p.nextCmd
    
    let n := f.n
    p.checkLocal false y 64 = none ∧ y % 64 = 0 ∧ p.me.region.open_ = true ∧ p.me.region.pin = false ∧ p.me.rangeBusy id false y 64 = false ∧ f.fault y = 0 ∧ p.checkLocal true f.d n = none ∧ p.checkLocal false f.s n = none ∧ p.checkLocal false f.h1 n = none ∧ (f.mode ≠ 0 → p.checkLocal false f.h2 n = none) ∧ p.checkLocal true f.bar 16 = none ∧ b.ahead f.tok = 0 ∧ p.me.tags.length < 4 ∧ (p.coreTags p.me.agent).length < 16 ∧ p.scoreUsed p.me.agent + (if f.mode = 0 then 4 else 5) ≤ scoreSize p.me.agent.kind) ∧
  (∃ (r : R) (s : State), Ready (.fcast r) s ∧ 
    let p := s.prepare (.fcast r)
    
    let y := (p.me.g r.a.toNat).toNat
    
    let f := FDesc.parse (p.readLocal y 64)
    
    let b := p.me.bar f.bar
    
    let id := p.nextCmd
    
    let n := f.n
    p.checkLocal false y 64 = none ∧ y % 64 = 0 ∧ p.me.region.open_ = true ∧ p.me.region.pin = false ∧ p.me.rangeBusy id false y 64 = false ∧ f.fault y = 0 ∧ p.checkLocal true f.d n = none ∧ p.checkLocal false f.s n = none ∧ p.checkLocal false f.h1 n = none ∧ (f.mode ≠ 0 → p.checkLocal false f.h2 n = none) ∧ p.checkLocal true f.bar 16 = none ∧ b.ahead f.tok = 0 ∧ (4 ≤ p.me.tags.length ∨ 16 ≤ (p.coreTags p.me.agent).length)) ∧
  (∃ (r : R) (s : State), Ready (.fcast r) s ∧ 
    let p := s.prepare (.fcast r)
    
    let y := (p.me.g r.a.toNat).toNat
    p.checkLocal false y 64 = none ∧ y % 64 = 0 ∧ (p.me.region.open_ = false ∨ p.me.region.pin = true)) ∧
  (∃ (r : R) (s : State), Ready (.fcast r) s ∧ 
    let p := s.prepare (.fcast r)
    
    let y := (p.me.g r.a.toNat).toNat
    
    let f := FDesc.parse (p.readLocal y 64)
    p.checkLocal false y 64 = none ∧ y % 64 = 0 ∧ p.me.region.open_ = true ∧ p.me.region.pin = false ∧ p.me.rangeBusy p.nextCmd false y 64 = false ∧ f.fault y ≠ 0) ∧
  (∃ (r : R) (s : State), Ready (.fwait r) s ∧ 
    let p := s.prepare (.fwait r)
    
    let t := (p.me.g r.a.toNat).toNat % 0x1000
    (∀ x ∈ p.me.tags, x.num ≠ t)) ∧
  (∃ (r : R) (s : State), Ready (.fwait r) s ∧ 
    let p := s.prepare (.fwait r)
    
    let t := (p.me.g r.a.toNat).toNat % 0x1000
    (∃ x ∈ p.me.tags, x.num = t)) ∧
  (∃ (r : R) (s : State), Ready (.fstat r) s) ∧
  (∃ (s : State) (uid p w : Nat) (e : Bool) (a : Activity) (t : Tag), s.act? uid = some a ∧ a.tags.find? (fun x => x.num = t.num) = some t ∧ t.completed = some (p, e) ∧ t.written = some w ∧ 
    let f := s.focus uid
    
    let q : State := { f with
      cycle := s.cycle + 1
      core := { f.core with cmpFree := s.cycle + 2 } }
    a.uid = uid ∧ a.life ≠ .absent ∧ s.servedBefore a.agent p t.cmd = false ∧ max (p + 1) (max (w + 1) f.core.cmpFree) + (t.rows * t.rby + 127) / 128 ≤ s.cycle + 1 ∧ e = false ∧ q.tagPasses t = true) ∧
  (∃ (s : State) (uid p w : Nat) (e : Bool) (a : Activity) (t : Tag), s.act? uid = some a ∧ a.tags.find? (fun x => x.num = t.num) = some t ∧ t.completed = some (p, e) ∧ t.written = some w ∧ 
    let f := s.focus uid
    
    let q : State := { f with
      cycle := s.cycle + 1
      core := { f.core with cmpFree := s.cycle + 2 } }
    a.uid = uid ∧ a.life ≠ .absent ∧ s.servedBefore a.agent p t.cmd = false ∧ max (p + 1) (max (w + 1) f.core.cmpFree) + (t.rows * t.rby + 127) / 128 ≤ s.cycle + 1 ∧ (e = true ∨ q.tagPasses t = false)) ∧
  (∃ (f : Nat) (_abs _rel x y : Nat), ∃ v w : Val, elemVal f x = v ∧ elemVal f y = w ∧ v.isNan = false ∧ w.isNan = false ∧ v.isFinite = true ∧ w.isFinite = true) ∧
  (∃ (s : State) (need : Nat), s.me.block = .held need ∧ (s.heldUsed s.me.agent + need ≤ 16384 ∨ s.me.speculative = false)) :=
  ⟨⟨{ r0 with d := 3, a := 1 }, caster (fdesc 1), ready (by decide) (by decide), by decide, by decide, by decide, by decide, by decide, by decide, by decide, by decide, by decide, (fun h => absurd (by decide) h), by decide, by decide, by decide⟩,
   ⟨{ r0 with d := 3, a := 1 }, caster (fdesc 0), ready (by decide) (by decide), by decide, by decide, by decide, by decide, by decide, by decide, by decide, by decide, by decide, (fun h => absurd (by decide) h), by decide, by decide, by decide, by decide, by decide⟩,
   ⟨{ r0 with d := 3, a := 1 }, (caster (fdesc 0)).modMe (fun a => { a with tags := [tagc 1 false, tagc 2 false, tagc 3 false, tagc 4 false] }), ready (by decide) (by decide), by decide, by decide, by decide, by decide, by decide, by decide, by decide, by decide, by decide, (fun h => absurd (by decide) h), by decide, by decide, .inl (by decide)⟩,
   ⟨{ r0 with d := 3, a := 1 }, demo, ready (by decide) (by decide), by decide, by decide, .inl (by decide)⟩,
   ⟨{ r0 with d := 3, a := 1 }, caster [], ready (by decide) (by decide), by decide, by decide, by decide, by decide, by decide, by decide⟩,
   ⟨{ r0 with d := 3, a := 1 }, demo, ready (by decide) (by decide), by decide⟩,
   ⟨{ r0 with d := 3, a := 3 }, demo.modMe (fun a => { a with tags := [tagc 1 false] }), ready (by decide) (by decide), ⟨_, .head _, by decide⟩⟩,
   ⟨{ r0 with d := 3, a := 1 }, demo, ready (by decide) (by decide)⟩,
   ⟨demo.modMe (fun a => { a with tags := [tagc 1 false] }), 1, 900, 900, false, _, tagc 1 false, rfl, by decide, by decide, by decide, by decide, by decide, by decide, by decide, by decide, by decide⟩,
   ⟨demo.modMe (fun a => { a with tags := [tagc 1 true] }), 1, 900, 900, true, _, tagc 1 true, rfl, by decide, by decide, by decide, by decide, by decide, by decide, by decide, .inl rfl⟩,
   ⟨8, 0, 0, 0, 0, _, _, rfl, rfl, by decide, by decide, by decide, by decide⟩,
   ⟨demo.modMe (fun a => { a with block := .held 64 }), 64, by decide, .inl (by decide)⟩⟩

set_option maxRecDepth 20000 in
theorem witness_JobInstructions :
  (∃ (r : R) (s : State), Ready (.jobpost r) s ∧ 
    let p := s.prepare (.jobpost r)
    
    let v := (p.me.srcB r).toNat
    v % 64 = 0 ∧ v < 2 ^ 56 ∧ p.me.speculative = false ∧ p.writesOut = false) ∧
  (∃ (r : R) (s : State), Ready (.jobpost r) s ∧ 
    let p := s.prepare (.jobpost r)
    
    let v := (p.me.srcB r).toNat
    v % 64 = 0 ∧ v < 2 ^ 56 ∧ p.me.speculative = true ∧ p.heldUsed p.me.agent + 64 ≤ 16384) ∧
  (∃ (r : R) (s : State), Ready (.jobpost r) s ∧ 
    let p := s.prepare (.jobpost r)
    
    let v := (p.me.srcB r).toNat
    (v % 64 ≠ 0 ∨ 2 ^ 56 ≤ v)) ∧
  (∃ (r : R) (s : State), Ready (.jobpost r) s ∧ 
    let p := s.prepare (.jobpost r)
    
    let v := (p.me.srcB r).toNat
    v % 64 = 0 ∧ v < 2 ^ 56 ∧ p.me.speculative = false ∧ p.writesOut = true) ∧
  (∃ (r : R) (s : State), Ready (.jobwait r) s ∧ 
    let p := s.prepare (.jobwait r)
    
    let id := (p.me.g r.a.toNat).toNat % 0x10000
    id = p.me.job.jid) ∧
  (∃ (r : R) (s : State), Ready (.jobwait r) s ∧ 
    let p := s.prepare (.jobwait r)
    
    let id := (p.me.g r.a.toNat).toNat % 0x10000
    id ≠ p.me.job.jid ∧ p.held p.me.job.vd id = true) ∧
  (∃ (r : R) (s : State), Ready (.jobwait r) s ∧ 
    let p := s.prepare (.jobwait r)
    
    let id := (p.me.g r.a.toNat).toNat % 0x10000
    id ≠ p.me.job.jid ∧ p.held p.me.job.vd id = false ∧ p.keepsArray p.me.job.vd = true ∧ p.addrHeld p.me.job.vd [p.statusAddr p.me.job.vd id] = true) ∧
  (∃ (r : R) (s : State), Ready (.jobwait r) s ∧ 
    let p := s.prepare (.jobwait r)
    
    let id := (p.me.g r.a.toNat).toNat % 0x10000
    id ≠ p.me.job.jid ∧ p.held p.me.job.vd id = false ∧ (p.keepsArray p.me.job.vd = true → p.addrHeld p.me.job.vd [p.statusAddr p.me.job.vd id] = false) ∧ p.keepsArray p.me.job.vd = false) ∧
  (∃ (r : R) (s : State), Ready (.jobwait r) s ∧ 
    let p := s.prepare (.jobwait r)
    
    let id := (p.me.g r.a.toNat).toNat % 0x10000
    id ≠ p.me.job.jid ∧ p.held p.me.job.vd id = false ∧ (p.keepsArray p.me.job.vd = true → p.addrHeld p.me.job.vd [p.statusAddr p.me.job.vd id] = false) ∧ ∃ b, p.keepsArray p.me.job.vd = true ∧ p.loadByte p.me.job.vd (addrLoc p.me.job.vd (p.statusAddr p.me.job.vd id)) = .ok b) :=
  ⟨⟨{ r0 with d := 3 }, demo, ready (by decide) (by decide), by decide, by decide, by decide, by decide⟩,
   ⟨{ r0 with d := 3 }, demo.modMe (fun a => { a with tags := [tagc 1 false] }), ready (by decide) (by decide), by decide, by decide, by decide, by decide⟩,
   ⟨{ r0 with d := 3, b := 2 }, demo, ready (by decide) (by decide), .inl (by decide)⟩,
   ⟨{ r0 with d := 3 }, { withCmd (cmdOf .cpyst) with nextCmd := 5 }, ready (by decide) (by decide), by decide, by decide, by decide, by decide⟩,
   ⟨{ r0 with d := 4, a := 3 }, demo, ready (by decide) (by decide), by decide⟩,
   ⟨{ r0 with d := 4, a := 5 }, jobs [{ job0 with jid := 2 }] [] demo, ready (by decide) (by decide), by decide, by decide⟩,
   ⟨{ r0 with d := 4, a := 5 }, moving (addrKey 0 2).bucket (withVd (fun v => { v with jsbase := 1 }) demo), ready (by decide) (by decide), by decide, by decide, by decide, by decide⟩,
   ⟨{ r0 with d := 4, a := 5 }, demo, ready (by decide) (by decide), by decide, by decide, (fun h => absurd h (by decide)), by decide⟩,
   ⟨{ r0 with d := 4, a := 5 }, withVd (fun v => { v with jsbase := 1 }) demo, ready (by decide) (by decide), by decide, by decide, (fun _ => by decide), 0, by decide, by decide⟩⟩

set_option maxRecDepth 20000 in
theorem witness_JobAcceptance :
  (∃ (s : State) (m : Msg) (uid d va vd : Nat) (g : Agent), s.msgs.find? (fun x => x.id = m.id) = some m ∧ m.kind = .jobpost uid d va vd g ∧ s.unitTakes m (agentDie g) g.num = true ∧ s.cardHeld vd va = false ∧ 
    let u := (s.unitBusy (agentDie g)).dropMsg m.id
    ∃ e, u.readCard vd va = .error e) ∧
  (∃ (s : State) (m : Msg) (uid d va vd : Nat) (g : Agent), s.msgs.find? (fun x => x.id = m.id) = some m ∧ m.kind = .jobpost uid d va vd g ∧ s.unitTakes m (agentDie g) g.num = true ∧ s.cardHeld vd va = false ∧ 
    let u := (s.unitBusy (agentDie g)).dropMsg m.id
    
    let t := u.keepVirt vd (u.dasid vd) va 64
    ∃ c, u.readCard vd va = .ok c ∧ t.tableRoom vd = false) ∧
  (∃ (s : State) (m : Msg) (uid d va vd : Nat) (g : Agent), s.msgs.find? (fun x => x.id = m.id) = some m ∧ m.kind = .jobpost uid d va vd g ∧ s.unitTakes m (agentDie g) g.num = true ∧ s.cardHeld vd va = false ∧ 
    let u := (s.unitBusy (agentDie g)).dropMsg m.id
    
    let t := u.keepVirt vd (u.dasid vd) va 64
    ∃ c, u.readCard vd va = .ok c ∧ t.tableRoom vd = true) ∧
  (∃ (s : State) (vd : Nat) (c : Card), s.cardOk vd c = true) ∧
  (∃ n, 1 ≤ n ∧ n < 0xFFFF) ∧
  (∃ (s : State) (vd q : Nat), s.nextQueue = some (vd, q) ∧ s.unitIdle 0 = true ∧ 
    let ctl := (s.vd vd).jqctlOf q
    
    let entry := (s.vd vd).jqbaseOf q % 2 ^ 56 + 8 * (ringHead ctl % ringSize ctl)
    s.virtHeld vd (s.dasid vd) entry 8 = false ∧ (∀ bs, allOk (s.readVirt vd (s.dasid vd) entry 8) = .ok bs → s.cardHeld vd (ofBytes bs) = false) ∧ ∃ bs c, allOk (s.readVirt vd (s.dasid vd) entry 8) = .ok bs ∧ ofBytes bs < 2 ^ 56 ∧ ofBytes bs % 64 = 0 ∧ s.readCard vd (ofBytes bs) = .ok c) ∧
  (∃ (s : State) (vd q : Nat), s.nextQueue = some (vd, q) ∧ s.unitIdle 0 = true ∧ 
    let ctl := (s.vd vd).jqctlOf q
    
    let entry := (s.vd vd).jqbaseOf q % 2 ^ 56 + 8 * (ringHead ctl % ringSize ctl)
    s.virtHeld vd (s.dasid vd) entry 8 = false ∧ (∀ bs, allOk (s.readVirt vd (s.dasid vd) entry 8) = .ok bs → s.cardHeld vd (ofBytes bs) = false) ∧ ∃ bs, allOk (s.readVirt vd (s.dasid vd) entry 8) = .ok bs ∧ (2 ^ 56 ≤ ofBytes bs ∨ ofBytes bs % 64 ≠ 0)) ∧
  (∃ (s : State) (vd q : Nat), s.nextQueue = some (vd, q) ∧ s.unitIdle 0 = true ∧ 
    let ctl := (s.vd vd).jqctlOf q
    
    let entry := (s.vd vd).jqbaseOf q % 2 ^ 56 + 8 * (ringHead ctl % ringSize ctl)
    s.virtHeld vd (s.dasid vd) entry 8 = false ∧ (∀ bs, allOk (s.readVirt vd (s.dasid vd) entry 8) = .ok bs → s.cardHeld vd (ofBytes bs) = false) ∧ ∃ e, allOk (s.readVirt vd (s.dasid vd) entry 8) = .error e) ∧
  (∃ ctl : Nat, ringSize ctl ≤ 2 ^ 16) ∧
  (∃ (s : State) (vd jid : Nat) (j : Job), jid < 0x10000 ∧ s.jobOf vd jid = some j ∧ j.vd = vd ∧ j.jid = jid ∧ j.argtRead = false ∧ j.accepted + 68 ≤ s.cycle + 1 ∧ s.unitFree j.owner = true ∧ s.recordHeld vd jid j.card = false ∧ 
    let v := s.vd vd
    
    let tid := j.card.argt
    
    let va := v.vdtab.toNat / 64 % 2 ^ 46 * 64 + 64 * tid
    
    let size := v.vdasid.toNat / 2 ^ 32 % 2 ^ 17
    
    let u := s.unitBusy j.owner
    (tid ≠ 0 → tid < size → s.addrHeld vd [va, va + 32] = false) ∧ ∃ w d, tid ≠ 0 ∧ tid < size ∧ u.loadPhys vd va 64 = .ok w ∧ Desc.parse (toBytes 64 w) = some d ∧ j.card.rcount ≠ 0) ∧
  (∃ (s : State) (vd jid : Nat) (j : Job), jid < 0x10000 ∧ s.jobOf vd jid = some j ∧ j.vd = vd ∧ j.jid = jid ∧ j.argtRead = false ∧ j.accepted + 68 ≤ s.cycle + 1 ∧ s.unitFree j.owner = true ∧ s.recordHeld vd jid j.card = false ∧ 
    let v := s.vd vd
    
    let tid := j.card.argt
    
    let va := v.vdtab.toNat / 64 % 2 ^ 46 * 64 + 64 * tid
    
    let size := v.vdasid.toNat / 2 ^ 32 % 2 ^ 17
    
    let u := s.unitBusy j.owner
    (tid ≠ 0 → tid < size → s.addrHeld vd [va, va + 32] = false) ∧ ∃ w d, tid ≠ 0 ∧ tid < size ∧ u.loadPhys vd va 64 = .ok w ∧ Desc.parse (toBytes 64 w) = some d ∧ j.card.rcount = 0) ∧
  (∃ (s : State) (vd jid : Nat) (j : Job), jid < 0x10000 ∧ s.jobOf vd jid = some j ∧ j.vd = vd ∧ j.jid = jid ∧ j.argtRead = false ∧ j.accepted + 68 ≤ s.cycle + 1 ∧ s.unitFree j.owner = true ∧ s.recordHeld vd jid j.card = false ∧ 
    let v := s.vd vd
    
    let tid := j.card.argt
    
    let va := v.vdtab.toNat / 64 % 2 ^ 46 * 64 + 64 * tid
    
    let size := v.vdasid.toNat / 2 ^ 32 % 2 ^ 17
    (tid ≠ 0 → tid < size → s.addrHeld vd [va, va + 32] = false) ∧ (tid = 0 ∨ size ≤ tid)) ∧
  (∃ (s : State) (vd jid : Nat) (j : Job), jid < 0x10000 ∧ s.jobOf vd jid = some j ∧ j.vd = vd ∧ j.jid = jid ∧ j.preds = [] ∧ j.readyAt = none) :=
  ⟨⟨posted demo, ⟨1, .jobpost 1 3 0x4000 0 ⟨.compute, 0⟩, 900⟩, 1, 3, 0x4000, 0, ⟨.compute, 0⟩, by decide, by decide, by decide, cardHeld_still rfl, 2, by decide +kernel⟩,
   ⟨withVd (fun v => { v with dspcfg := 0 }) (posted (paged demo)), ⟨1, .jobpost 1 3 0x4000 0 ⟨.compute, 0⟩, 900⟩, 1, 3, 0x4000, 0, ⟨.compute, 0⟩, by decide, by decide, by decide, cardHeld_still rfl, Card.parse (List.replicate 64 0), by decide +kernel, by decide⟩,
   ⟨posted (paged demo), ⟨1, .jobpost 1 3 0x4000 0 ⟨.compute, 0⟩, 900⟩, 1, 3, 0x4000, 0, ⟨.compute, 0⟩, by decide, by decide, by decide, cardHeld_still rfl, Card.parse (List.replicate 64 0), by decide +kernel, by decide⟩,
   ⟨demo, 0, card0, by decide +kernel⟩,
   ⟨1, by decide, by decide⟩,
   ⟨queued0 0 (paged demo), 0, 0, by decide, by decide, by decide, (fun _ _ => cardHeld_still rfl), List.replicate 8 0, Card.parse (List.replicate 64 0), by decide +kernel, by decide, by decide, by decide +kernel⟩,
   ⟨queued0 0x10000 (paged demo), 0, 0, by decide, by decide, by decide, (fun _ _ => cardHeld_still rfl), [1, 0x10, 1, 0, 0, 0, 0, 0], by decide +kernel, .inr (by decide)⟩,
   ⟨queued0 0 demo, 0, 0, by decide, by decide, by decide, (fun _ _ => cardHeld_still rfl), 2, by decide +kernel⟩,
   ⟨0, by decide⟩,
   ⟨tabled (jobs [{ job0 with argtRead := false, argt := none }] [] demo), 0, 1, { job0 with argtRead := false, argt := none }, by decide, by decide, by decide, by decide, by decide, by decide, by decide, by decide, (fun _ _ => by decide), tenWord, ten, by decide, by decide, by decide +kernel, by decide +kernel, by decide⟩,
   ⟨tabled (jobs [{ job0 with argtRead := false, argt := none, card := { card0 with rcount := 0 } }] [] demo), 0, 1, { job0 with argtRead := false, argt := none, card := { card0 with rcount := 0 } }, by decide, by decide, by decide, by decide, by decide, by decide, by decide, by decide, (fun _ _ => by decide), tenWord, ten, by decide, by decide, by decide +kernel, by decide +kernel, by decide⟩,
   ⟨jobs [{ job0 with argtRead := false, argt := none }] [] demo, 0, 1, { job0 with argtRead := false, argt := none }, by decide, by decide, by decide, by decide, by decide, by decide, by decide, by decide, (fun _ _ => by decide), .inr (by decide)⟩,
   ⟨jobs [{ job0 with readyAt := none }] [] demo, 0, 1, { job0 with readyAt := none }, by decide, by decide, by decide, by decide, by decide, by decide⟩⟩

set_option maxRecDepth 20000 in
theorem witness_DealingAndStarting :
  (∃ (s : State) (die n : Nat) (j : Job), s.unitFree (8 + die) = true ∧ s.strandedJob die = none ∧ s.nextDeal die = some j ∧ s.dealCore j = some n) ∧
  (∃ (j : Job) (_n : Nat), j.next ≤ j.card.rcount ∧ j.back = []) ∧
  (∃ (j : Job) (cores : Nat), 0 < cores ∧ j.card.cmin ≤ j.left ∧ j.left ≤ 2 * cores * j.card.cmin) ∧
  (∃ (s : State) (n slot : Nat) (u : Unstarted) (j : Job) (d : Desc), s.firstUnstarted n = some u ∧ s.jobOf u.vd u.jid = some j ∧ s.freeSlot ⟨.compute, n⟩ 16 = some slot ∧ s.canTake n ⟨u.vd, u.jid, j.card.dpages + j.card.spages, j.card.pages⟩ u.reserved = true ∧ (∀ z, s.firstSaved n = some z → z.act.job.cls < j.card.cls) ∧ j.argt = some d ∧ 
    let va := d.base + u.record * (8 * j.card.rsize)
    s.virtHeld j.card.vd (s.dasid j.card.vd) va (8 * j.card.rsize) = false) ∧
  (∃ (s : State) (ag : Agent) (vd jid since : Nat) (j : Job) (g : CodeSeg) (image : List Byte), jid < 0x10000 ∧ (s.coreOf ag).segs.find? (fun (h : CodeSeg) => (h.jid = jid && h.vd = vd) && h.loading.isSome) = some g ∧ g.loading = some since ∧ s.jobOf vd jid = some j ∧ 
    let n := 2048 * j.card.pages
    since + s.missTime ag vd j.card.code n ≤ s.cycle + 1 ∧ s.virtHeld vd (s.dasid vd) j.card.code n = false ∧ allOk (s.readVirt vd (s.dasid vd) j.card.code n) = .ok image) ∧
  (∃ (s : State) (g : CodeSeg), s.me.fresh = true ∧ s.me.nextIssue ≤ s.cycle ∧ s.core.agent = s.me.agent ∧ s.seg = some g ∧ g.loading = none ∧ g.held = false ∧ s.badTarget s.me.pc.toNat = none ∧ 
    let t := if s.me.prog.isSome then s.cycle + 1 else max (max s.me.nextIssue g.ready + 3) (s.cycle + 1)
    t ≤ s.cycle + 1) ∧
  (∃ (s : State) (vd jid : Nat) (j : Job), jid < 0x10000 ∧ s.jobOf vd jid = some j ∧ j.vd = vd ∧ j.jid = jid ∧ j.argtRead = true ∧ j.card.rcount ≤ j.retired ∧ s.orphanWrites vd = false ∧ s.recordHeld vd jid j.card = false ∧ s.completion j = none ∧ 
    let m : Msg := ⟨s.nextMsg, .complete vd jid, s.cycle⟩
    
    let t : State := { s with
      msgs := s.msgs ++ [m]
      nextMsg := s.nextMsg + 1 }
    t.unitTakes m j.owner 0 = true) ∧
  (∃ (s : State) (vd jid : Nat) (j : Job), jid < 0x10000 ∧ s.jobOf vd jid = some j ∧ j.vd = vd ∧ j.jid = jid ∧ j.argtRead = true ∧ j.card.rcount ≤ j.retired ∧ s.orphanWrites vd = false ∧ s.recordHeld vd jid j.card = false ∧ s.completion j = none ∧ 
    let m : Msg := ⟨s.nextMsg, .complete vd jid, s.cycle⟩
    
    let t : State := { s with
      msgs := s.msgs ++ [m]
      nextMsg := s.nextMsg + 1 }
    t.unitTakes m j.owner 0 = false) ∧
  (∃ (s : State) (vd jid : Nat) (j : Job), jid < 0x10000 ∧ s.jobOf vd jid = some j ∧ j.vd = vd ∧ j.jid = jid ∧ j.argtRead = true ∧ j.card.rcount ≤ j.retired ∧ s.orphanWrites vd = false ∧ s.recordHeld vd jid j.card = false ∧ ∃ m, s.completion j = some m ∧ s.unitTakes m j.owner 0 = true) ∧
  (∃ (s : State) (vd jid : Nat), (s.jobOf vd jid).isSome = true ∧ ∃ k ∈ (s.completeJob vd jid).disp.jobs, k.vd = vd) ∧
  (∃ (s : State) (m : Msg) (vd jid stat refused die num : Nat) (g : Agent), s.msgs.find? (fun x => x.id = m.id) = some m ∧ m.kind = .retired vd jid stat refused g ∧ s.msgUnit m = some (die, num) ∧ s.unitTakes m die num = true) ∧
  (∃ (k : Job) (stat refused : Nat), stat ≠ 0 ∧ refused = 0 ∧ k.stat = 0) ∧
  (∃ (s : State) (id dst byte due : Nat), s.core.agent = s.me.agent ∧ s.me.block = .jobDone id dst byte due ∧ due ≤ s.cycle + 1 ∧ id < 0x10000 ∧ byte < 0x100) :=
  ⟨⟨jobs [job0] [] demo, 0, 1, job0, by decide, by decide +kernel, by decide +kernel, by decide +kernel⟩,
   ⟨job0, 0, by decide, by decide⟩,
   ⟨{ job0 with next := 2 }, 1, by decide, by decide, by decide⟩,
   ⟨jobs [job0] [⟨0, 1, 0, 1, 500, 600, false⟩] demo, 1, 0, ⟨0, 1, 0, 1, 500, 600, false⟩, job0, ten, by decide, by decide, by decide, by decide, (fun z h => by cases h), by decide, by decide⟩,
   ⟨jobs [{ job0 with card := { card0 with cwords := 0 } }] [] (paged (demo.modCore (fun k => { k with segs := [segc] }))), ⟨.compute, 0⟩, 0, 1, 500, { job0 with card := { card0 with cwords := 0 } }, segc, [], by decide, by decide, by decide, by decide, by decide +kernel, by decide, by decide +kernel⟩,
   ⟨world { act .compute [] with fresh := true }, _, by decide, by decide, by decide, rfl, by decide, by decide, by decide, by decide⟩,
   ⟨jobs [{ job0 with retired := 4 }] [] demo, 0, 1, { job0 with retired := 4 }, by decide, by decide, by decide, by decide, by decide, by decide, by decide, by decide, by decide, by decide⟩,
   ⟨(fun s : State => { s with disp := { s.disp with busy := [(0, 1001)] } }) (jobs [{ job0 with retired := 4 }] [] demo), 0, 1, { job0 with retired := 4 }, by decide, by decide, by decide, by decide, by decide, by decide, by decide, by decide, by decide, by decide⟩,
   ⟨{ jobs [{ job0 with retired := 4 }] [] demo with msgs := [⟨1, .complete 0 1, 900⟩] }, 0, 1, { job0 with retired := 4 }, by decide, by decide, by decide, by decide, by decide, by decide, by decide, by decide, ⟨1, .complete 0 1, 900⟩, by decide, by decide⟩,
   ⟨jobs [job0, { job0 with jid := 2 }] [] demo, 0, 1, by decide, { job0 with jid := 2 }, by decide +kernel, by decide⟩,
   ⟨{ jobs [job0] [] demo with msgs := [⟨1, .retired 0 1 0 0 ⟨.compute, 0⟩, 900⟩] }, ⟨1, .retired 0 1 0 0 ⟨.compute, 0⟩, 900⟩, 0, 1, 0, 0, 0, 0, ⟨.compute, 0⟩, by decide, by decide, by decide, by decide⟩,
   ⟨job0, 2, 0, by decide, by decide, by decide⟩,
   ⟨demo.modMe (fun a => { a with block := .jobDone 2 3 0 900 }), 2, 3, 0, 900, by decide, by decide, by decide, by decide, by decide⟩⟩

set_option maxRecDepth 20000 in
theorem witness_ResultsAndActivityLife :
  (∃ x ∈ [(Instr.registerWriteback, PendKind.fixed), (.registerWriteback, .engine), (.loadResult, .load), (.divideResult, .divide)], ∃ (s : State) (n due : Nat) (v : Vec) (keep : List Reg), s.core.agent = s.me.agent ∧ s.me.pend = [⟨⟨.g, n⟩, v, due, x.2, keep⟩] ∧ 0 < n ∧ n < 64 ∧ due ≤ s.cycle) ∧
  (∃ x ∈ [(Instr.registerWriteback, PendKind.fixed), (.registerWriteback, .engine), (.loadResult, .load), (.divideResult, .divide)], ∃ (s : State) (n due : Nat) (v : Vec) (keep : List Reg), s.core.agent = s.me.agent ∧ s.me.pend = [⟨⟨.g, n⟩, v, due, x.2, keep⟩] ∧ 0 < n ∧ n < 64 ∧ s.cycle < due) ∧
  (∃ s : State, s.me.job.runb ≠ 0 ∧ s.me.job.runb < s.me.runc ∧ s.me.overrun = false ∧ s.me.prog = none) ∧
  (∃ s : State, s.me.job.runb ≠ 0 ∧ s.me.job.runb < s.me.runc ∧ s.me.overrun = false ∧ ∃ p, s.me.prog = some p) ∧
  (∃ s : State, s.core.agent = s.me.agent ∧ s.me.life = .live ∧ s.me.trap.inh = false ∧ s.me.speculative = false ∧ s.vecBusy = false ∧ s.me.trap.prb = true) ∧
  (∃ s : State, s.core.agent = s.me.agent ∧ s.me.life = .live ∧ s.me.trap.inh = false ∧ s.me.speculative = false ∧ s.vecBusy = false ∧ ∃ bar pr rest, s.me.trap.missed = (bar, pr) :: rest ∧ s.me.trap.pmp = true ∧ bar < 2 ^ 24 ∧ pr < 2 ^ 32) ∧
  (∃ s : State, s.core.agent = s.me.agent ∧ s.me.life = .live ∧ s.me.trap.inh = false ∧ s.me.speculative = false ∧ s.vecBusy = false ∧ ∃ ag n e, s.firstRefused s.me.uid = some (ag, n, e) ∧ s.me.trap.prs = true ∧ n < 64 ∧ e.code < 256) ∧
  (∃ s : State, s.core.agent = s.me.agent ∧ s.me.life = .live ∧ s.me.trap.inh = false ∧ (s.me.speculative = true ∨ s.vecBusy = true) ∧ s.me.trap.prb = true) ∧
  (∃ s : State, s.core.agent = s.me.agent ∧ s.me.life = .live ∧ s.me.trap.inh = false ∧ (s.me.speculative = true ∨ s.vecBusy = true) ∧ s.me.trap.missed ≠ [] ∧ s.me.trap.pmp = true) ∧
  (∃ s : State, s.core.agent = s.me.agent ∧ s.me.life = .live ∧ s.me.trap.inh = false ∧ (s.me.speculative = true ∨ s.vecBusy = true) ∧ (s.firstRefused s.me.uid).isSome = true ∧ s.me.trap.prs = true) ∧
  (∃ (s : State) (j : Job), s.core.agent = s.me.agent ∧ s.me.agent.kind = .compute ∧ s.me.prog = none ∧ s.me.speculative = false ∧ s.me.life = .ending ∧ s.core.busyWith s.me.uid = false ∧ s.engineOut = false ∧ s.updateOut = false ∧ s.me.helds = [] ∧ s.me.coll = none ∧ s.me.claimed = [] ∧ s.me.party = none ∧ s.jobOf s.me.job.vd s.me.job.jid = some j) ∧
  (∃ s : State, s.core.agent = s.me.agent ∧ s.me.life ≠ .absent ∧ s.me.life ≠ .killed ∧ s.me.prog = none ∧ s.me.killStat ≠ 0) ∧
  (∃ (s : State) (rest : List Nat) (y t d : Nat), s.core.agent = s.me.agent ∧ s.core.monitorQueue = s.me.uid :: rest ∧ s.core.monitors.length < monitorSize s.me.agent.kind ∧ s.me.block = .monitor y t d) ∧
  (∃ (s : State) (dst st since : Nat), s.core.agent = s.me.agent ∧ s.me.block = .barDone dst st since) :=
  ⟨⟨_, .head _, demo.modMe (fun a => { a with pend := [⟨⟨.g, 3⟩, 7, 900, .fixed, []⟩] }), 3, 900, 7, [], by decide, by decide, by decide, by decide, by decide⟩,
   ⟨_, .head _, demo.modMe (fun a => { a with pend := [⟨⟨.g, 3⟩, 7, 1900, .fixed, []⟩] }), 3, 1900, 7, [], by decide, by decide, by decide, by decide, by decide⟩,
   ⟨demo.modMe (fun a => { a with job := { a.job with runb := 5 }, runc := 6 }), by decide, by decide, by decide, by decide⟩,
   ⟨streamer.modMe (fun a => { a with job := { a.job with runb := 5 }, runc := 6 }), by decide, by decide, by decide, ⟨some 2, 0, 0, 0, none, []⟩, by decide⟩,
   ⟨demo.modMe (fun a => { a with trap := { a.trap with prb := true } }), by decide, by decide, by decide, by decide, by decide, by decide⟩,
   ⟨demo.modMe (fun a => { a with trap := { a.trap with pmp := true, missed := [(0x840, 900)] } }), by decide, by decide, by decide, by decide, by decide, 0x840, 900, [], by decide, by decide, by decide, by decide⟩,
   ⟨(demo.modMe (fun a => { a with trap := { a.trap with prs := true } })).modCore (fun k => { k with journal := [(0, ⟨1, 1, 0, 5, 0⟩)] }), by decide, by decide, by decide, by decide, by decide, ⟨.compute, 0⟩, 0, ⟨1, 1, 0, 5, 0⟩, by decide, by decide, by decide, by decide⟩,
   ⟨demo.modMe (fun a => { a with taints := [1], trap := { a.trap with prb := true } }), by decide, by decide, by decide, .inl (by decide), by decide⟩,
   ⟨demo.modMe (fun a => { a with taints := [1], trap := { a.trap with pmp := true, missed := [(0x840, 900)] } }), by decide, by decide, by decide, .inl (by decide), by decide, by decide⟩,
   ⟨(demo.modMe (fun a => { a with taints := [1], trap := { a.trap with prs := true } })).modCore (fun k => { k with journal := [(0, ⟨1, 1, 0, 5, 0⟩)] }), by decide, by decide, by decide, .inl (by decide), by decide, by decide⟩,
   ⟨jobs [job0] [] (world { act .compute [] with life := .ending }), job0, by decide, by decide, by decide, by decide, by decide, by decide, by decide, by decide, by decide, by decide, by decide, by decide, by decide⟩,
   ⟨demo.modMe (fun a => { a with doom := 2 }), by decide, by decide, by decide, by decide⟩,
   ⟨(demo.modMe (fun a => { a with block := .monitor 0x840 0 3 })).modCore (fun k => { k with monitorQueue := [1] }), [], 0x840, 0, 3, by decide, by decide, by decide, by decide⟩,
   ⟨demo.modMe (fun a => { a with block := .barDone 3 0 900 }), 3, 0, 900, by decide, by decide⟩⟩

set_option maxRecDepth 20000 in
theorem witness_Placement :
  (∃ (s : State) (n : Nat) (value : Word), s.HostTurn (.reg (.coresel n) value) ∧ n < 4096 ∧ 
    let c := s.coreOf (coreAgent n)
    c.selBusy = false ∧ (value.getLsbD 7 ≠ c.selRes ∨ value.toNat % 64 ≠ c.selVd)) ∧
  (∃ (s : State) (n : Nat) (value : Word), s.HostTurn (.reg (.coresel n) value) ∧ n < 4096 ∧ 
    let c := s.coreOf (coreAgent n)
    (c.selBusy = true ∨ (value.getLsbD 7 = c.selRes ∧ value.toNat % 64 = c.selVd))) ∧
  (∃ (s : State) (n : Nat), (s.coreOf (coreAgent n)).selBusy = true ∧ (∀ a ∈ s.allActs, a.livesAt n = true ∨ a.visits n = true → s.excludes n a.job.vd = false) ∧ (∀ u ∈ s.disp.unstarted, u.core = n → s.excludes n u.vd = false)) ∧
  (∃ s : State, s.me.uid ∈ s.disp.orders ∧ s.me.uid ∉ s.disp.evicting ∧ s.me.evictable = false) ∧
  (∃ s : State, s.me.uid ∈ s.disp.orders ∧ s.me.uid ∉ s.disp.evicting ∧ s.me.evictable = true ∧ s.core.agent = s.me.agent ∧ s.me.speculative = false ∧ s.poolRoom = false) ∧
  (∃ s : State, s.me.uid ∈ s.disp.orders ∧ s.me.uid ∉ s.disp.evicting ∧ s.me.evictable = true ∧ s.core.agent = s.me.agent ∧ s.me.speculative = false ∧ s.poolRoom = true) ∧
  (∃ (s : State) (uid : Nat), s.act? uid = none) ∧
  (∃ s : State, s.core.agent = s.me.agent ∧ s.me.life = .live ∧ s.saveMe.me.life = .absent) ∧
  (∃ (s : State) (die : Nat) (v : Activity) (w : Waiting), (∀ e, s.disp.ordered.find die = some e → e + 16 ≤ s.cycle) ∧ ((s.waitingFor die).filter (fun x => !s.hasVictim x)).findSome? (fun x => (s.victim x).map (fun y => (y, x))) = some (v, w)) ∧
  (∃ (s : State) (w : Waiting) (v : Activity), s.victim w = some v ∧ ∃ u ∈ s.allActs, s.candidate w u = true) ∧
  (∃ (s : State) (z : Saved) (n : Nat), s.saved.find? (fun (y : Saved) => y.act.uid = z.act.uid) = some z ∧ s.savedReady z = true ∧ s.addrHeld z.act.job.vd (s.blockAddrs z.act.job.vd z.blocks) = false ∧ z.at_ = none ∧ s.restoreCores z = [n] ∧ 
    let t : State := { s with choiceCtr := s.choiceCtr + 1 }
    
    let k := t.keepBlocks none z.act.job.vd z.blocks
    ∃ x, t.poolRead z.act.job.vd z.blocks = (z.image, false) ∧ k.restoreOn z n = some x) ∧
  (∃ (s : State) (z : Saved) (n : Nat), s.saved.find? (fun (y : Saved) => y.act.uid = z.act.uid) = some z ∧ s.savedReady z = true ∧ s.addrHeld z.act.job.vd (s.blockAddrs z.act.job.vd z.blocks) = false ∧ z.at_ = none ∧ s.restoreCores z = [n] ∧ 
    let t : State := { s with choiceCtr := s.choiceCtr + 1 }
    ∃ bs bad, t.poolRead z.act.job.vd z.blocks = (bs, bad) ∧ (bad = true ∨ bs ≠ z.image)) ∧
  (∃ (s x : State) (z : Saved) (n : Nat), z.act.life = .live ∧ s.restoreOn z n = some x) ∧
  (∃ (s : State) (z : Saved), (s.jobOf z.act.job.vd z.act.job.jid).isSome = true) ∧
  (∃ (s : State) (n m : Nat) (u : Unstarted) (j : Job), s.cycle % 256 = 0 ∧ (s.disp.pushed.find n).getD 0 ≠ s.cycle + 1 ∧ s.disp.unstarted.find? (fun (v : Unstarted) => v.core = n) = some u ∧ s.mayPush u.vd n = true ∧ s.pushTarget u.vd u.jid n = some m ∧ s.jobOf u.vd u.jid = some j ∧ s.canAccept m [j.footprint] = true) ∧
  (∃ (s : State) (vd jid n m : Nat), s.pushTarget vd jid n = some m) :=
  ⟨⟨demo, 5, 0x80, by unfold State.HostTurn; decide, by decide, by decide, .inl (by decide)⟩,
   ⟨demo, 5, 0, by unfold State.HostTurn; decide, by decide, .inr ⟨by decide, by decide⟩⟩,
   ⟨{ demo with cores := [{ Core.fresh (coreAgent 5) with selBusy := true }] }, 5, by decide, by decide, by decide⟩,
   ⟨{ demo with disp := { demo.disp with orders := [1] } }, by decide, by decide, by decide⟩,
   ⟨{ world (sleeping 9) with disp := { demo.disp with orders := [1] } }, by decide, by decide, by decide, by decide, by decide, by decide⟩,
   ⟨{ withVd (fun v => { v with spool := 0x1000000000 }) (world (sleeping 9)) with disp := { demo.disp with orders := [1] } }, by decide, by decide, by decide, by decide, by decide, by decide⟩,
   ⟨demo, 9, by decide⟩,
   ⟨withVd (fun v => { v with spool := 0x1000000000 }) (world (sleeping 9)), by decide, by decide, by decide +kernel⟩,
   ⟨crowded, 0, sleeping 9, ⟨.record 0 1 0, 2, [0], ⟨0, 1, 91, 1⟩⟩, (fun e h => by cases h), by decide +kernel⟩,
   ⟨crowded, ⟨.record 0 1 0, 2, [0], ⟨0, 1, 91, 1⟩⟩, sleeping 9, by decide +kernel, _, .head _, by decide +kernel⟩,
   ⟨restoring [], saved0 [], 0, by decide, by decide, by decide, by decide, by decide +kernel, _, by decide, rfl⟩,
   ⟨restoring [1], saved0 [1], 0, by decide, by decide, by decide, by decide, by decide +kernel, [], false, by decide, .inr (by decide)⟩,
   ⟨restoring [], _, saved0 [], 0, by decide, rfl⟩,
   ⟨jobs [job0] [] demo, saved0 [], by decide⟩,
   ⟨piled, 0, 1, ⟨0, 1, 0, 0, 0, 0, false⟩, job0, by decide, by decide, by decide, by decide, by decide +kernel, by decide, by decide +kernel⟩,
   ⟨piled, 0, 1, 0, 1, by decide +kernel⟩⟩

set_option maxRecDepth 20000 in
theorem witness_SharesAndMoves :
  (∃ (s : State) (a : Arbiter) (h : Share), s.arbs.find? (fun x => x.1 = a) = some (a, h)) ∧
  (∃ (s : State) (a : Arbiter), (∀ x ∈ s.arbs, x.1 ≠ a)) ∧
  (∃ (s : State) (value : Word), s.HostTurn (.reg .rbctl value) ∧ value.getLsbD 63 = true ∧ s.cache.move ≠ none) ∧
  (∃ (s : State) (value : Word), s.HostTurn (.reg .rbctl value) ∧ value.getLsbD 63 = true ∧ s.cache.move = none ∧ s.sliceOk (value.toNat / 2 ^ 40 % 512) = true) ∧
  (∃ (s : State) (m : Move), s.cache.move = some m ∧ s.moveWaits m.bucket = false ∧ s.cache.queued = none) ∧
  (∃ (_s : State) (b c : Nat) (_e : Bucket), c ≠ b) ∧
  (∃ (s : State) (value : Word), s.HostTurn (.reg .kbctl value) ∧ value.getLsbD 63 = true ∧ s.dirs.move ≠ none) ∧
  (∃ (s : State) (value : Word), s.HostTurn (.reg .kbctl value) ∧ value.getLsbD 63 = true ∧ s.dirs.move = none) ∧
  (∃ (s : State) (b d mark : Nat), s.dirs.move = some (b, d, mark) ∧ s.keyMoveWaits b mark = true) ∧
  (∃ (s : State) (m : Move), s.cache.move = some m ∧ s.moveWaits m.bucket = true) ∧
  (∃ (s : State) (b d mark : Nat), s.dirs.move = some (b, d, mark) ∧ s.keyMoveWaits b mark = false ∧ s.dirs.queued = none) ∧
  (∃ s : State, s.cycle % 65536 = 0 ∧ (s.cache.rbctl.getLsbD 0 = false ∨ s.cache.move ≠ none)) ∧
  (∃ s : State, s.cycle % 65536 = 0 ∧ ∃ m, s.cache.rbctl.getLsbD 0 = true ∧ s.cache.move = none ∧ s.rebalance = some m) ∧
  (∃ s : State, s.cycle % 65536 = 0 ∧ (s.dirs.kbctl.getLsbD 0 = false ∨ s.dirs.move ≠ none)) ∧
  (∃ s : State, s.cycle % 65536 = 0 ∧ ∃ b d, s.dirs.kbctl.getLsbD 0 = true ∧ s.dirs.move = none ∧ s.rebalanceKeys = some (b, d)) :=
  ⟨⟨{ demo with arbs := [(.slice 0, Share.empty)] }, .slice 0, Share.empty, by decide⟩,
   ⟨demo, .slice 0, by decide⟩,
   ⟨{ demo with cache := { demo.cache with move := some ⟨1, 2, false⟩ } }, 0x8000000000000000, by unfold State.HostTurn; decide, by decide, by decide⟩,
   ⟨demo, 0x8000000000000000, by unfold State.HostTurn; decide, by decide, by decide, by decide⟩,
   ⟨{ demo with cache := { demo.cache with move := some ⟨1, 2, false⟩ } }, ⟨1, 2, false⟩, by decide, by decide, by decide⟩,
   ⟨demo, 0, 1, ⟨false, false, 0⟩, by decide⟩,
   ⟨{ demo with dirs := { demo.dirs with move := some (1, 2, 9) } }, 0x8000000000000000, by unfold State.HostTurn; decide, by decide, by decide⟩,
   ⟨demo, 0x8000000000000000, by unfold State.HostTurn; decide, by decide, by decide⟩,
   ⟨{ demo with dirs := { demo.dirs with move := some (keyBucket 5 0 0, 2, 9) }, msgs := [⟨1, .cancel 1 3 0 0 5 false ⟨.compute, 0⟩, 5000⟩] }, keyBucket 5 0 0, 2, 9, by decide, by decide⟩,
   ⟨{ withCmd (cmdOf .cpyst) with cache := { copier.cache with move := some ⟨LineKey.bucket ⟨0, 1, 0, 0⟩, 2, false⟩ } }, ⟨LineKey.bucket ⟨0, 1, 0, 0⟩, 2, false⟩, by decide, by decide⟩,
   ⟨{ demo with dirs := { demo.dirs with move := some (1, 2, 9) } }, 1, 2, 9, by decide, by decide, by decide⟩,
   ⟨{ demo with cycle := 65536 }, by decide, .inl (by decide)⟩,
   ⟨{ demo with cycle := 65536, cache := { demo.cache with rbctl := 1, hits := [(0, 5)], bucketHits := [(0, 5)] } }, by decide, ⟨0, 1, false⟩, by decide, by decide, by decide +kernel⟩,
   ⟨{ demo with cycle := 65536 }, by decide, .inl (by decide)⟩,
   ⟨{ demo with cycle := 65536, dirs := { demo.dirs with kbctl := 1, hits := [(0, 5)], bucketHits := [(0, 5)] } }, by decide, 0, 1, by decide, by decide, by decide +kernel⟩⟩

set_option maxRecDepth 20000 in
theorem witness_RegisterWrites :
  (∃ (s : State) (vd q : Nat) (value : Word), vd < 64 ∧ q < 16 ∧ 
    let v := s.vd vd
    
    let old := v.jqctlOf q
    
    let bad : Bool := value.toNat / 2 ^ 32 % 16 > 12 || v.jqbaseOf q % 64 ≠ 0
    s.HostTurn (.reg (.jqctl vd q) value) ∧ value.getLsbD 63 = true ∧ bad = false ∧ old.testBit 62 = false) ∧
  (∃ (s : State) (vd q : Nat) (value : Word), vd < 64 ∧ q < 16 ∧ 
    let v := s.vd vd
    
    let bad : Bool := value.toNat / 2 ^ 32 % 16 > 12 || v.jqbaseOf q % 64 ≠ 0
    s.HostTurn (.reg (.jqctl vd q) value) ∧ value.getLsbD 63 = true ∧ bad = true) ∧
  (∃ (s : State) (vd q : Nat) (value : Word), vd < 64 ∧ q < 16 ∧ 
    let v := s.vd vd
    
    let old := v.jqctlOf q
    s.HostTurn (.reg (.jqctl vd q) value) ∧ value.getLsbD 63 = false ∧ old.testBit 62 = false) ∧
  (∃ (s : State) (vd q : Nat) (_value : Word), vd < 64 ∧ q < 16 ∧ ∃ tail : BitVec 16, s.HostTurn (.tail vd q tail)) ∧
  (∃ (s : State) (vd : Nat) (value : Word), s.HostTurn (.reg (.vdctl vd) value) ∧ vd < 64 ∧ 
    let v := s.vd vd
    
    let next : Bool := match v.next with
      | some w => w.getLsbD 0
      | none => v.en
    value.getLsbD 0 ≠ next ∧ (∃ j ∈ s.disp.jobs, j.vd = vd)) ∧
  (∃ (s : State) (vd : Nat) (value : Word), s.HostTurn (.reg (.vdctl vd) value) ∧ vd < 64 ∧ 
    let v := s.vd vd
    
    let next : Bool := match v.next with
      | some w => w.getLsbD 0
      | none => v.en
    (value.getLsbD 0 = next ∨ (∀ j ∈ s.disp.jobs, j.vd ≠ vd)) ∧ value.getLsbD 0 = true ∧ next = false ∧ (∃ c, c < 6 ∧ shareCap c < s.rateAhead c vd + (v.shareOf c).1)) ∧
  (∃ (s : State) (vd : Nat) (value : Word), s.HostTurn (.reg (.vdctl vd) value) ∧ vd < 64 ∧ 
    let v := s.vd vd
    
    let next : Bool := match v.next with
      | some w => w.getLsbD 0
      | none => v.en
    (value.getLsbD 0 = next ∨ (∀ j ∈ s.disp.jobs, j.vd ≠ vd)) ∧ (value.getLsbD 0 = false ∨ next = true ∨ (∀ c, c < 6 → s.rateAhead c vd + (v.shareOf c).1 ≤ shareCap c))) ∧
  (∃ (_s : State) (vd : Nat) (_value : Word), ∃ w, w ≠ vd) ∧
  (∃ (s : State) (vd : Nat) (value : Word), 
    let v := s.vd vd
    value.getLsbD 0 = true ∧ v.en = false ∧ ∃ c, c < 6) ∧
  (∃ (s : State) (vd : Nat) (value : Word), 
    let v := s.vd vd
    value.getLsbD 0 = true ∧ v.en = false) ∧
  (∃ (s : State) (vd : Nat) (value : Word), 
    let v := s.vd vd
    value.getLsbD 0 = v.en ∧ v.en = true) ∧
  (∃ (s : State) (vd c : Nat) (value : Word), s.HostTurn (.reg (.shr vd c) value) ∧ vd < 64 ∧ c < 6 ∧ 
    let v := s.vd vd
    
    let rate := value.toNat / 2 ^ 32 % 2 ^ 20
    rate ≤ shareCap c ∧ (v.enNext = true → s.rateAhead c vd + rate ≤ shareCap c)) ∧
  (∃ (s : State) (vd c : Nat) (value : Word), s.HostTurn (.reg (.shr vd c) value) ∧ vd < 64 ∧ c < 6 ∧ 
    let v := s.vd vd
    
    let rate := value.toNat / 2 ^ 32 % 2 ^ 20
    (shareCap c < rate ∨ (v.enNext = true ∧ shareCap c < s.rateAhead c vd + rate))) ∧
  (∃ (s : State) (vd slice : Nat) (value : Word), s.HostTurn (.reg (.waymsk vd slice) value) ∧ vd < 64 ∧ slice < 384) ∧
  (∃ (s : State) (vd slice : Nat) (ways : BitVec 16) (l : List (Nat × Nat × Nat × BitVec 16)), s.cache.remask = l ++ [(vd, slice, s.cycle, ways)]) ∧
  (∃ (s : State) (vd slice at_ : Nat) (ways : BitVec 16), (vd, slice, at_, ways) ∈ s.cache.remask ∧ ∃ l ∈ s.remaskSets.cache.lines, l.key.vd = vd ∧ l.slice = slice ∧ at_ + 1 + l.set = s.cycle) ∧
  (∃ (s : State) (value : Word), s.booted = true ∧ s.HostTurn (.reg .dspcmd value)) ∧
  (∃ (s : State) (value : Word) (vd q : Nat), vd < 64 ∧ q < 16 ∧ s.HostTurn (.reg (.jqbase vd q) value)) ∧
  (∃ (s : State) (value : Word) (vd q : Nat), vd < 64 ∧ q < 16 ∧ s.HostTurn (.reg (.vdtab vd) value)) ∧
  (∃ (s : State) (value : Word) (vd q : Nat), vd < 64 ∧ q < 16 ∧ s.HostTurn (.reg (.vdrdir vd) value)) ∧
  (∃ (s : State) (value : Word) (vd q : Nat), vd < 64 ∧ q < 16 ∧ s.HostTurn (.reg (.bar0 (some vd) (16 * q) false) value)) ∧
  (∃ (s : State) (value : Word) (vd q : Nat), vd < 64 ∧ q < 16 ∧ s.HostTurn (.reg (.bar0 none (0x1000 * vd + 16 * q) false) value)) ∧
  (∃ (s : State) (value : Word) (vd q : Nat), vd < 64 ∧ q < 16 ∧ ∃ o, s.HostTurn (.reg (.bar0 (some vd) o false) value) ∧ 0x100 ≤ o) ∧
  (∃ (s : State) (value : Word) (vd q : Nat), vd < 64 ∧ q < 16 ∧ ∃ o, s.HostTurn (.reg (.bar0 (some vd) o true) value) ∧ 0x200 < o) ∧
  (∃ (s : State) (value : Word) (vd q : Nat), vd < 64 ∧ q < 16 ∧ ∃ o, s.booted = true ∧ (∃ j ∈ s.svc.inbound, (Inbound.reg (.bar0 (some vd) o false) value).follows j = true)) ∧
  (∃ s : State, s.svc.boot ≠ .pending) ∧
  (∃ (s : State) (_value : Word), s.svc.boot ≠ .pending) :=
  ⟨⟨demo, 0, 0, 0x8000000000000001, by decide, by decide, by unfold State.HostTurn; decide, by decide, by decide, by decide⟩,
   ⟨demo, 0, 0, 0x8000000D00000001, by decide, by decide, by unfold State.HostTurn; decide, by decide, by decide⟩,
   ⟨demo, 0, 0, 0, by decide, by decide, by unfold State.HostTurn; decide, by decide, by decide⟩,
   ⟨demo, 0, 0, 0, by decide, by decide, 5, by unfold State.HostTurn; decide⟩,
   ⟨jobs [job0] [] demo, 0, 0, by unfold State.HostTurn; decide, by decide, by decide, ⟨_, .head _, rfl⟩⟩,
   ⟨withVd (fun v => { v with en := false, shr := [(0, (2000, 0))] }) demo, 0, 1, by unfold State.HostTurn; decide, by decide, .inr (by decide), by decide, by decide, ⟨0, by decide, by decide⟩⟩,
   ⟨withVd (fun v => { v with en := false }) demo, 0, 1, by unfold State.HostTurn; decide, by decide, .inr (by decide), .inr (.inr (by decide))⟩,
   ⟨demo, 0, 1, 2, by decide⟩,
   ⟨withVd (fun v => { v with en := false }) demo, 0, 1, by decide, by decide, 0, by decide⟩,
   ⟨withVd (fun v => { v with en := false }) demo, 0, 1, by decide, by decide⟩,
   ⟨demo, 0, 1, by decide, by decide⟩,
   ⟨demo, 0, 0, 0, by unfold State.HostTurn; decide, by decide, by decide, by decide, fun _ => by decide⟩,
   ⟨demo, 0, 0, 0x7D000000000, by unfold State.HostTurn; decide, by decide, by decide, .inl (by decide)⟩,
   ⟨demo, 0, 0, 0, by unfold State.HostTurn; decide, by decide, by decide⟩,
   ⟨{ demo with cache := { demo.cache with remask := [(0, 5, 1000, 3)] } }, 0, 5, 3, [], by decide⟩,
   ⟨{ demo with cycle := 901, cache := { demo.cache with lines := [⟨⟨0, 1, 0, 0⟩, 5, 0, 0, false, false, [], [], false, false⟩], remask := [(0, 5, 900, 3)] } }, 0, 5, 900, 3, by decide, ⟨⟨0, 1, 0, 0⟩, 5, 0, 0, false, false, [], [], false, false⟩, by decide +kernel, by decide, by decide, by decide⟩,
   ⟨demo, 0, by decide, by unfold State.HostTurn; decide⟩,
   ⟨demo, 0, 0, 1, by decide, by decide, by unfold State.HostTurn; decide⟩,
   ⟨demo, 0, 0, 1, by decide, by decide, by unfold State.HostTurn; decide⟩,
   ⟨demo, 0, 0, 1, by decide, by decide, by unfold State.HostTurn; decide⟩,
   ⟨demo, 0, 0, 1, by decide, by decide, by unfold State.HostTurn; decide⟩,
   ⟨demo, 0, 0, 1, by decide, by decide, by unfold State.HostTurn; decide⟩,
   ⟨demo, 0, 0, 1, by decide, by decide, 0x100, by unfold State.HostTurn; decide, by decide⟩,
   ⟨demo, 0, 0, 1, by decide, by decide, 0x208, by unfold State.HostTurn; decide, by decide⟩,
   ⟨withSvc (fun v => { v with inbound := [.reg (.vdtab 0) 0] }) demo, 1, 0, 0, by decide, by decide, 0, by decide, ⟨_, .head _, rfl⟩⟩,
   ⟨demo, by decide⟩,
   ⟨demo, 0, by decide⟩⟩

set_option maxRecDepth 20000 in
theorem witness_ServiceCommands :
  (∃ (s : State) (n : Nat) (value : Word), s.HostTurn (.reg (.gwctl n) value) ∧ n < 16 ∧ value.getLsbD 63 = true ∧ s.counted.gwctlHeld (value.toNat / 2 ^ 56 % 64) (value.toNat % 2 ^ 56) = false) ∧
  (∃ (s : State) (n : Nat) (value : Word), s.HostTurn (.reg (.gwctl n) value) ∧ n < 16 ∧ value.getLsbD 63 = true ∧ s.counted.gwctlHeld (value.toNat / 2 ^ 56 % 64) (value.toNat % 2 ^ 56) = true) ∧
  (∃ (s : State) (n : Nat), s.running 1 n = true ∧ 
    let t := s.withdraw n
    t.slotHolders n = []) ∧
  (∃ (s : State) (n : Nat), s.running 1 n = true ∧ 
    let t := s.withdraw n
    t.slotHolders n ≠ [] ∧ t.overdue = false) ∧
  (∃ (s : State) (n : Nat), s.running 1 n = true ∧ 
    let t := s.withdraw n
    t.slotHolders n ≠ [] ∧ t.overdue = true) ∧
  (∃ (s : State) (n : Nat), s.running 2 n = true ∧ (s.coreOf ⟨.spindle, n⟩).progq = [] ∧ s.residents ⟨.spindle, n⟩ = [] ∧ s.cache.move = none ∧ s.bucketOf (fun b => b = n) = none) ∧
  (∃ (s : State) (iface lane : Nat), iface < 256 ∧ s.running 4 (iface + lane * 256) = true ∧ 
    let k := (laneSpares iface lane).1
    
    let used := (s.svc.lanesSpared.find k).getD 0
    (laneSpares iface lane).2 ≤ used) ∧
  (∃ (s : State) (iface lane : Nat), iface < 256 ∧ s.running 4 (iface + lane * 256) = true ∧ 
    let k := (laneSpares iface lane).1
    
    let used := (s.svc.lanesSpared.find k).getD 0
    used < (laneSpares iface lane).2) ∧
  (∃ (s : State) (m l : Nat), m < 512 ∧ l < 16 ∧ s.running 6 (m + l * 512 + 8192) = true ∧ s.requestsTo m = true) ∧
  (∃ (s : State) (m l : Nat), m < 512 ∧ l < 16 ∧ s.running 6 (m + l * 512 + 8192) = true ∧ s.requestsTo m = false) ∧
  (∃ (s : State) (m l : Nat), m < 512 ∧ l < 16 ∧ s.running 6 (m + l * 512) = true ∧ s.requestsTo m = false) ∧
  (∃ (s : State) (ch bank row : Nat), ch < 512 ∧ bank < 32 ∧ s.running 3 (ch + bank * 2 ^ 9 + row * 2 ^ 14) = true ∧ 
    let k := ch * 32 + bank
    
    let used := (s.svc.rowRepairs.find k).getD 0
    Config.rowSpares ≤ used) ∧
  (∃ (s : State) (r : SvcRun), s.svc.run = some r ∧ r.done = true) ∧
  (∃ (s : State) (d : Nat), s.running 5 d = true ∧ s.svc.warm = none) ∧
  (∃ (s : State) (d : Nat), s.running 5 d = true ∧ s.svc.warm = some (d, 1) ∧ s.dieActs d = [] ∧ s.dieBusy d = false) ∧
  (∃ (s : State) (d : Nat), s.running 5 d = true ∧ s.svc.warm = some (d, 4)) ∧
  (∃ (s : State) (value : Word), s.booted = true ∧ s.svc.xlrun = none ∧ value.getLsbD 63 = true ∧ xlinvLen value ≠ some 0 ∧ xlinvAligned value s.svc.xlinv1 = true) ∧
  (∃ (s : State) (x : XlinvRun), s.svc.xlrun = some x ∧ x.since + 2200 ≤ s.cycle + 1 ∧ (∀ id ∈ x.cmds, s.cmd? id = none)) :=
  ⟨⟨demo, 0, 0x8000000000000000, by unfold State.HostTurn; decide, by decide, by decide, by decide⟩,
   ⟨moving (addrKey 0 0).bucket demo, 0, 0x8000000000000000, by unfold State.HostTurn; decide, by decide, by decide, by decide⟩,
   ⟨serving 1 5 demo, 5, by decide, by decide⟩,
   ⟨serving 1 0 demo, 0, by decide, by decide, by decide⟩,
   ⟨{ serving 1 0 demo with cycle := 9000000 }, 0, by decide, by decide, by decide⟩,
   ⟨drained, 7, by decide, by decide, by decide, by decide, by decide +kernel⟩,
   ⟨withSvc (fun v => { v with lanesSpared := [(10, 1)] }) (serving 4 5 demo), 5, 0, by decide, by decide, by decide⟩,
   ⟨serving 4 5 demo, 5, 0, by decide, by decide, by decide⟩,
   ⟨serving 6 8704 (withCmd (cmdAt 0xC000000000000 .cpyst)), 0, 1, by decide, by decide, by decide, by decide⟩,
   ⟨serving 6 9217 demo, 1, 2, by decide, by decide, by decide, by decide⟩,
   ⟨serving 6 1025 demo, 1, 2, by decide, by decide, by decide, by decide⟩,
   ⟨withSvc (fun v => { v with rowRepairs := [(1, Config.rowSpares)] }) (serving 3 512 demo), 0, 1, 0, by decide, by decide, by decide, Nat.le_refl _⟩,
   ⟨withSvc (fun v => { v with run := some ⟨1, 5, 0, 0, true⟩ }) demo, ⟨1, 5, 0, 0, true⟩, by decide, by decide⟩,
   ⟨serving 5 1 demo, 1, by decide, by decide⟩,
   ⟨withSvc (fun v => { v with warm := some (1, 1) }) (serving 5 1 demo), 1, by decide, by decide, by decide, by decide⟩,
   ⟨withSvc (fun v => { v with warm := some (1, 4) }) (serving 5 1 demo), 1, by decide, by decide⟩,
   ⟨demo, 0x8000000000000001, by decide, by decide, by decide, by decide, by decide⟩,
   ⟨{ withSvc (fun v => { v with xlrun := some { vd := 0, asid := 0, va := 0, len := none, cmds := [], since := 0 } }) demo with cycle := 5000 }, { vd := 0, asid := 0, va := 0, len := none, cmds := [], since := 0 }, by decide, by decide, by decide⟩⟩

set_option maxRecDepth 20000 in
theorem witness_ResetsKeysAndMonitors :
  (∃ (v : Svc) (p _b : Image), v.imageOk p = true) ∧
  (∃ (v : Svc) (p b : Image), v.imageOk p = false ∧ v.imageOk b = true) ∧
  (∃ (v : Svc) (p b : Image), v.imageOk p = false ∧ v.imageOk b = false) ∧
  (∃ (s : State) (i : Image) (n : Nat), s.svc.boot = .running i ∧ s.svc.sessions ≠ [] ∧ n ≤ i.securityVersion) ∧
  (∃ (s : State) (i : Image) (n : Nat), s.svc.boot = .running i ∧ s.svc.sessions ≠ [] ∧ i.securityVersion < n) ∧
  (∃ (s : State) (_slot _n _vd : Nat) (_k1 _k2 : BitVec 256), s.svc.sessions = []) ∧
  (∃ (s : State) (slot : Nat) (_k1 _k2 : BitVec 256), s.booted = true ∧ s.svc.sessions ≠ [] ∧ slot < 1024 ∧ s.slotInUse slot = false) ∧
  (∃ (s : State) (slot : Nat) (_k1 _k2 : BitVec 256), s.booted = true ∧ s.svc.sessions ≠ [] ∧ slot < 1024 ∧ s.slotInUse slot = true) ∧
  (∃ (s : State) (slot : Nat) (_k1 _k2 : BitVec 256), s.booted = true ∧ s.svc.sessions ≠ [] ∧ slot < 1024 ∧ ∃ vd, vd < 64 ∧ (s.vd vd).en = false) ∧
  (∃ (s : State) (nonce index : Nat), s.booted = true ∧ 1 ≤ index ∧ index ≤ 5 ∧ ∃ t, t = [2, nonce, index] ++ s.measurement index) ∧
  (∃ (_s : State) (die : Nat), die < 4) ∧
  (∃ (s : State) (die : Nat) (w _energy : Word) (_power : BitVec 32), s.booted = true ∧ die < 4 ∧ s.cycle % 1024 = 0 ∧ (w.setWidth 16).toInt ≤ (s.svc.thwarn.setWidth 16).toInt ∧ (w.setWidth 16).toInt < 1840) ∧
  (∃ (s : State) (die : Nat) (w _energy : Word) (_power : BitVec 32), s.booted = true ∧ die < 4 ∧ s.cycle % 1024 = 0 ∧ 1840 ≤ (w.setWidth 16).toInt) ∧
  (∃ (s : State) (l : Nat), l ∈ s.svc.linksUp) :=
  ⟨⟨Svc.reset, img, img, by decide⟩,
   ⟨Svc.reset, { img with magic := 0 }, img, by decide, by decide⟩,
   ⟨Svc.reset, { img with magic := 0 }, { img with magic := 0 }, by decide, by decide⟩,
   ⟨withSvc (fun v => { v with sessions := [1] }) demo, img, 1, by decide, by decide, by decide⟩,
   ⟨withSvc (fun v => { v with sessions := [1] }) demo, img, 2, by decide, by decide, by decide⟩,
   ⟨demo, 5, 0, 0, 1, 2, by decide⟩,
   ⟨withSvc (fun v => { v with sessions := [1] }) demo, 5, 1, 2, by decide, by decide, by decide, by decide⟩,
   ⟨withSvc (fun v => { v with sessions := [1] }) demo, 0, 1, 2, by decide, by decide, by decide, by decide⟩,
   ⟨withSvc (fun v => { v with sessions := [1] }) demo, 5, 1, 2, by decide, by decide, by decide, 3, by decide, by decide⟩,
   ⟨demo, 1, 1, by decide, by decide, by decide, _, rfl⟩,
   ⟨demo, 0, by decide⟩,
   ⟨{ demo with cycle := 1024 }, 0, 0, 0, 0, by decide, by decide, by decide, by decide, by decide⟩,
   ⟨{ demo with cycle := 1024 }, 0, 2000, 0, 0, by decide, by decide, by decide, by decide⟩,
   ⟨linked demo, 2, by decide⟩⟩

set_option maxRecDepth 20000 in
theorem witness_LinksAndGateways :
  (∃ (r : R) (s : State), Ready (.baddq r) s) ∧
  (∃ (r : R) (s : State), Ready (.bqtake r) s ∧ 
    let p := s.prepare (.bqtake r)
    
    let v := (p.me.g r.a.toNat).toNat
    v = 0 ∧ p.core.blockReady = []) ∧
  (∃ (r : R) (s : State), Ready (.bqtake r) s ∧ 
    let p := s.prepare (.bqtake r)
    
    let v := (p.me.g r.a.toNat).toNat
    v = 0 ∧ ∃ n rest, p.core.blockReady = n :: rest) ∧
  (∃ (r : R) (s : State), Ready (.bqtake r) s ∧ 
    let p := s.prepare (.bqtake r)
    
    let v := (p.me.g r.a.toNat).toNat
    v ≠ 0 ∧ (∀ n ∈ p.heldSlots, v ≠ 0x400000 + 128 * n)) ∧
  (∃ (r : R) (s : State), Ready (.bqtake r) s ∧ 
    let p := s.prepare (.bqtake r)
    
    let v := (p.me.g r.a.toNat).toNat
    ∃ n, v = 0x400000 + 128 * n ∧ n ∈ p.heldSlots ∧ p.core.blockReady = []) ∧
  (∃ (s : State) (vd va : Nat) (data : List Byte), s.booted = true ∧ vd < 64 ∧ va + data.length ≤ 2 ^ 44 ∧ s.virtHeld vd (s.dasid vd) va data.length = true) ∧
  (∃ (s : State) (vd va : Nat) (data : List Byte), s.booted = true ∧ vd < 64 ∧ va + data.length ≤ 2 ^ 44 ∧ s.virtHeld vd (s.dasid vd) va data.length = false ∧ s.dmaAddrs vd va data.length true = none) ∧
  (∃ (s : State) (vd va : Nat) (data : List Byte), s.booted = true ∧ vd < 64 ∧ va + data.length ≤ 2 ^ 44 ∧ s.virtHeld vd (s.dasid vd) va data.length = false ∧ ∃ pas t, s.dmaAddrs vd va data.length true = some pas ∧ s.writeVirt vd (s.dasid vd) va data = (t, 0)) ∧
  (∃ (s : State) (vd va : Nat) (data : List Byte), s.booted = true ∧ vd < 64 ∧ va + data.length ≤ 2 ^ 44 ∧ 
    let q := s.counted
    ∃ pas t, s.HostTurn (.hostWrite vd va data false) ∧ q.virtHeld vd (q.dasid vd) va data.length = false ∧ q.dmaAddrs vd va data.length true = some pas ∧ q.writeVirt vd (q.dasid vd) va data = (t, 0)) ∧
  (∃ (s : State) (vd va n : Nat), s.HostTurn (.hostRead vd va n) ∧ vd < 64 ∧ va + n ≤ 2 ^ 44 ∧ s.virtHeld vd (s.dasid vd) va n = false ∧ ∃ pas, s.dmaAddrs vd va n false = some pas) ∧
  (∃ (s : State) (vd va n : Nat), s.HostTurn (.hostRead vd va n) ∧ vd < 64 ∧ va + n ≤ 2 ^ 44 ∧ s.virtHeld vd (s.dasid vd) va n = false ∧ s.dmaAddrs vd va n false = none) ∧
  (∃ (s : State) (link vd va : Nat) (data : List Byte) (write : Bool), s.booted = true ∧ link ∈ s.svc.linksUp ∧ (∀ j ∈ s.svc.inbound, (Inbound.peerAccess link vd va data write).follows j = false) ∧ s.takesPeer vd = false) ∧
  (∃ (s : State) (link vd va : Nat) (data : List Byte) (write : Bool), s.booted = true ∧ link ∈ s.svc.linksUp ∧ (∀ j ∈ s.svc.inbound, (Inbound.peerAccess link vd va data write).follows j = false) ∧ 2 ^ 40 ≤ va ∧ write = false) ∧
  (∃ (s : State) (link vd va : Nat) (data : List Byte) (write : Bool), s.booted = true ∧ link ∈ s.svc.linksUp ∧ (∀ j ∈ s.svc.inbound, (Inbound.peerAccess link vd va data write).follows j = false) ∧ s.takesPeer vd = true ∧ va < 2 ^ 40 ∧ s.dmaAddrs vd va data.length write = none) ∧
  (∃ (s : State) (link vd va : Nat) (data : List Byte) (write : Bool), s.booted = true ∧ link ∈ s.svc.linksUp ∧ (∀ j ∈ s.svc.inbound, (Inbound.peerAccess link vd va data write).follows j = false) ∧ s.takesPeer vd = true ∧ va < 2 ^ 40 ∧ ∃ pas, s.dmaAddrs vd va data.length write = some pas ∧ s.virtHeld vd (s.dasid vd) va data.length = false ∧ 
    let q := s.chargeLink link vd data.length (!write)
    ∃ bs, write = false ∧ allOk (q.readVirt vd (q.dasid vd) va data.length) = .ok bs) ∧
  (∃ (s : State) (link vd va : Nat) (data : List Byte) (write : Bool), s.booted = true ∧ link ∈ s.svc.linksUp ∧ (∀ j ∈ s.svc.inbound, (Inbound.peerAccess link vd va data write).follows j = false) ∧ s.takesPeer vd = true ∧ va < 2 ^ 40 ∧ ∃ pas, s.dmaAddrs vd va data.length write = some pas ∧ s.virtHeld vd (s.dasid vd) va data.length = false ∧ 
    let q := s.chargeLink link vd data.length (!write)
    ∃ t e, write = true ∧ q.writeVirt vd (q.dasid vd) va data = (t, e)) ∧
  (∃ (s : State) (link vd : Nat) (data : List Byte), s.booted = true ∧ link ∈ s.svc.linksUp ∧ data.length = 128 ∧ (∀ j ∈ s.svc.inbound, (Inbound.blockRecord link vd data).follows j = false) ∧ s.takesPeer vd = false) ∧
  (∃ (s : State) (link vd : Nat) (data : List Byte), s.booted = true ∧ link ∈ s.svc.linksUp ∧ data.length = 128 ∧ (∀ j ∈ s.svc.inbound, (Inbound.blockRecord link vd data).follows j = false) ∧ 
    let n := ofBytes ((data.drop 0x4C).take 4) % 16
    
    let gw : Agent := ⟨.gateway, n⟩
    s.takesPeer vd = true ∧ s.svc.gwavail.getLsbD n = true ∧ (∃ a ∈ s.residents gw, a.job.vd = vd) ∧ 5 ≤ (data.getD 0x4A 0).toNat % 16 ∧ (data.getD 0x4A 0).toNat % 16 ≤ 7 ∧ (∀ b ∈ data.drop 0x52, b = 0) ∧ 
    let slot := lowest (fun (j : Nat) => j ∉ (s.coreOf gw).blockReady && j ∉ (s.residents gw).flatMap (fun (a : Activity) =>
      (a.prog.map (fun (x : ProgCtx) => x.slots)).getD [])) 64
    ∃ i, slot = some i) ∧
  (∃ (s : State) (link vd : Nat) (data : List Byte), s.booted = true ∧ link ∈ s.svc.linksUp ∧ data.length = 128 ∧ (∀ j ∈ s.svc.inbound, (Inbound.blockRecord link vd data).follows j = false) ∧ 
    let n := ofBytes ((data.drop 0x4C).take 4) % 16
    
    let gw : Agent := ⟨.gateway, n⟩
    s.takesPeer vd = true ∧ s.svc.gwavail.getLsbD n = true ∧ (∃ a ∈ s.residents gw, a.job.vd = vd) ∧ 5 ≤ (data.getD 0x4A 0).toNat % 16 ∧ (data.getD 0x4A 0).toNat % 16 ≤ 7 ∧ (∀ b ∈ data.drop 0x52, b = 0) ∧ 
    let slot := lowest (fun (j : Nat) => j ∉ (s.coreOf gw).blockReady && j ∉ (s.residents gw).flatMap (fun (a : Activity) =>
      (a.prog.map (fun (x : ProgCtx) => x.slots)).getD [])) 64
    slot = none) ∧
  (∃ (s : State) (r : SwRound) (g : SwGroup), s.switch.rounds.find? (fun (x : SwRound) => x.id = r.id) = some r ∧ s.switch.groups.find r.group = some g ∧ r.opened + g.deadline ≤ s.cycle) ∧
  (∃ (s : State) (r : SwRound) (g : SwGroup), s.switch.rounds.find? (fun (x : SwRound) => x.id = r.id) = some r ∧ s.switch.groups.find r.group = some g ∧ s.cycle < r.opened + g.deadline ∧ s.roundTargets g r = []) :=
  ⟨⟨{ r0 with ext := true, d := 3, a := 1, b := 2, x := 5 }, gate [], ready (by decide) (by decide)⟩,
   ⟨{ r0 with d := 3 }, gate [], ready (by decide) (by decide), by decide, by decide⟩,
   ⟨{ r0 with d := 3 }, (gate []).modCore (fun k => { k with blockReady := [4] }), ready (by decide) (by decide), by decide, 4, [], by decide⟩,
   ⟨{ r0 with d := 3, a := 2 }, gate [], ready (by decide) (by decide), by decide, by decide⟩,
   ⟨{ r0 with d := 3, a := 7 }, gate [1], ready (by decide) (by decide), 1, by decide, by decide, by decide⟩,
   ⟨moving (addrKey 0 0).bucket demo, 0, 0, [1], by decide, by decide, by decide, by decide⟩,
   ⟨demo, 0, 0, [1], by decide, by decide, by decide, by decide, by decide⟩,
   ⟨paged demo, 0, 0, [1], by decide, by decide, by decide, by decide, [0], _, by decide, rfl⟩,
   ⟨paged demo, 0, 0, [1], by decide, by decide, by decide, [0], _, by unfold State.HostTurn; decide, by decide, by decide, rfl⟩,
   ⟨paged demo, 0, 0, 1, by unfold State.HostTurn; decide, by decide, by decide, by decide, [0], by decide⟩,
   ⟨demo, 0, 0, 1, by unfold State.HostTurn; decide, by decide, by decide, by decide, by decide⟩,
   ⟨withSvc (fun v => { v with linksUp := [2] }) demo, 2, 0, 0, [1], true, by decide, by decide, (fun _ h => by cases h), by decide⟩,
   ⟨linked demo, 2, 0, 0x10000000000, [1], false, by decide, by decide, (fun _ h => by cases h), by decide, by decide⟩,
   ⟨linked demo, 2, 0, 0, [1], true, by decide, by decide, (fun _ h => by cases h), by decide, by decide, by decide⟩,
   ⟨linked (paged demo), 2, 0, 0, [0], false, by decide, by decide, (fun _ h => by cases h), by decide, by decide, [0], by decide, by decide, [0], by decide, by decide⟩,
   ⟨linked (paged demo), 2, 0, 0, [0], true, by decide, by decide, (fun _ h => by cases h), by decide, by decide, [0], by decide, by decide, _, _, by decide, rfl⟩,
   ⟨withSvc (fun v => { v with linksUp := [2] }) demo, 2, 0, List.replicate 128 0, by decide, by decide, by decide, (fun _ h => by cases h), by decide⟩,
   ⟨linked (gate []), 2, 0, List.replicate 0x4A 0 ++ [5] ++ List.replicate 53 0, by decide, by decide, by decide, (fun _ h => by cases h), by decide, by decide, by decide, by decide, by decide, by decide, 0, by decide⟩,
   ⟨(linked (gate [])).modCore (fun k => { k with blockReady := List.range 64 }), 2, 0, List.replicate 0x4A 0 ++ [5] ++ List.replicate 53 0, by decide, by decide, by decide, (fun _ h => by cases h), by decide, by decide, by decide, by decide, by decide, by decide, by decide⟩,
   ⟨switching 10, ⟨1, 0, 0, false, 0, 0, 0, []⟩, ⟨[], 0, 10⟩, by decide, by decide, by decide⟩,
   ⟨switching 5000, ⟨1, 0, 0, false, 0, 0, 0, []⟩, ⟨[], 0, 5000⟩, by decide, by decide, by decide, by decide⟩⟩

theorem witness_RoundTrip :
  (∃ (i : Instr) (_rest : List Byte), i.WellFormed) :=
  ⟨.end_ r0, [], by unfold Instr.WellFormed; decide⟩

set_option maxRecDepth 20000 in
theorem witness_StepRunsTheInstruction :
  (∃ (s : State) (l : List Agent) (ag : Agent) (a : Activity) (g : CodeSeg) (i : Instr) (more : List (BitVec 32)), s.Running ∧ s.agenda = [] ∧ s.phase = .issue l ∧ s.nextAgent l = some ag ∧ s.chosen ag = some a ∧ 
    let f := s.take a
    f.me.trap.prb = false ∧ f.me.trap.prs = false ∧ f.me.trap.pmp = false ∧ f.seg = some g ∧ i.WellFormed ∧ g.wordsAt f.me.pc.toNat = encode i ++ more) ∧
  (∃ (s : State) (i : Instr) (rest : List Instr), s.Running ∧ s.agenda = i :: rest ∧ i.enc = .step) :=
  ⟨⟨fetching, [⟨.compute, 0⟩], ⟨.compute, 0⟩, fetching.me, ⟨1, 0, [(0, 0xE0), (1, 4)], 64, List.range 64, false, 1, none, 0⟩, .end_ r0, [0, 0, 0, 0], by unfold State.Running; decide, by decide, by decide, by decide, by decide, by decide, by decide, by decide, by decide, by unfold Instr.WellFormed; decide, by decide⟩,
   ⟨{ demo with agenda := [.kill 9] }, .kill 9, [], by unfold State.Running; decide, by decide, rfl⟩⟩

theorem witness_NothingElseStops :
  (∃ s : State, s.Running) ∧
  (∃ s : State, s.svc.tripped = true ∧ (∀ p b, Instr.coldReset p b ∉ s.agenda)) ∧
  (∃ (s : State) (p b : Image) (rest : List Instr), s.svc.tripped = true ∧ s.agenda = .coldReset p b :: rest) :=
  ⟨⟨demo, rfl⟩,
   ⟨withSvc (fun v => { v with tripped := true }) demo, by decide, (fun _ _ h => by cases h)⟩,
   ⟨{ withSvc (fun v => { v with tripped := true }) demo with agenda := [.coldReset img img] }, img, img, [], by decide, by decide⟩⟩

theorem witness_NoRollbackKept :
  (∃ s t : State, s.NoRollback ∧ step s = .next t) :=
  ⟨{ demo with agenda := [.kill 9] }, _, (fun i h => by cases h; decide), rfl⟩

set_option maxRecDepth 20000 in
theorem witness_CopiesCollectivesAndLinksComplete :
  (∃ x ∈ [(Instr.gath, CmdKind.gath), (.scat, .scat), (.red, .red)], ∃ (r : R) (s : State) (d : Desc), Ready (x.1 r) s ∧ s.me.speculative = false ∧ 
    let p := s.prepare (x.1 r)
    
    let c := p.rowCmd x.2 r d
    
    let n := (p.me.g r.e.toNat).toNat
    p.RowsPass x.2 r d ∧ (x.2 = .gath ∨ (d.ro = false ∧ p.NoneLeaving ∧ (c.bar ≠ 0 ∨ p.core.freeEntry.isSome = true))) ∧ (x.2 = .red → r.redOp ≠ 0) ∧ { p with me := { p.me with listRead := none } }.CopyRoom r.unordered 1 ∧ p.me.firstTry.getD p.cycle + (4 * n + 63) / 64 + 2 ≤ p.cycle ∧ (r.zfill = true ∨ p.badRow r d = none)) ∧
  (∃ (s : State) (c : Cmd), s.HasCmd c ∧ c ∈ s.core.copyq ∧ c.kind ≠ .cpyProg ∧ s.turnOf c = true) ∧
  (∃ (s : State) (c : Cmd) (g : Nat), s.HasCmd c ∧ c ∈ s.core.copyq ∧ (pagesOf c.spans).find? (fun g => (AMap.find c.xlat g).isNone) = some g ∧ 
    let va := g * pageBytes
    ((s.core.tlbFind c.vd (s.asidOf c) va).isSome = true ∨ (s.walkHeld c.vd (s.asidOf c) va = false ∧
      c.issued + 2 * levelLatency s.core.agent (s.walker s.core.agent) ≤ s.cycle ∧
      s.hasPassed (.walk c.id g) (s.walkNeeds s.core.agent c.vd (s.asidOf c) va) = true))) ∧
  (∃ (s : State) (c : Cmd) (x : Target) (u : Nat) (k : LineKey), s.HasCmd c ∧ c ∈ s.core.copyq ∧ c.target = some x ∧ c.started = true ∧ u ∈ c.todo ∧ u ∉ c.filled ∧ s.unitLines c u = [k] ∧ (s.bucket k.bucket).hold = false ∧ s.unitAt c u s.warmHeld = false ∧ s.cache.home k = none ∧ s.unitAt c u isSwitch = false ∧ s.warmBehind c u = false ∧ s.replicaFor c k = none ∧ s.mayFill c u = true ∧ s.fillTime c [k] ≤ s.cycle) ∧
  (∃ (s : State) (c : Cmd) (u : Nat), s.HasCmd c ∧ s.loc? c.id = none ∧ c.target.isSome = true ∧ c.kind.isLoad = true ∧ c.started = true ∧ c.todo = [u] ∧ s.unitReady c u = true ∧ s.unitAt c u s.linkWaits = false ∧ s.tripDone c u = true ∧ 
    let beats := ((c.unitSrc u).length + 63) / 64
    c.due + beats ≤ s.cycle ∧ s.core.portFree + beats ≤ s.cycle) ∧
  (∃ (s : State) (c : Cmd) (u : Nat), s.HasCmd c ∧ (c.kind = .cpyst ∨ c.kind = .cpylSt ∨ ((c.kind = .scat ∨ c.kind = .red) ∧ c.todo.head? = some u)) ∧ c.started = true ∧ u ∈ c.todo ∧ s.unitAt c u isSwitch = false ∧ (∀ v ∈ c.batch u, s.unitReady c v = true ∧ s.unitAt c v s.linkWaits = false ∧ s.tripDone c v = true)) ∧
  (∃ (s : State) (c : Cmd) (e : JEntry) (n : Nat), s.HasCmd c ∧ s.core.journal.find n = some e ∧ e.cmd = c.id ∧ c.started = true ∧ c.todo = []) ∧
  (∃ (s : State) (c : Cmd), s.HasCmd c ∧ c.started = true ∧ c.kind = .tflush ∧ c.todo ≠ [] ∧ s.tripDone c 0 = true ∧ (∀ l ∈ s.cache.lines, l.key.vd = c.vd → l.key.tid = c.tid → (s.bucket l.key.bucket).hold = false)) ∧
  (∃ (s : State) (c : Cmd) (pas : List Nat) (image : List Byte), s.HasCmd c ∧ c.started = true ∧ c.kind = .codeld ∧ (List.range c.len).map (fun k => PageMap.apply c.xlat false (c.opB.toNat + k)) = pas.map Except.ok ∧ s.unitReady c 0 = true ∧ s.unitAt c 0 s.linkWaits = false ∧ s.tripDone c 0 = true ∧ pas.map (fun pa => (s.asModule c.modid).loadVia (s.replicaFor c (addrKey c.vd pa)) c.vd (addrLoc c.vd pa)) = image.map Except.ok) ∧
  (∃ (s : State) (c : Cmd) (u : Nat), s.HasCmd c ∧ c.started = true ∧ c.kind = .cpyst ∧ c.startedAt + 170000 ≤ s.cycle ∧ c.todo.find? (fun u => s.unitAt c u s.linkWaits) = some u) ∧
  (∃ (s : State) (c : Cmd) (u : Nat), s.HasCmd c ∧ c.started = true ∧ c.kind = .cpyst ∧ c.startedAt + 170000 ≤ s.cycle ∧ c.todo.find? (fun u => s.unitAt c u (fun pa => match paKind pa with
      | .cxl _ _ => !s.warmHeld pa
      | _ => false)) = some u) ∧
  (∃ (r : R) (s : State), Ready (.coll r) s ∧ 
    let p := s.prepare (.coll r)
    
    let y := (p.me.g r.a.toNat).toNat
    
    let d := GroupDesc.parse (p.readLocal y 32)
    
    let o := d.op r
    
    let sl := o.sl d.rank
    
    let dl := o.dl d.rank
    p.checkLocal false y 32 = none ∧ y % 32 = 0 ∧ p.BarNamed r ∧ p.me.rangeBusy p.nextCmd false y 32 = false ∧ p.poisonAt y 32 = none ∧ d.fault o = 0 ∧ p.checkLocal false d.src sl = none ∧ p.checkLocal true d.dst dl = none ∧ p.me.party = none ∧ p.me.coll = none ∧ p.me.speculative = false ∧ p.portFull = false ∧ p.scoreUsed p.me.agent + (if sl = 0 then 0 else 1) + (if dl = 0 then 0 else 1) ≤ scoreSize p.me.agent.kind) ∧
  (∃ (s : State) (m : Msg) (uid b : Nat) (saved : Bool) (sender : Agent) (a : Activity) (c : CollRank), s.msgs.find? (fun x => x.id = m.id) = some m ∧ m.kind = .coll uid sender ∧ s.anyAct? uid = some (a, saved) ∧ s.msgKey m = some (b, sender) ∧ s.msgReady m b sender = true ∧ a.coll = some c ∧ s.forming a.job.vd a.job.keysp c.key = none) ∧
  (∃ (s : State) (g : Group) (e : Nat), s.dirs.groups.find? (fun h => h.id = g.id && h.complete.isNone) = some g ∧ g.deadline = some e ∧ s.deadlineReady (s.groupDir g) e g.id = true ∧ (s.keyEntry (keyBucket g.key g.keysp g.vd)).hold = false) ∧
  (∃ (s : State) (m : Msg) (uid dst vd keysp : Nat) (key : Word) (sender : Agent) (g : Group), s.msgs.find? (fun x => x.id = m.id) = some m ∧ m.kind = .cancel uid dst vd keysp key true sender ∧ s.msgReady m (keyBucket key keysp vd) sender = true ∧ s.forming vd keysp key = some g) ∧
  (∃ (s : State) (uid e : Nat) (a : Activity) (g : Group) (m : Member) (c : CollRank), s.act? uid = some a ∧ s.collGroup uid = some (g, m) ∧ a.coll = some c ∧ g.complete = some e ∧ c.sent = false ∧ e + dirLatency a.agent (s.groupDir g) ≤ s.cycle ∧ s.reedFull g = false ∧ (s.focus uid).releasedRank g.scope c.srcCmd = true ∧ (s.focus uid).me.rangeBusy c.srcCmd false c.src (c.op.sl c.rank) = false) ∧
  (∃ (s : State) (g : Group) (m : Member) (c : CollRank), s.core.agent = s.me.agent ∧ s.collGroup s.me.uid = some (g, m) ∧ s.me.coll = some c ∧ g.complete.isSome = true ∧ s.allLeft g = true ∧ g.due m ≤ s.cycle ∧ s.hasPassed (.result s.me.uid) (s.resultNeeds g m) = true ∧ c.status = none ∧ s.me.rangeBusy c.dstCmd true c.dst (c.op.dl c.rank) = false ∧ c.bar = 0) ∧
  (∃ (s : State) (st n at_ : Nat) (c : CollRank), s.core.agent = s.me.agent ∧ s.me.coll = some c ∧ c.status = some (st, n, at_) ∧ at_ ≤ s.cycle ∧ c.bar = 0) ∧
  (∃ (r : R) (s : State), Ready (.baddq r) s) ∧
  (∃ (r : R) (s : State), Ready (.bqtake r) s ∧ 
    let p := s.prepare (.bqtake r)
    (p.me.g r.a.toNat).toNat = 0) ∧
  (∃ (s : State) (vd va : Nat) (data : List Byte) (pas : List Nat) (t : State), s.booted = true ∧ vd < 64 ∧ va + data.length ≤ 2 ^ 44 ∧ s.virtHeld vd (s.dasid vd) va data.length = false ∧ s.dmaAddrs vd va data.length true = some pas ∧ s.writeVirt vd (s.dasid vd) va data = (t, 0)) ∧
  (∃ (s : State) (vd va n : Nat), s.HostTurn (.hostRead vd va n) ∧ vd < 64 ∧ va + n ≤ 2 ^ 44 ∧ s.virtHeld vd (s.dasid vd) va n = false) ∧
  (∃ (s : State) (link vd va : Nat) (data bs : List Byte) (pas : List Nat), s.booted = true ∧ link ∈ s.svc.linksUp ∧ s.takesPeer vd = true ∧ (∀ j ∈ s.svc.inbound, (Inbound.peerAccess link vd va data false).follows j = false) ∧ va < 2 ^ 40 ∧ s.virtHeld vd (s.dasid vd) va data.length = false ∧ s.dmaAddrs vd va data.length false = some pas ∧ 
    let q := s.chargeLink link vd data.length true
    allOk (q.readVirt vd (q.dasid vd) va data.length) = .ok bs) ∧
  (∃ (s : State) (link vd i : Nat) (data : List Byte), s.booted = true ∧ link ∈ s.svc.linksUp ∧ data.length = 128 ∧ (∀ j ∈ s.svc.inbound, (Inbound.blockRecord link vd data).follows j = false) ∧ 
    let n := ofBytes ((data.drop 0x4C).take 4) % 16
    
    let gw : Agent := ⟨.gateway, n⟩
    s.takesPeer vd = true ∧ s.svc.gwavail.getLsbD n = true ∧ (∃ a ∈ s.residents gw, a.job.vd = vd) ∧ 5 ≤ (data.getD 0x4A 0).toNat % 16 ∧ (data.getD 0x4A 0).toNat % 16 ≤ 7 ∧ (∀ b ∈ data.drop 0x52, b = 0) ∧ lowest (fun (j : Nat) => j ∉ (s.coreOf gw).blockReady && j ∉ (s.residents gw).flatMap (fun (a : Activity) =>
      (a.prog.map (fun (x : ProgCtx) => x.slots)).getD [])) 64 = some i) ∧
  (∃ (s : State) (r : SwRound) (g : SwGroup), s.switch.rounds.find? (fun (x : SwRound) => x.id = r.id) = some r ∧ s.switch.groups.find r.group = some g ∧ r.opened + g.deadline ≤ s.cycle) :=
  ⟨⟨_, .head _, { r0 with ext := true, lit := some 1, a := 1, c := 7, e := 3, m := 0 }, listed 0 (some 0), ten, ready (by decide) (by decide), by decide, ⟨by decide, by decide, by decide, by decide, by decide, by decide, by decide, by decide, by decide, by decide, ⟨by decide, by decide⟩, by decide⟩, .inl rfl, (fun h => by cases h), ⟨by decide, by decide⟩, by decide, .inr (by decide)⟩,
   ⟨withCmd (waiting .cpyst), waiting .cpyst, ⟨by decide, by decide, by decide⟩, .head _, by decide, by decide⟩,
   ⟨walked (paged (withCmd { cmdOf .cpyst with xlat := [] })), { cmdOf .cpyst with xlat := [] }, 16, ⟨by decide, by decide, by decide⟩, .head _, by decide, .inr ⟨by decide, by decide, by decide⟩⟩,
   ⟨passed (cmdAt 0x100000 .cpyst) 0 (withCmd (cmdAt 0x100000 .cpyst)), cmdAt 0x100000 .cpyst, ⟨0, 1, ten⟩, 0, _, ⟨by decide, by decide, by decide⟩, .head _, by decide, by decide, by decide, by decide, rfl, by decide, by decide, by decide, by decide, by decide, by decide, by decide, by decide⟩,
   ⟨loaded .cpy, cmdOf .cpy, 0, ⟨by decide, by decide, by decide⟩, by decide, by decide, by decide, by decide, by decide, by decide, by decide, by decide, by decide, by decide⟩,
   ⟨loaded .cpyst, cmdOf .cpyst, 0, ⟨by decide, by decide, by decide⟩, .inl (by decide), by decide, by decide, by decide, by decide⟩,
   ⟨journaled { cmdOf .cpyst with todo := [] }, { cmdOf .cpyst with todo := [] }, ⟨1, 1, 0, 0, 0⟩, 0, ⟨by decide, by decide, by decide⟩, by decide, by decide, by decide, by decide⟩,
   ⟨passed (cmdOf .tflush) 0 (withCmd (cmdOf .tflush)), cmdOf .tflush, ⟨by decide, by decide, by decide⟩, by decide, by decide, by decide, by decide, (fun l h => by cases h)⟩,
   ⟨passed { cmdOf .codeld with len := 4, xlat := [(0, some (0, true))] } 0 (withCmd { cmdOf .codeld with len := 4, xlat := [(0, some (0, true))] }), { cmdOf .codeld with len := 4, xlat := [(0, some (0, true))] }, [1, 2, 3, 4], [0, 0, 0, 0], ⟨by decide, by decide, by decide⟩, by decide, by decide, by decide, by decide, by decide, by decide, by decide⟩,
   ⟨{ withCmd (cmdAt 0xC000000000000 .cpyst) with cycle := 200000, svc := { copier.svc with routes := [(0, 1)] } }, cmdAt 0xC000000000000 .cpyst, 0, ⟨by decide, by decide, by decide⟩, by decide, by decide, by decide, by decide⟩,
   ⟨{ withCmd (cmdAt 0x100000000000 .cpyst) with cycle := 200000 }, cmdAt 0x100000000000 .cpyst, 0, ⟨by decide, by decide, by decide⟩, by decide, by decide, by decide, by decide⟩,
   ⟨{ r0 with ext := true, d := 3, a := 1 }, withLm 0x800 [5, 0, 0, 0, 0, 0, 0, 0, 2] demo, ready (by decide) (by decide), by decide, by decide, ⟨by decide, by decide⟩, by decide, by decide, by decide, by decide, by decide, by decide, by decide, by decide, by decide, by decide⟩,
   ⟨colling rankc [] [⟨1, .coll 1 ⟨.compute, 0⟩, 1000⟩], ⟨1, .coll 1 ⟨.compute, 0⟩, 1000⟩, 1, _, false, ⟨.compute, 0⟩, _, rankc, rfl, rfl, rfl, rfl, by decide, rfl, by decide⟩,
   ⟨colling rankc [group [memb 1 2] (some 900) none] [], group [memb 1 2] (some 900) none, 900, by decide, by decide, by decide, by decide⟩,
   ⟨colling rankc [group [memb 0 1] none none] [⟨1, .cancel 1 3 0 0 5 true ⟨.compute, 0⟩, 1000⟩], ⟨1, .cancel 1 3 0 0 5 true ⟨.compute, 0⟩, 1000⟩, 1, 3, 0, 0, 5, ⟨.compute, 0⟩, group [memb 0 1] none none, rfl, rfl, by decide, by decide⟩,
   ⟨colling rankc [group [memb 0 1] none (some 100)] [], 1, 100, _, group [memb 0 1] none (some 100), memb 0 1, rankc, rfl, by decide, by decide, by decide, by decide, by decide, by decide, by decide, by decide⟩,
   ⟨collected leftc (group [memb 0 1] none (some 100)) (memb 0 1), group [memb 0 1] none (some 100), memb 0 1, leftc, by decide, by decide, by decide, by decide, by decide, by decide, by decide, by decide, by decide, by decide⟩,
   ⟨colling { rankc with status := some (1, 1, 900) } [] [], 1, 1, 900, { rankc with status := some (1, 1, 900) }, by decide, by decide, by decide, by decide, by decide⟩,
   ⟨{ r0 with ext := true, d := 3, a := 1, b := 2, x := 5 }, gate [], ready (by decide) (by decide)⟩,
   ⟨{ r0 with d := 3 }, (gate []).modCore (fun k => { k with blockReady := [4] }), ready (by decide) (by decide), by decide⟩,
   ⟨paged demo, 0, 0, [1], [0], _, by decide, by decide, by decide, by decide, by decide, rfl⟩,
   ⟨paged demo, 0, 0, 1, by unfold State.HostTurn; decide, by decide, by decide, by decide⟩,
   ⟨linked (paged demo), 2, 0, 0, [0], [0], [0], by decide, by decide, by decide, (fun _ h => by cases h), by decide, by decide, by decide, by decide⟩,
   ⟨linked (gate []), 2, 0, 0, List.replicate 0x4A 0 ++ [5] ++ List.replicate 53 0, by decide, by decide, by decide, (fun _ h => by cases h), by decide, by decide, by decide, by decide, by decide, by decide, by decide⟩,
   ⟨switching 10, ⟨1, 0, 0, false, 0, 0, 0, []⟩, ⟨[], 0, 10⟩, by decide, by decide, by decide⟩⟩

end Sys2Proof.Tests
end

section
/-! SUPPORT. The state after reset (R293, R304, R394, R395, R445). -/

namespace Sys2Proof.Machine

/-- No entry of the address bucket table is listed, so each has its reset value (R293). -/
@[simp] theorem State.reset_bucket (b : Nat) : State.reset.bucket b = ⟨false, false, b % 384⟩ := rfl

/-- No entry of the key bucket table is listed, so each has its reset value (R304). -/
@[simp] theorem State.reset_keyEntry (b : Nat) : State.reset.keyEntry b = ⟨false, b % 256⟩ := rfl

/-- No VD is listed, so each holds its Reset values (R394, R395). -/
@[simp] theorem State.reset_vd (v : Nat) : State.reset.vd v = Vd.reset := rfl

/-- The boot ROM has not run, so there is no image that could be too old (R445). -/
theorem State.noRollback_reset : State.reset.NoRollback := fun _ h => nomatch h

/-- Settles O59, field by field: the tables list nothing, so every lookup gives the reset value, and no image runs. -/
theorem resetState : Obligations.ResetState := by
  unfold Obligations.ResetState
  have noActivity : State.reset.allActs = [] := by decide
  have vdReset : ∀ v, (State.reset.vd v).en = false ∧ (State.reset.vd v).spown = false ∧ (State.reset.vd v).serr = false ∧
      (State.reset.vd v).vdtab = 0 ∧ (State.reset.vd v).vdasid = 0 ∧ (State.reset.vd v).vdrdir = 0 := fun v => by
    simp [Vd.reset]
  exact ⟨rfl, noActivity, rfl, rfl, rfl, State.reset_bucket, State.reset_keyEntry, vdReset, rfl, rfl, rfl, rfl,
    State.noRollback_reset⟩

end Sys2Proof.Machine
end

section
/-! SUPPORT. The sequence point of the host's posted writes (R413), and changes to the registers of one VD. -/

namespace Sys2Proof.Machine

/-! ## Accesses whose turn it is, and accesses that wait (R413) -/

theorem State.receive_of_turn {i : Inbound} {s : State} (f : State → State) (h : ∀ j ∈ s.svc.inbound, i.follows j = false) :
    s.receive i f = f s := by
  have noneBefore : s.svc.inbound.any i.follows = false := by simpa using h
  simp [State.receive, noneBefore]

theorem State.posted_of_hostTurn {i : Inbound} {s : State} (f : State → State) (h : s.HostTurn i) : s.posted i f = f s.counted := by
  obtain ⟨booted, turn⟩ := h
  simp only [State.posted, booted, if_true]
  exact State.receive_of_turn (s := s.counted) f turn

theorem State.posted_of_waiting {i : Inbound} {s : State} (f : State → State) (booted : s.booted = true)
    (h : ∃ j ∈ s.svc.inbound, i.follows j = true) : s.posted i f = s.counted.keepInbound i := by
  have someBefore : s.svc.inbound.any i.follows = true := List.any_eq_true.mpr h
  simp [State.posted, State.receive, State.counted, booted, someBefore]

@[simp] theorem State.counted_vd (s : State) (v : Nat) : s.counted.vd v = s.vd v := rfl

/-! ## The registers of one VD -/

@[simp] theorem State.modVd_vd_same (vd : Nat) (f : Vd → Vd) (s : State) : (s.modVd vd f).vd vd = f (s.vd vd) := by
  simp [State.modVd, State.vd, AMap.find_put_same]

theorem State.modVd_vd_other {vd w : Nat} (h : w ≠ vd) (f : Vd → Vd) (s : State) : (s.modVd vd f).vd w = s.vd w := by
  simp [State.modVd, State.vd, AMap.find_put_other _ h.symm]

/-- Only what a change makes of the registers as they stand counts. -/
theorem State.modVd_congr {vd : Nat} {f g : Vd → Vd} {s : State} (h : f (s.vd vd) = g (s.vd vd)) : s.modVd vd f = s.modVd vd g := by
  simp [State.modVd, h]

theorem State.writeVdReg_of_lt {vd : Nat} (hvd : vd < 64) (f : Vd → Vd) (s : State) : s.writeVdReg vd f = s.modVd vd f := by
  simp [State.writeVdReg, hvd]

@[simp] theorem Vd.refuse_serr (v : Vd) : v.refuse.serr = true := rfl
@[simp] theorem Vd.refuse_en (v : Vd) : v.refuse.en = v.en := rfl
@[simp] theorem Vd.refuse_shr (v : Vd) : v.refuse.shr = v.shr := rfl

/-- A refusal takes SPOWN alone from a VDCTL value that is still to act: its EN stays. -/
@[simp] theorem Vd.refuse_enNext (v : Vd) : v.refuse.enNext = v.enNext := by
  cases h : v.next <;> simp [Vd.enNext, Vd.refuse, h]

/-- EN ahead, by whether a write of VDCTL is still to act (R404). -/
theorem Vd.enNext_eq (v : Vd) : v.enNext = match v.next with
    | some w => w.getLsbD 0
    | none => v.en := by
  cases h : v.next <;> simp [Vd.enNext, h]

/-! ## The registers of the host queues (R376) -/

/-- JQCTL after a write: EN and ERR as given, LOGN and TAIL from the value written, and HEAD as it was. -/
def jqctlWord (enErr : Nat) (value : Word) (old : Nat) : Word :=
  BitVec.ofNat 64 (enErr + value.toNat / 2 ^ 32 % 16 * 2 ^ 32 + ringHead old * 2 ^ 16 + value.toNat % 2 ^ 16)

/-- LOGN is reserved, or BASE is misaligned: no queue can be enabled so (R376). -/
def Vd.badRing (v : Vd) (q : Nat) (value : Word) : Bool := value.toNat / 2 ^ 32 % 16 > 12 || v.jqbaseOf q % 64 ≠ 0

/-- EN stays 0 and ERR is set where EN is written with a bad ring; an ERR that stands stays unless it is cleared. -/
theorem Vd.writeJqctl_eq (v : Vd) (q : Nat) (value : Word) :
    v.writeJqctl q value = { v with jqctl := v.jqctl.put q (jqctlWord
      ((if value.getLsbD 63 && !(value.getLsbD 63 && v.badRing q value) then 2 ^ 63 else 0) +
        (if (value.getLsbD 63 && v.badRing q value) || ((v.jqctlOf q).testBit 62 && !value.getLsbD 62) then 2 ^ 62 else 0))
      value (v.jqctlOf q)) } := rfl

theorem Vd.writeJqctl_of_goodRing {v : Vd} {q : Nat} {value : Word} (en : value.getLsbD 63 = true) (good : v.badRing q value = false)
    (noErr : (v.jqctlOf q).testBit 62 = false) :
    v.writeJqctl q value = { v with jqctl := v.jqctl.put q (jqctlWord (2 ^ 63) value (v.jqctlOf q)) } := by
  simp [-BitVec.getLsbD_eq_getElem, Vd.writeJqctl_eq, en, good, noErr]

theorem Vd.writeJqctl_of_badRing {v : Vd} {q : Nat} {value : Word} (en : value.getLsbD 63 = true) (bad : v.badRing q value = true) :
    v.writeJqctl q value = { v with jqctl := v.jqctl.put q (jqctlWord (2 ^ 62) value (v.jqctlOf q)) } := by
  simp [-BitVec.getLsbD_eq_getElem, Vd.writeJqctl_eq, en, bad]

theorem Vd.writeJqctl_of_disable {v : Vd} {q : Nat} {value : Word} (en : value.getLsbD 63 = false)
    (noErr : (v.jqctlOf q).testBit 62 = false) :
    v.writeJqctl q value = { v with jqctl := v.jqctl.put q (jqctlWord 0 value (v.jqctlOf q)) } := by
  simp [-BitVec.getLsbD_eq_getElem, Vd.writeJqctl_eq, en, noErr]

theorem State.putJqctl_of_lt {vd q : Nat} (hvd : vd < 64) (hq : q < 16) (value : Word) (s : State) :
    s.putJqctl vd q value = s.modVd vd (fun v => v.writeJqctl q value) := by
  simp [State.putJqctl, Nat.not_le.mpr hvd, Nat.not_le.mpr hq]

theorem State.putTail_of_lt {vd q : Nat} (hvd : vd < 64) (hq : q < 16) (tail : BitVec 16) (s : State) :
    s.putTail vd q tail = s.modVd vd (fun v => { v with
      jqctl := v.jqctl.put q (mergeBits (BitVec.ofNat 64 (v.jqctlOf q)) (tail.setWidth 64) 0xFFFF) }) := by
  simp [State.putTail, Nat.not_le.mpr hvd, Nat.not_le.mpr hq]

/-- JQ_ENABLE in its turn, by what the write makes of the VD's registers. -/
theorem exec_jqEnable {vd q : Nat} {value : Word} {s : State} {f : Vd → Vd} (hvd : vd < 64) (hq : q < 16)
    (turn : s.HostTurn (.reg (.jqctl vd q) value)) (h : (s.vd vd).writeJqctl q value = f (s.vd vd)) :
    exec (.jqEnable vd q value) s = .next (s.counted.modVd vd f) := by
  show Host.Outcome.next _ = _
  rw [State.posted_of_hostTurn _ turn, State.putJqctl_of_lt hvd hq, State.modVd_congr (g := f) h]

theorem exec_jqDoorbell {vd q : Nat} {tail : BitVec 16} {s : State} (hvd : vd < 64) (hq : q < 16) (turn : s.HostTurn (.tail vd q tail)) :
    exec (.jqDoorbell vd q tail) s = .next (s.counted.modVd vd (fun v => { v with
      jqctl := v.jqctl.put q (mergeBits (BitVec.ofNat 64 (v.jqctlOf q)) (tail.setWidth 64) 0xFFFF) })) := by
  show Host.Outcome.next _ = _
  rw [State.posted_of_hostTurn _ turn, State.putTail_of_lt hvd hq]

end Sys2Proof.Machine
end

section
/-! SUPPORT. Writes of VDCTL, SHR and WAYMSK, and when they act (R394, R397, R398, R404, R406, R408). -/

namespace Sys2Proof

/-- A fold of `put` over keys gives each of them its value, and leaves the other keys alone. -/
theorem AMap.find_foldl_put {α : Type} (g : Nat → α) (a : Nat) (keys : List Nat) (m : AMap α) :
    (keys.foldl (fun m k => AMap.put m k (g k)) m).find a = if a ∈ keys then some (g a) else m.find a := by
  induction keys generalizing m with
  | nil => simp
  | cons k keys ih =>
    rw [List.foldl_cons, ih]
    by_cases later : a ∈ keys
    · simp [later]
    · by_cases now : a = k
      · subst now; simp [AMap.find_put_same]
      · simp [later, now, AMap.find_put_other _ (Ne.symm now)]

end Sys2Proof

namespace Sys2Proof.Machine

/-! ## Writes of VDCTL (R394, R398) -/

/-- A write of VDCTL that would change EN while the VD holds a job. -/
theorem State.writeVdctl_of_jobs {s : State} {vd : Nat} {value : Word} (change : value.getLsbD 0 ≠ (s.vd vd).enNext)
    (jobs : ∃ j ∈ s.disp.jobs, j.vd = vd) : s.writeVdctl vd value = s := by
  have holds : s.disp.jobs.any (fun j => j.vd = vd) = true := by simpa using jobs
  simp only [State.writeVdctl, holds]
  exact if_pos (by simp only [Bool.and_true, Bool.or_eq_true, decide_eq_true_eq]; exact .inr change)

/-- Past the two refusals for VD number and jobs, the sum of the rates decides. -/
theorem State.writeVdctl_of_free {s : State} {vd : Nat} {value : Word} (hvd : vd < 64)
    (free : value.getLsbD 0 = (s.vd vd).enNext ∨ ∀ j ∈ s.disp.jobs, j.vd ≠ vd) :
    s.writeVdctl vd value =
      if value.getLsbD 0 && !(s.vd vd).enNext && (List.range 6).any (fun c => s.rateAhead c vd + ((s.vd vd).shareOf c).1 > shareCap c) then
        s.modVd vd Vd.refuse
      else s.modVd vd (fun v => { v with next := some value }) := by
  refine if_neg ?_
  simp only [Bool.or_eq_true, Bool.and_eq_true, decide_eq_true_eq, List.any_eq_true, not_or, not_and]
  refine ⟨Nat.not_le.mpr hvd, fun change ⟨j, hj, same⟩ => ?_⟩
  rcases free with keeps | none
  · exact change keeps
  · exact none j hj same

theorem State.writeVdctl_of_overCap {s : State} {vd c : Nat} {value : Word} (hvd : vd < 64)
    (free : value.getLsbD 0 = (s.vd vd).enNext ∨ ∀ j ∈ s.disp.jobs, j.vd ≠ vd) (on : value.getLsbD 0 = true)
    (off : (s.vd vd).enNext = false) (hc : c < 6) (above : shareCap c < s.rateAhead c vd + ((s.vd vd).shareOf c).1) :
    s.writeVdctl vd value = s.modVd vd Vd.refuse := by
  have tooMuch : (List.range 6).any (fun c => s.rateAhead c vd + ((s.vd vd).shareOf c).1 > shareCap c) = true :=
    List.any_eq_true.mpr ⟨c, List.mem_range.mpr hc, decide_eq_true above⟩
  rw [State.writeVdctl_of_free hvd free]
  exact if_pos (by rw [on, off, tooMuch]; rfl)

theorem State.writeVdctl_of_fits {s : State} {vd : Nat} {value : Word} (hvd : vd < 64)
    (free : value.getLsbD 0 = (s.vd vd).enNext ∨ ∀ j ∈ s.disp.jobs, j.vd ≠ vd)
    (fits : value.getLsbD 0 = false ∨ (s.vd vd).enNext = true ∨ ∀ c, c < 6 → s.rateAhead c vd + ((s.vd vd).shareOf c).1 ≤ shareCap c) :
    s.writeVdctl vd value = s.modVd vd (fun v => { v with next := some value }) := by
  rw [State.writeVdctl_of_free hvd free]
  refine if_neg ?_
  simp only [Bool.and_eq_true, Bool.not_eq_true', List.any_eq_true, List.mem_range, decide_eq_true_eq, not_and]
  rintro ⟨on, off⟩ ⟨c, hc, above⟩
  rcases fits with off' | on' | fits
  · exact Bool.false_ne_true (off'.symm.trans on)
  · exact Bool.false_ne_true (off.symm.trans on')
  · exact Nat.not_lt.mpr (fits c hc) above

theorem exec_vdEnable {s t : State} {vd : Nat} {value : Word} (turn : s.HostTurn (.reg (.vdctl vd) value))
    (written : s.counted.writeVdctl vd value = t) : exec (.vdEnable vd value) s = .next t := by
  show Host.Outcome.next _ = _
  rw [State.posted_of_hostTurn _ turn, written]

/-! ## A write of VDCTL takes effect (R394, R404) -/

/-- What the effect of a write of VDCTL makes of an arbiter's buckets: a VD's bucket is filled as EN goes from 0 to 1, and goes as EN is 0. -/
def fillShare (v : Vd) (vd : Nat) (en : Bool) (c : Nat) (h : Share) : Share :=
  if en && !v.en then { h with tokens := h.tokens.put vd ((v.shareOf c).2 * 1024) }
  else if !en then { h with tokens := h.tokens.del vd }
  else h

theorem fillShare_of_enabled {v : Vd} {vd c : Nat} (off : v.en = false) (h : Share) :
    ((fillShare v vd true c h).tokens.find vd).getD 0 = (v.shareOf c).2 * 1024 := by
  simp [fillShare, off, AMap.find_put_same]

theorem fillShare_of_kept {v : Vd} {vd c : Nat} (on : v.en = true) (h : Share) : fillShare v vd true c h = h := by
  simp [fillShare, on]

@[simp] theorem State.setVdctl_arbs (s : State) (vd : Nat) (value : Word) :
    (s.setVdctl vd value).arbs = s.arbs.map (fun x => (x.1, fillShare (s.vd vd) vd (value.getLsbD 0) (arbClass x.1) x.2)) := rfl

theorem State.setVdctl_vds (s : State) (vd : Nat) (value : Word) : (s.setVdctl vd value).vds = (s.modVd vd (fun v => { v with
    en := value.getLsbD 0, spown := value.getLsbD 2, serr := v.serr && !value.getLsbD 1, next := none })).vds := rfl

theorem State.setVdctl_idle (s : State) (vd : Nat) (value : Word) {c : Nat} (hc : c < 6) :
    (s.setVdctl vd value).idle.find c = some (fillShare (s.vd vd) vd (value.getLsbD 0) c ((s.idle.find c).getD Share.empty)) := by
  have folded : (s.setVdctl vd value).idle = (List.range 6).foldl (fun m k => AMap.put m k
      (fillShare (s.vd vd) vd (value.getLsbD 0) k ((s.idle.find k).getD Share.empty))) s.idle := rfl
  rw [folded, AMap.find_foldl_put]
  exact if_pos (List.mem_range.mpr hc)

theorem State.setVdctl_vd_same (s : State) (vd : Nat) (value : Word) : (s.setVdctl vd value).vd vd = { s.vd vd with
    en := value.getLsbD 0, spown := value.getLsbD 2, serr := (s.vd vd).serr && !value.getLsbD 1, next := none } := by
  rw [State.vd, State.setVdctl_vds]
  exact State.modVd_vd_same vd _ s

theorem State.setVdctl_vd_other {vd w : Nat} (h : w ≠ vd) (s : State) (value : Word) : (s.setVdctl vd value).vd w = s.vd w := by
  rw [State.vd, State.setVdctl_vds]
  exact State.modVd_vd_other h _ s

/-! ## Writes of SHR (R397, R398) -/

theorem State.writeShr_of_fits {s : State} {vd c : Nat} {value : Word} (hvd : vd < 64) (hc : c < 6)
    (rate : value.toNat / 2 ^ 32 % 2 ^ 20 ≤ shareCap c)
    (sum : (s.vd vd).enNext = true → s.rateAhead c vd + value.toNat / 2 ^ 32 % 2 ^ 20 ≤ shareCap c) :
    s.writeShr vd c value = s.modVd vd (fun v => { v with
      shr := v.shr.put c (value.toNat / 2 ^ 32 % 2 ^ 20, value.toNat % 2 ^ 16) }) := by
  unfold State.writeShr
  rw [if_neg (by simp [hvd, hc]), if_neg (by simpa using ⟨rate, sum⟩)]

theorem State.writeShr_of_overCap {s : State} {vd c : Nat} {value : Word} (hvd : vd < 64) (hc : c < 6)
    (above : shareCap c < value.toNat / 2 ^ 32 % 2 ^ 20 ∨
      ((s.vd vd).enNext = true ∧ shareCap c < s.rateAhead c vd + value.toNat / 2 ^ 32 % 2 ^ 20)) :
    s.writeShr vd c value = s.modVd vd Vd.refuse := by
  unfold State.writeShr
  rw [if_neg (by simp [hvd, hc]), if_pos (by simpa using above)]

theorem exec_shrWrite {s t : State} {vd c : Nat} {value : Word} (turn : s.HostTurn (.reg (.shr vd c) value))
    (written : s.counted.writeShr vd c value = t) : exec (.shrWrite vd c value) s = .next t := by
  show Host.Outcome.next _ = _
  rw [State.posted_of_hostTurn _ turn, written]

/-! ## Writes of WAYMSK, and the cycles after them (R406, R408) -/

theorem exec_waymskWrite {s : State} {vd slice : Nat} {value : Word} (turn : s.HostTurn (.reg (.waymsk vd slice) value)) (hvd : vd < 64)
    (hslice : slice < 384) : exec (.waymskWrite vd slice value) s = .next { s.counted with cache := { s.cache with
      remask := s.cache.remask ++ [(vd, slice, s.cycle, value.setWidth 16)] } } := by
  show Host.Outcome.next _ = _
  rw [State.posted_of_hostTurn _ turn]
  exact congrArg _ (if_neg (by simp [hvd, hslice]))

/-- The mask that a VD finds in a slice once it is set. -/
theorem Cache.setWays_waymsk (k : Cache) (vd slice : Nat) (ways : BitVec 16) :
    ((k.setWays vd slice ways).waymsk.find (vd * 384 + slice)).getD 0xFFFF = ways := by
  by_cases allOnes : ways = 0xFFFF
  · rw [Cache.setWays, if_pos allOnes, AMap.find_del_same, allOnes, Option.getD_none]
  · rw [Cache.setWays, if_neg allOnes, AMap.find_put_same, Option.getD_some]

/-- The masks written in a cycle come into force, in their order. -/
def Cache.setMasks (k : Cache) (cycle : Nat) : Cache :=
  (k.remask.filter (fun x => x.2.2.1 = cycle)).foldl (fun k x => k.setWays x.1 x.2.1 x.2.2.2) k

theorem Cache.foldl_setWays_frame (writes : List (Nat × Nat × Nat × BitVec 16)) (k : Cache) :
    (writes.foldl (fun k x => k.setWays x.1 x.2.1 x.2.2.2) k).remask = k.remask ∧
    (writes.foldl (fun k x => k.setWays x.1 x.2.1 x.2.2.2) k).lines = k.lines := by
  induction writes generalizing k with
  | nil => exact ⟨rfl, rfl⟩
  | cons x writes ih => exact ih (k.setWays x.1 x.2.1 x.2.2.2)

@[simp] theorem Cache.setMasks_remask (k : Cache) (cycle : Nat) : (k.setMasks cycle).remask = k.remask := (Cache.foldl_setWays_frame _ k).1
@[simp] theorem Cache.setMasks_lines (k : Cache) (cycle : Nat) : (k.setMasks cycle).lines = k.lines := (Cache.foldl_setWays_frame _ k).2

/-- Of the masks written in a cycle, the last one stands. -/
theorem Cache.setMasks_waymsk {k : Cache} {l : List (Nat × Nat × Nat × BitVec 16)} {vd slice cycle : Nat} {ways : BitVec 16}
    (last : k.remask = l ++ [(vd, slice, cycle, ways)]) :
    ((k.setMasks cycle).waymsk.find (vd * 384 + slice)).getD 0xFFFF = ways := by
  simp only [Cache.setMasks, last, List.filter_append, List.filter_cons, List.filter_nil, decide_true, if_true, List.foldl_append,
    List.foldl_cons, List.foldl_nil]
  exact Cache.setWays_waymsk _ vd slice ways

theorem State.remaskSets_waymsk {s : State} (writes : s.cache.remask ≠ []) (vd slice : Nat) :
    s.remaskSets.waymsk vd slice = ((s.cache.setMasks s.cycle).waymsk.find (vd * 384 + slice)).getD 0xFFFF := by
  unfold State.remaskSets
  rw [if_neg writes]
  rfl

/-- The write of WAYMSK whose turn a line's set is in this cycle (R408). -/
def Line.remaskedBy (l : Line) (cycle : Nat) (x : Nat × Nat × Nat × BitVec 16) : Bool :=
  l.key.vd = x.1 && l.slice = x.2.1 && x.2.2.1 + 1 + l.set = cycle

theorem State.remaskSets_lines {s : State} (writes : s.cache.remask ≠ []) :
    s.remaskSets.cache.lines = s.cache.lines.map (fun l =>
      if s.cache.remask.any (l.remaskedBy s.cycle) then
        { l with borrowed := !(s.remaskSets.waymsk l.key.vd l.slice).getLsbD l.way }
      else l) := by
  have unfolded : s.remaskSets.cache.lines = (s.cache.setMasks s.cycle).lines.map (fun l =>
      if (s.cache.setMasks s.cycle).remask.any (l.remaskedBy s.cycle) then
        { l with borrowed := !(((s.cache.setMasks s.cycle).waymsk.find (l.key.vd * 384 + l.slice)).getD 0xFFFF).getLsbD l.way }
      else l) := by
    unfold State.remaskSets
    rw [if_neg writes]
    rfl
  rw [unfolded, Cache.setMasks_lines, Cache.setMasks_remask]
  simp only [State.remaskSets_waymsk writes]

/-- A line whose set's turn it is has its borrowed bit by the mask that is in force. -/
theorem State.remaskSets_borrowed {s : State} {x : Nat × Nat × Nat × BitVec 16} (hx : x ∈ s.cache.remask) {l : Line}
    (hl : l ∈ s.remaskSets.cache.lines) (turn : l.remaskedBy s.cycle x = true) :
    l.borrowed = !(s.remaskSets.waymsk l.key.vd l.slice).getLsbD l.way := by
  rw [State.remaskSets_lines (List.ne_nil_of_mem hx)] at hl
  obtain ⟨old, -, mapped⟩ := List.mem_map.mp hl
  by_cases due : s.cache.remask.any (old.remaskedBy s.cycle) = true
  · rw [if_pos due] at mapped
    subst mapped
    rfl
  · rw [if_neg due] at mapped
    subst mapped
    exact absurd (List.any_eq_true.mpr ⟨x, hx, turn⟩) due

end Sys2Proof.Machine
end

section
/-! SUPPORT. The registers behind REGISTER_WRITE and the offsets of BAR0 (R4, R410, R429), and the statement about registers that the host writes. -/

namespace Sys2Proof

/-- The posted accesses of REGISTER_WRITE: not a read, and not a register of the service controllers. -/
def HostReg.posted : HostReg → Bool
  | .svccmd => false
  | .errbase => false
  | .errctl => false
  | .xlinv0 => false
  | .xlinv1 => false
  | .thwarn => false
  | .bar0 _ _ read => !read
  | _ => true

end Sys2Proof

namespace Sys2Proof.Machine

/-! ## Offsets of BAR0 (R410) -/

theorem vdRegAt_jqbase {q : Nat} (hq : q < 16) (vd : Nat) : vdRegAt vd (16 * q) = some (.jqbase vd q) := by
  unfold vdRegAt
  rw [if_pos (by omega), if_pos (by omega), Nat.mul_div_cancel_left q (by omega)]

/-- The blocks of the VDs come first in the physical function's BAR0. -/
theorem pfRegAt_vdBlock {vd o : Nat} (hvd : vd < 64) (ho : o < 0x1000) : pfRegAt (0x1000 * vd + o) = vdRegAt vd o := by
  have block : (0x1000 * vd + o) / 0x1000 = vd := by omega
  have offset : (0x1000 * vd + o) % 0x1000 = o := by omega
  unfold pfRegAt
  rw [if_pos (by omega), block, offset]

/-- Above the queue registers, a virtual function finds nothing that it may write. -/
theorem vdRegAt_readOnly {vd o : Nat} {reg : HostReg} (ho : 0x100 ≤ o) (found : vdRegAt vd o = some reg) : vfWrites reg = false := by
  unfold vdRegAt at found
  rw [if_neg (by omega)] at found
  repeat' split at found
  all_goals cases found
  all_goals rfl

theorem vdRegAt_none {vd o : Nat} (ho : 0x200 < o) : vdRegAt vd o = none := by
  simp only [vdRegAt, Bool.and_eq_true, decide_eq_true_eq]
  repeat rw [if_neg (by omega)]

/-- A virtual function's write of any register but those of its queues is ignored. -/
theorem State.bar0Write_vf_readOnly {vd o : Nat} (hvd : vd < 64) (ho : 0x100 ≤ o) (value : Word) (s : State) :
    s.bar0Write (some vd) o value = s := by
  cases found : vdRegAt vd o with
  | none => simp [State.bar0Write, regAt, hvd, found]
  | some reg => simp [State.bar0Write, regAt, hvd, found, vdRegAt_readOnly ho found]

/-- A virtual function writes the queue registers of its VD. -/
theorem State.bar0Write_vf_jqbase {vd q : Nat} (hvd : vd < 64) (hq : q < 16) (value : Word) (s : State) :
    s.bar0Write (some vd) (16 * q) value = s.putReg (.jqbase vd q) value := by
  simp [State.bar0Write, regAt, hvd, vdRegAt_jqbase hq, vfWrites]

theorem State.bar0Write_pf_jqbase {vd q : Nat} (hvd : vd < 64) (hq : q < 16) (value : Word) (s : State) :
    s.bar0Write none (0x1000 * vd + 16 * q) value = s.putReg (.jqbase vd q) value := by
  have found : pfRegAt (0x1000 * vd + 16 * q) = some (.jqbase vd q) := by
    rw [pfRegAt_vdBlock hvd (by omega), vdRegAt_jqbase hq]
  simp [State.bar0Write, regAt, found]

/-- An offset without a register reads 0. -/
theorem State.bar0Read_vf_none {vd o : Nat} (hvd : vd < 64) (ho : 0x200 < o) (s : State) :
    s.bar0Read (some vd) o = { s with svc := { s.svc with hostAnswer := some (List.replicate 8 0) } } := by
  have zero : toBytes 8 0 = List.replicate 8 0 := by decide
  simp [State.bar0Read, State.modSvc, regAt, hvd, vdRegAt_none ho, zero]

/-! ## Registers of a VD, by their bits (R4, R376, R395) -/

theorem State.putReg_jqbase {vd q : Nat} (hvd : vd < 64) (hq : q < 16) (value : Word) (s : State) :
    s.putReg (.jqbase vd q) value = s.modVd vd (fun v => { v with jqbase := v.jqbase.put q (keepBits value (bitsMask 55 0)) }) := by
  simp [State.putReg, hq, State.writeVdReg_of_lt hvd]

theorem State.putReg_vdtab {vd : Nat} (hvd : vd < 64) (value : Word) (s : State) :
    s.putReg (.vdtab vd) value = s.modVd vd (fun v => { v with vdtab := keepBits value (bitsMask 51 6) }) :=
  State.writeVdReg_of_lt hvd _ s

theorem State.putReg_vdrdir {vd : Nat} (hvd : vd < 64) (value : Word) (s : State) :
    s.putReg (.vdrdir vd) value = s.modVd vd (fun v => { v with vdrdir := keepBits value (bitsMask 51 12) }) :=
  State.writeVdReg_of_lt hvd _ s

/-! ## Posted accesses, and the module's registers -/

theorem exec_registerWrite_posted {reg : HostReg} (h : reg.posted = true) (value : Word) (s : State) :
    exec (.registerWrite reg value) s = .next (s.posted (.reg reg value) (State.regAccess reg value)) := by
  cases reg with
  | bar0 vf o read =>
    cases read with
    | false => rfl
    | true => cases h
  | svccmd | errbase | errctl | xlinv0 | xlinv1 | thwarn => cases h
  | _ => rfl

theorem exec_registerWrite_inTurn {s t : State} {reg : HostReg} {value : Word} (h : reg.posted = true) (turn : s.HostTurn (.reg reg value))
    (accessed : s.counted.regAccess reg value = t) : exec (.registerWrite reg value) s = .next t := by
  rw [exec_registerWrite_posted h, State.posted_of_hostTurn _ turn, accessed]

theorem exec_registerWrite_waits {s : State} {reg : HostReg} {value : Word} (h : reg.posted = true) (booted : s.booted = true)
    (before : ∃ j ∈ s.svc.inbound, (Inbound.reg reg value).follows j = true) :
    exec (.registerWrite reg value) s = .next (s.counted.keepInbound (.reg reg value)) := by
  rw [exec_registerWrite_posted h, State.posted_of_waiting _ booted before]

theorem State.whenBooted_of_booted {s : State} (booted : s.booted = true) (f : State → State) : s.whenBooted f = f s := if_pos booted

theorem State.presented_of_boot {s : State} (h : s.svc.boot ≠ .pending) : s.presented = true := decide_eq_true h

theorem exec_bar0Read (vf : Option Nat) (o : Nat) (value : Word) (s : State) :
    exec (.registerWrite (.bar0 vf o true) value) s =
      .next (s.whenBooted (State.receive (.reg (.bar0 vf o true) value) (State.bar0Read vf o))) := rfl

theorem exec_bar0Read_inTurn {s : State} {vf : Option Nat} {o : Nat} {value : Word} (turn : s.HostTurn (.reg (.bar0 vf o true) value)) :
    exec (.registerWrite (.bar0 vf o true) value) s = .next (s.bar0Read vf o) := by
  obtain ⟨booted, before⟩ := turn
  rw [exec_bar0Read, State.whenBooted_of_booted booted, State.receive_of_turn _ before]

theorem exec_dspcmdEndJob {s : State} {value : Word} (turn : s.HostTurn (.reg .dspcmd value)) :
    exec (.dspcmdEndJob value) s = .next (s.counted.writeDspcmd value) := by
  show Host.Outcome.next _ = _
  rw [State.posted_of_hostTurn _ turn]

theorem exec_modidWrite {s : State} (booted : s.booted = true) (value : Word) :
    exec (.modidWrite value) s = .next { s with svc := { s.svc with modid := value.setWidth 9 } } :=
  congrArg Host.Outcome.next (if_pos booted)

theorem exec_registerWrite_xlinv1 {s : State} (booted : s.booted = true) (value : Word) :
    exec (.registerWrite .xlinv1 value) s = .next { s with svc := { s.svc with xlinv1 := keepBits value (bitsMask 55 0) } } :=
  congrArg Host.Outcome.next (State.whenBooted_of_booted booted _)

theorem exec_registerWrite_thwarn {s : State} (booted : s.booted = true) (value : Word) :
    exec (.registerWrite .thwarn value) s = .next { s with svc := { s.svc with thwarn := keepBits value 0xFFFF } } :=
  congrArg Host.Outcome.next (State.whenBooted_of_booted booted _)

theorem exec_registerWrite_errctl {s : State} (boot : s.svc.boot ≠ .pending) (value : Word) :
    exec (.registerWrite .errctl value) s = .next (s.modSvc (fun v => v.writeErrctl value)) :=
  congrArg Host.Outcome.next (if_pos (State.presented_of_boot boot))

theorem exec_errctlRead {s : State} (boot : s.svc.boot ≠ .pending) :
    exec .errctlRead s = .next (s.modSvc (fun v => { v with errRead := v.errctl, errDrops := 0 })) :=
  congrArg Host.Outcome.next (if_pos (State.presented_of_boot boot))

/-! ## The statement -/

/-- Settles O50: each kind of register by the lemma about its write, once the sequence point has given the write its turn. -/
theorem registerWrites : Obligations.RegisterWrites := by
  unfold Obligations.RegisterWrites
  refine ⟨?jqctl, ?vdctl, ?setVdctl, ?shr, ?waymsk, ?mask, ?borrowed, ?module, ?bar0, ?errctlRead, ?errctl⟩
  case jqctl =>
    intro s vd q value hvd hq
    refine ⟨fun turn => ⟨fun en good noErr => ?_, fun en bad => ?_, fun en noErr => ?_⟩, fun tail turn => exec_jqDoorbell hvd hq turn⟩
    · exact exec_jqEnable hvd hq turn (Vd.writeJqctl_of_goodRing en good noErr)
    · exact exec_jqEnable hvd hq turn (Vd.writeJqctl_of_badRing en bad)
    · exact exec_jqEnable hvd hq turn (Vd.writeJqctl_of_disable en noErr)
  case vdctl =>
    intro s vd value turn hvd v next
    have hnext : next = v.enNext := (Vd.enNext_eq v).symm
    rw [hnext]
    refine ⟨fun change jobs => exec_vdEnable turn (State.writeVdctl_of_jobs (s := s.counted) change jobs), fun free => ⟨?_, fun fits => ?_⟩⟩
    · rintro on off ⟨c, hc, above⟩
      refine ⟨_, exec_vdEnable turn (State.writeVdctl_of_overCap (s := s.counted) hvd free on off hc above), ?_⟩
      simp +contextual [State.modVd_vd_other, v]
    · exact exec_vdEnable turn (State.writeVdctl_of_fits (s := s.counted) hvd free fits)
  case setVdctl =>
    intro s vd value v t
    have regs := State.setVdctl_vd_same s vd value
    have arbs := State.setVdctl_arbs s vd value
    refine ⟨by rw [regs], by rw [regs], by rw [regs], ?serr, fun w other => State.setVdctl_vd_other other s value,
      fun on off => ⟨fun c hc => ?idle, fun x hx => ?granted⟩, fun kept on => ?kept⟩
    case serr => rw [regs, Bool.and_eq_true, Bool.not_eq_true']
    case idle =>
      rw [State.setVdctl_idle s vd value hc, Option.getD_some, on]
      exact fillShare_of_enabled off _
    case granted =>
      rw [arbs] at hx
      obtain ⟨y, -, rfl⟩ := List.mem_map.mp hx
      rw [on]
      exact fillShare_of_enabled off _
    case kept =>
      rw [arbs, kept.trans on]
      simp only [fillShare_of_kept (v := s.vd vd) on, Prod.mk.eta, List.map_id']
  case shr =>
    intro s vd c value turn hvd hc v rate
    refine ⟨fun fits sum => exec_shrWrite turn (State.writeShr_of_fits (s := s.counted) hvd hc fits sum), fun above => ?_⟩
    refine ⟨_, exec_shrWrite turn (State.writeShr_of_overCap (s := s.counted) hvd hc above), ?_⟩
    simp +contextual [State.modVd_vd_other, v]
  case waymsk => exact fun s vd slice value turn hvd hslice => exec_waymskWrite turn hvd hslice
  case mask =>
    intro s vd slice ways l last
    rw [State.remaskSets_waymsk (by simp [last]), Cache.setMasks_waymsk last]
  case borrowed =>
    intro s vd slice at_ ways hx l hl inVd inSlice due
    have turn : l.remaskedBy s.cycle (vd, slice, at_, ways) = true := by simp [Line.remaskedBy, inVd, inSlice, due]
    have borrowed := State.remaskSets_borrowed hx hl turn
    rwa [inVd, inSlice] at borrowed
  case module =>
    exact fun s value booted => ⟨exec_dspcmdEndJob, exec_modidWrite booted value, exec_registerWrite_xlinv1 booted value,
      exec_registerWrite_thwarn booted value⟩
  case bar0 =>
    intro s value vd q hvd hq base
    have jqbase : s.counted.putReg (.jqbase vd q) value = base := State.putReg_jqbase hvd hq value _
    refine ⟨fun turn => ?_, fun turn => ?_, fun turn => ?_, fun turn => ?_, fun turn => ?_, fun o turn ho => ?_, fun o turn ho => ?_,
      fun o booted before => ?_⟩
    · exact exec_registerWrite_inTurn rfl turn jqbase
    · exact exec_registerWrite_inTurn rfl turn (State.putReg_vdtab hvd value _)
    · exact exec_registerWrite_inTurn rfl turn (State.putReg_vdrdir hvd value _)
    · exact exec_registerWrite_inTurn rfl turn ((State.bar0Write_vf_jqbase hvd hq value _).trans jqbase)
    · exact exec_registerWrite_inTurn rfl turn ((State.bar0Write_pf_jqbase hvd hq value _).trans jqbase)
    · exact exec_registerWrite_inTurn rfl turn (State.bar0Write_vf_readOnly hvd ho value _)
    · rw [exec_bar0Read_inTurn turn, State.bar0Read_vf_none hvd ho]
    · exact exec_registerWrite_waits rfl booted before
  case errctlRead => exact fun s boot => ⟨_, exec_errctlRead boot, rfl, rfl, rfl, rfl⟩
  case errctl => exact fun s value boot => exec_registerWrite_errctl boot value

end Sys2Proof.Machine
end

section
/-! SUPPORT. What `end`, `nop`, `free`, `yield`, `region` and `rend` leave (R53, R139, R156-R162), and the two statements about them. -/

namespace Sys2Proof.Machine

/-! ## Issuing without a result -/

/-- Completing an instruction is issuing it with no result on its way. -/
theorem State.complete_eq_issued (i : Instr) (p : State) : p.complete i = p.issued i [] := by
  unfold State.complete State.resetRun State.issued
  cases i.blocking <;> simp [State.modMe]

/-- A ready instruction whose effect is done leaves what `State.issued` says of the state its effect made. -/
theorem issue_issued {i : Instr} {s t : State} {eff : State → Eff} (ready : Ready i s) (done : eff (s.prepare i) = .done t) :
    issue i s eff = .next (t.issued i []) := by
  rw [issue_done ready done, State.complete_eq_issued]

/-- Preparing operands changes no verdict set (R359). -/
@[simp] theorem State.prepare_me_speculative (i : Instr) (s : State) : (s.prepare i).me.speculative = s.me.speculative := by
  simp [Activity.speculative, Activity.verdictSet]

/-! ## `free` (R161) -/

/-- A register that has been dropped is not bound. -/
theorem Regs.bound_drop_same (r : Regs) (x : Reg) : (r.drop x).bound x = false := by
  obtain ⟨c, n⟩ := x
  cases c <;> simp [Regs.bound, Regs.physical, Regs.drop, AMap.find_del_same]

/-- `free` of a register for which nothing waits. -/
theorem effFree_of_idle {x : Reg} {p : State} (idle : p.me.interlocked x = false) (noWrite : p.me.pendOf x = none) :
    effFree x p = .done (if x.binds then { p with me := { p.me with regs := p.me.regs.drop x } } else p) := by
  cases binds : x.binds <;> simp [effFree, idle, noWrite, binds, State.modMe]

/-! ## What the instructions come to -/

theorem exec_nop (r : R) (s : State) : exec (.nop r) s = issue (.nop r) s (fun p => .done p) := rfl

theorem exec_end (r : R) (s : State) : exec (.end_ r) s = issue (.end_ r) s (fun p =>
    .done { p with me := { p.me with life := if p.me.party.isSome then .endParting else .ending } }) := rfl

theorem exec_freeG (r : R) (s : State) : exec (.freeG r) s = issue (.freeG r) s (effFree ⟨.g, r.a.toNat⟩) := rfl
theorem exec_freeV (r : R) (s : State) : exec (.freeV r) s = issue (.freeV r) s (effFree ⟨.v, r.a.toNat⟩) := rfl
theorem exec_freeK (r : R) (s : State) : exec (.freeK r) s = issue (.freeK r) s (effFree ⟨.k, r.a.toNat⟩) := rfl

theorem exec_yield (r : R) (s : State) : exec (.yield_ r) s = issue (.yield_ r) s (fun p =>
    .done { p.flushPending with me := { p.flushPending.me with block := .yielded } }) := rfl

theorem exec_region (r : R) (s : State) : exec (.region r) s = issue (.region r) s (effRegion (.region r) r) := rfl

/-- `rend` waits with its length and stall count while a forecast tag is outstanding; else it closes the region that is open (R156, R372). -/
theorem exec_rend (r : R) (s : State) : exec (.rend r) s = issue (.rend r) s (fun p =>
    if p.me.speculative then .hold { p with me := { p.me with
      region := { p.me.region with closing := some ((Instr.rend r).bytes, (Instr.rend r).stl) } } }
    else if p.me.region.open_ then .done { p with me := { p.me with
      region := { p.me.region with open_ := false, pin := false, try_ := 0, pc := BitVec.allOnes 64, closing := none } } }
    else .done p) := rfl

/-! ## The statement about `end`, `nop`, `free` and `yield` -/

/-- Settles O6, instruction by instruction; the three forms of `free` share `effFree_of_idle`. -/
theorem endNopFreeAndYield : Obligations.EndNopFreeAndYield := by
  unfold Obligations.EndNopFreeAndYield
  refine ⟨⟨?nop, ?end_⟩, ?free, ?yield_⟩
  case nop => exact fun r s ready => (exec_nop r s).trans (issue_issued ready rfl)
  case end_ => exact fun r s ready => (exec_end r s).trans (issue_issued ready rfl)
  case free =>
    simp only [List.forall_mem_cons, List.not_mem_nil, false_implies, implies_true, and_true]
    have dropped {p : State} {x : Reg} : x.binds = true → (p.me.regs.drop x).bound x = false := fun _ => Regs.bound_drop_same _ _
    exact ⟨fun r s ready idle noWrite => ⟨(exec_freeG r s).trans (issue_issued ready (effFree_of_idle idle noWrite)), dropped⟩,
      fun r s ready idle noWrite => ⟨(exec_freeV r s).trans (issue_issued ready (effFree_of_idle idle noWrite)), dropped⟩,
      fun r s ready idle noWrite => ⟨(exec_freeK r s).trans (issue_issued ready (effFree_of_idle idle noWrite)), dropped⟩⟩
  case yield_ => exact fun r s ready => (exec_yield r s).trans (issue_issued ready rfl)

/-! ## Regions (R156, R158, R372) -/

section
variable {i : Instr} {r : R} {p : State}

/-- The size that `region` asks of the snapshot (R156). -/
def Activity.regionSize (m : Activity) (r : R) : Nat :=
  64 + 8 * popcount ((m.srcB r).toNat / 2 * 2) 64 + 16 * popcount (r.m.extractLsb' 0 8).toNat 8 + 128 * popcount r.x.toNat 32

/-- The registers that `region` names as live-ins (R158). -/
def Activity.regionLiveIns (m : Activity) (r : R) : List Reg :=
  liveIns ((m.srcB r).toNat / 2 * 2) r.x.toNat (r.m.extractLsb' 0 8).toNat

/-- The state in which the region of `region` is open: its live-ins refilled, its snapshot written (R156, R158). -/
def State.enterRegion (i : Instr) (r : R) (p : State) : State :=
  let next := p.me.pc + BitVec.ofNat 64 i.bytes
  let f := p.refillAll (p.me.regionLiveIns r)
  { f with me := { f.me with
    reserve := f.me.reserve.write 0x1800 (f.me.snapshot ((p.me.srcB r).toNat / 2 * 2) r.x.toNat (r.m.extractLsb' 0 8).toNat next)
    region := { f.me.region with pc := next, open_ := true, pin := false, try_ := 0, cmdMark := p.nextCmd }
    nextIssue := p.cycle + 1 + (p.me.regionSize r + 255) / 256 } }

/-- Whether `region` waits: for a pending write, a verdict, a vector access, or a result that an engine owes to a live-in. -/
def State.regionWaits (r : R) (p : State) : Bool :=
  p.me.pend ≠ [] || p.me.speculative || p.vecBusy || (p.me.regionLiveIns r).any (fun x => x ∈ p.me.claimed)

variable (home : ∀ q, p.me.party = some q → q.away = false)
include home

/-- The effect of `region` for a party that is not away from home: nothing but the size can be wrong with its snapshot. -/
theorem effRegion_atHome :
    effRegion i r p =
      if (p.me.job.spages - 3) * 2048 < p.me.regionSize r then .trap 6 (BitVec.ofNat 64 (p.me.regionSize r + 2 ^ 51))
      else if p.regionWaits r then .hold p
      else match p.me.badHome (p.me.regionLiveIns r) with
      | some w => .poison 2 w
      | none => .done (p.enterRegion i r) := by
  cases party : p.me.party with
  | none => simp only [effRegion, party, Bool.false_or, decide_eq_true_eq]; rfl
  | some q => simp only [effRegion, party, home q party, Bool.false_or, decide_eq_true_eq]; rfl

theorem effRegion_tooLarge (tooLarge : (p.me.job.spages - 3) * 2048 < p.me.regionSize r) :
    effRegion i r p = .trap 6 (BitVec.ofNat 64 (p.me.regionSize r + 2 ^ 51)) := by
  rw [effRegion_atHome home, if_pos tooLarge]

variable (fits : p.me.regionSize r ≤ (p.me.job.spages - 3) * 2048)
include fits

theorem effRegion_waits (waits : p.regionWaits r = true) : effRegion i r p = .hold p := by
  rw [effRegion_atHome home, if_neg (Nat.not_lt.mpr fits), if_pos waits]

theorem effRegion_badHome {w : Nat} (settled : p.regionWaits r = false) (bad : p.me.badHome (p.me.regionLiveIns r) = some w) :
    effRegion i r p = .poison 2 w := by
  simp only [effRegion_atHome home, if_neg (Nat.not_lt.mpr fits), settled, bad, Bool.false_eq_true, if_false]

theorem effRegion_enters (settled : p.regionWaits r = false) (good : p.me.badHome (p.me.regionLiveIns r) = none) :
    effRegion i r p = .done (p.enterRegion i r) := by
  simp only [effRegion_atHome home, if_neg (Nat.not_lt.mpr fits), settled, good, Bool.false_eq_true, if_false]

end

/-! ## The statement about regions -/

/-- Settles O16: the outcomes of `effRegion` for a party at home one by one, and those of `rend`. -/
theorem regions : Obligations.Regions := by
  unfold Obligations.Regions
  refine ⟨fun r s ready => ?region, fun r s ready settled => ?close, fun r s ready speculative => ?wait⟩
  case region =>
    intro p m gm km size next home
    refine ⟨fun tooLarge => ?trap, fun fits noPend noTags idle free => ?enter, fun fits owed => ?hold⟩
    case trap => exact (exec_region r s).trans (issue_trap ready (effRegion_tooLarge home tooLarge))
    case enter =>
      have unclaimed : (p.me.regionLiveIns r).any (fun x => x ∈ p.me.claimed) = false := 
        List.any_eq_false.mpr (fun x hx => by simpa using free x hx)
      have settled : p.regionWaits r = false := by
        rw [State.regionWaits, unclaimed, noTags, idle]
        simp [noPend, m]
      rw [← State.prepare_cycle (.region r) s]
      exact ⟨fun w bad => (exec_region r s).trans (by rw [issue_ready ready, effRegion_badHome home fits settled bad]),
        fun good => (exec_region r s).trans (issue_issued ready (effRegion_enters home fits settled good))⟩
    case hold =>
      have claimed : (p.me.regionLiveIns r).any (fun x => x ∈ p.me.claimed) = true := by
        obtain ⟨x, named, owes⟩ := owed
        exact List.any_eq_true.mpr ⟨x, named, by simpa using owes⟩
      have waits : p.regionWaits r = true := by rw [State.regionWaits, claimed, Bool.or_true]
      exact (exec_region r s).trans (issue_hold ready (effRegion_waits home fits waits))
  case close =>
    intro p
    have noTags : p.me.speculative = false := (State.prepare_me_speculative _ s).trans settled
    rw [exec_rend]
    refine issue_issued ready ?_
    cases opened : p.me.region.open_ <;> simp [p, noTags]
  case wait =>
    intro p
    have tags : p.me.speculative = true := (State.prepare_me_speculative _ s).trans speculative
    exact (exec_rend r s).trans (issue_hold ready (if_pos tags))

end Sys2Proof.Machine
end

section
/-! SUPPORT. The activity in focus on its own core; what a delivered result leaves in its registers (R43, R87). -/

namespace Sys2Proof.Machine

/-! ## The activity in focus -/

@[simp] theorem State.act?_me (s : State) : s.act? s.me.uid = some s.me := if_pos rfl

@[simp] theorem State.modAct_me (f : Activity → Activity) (s : State) : s.modAct s.me.uid f = s.modMe f := if_pos rfl

section
variable {s : State} (onCore : s.core.agent = s.me.agent)
include onCore

/-- The activity in focus is in focus already. -/
theorem State.focus_me : s.focus s.me.uid = s := by simp [State.focus, State.focusCore, onCore]

theorem State.coreOf_me : s.coreOf s.me.agent = s.core := if_pos onCore

theorem State.modCoreOf_me (f : Core → Core) : s.modCoreOf s.me.agent f = s.modCore f := if_pos onCore

end

/-! ## Writing a general register -/

theorem Reg.binds_g {n : Nat} (pos : 0 < n) : (⟨.g, n⟩ : Reg).binds = true := by
  simp [Reg.binds, Nat.pos_iff_ne_zero.mp pos]

/-- A general register that has just been set is in a physical register, so its value is the one set. -/
theorem Activity.g_set {a : Activity} {n : Nat} (pos : 0 < n) (v : Vec) :
    ({ a with regs := a.regs.set ⟨.g, n⟩ v } : Activity).g n = v.setWidth 64 := by
  simp [Activity.g, Regs.set, AMap.find_put_same, Nat.pos_iff_ne_zero.mp pos]

/-- A general register holds the value written last. -/
theorem State.writeReg_me_g {n : Nat} (pos : 0 < n) (v : Vec) (keep : List Reg) (s : State) :
    (s.writeReg ⟨.g, n⟩ v keep).me.g n = v.setWidth 64 := by
  simp only [State.writeReg, Reg.binds_g pos, Bool.not_true, Bool.false_eq_true, if_false]
  exact Activity.g_set pos v

@[simp] theorem State.writeReg_me_pend (x : Reg) (v : Vec) (keep : List Reg) (s : State) : (s.writeReg x v keep).me.pend = s.me.pend := by
  rw [(Moved.writeReg x v keep s).me]
@[simp] theorem State.writeReg_me_pc (x : Reg) (v : Vec) (keep : List Reg) (s : State) : (s.writeReg x v keep).me.pc = s.me.pc := by
  rw [(Moved.writeReg x v keep s).me]
@[simp] theorem State.writeReg_me_lm (x : Reg) (v : Vec) (keep : List Reg) (s : State) : (s.writeReg x v keep).me.lm = s.me.lm := by
  rw [(Moved.writeReg x v keep s).me]
@[simp] theorem State.writeReg_me_block (x : Reg) (v : Vec) (keep : List Reg) (s : State) : (s.writeReg x v keep).me.block = s.me.block := by
  rw [(Moved.writeReg x v keep s).me]
@[simp] theorem State.writeReg_me_nextIssue (x : Reg) (v : Vec) (keep : List Reg) (s : State) :
    (s.writeReg x v keep).me.nextIssue = s.me.nextIssue := by
  rw [(Moved.writeReg x v keep s).me]

/-! ## Delivering an engine's result -/

@[simp] theorem State.deliver_me_block (d : Nat) (v : Word) (s : State) : (s.deliver d v).me.block = s.me.block := by
  unfold State.deliver; split <;> simp
@[simp] theorem State.deliver_me_nextIssue (d : Nat) (v : Word) (s : State) : (s.deliver d v).me.nextIssue = s.me.nextIssue := by
  unfold State.deliver; split <;> simp

/-- A register that waits for the result has it. -/
theorem State.deliver_me_g {d : Nat} {s : State} (pos : 0 < d) (waits : (⟨.g, d⟩ : Reg) ∈ s.me.claimed) (v : Word) :
    (s.deliver d v).me.g d = v := by
  rw [State.deliver, if_pos waits, State.writeReg_me_g pos]
  simp

/-! ## Pending writes that take effect -/

theorem State.commitWhere_of_single {s : State} {p : Pend → Bool} {w : Pend} (only : s.me.pend = [w]) (picked : p w = true) :
    s.commitWhere p = ({ s with me := { s.me with pend := [] } }).writeReg w.reg w.val w.keep := by
  simp [State.commitWhere, State.modMe, only, picked]

theorem State.commitWhere_of_none {s : State} {p : Pend → Bool} (none : ∀ w ∈ s.me.pend, p w = false) : s.commitWhere p = s := by
  have picked : s.me.pend.filter p = [] := List.filter_eq_nil_iff.mpr (by simpa using none)
  have kept : s.me.pend.filter (fun w => !p w) = s.me.pend := List.filter_eq_self.mpr (by simpa using none)
  simp only [State.commitWhere, State.modMe, picked, kept, List.foldl_nil]

theorem State.commitDue_me {s : State} (onCore : s.core.agent = s.me.agent) (kinds : List PendKind) :
    s.commitDue s.me.uid kinds = s.commitWhere (fun p => kinds.contains p.kind && decide (p.due ≤ s.cycle)) := by
  simp only [State.commitDue, State.act?_me, State.focus_me onCore]

section
variable {s : State} {n due : Nat} {v : Vec} {kind : PendKind} {keep : List Reg} {kinds : List PendKind}
  (onCore : s.core.agent = s.me.agent) (only : s.me.pend = [⟨⟨.g, n⟩, v, due, kind, keep⟩])
include onCore only

/-- A result that is due is in its register, and on its way no longer; control and local memory stay as they are. -/
theorem State.commitDue_of_due (pos : 0 < n) (listed : kinds.contains kind = true) (isDue : due ≤ s.cycle) :
    let t := s.commitDue s.me.uid kinds
    t.me.g n = v.setWidth 64 ∧ t.me.pend = [] ∧ t.me.pc = s.me.pc ∧ t.me.lm = s.me.lm := by
  intro t
  have written : t = ({ s with me := { s.me with pend := [] } }).writeReg ⟨.g, n⟩ v keep :=
    (State.commitDue_me onCore kinds).trans (State.commitWhere_of_single only (by rw [listed]; simpa using isDue))
  rw [written]
  exact ⟨State.writeReg_me_g pos v keep _, by simp, by simp, by simp⟩

/-- Before its cycle, nothing changes. -/
theorem State.commitDue_of_early (early : s.cycle < due) : s.commitDue s.me.uid kinds = s :=
  (State.commitDue_me onCore kinds).trans (State.commitWhere_of_none (by simp [only, early]))

end

end Sys2Proof.Machine
end

section
/-! SUPPORT. The life of an activity (R46-R53, R151-R155, R212, R220), and the statement about results and the end of an activity. -/

namespace Sys2Proof.Machine

/-! ## Overruns and asynchronous traps (R49, R154) -/

section
variable {s : State} (budget : s.me.job.runb ≠ 0) (exceeded : s.me.job.runb < s.me.runc) (first : s.me.overrun = false)
include budget exceeded first

/-- The first overrun of an activity of a job sets XSTAT.PRB, and its counter starts again. -/
theorem exec_firstOverrun_activity (noProg : s.me.prog = none) :
    exec (.firstOverrun s.me.uid) s = .next (s.modMe (fun a => { a with overrun := true, runc := 0, trap := { a.trap with prb := true } })) := by
  show execFirstOverrun _ _ = _
  simp [execFirstOverrun, budget, Nat.not_le.mpr exceeded, first, noProg]

/-- The first overrun of a program ends it by a fault. -/
theorem exec_firstOverrun_program {p : ProgCtx} (prog : s.me.prog = some p) :
    exec (.firstOverrun s.me.uid) s =
      .next (s.modMe (fun a => { a with life := .ending, prog := some { p with fault := some (9, 0) }, overrun := true, runc := 0 })) := by
  show execFirstOverrun _ _ = _
  simp [execFirstOverrun, budget, Nat.not_le.mpr exceeded, first, prog]

end

section
variable {s : State}

variable (onCore : s.core.agent = s.me.agent) (takes : s.me.takesAsync = true)
include onCore takes

/-- The run-budget trap: at once, or after what its entry waits for. -/
theorem exec_runBudgetTrap (pending : s.me.trap.prb = true) :
    exec (.runBudgetTrap s.me.uid) s = .next (if s.me.speculative || s.vecBusy then s.awaitEntry 9 0 true
      else State.takeTrap 9 0 true { s with me := { s.me with trap := { s.me.trap with prb := false } } }) := by
  show execRunBudgetTrap _ _ = _
  simp only [execRunBudgetTrap, State.act?_me, takes, pending, Bool.not_true, Bool.or_self, Bool.false_eq_true, if_false, State.focus_me onCore]
  rfl

/-- The missed-promise trap is for the promise that was missed first. -/
theorem exec_missedPromiseTrap {bar pr : Nat} {rest : List (Nat × Nat)} (missed : s.me.trap.missed = (bar, pr) :: rest)
    (pending : s.me.trap.pmp = true) :
    exec (.missedPromiseTrap s.me.uid) s = .next (if s.me.speculative || s.vecBusy then s.awaitEntry 8 0 true
      else State.takeTrap 8 (BitVec.ofNat 64 (bar % 2 ^ 24 + pr % 2 ^ 32 * 2 ^ 32)) true
        { s with me := { s.me with trap := { s.me.trap with missed := rest, pmp := rest ≠ [] } } }) := by
  show execMissedPromiseTrap _ _ = _
  simp only [execMissedPromiseTrap, State.act?_me, missed, takes, pending, Bool.not_true, Bool.or_self, Bool.false_eq_true, if_false,
    State.focus_me onCore]
  rfl

/-- The refused-store trap is for the journal entry that was refused first, which is free then. -/
theorem exec_refusedStoreTrap {ag : Agent} {n : Nat} {e : JEntry} (refused : s.firstRefused s.me.uid = some (ag, n, e))
    (pending : s.me.trap.prs = true) :
    exec (.refusedStoreTrap s.me.uid) s = .next (if s.me.speculative || s.vecBusy then s.awaitEntry 0xB 0 true
      else
        let t := s.modCoreOf ag (fun (c : Core) => { c with journal := c.journal.del n })
        State.takeTrap 0xB (BitVec.ofNat 64 (n % 64 + e.code % 256 * 256)) true
          { t with me := { t.me with trap := { t.me.trap with prs := t.refusedOf s.me.uid ≠ 0 }, psjpc := BitVec.ofNat 64 e.pc } }) := by
  show execRefusedStoreTrap _ _ = _
  simp only [execRefusedStoreTrap, State.act?_me, refused, takes, pending, Bool.not_true, Bool.or_self, Bool.false_eq_true, if_false,
    State.focus_me onCore]
  rfl

end

/-! ## Retirement and kill (R50, R53) -/

@[simp] theorem State.modCoreOf_me_act (ag : Agent) (f : Core → Core) (s : State) : (s.modCoreOf ag f).me = s.me := by
  unfold State.modCoreOf; split <;> rfl
@[simp] theorem State.modCoreOf_disp (ag : Agent) (f : Core → Core) (s : State) : (s.modCoreOf ag f).disp = s.disp := by
  unfold State.modCoreOf; split <;> rfl
@[simp] theorem State.modCoreOf_msgs (ag : Agent) (f : Core → Core) (s : State) : (s.modCoreOf ag f).msgs = s.msgs := by
  unfold State.modCoreOf; split <;> rfl

@[simp] theorem State.sweepCode_me (n : Nat) (s : State) : (s.sweepCode n).me = s.me := by
  simp only [State.sweepCode]; split <;> simp
@[simp] theorem State.sweepCode_disp (n : Nat) (s : State) : (s.sweepCode n).disp = s.disp := by
  simp only [State.sweepCode]; split <;> simp
@[simp] theorem State.sweepCode_msgs (n : Nat) (s : State) : (s.sweepCode n).msgs = s.msgs := by
  simp only [State.sweepCode]; split <;> simp

/-- The retirement of an activity of a job is on its way to the unit that owns the job. -/
theorem State.sendRetired_of_job {s : State} {a : Activity} {j : Job} (job : s.jobOf a.job.vd a.job.jid = some j) (stat refused : Nat) :
    s.sendRetired a stat refused =
      s.send (.retired a.job.vd a.job.jid stat refused a.agent) (s.cycle + 1 + unitLatency j.owner a.agent.num) := by
  simp only [State.sendRetired, job]

/-- An activity in no meeting that retires leaves its place, and its job's unit is told. -/
theorem State.retireMe_of_job {s : State} {j : Job} (noParty : s.me.party = none) (job : s.jobOf s.me.job.vd s.me.job.jid = some j) (stat : Nat) :
    (s.retireMe stat).me.life = .absent ∧ (s.retireMe stat).disp = s.disp ∧
    (s.retireMe stat).msgs = s.msgs ++ [(⟨s.nextMsg, .retired s.me.job.vd s.me.job.jid stat (s.refusedOf s.me.uid) s.me.agent,
      s.cycle + 1 + unitLatency j.owner s.me.agent.num⟩ : Msg)] := by
  have sent := State.sendRetired_of_job (s := (s.freeRefused s.me.uid).vacate) (a := s.me) (j := j) job stat (s.refusedOf s.me.uid)
  simp only [State.retireMe, noParty, Option.bind_none, sent]
  split <;> simp [State.send, State.vacate, State.freeRefused]

section
variable {s : State} (onCore : s.core.agent = s.me.agent)
include onCore

/-- An activity that has executed `end` on a compute core, with nothing of its own outstanding and in no meeting, retires (R53, step 4). -/
theorem exec_retirement_of_ending (compute : s.me.agent.kind = .compute) (noProg : s.me.prog = none) (noTags : s.me.speculative = false)
    (ending : s.me.life = .ending) (noCmds : s.core.busyWith s.me.uid = false) (noEngine : s.engineOut = false) (noUpdate : s.updateOut = false)
    (noHelds : s.me.helds = []) (noColl : s.me.coll = none) (noClaims : s.me.claimed = []) (noParty : s.me.party = none) :
    exec (.retirement s.me.uid) s = .next (s.retireMe 0) := by
  show execRetirement _ _ = _
  simp [execRetirement, State.focus_me onCore, compute, noProg, noTags, ending, noCmds, noEngine, noUpdate, noHelds, noColl, noClaims, noParty]

/-- An activity that is condemned is killed, unless its kill has begun. -/
theorem exec_kill_of_condemned (exists_ : s.me.life ≠ .absent) (notKilled : s.me.life ≠ .killed) (noProg : s.me.prog = none)
    (condemned : s.me.killStat ≠ 0) :
    exec (.kill s.me.uid) s = .next (s.killMe s.me.killStat stLost stAbandoned false) := by
  show execKill _ _ = _
  simp [execKill, State.focus_me onCore, exists_, notKilled, noProg, condemned]

/-! ## Monitors (R220, R221) -/

/-- The first in the queue takes a free monitor entry, and its `bar.wait` looks at the barrier again. -/
theorem exec_monitorGrant_me {rest : List Nat} {y t d : Nat} (queue : s.core.monitorQueue = s.me.uid :: rest)
    (free : s.core.monitors.length < monitorSize s.me.agent.kind) (waits : s.me.block = .monitor y t d) :
    exec (.monitorGrant s.me.agent) s = .next ((s.modCore (fun c => { c with
      monitorQueue := rest, monitors := c.monitors ++ [s.me.uid] })).modMe (fun a => { a with
        block := if (s.me.bar y).ahead t = 0 then .barWait y t d
          else .barDone d ((s.me.bar y).status (if (s.me.bar y).ahead t = 1 then 0 else 1)) (s.cycle + 1) })) := by
  show execMonitorGrant _ _ = _
  simp only [execMonitorGrant, State.coreOf_me onCore, queue, free, if_true, State.act?_me, waits, State.modCoreOf_me onCore]
  exact congrArg Host.Outcome.next (if_pos rfl)

/-- A woken `bar.wait` gives up its monitor entry, and its status is delivered. -/
theorem exec_barWaitWake_me {dst st since : Nat} (done : s.me.block = .barDone dst st since) :
    exec (.barWaitWake s.me.uid) s = .next (((s.modMe (fun a => { a with block := .none, nextIssue := max a.nextIssue (since + 1) })).modCore
      (fun c => c.leaveMonitor s.me.uid)).deliver dst (BitVec.ofNat 64 st)) := by
  show execBarWaitWake _ _ = _
  simp only [execBarWaitWake, State.act?_me, Option.map_some, done, State.focus_me onCore]

end

/-! ## The statement -/

/-- Settles O47: the cases of `commitDue`, and the equations of the steps above. -/
theorem resultsAndActivityLife : Obligations.ResultsAndActivityLife := by
  unfold Obligations.ResultsAndActivityLife
  refine ⟨?results, ?overrun, ?traps, ?waits, ?retirement, ?kill, ?killStat, ?grant, ?wake⟩
  case results =>
    have effect (i : Nat → Instr) (kinds : List PendKind) (runs : ∀ u s, exec (i u) s = .next (s.commitDue u kinds)) (kind : PendKind)
        (listed : kinds.contains kind = true) (s : State) (n due : Nat) (v : Vec) (keep : List Reg) (onCore : s.core.agent = s.me.agent)
        (only : s.me.pend = [⟨⟨.g, n⟩, v, due, kind, keep⟩]) (pos : 0 < n) (_ : n < 64) :
        (due ≤ s.cycle → ∃ t, exec (i s.me.uid) s = .next t ∧ t.me.g n = v.setWidth 64 ∧ t.me.pend = [] ∧ t.me.pc = s.me.pc ∧
          t.me.lm = s.me.lm) ∧ (s.cycle < due → exec (i s.me.uid) s = .next s) :=
      ⟨fun isDue => ⟨_, runs _ _, State.commitDue_of_due onCore only pos listed isDue⟩,
        fun early => (runs _ _).trans (congrArg _ (State.commitDue_of_early onCore only early))⟩
    simp only [List.forall_mem_cons, List.not_mem_nil, false_implies, implies_true, and_true]
    exact ⟨effect _ [.fixed, .engine] (fun _ _ => rfl) _ rfl, effect _ [.fixed, .engine] (fun _ _ => rfl) _ rfl,
      effect _ [.load] (fun _ _ => rfl) _ rfl, effect _ [.divide] (fun _ _ => rfl) _ rfl⟩
  case overrun =>
    exact fun s budget exceeded first => ⟨exec_firstOverrun_activity budget exceeded first,
      fun p => exec_firstOverrun_program budget exceeded first⟩
  case traps =>
    intro s onCore live outside noTags noVec
    have takes : s.me.takesAsync = true := by simp [Activity.takesAsync, live, outside]
    have atOnce : ¬ (s.me.speculative || s.vecBusy) = true := by simp [noTags, noVec]
    refine ⟨fun pending => ?_, fun bar pr rest missed pending hbar hpr => ?_, fun ag n e refused pending hn he => ?_⟩
    · rw [exec_runBudgetTrap onCore takes pending, if_neg atOnce]
    · rw [exec_missedPromiseTrap onCore takes missed pending, if_neg atOnce, Nat.mod_eq_of_lt hbar, Nat.mod_eq_of_lt hpr]
    · intro t
      rw [exec_refusedStoreTrap onCore takes refused pending, if_neg atOnce, Nat.mod_eq_of_lt hn, Nat.mod_eq_of_lt he]
  case waits =>
    intro s onCore live outside busy
    have takes : s.me.takesAsync = true := by simp [Activity.takesAsync, live, outside]
    have later : (s.me.speculative || s.vecBusy) = true := by simpa using busy
    refine ⟨fun pending => ?_, fun missed pending => ?_, fun refused pending => ?_⟩
    · rw [exec_runBudgetTrap onCore takes pending, if_pos later]
    · obtain ⟨⟨bar, pr⟩, rest, missed⟩ := List.exists_cons_of_ne_nil missed
      rw [exec_missedPromiseTrap onCore takes missed pending, if_pos later]
    · obtain ⟨⟨ag, n, e⟩, refused⟩ := Option.isSome_iff_exists.mp refused
      rw [exec_refusedStoreTrap onCore takes refused pending, if_pos later]
  case retirement =>
    intro s j onCore compute noProg noTags ending noCmds noEngine noUpdate noHelds noColl noClaims noParty job
    obtain ⟨absent, disp, msgs⟩ := State.retireMe_of_job noParty job 0
    exact ⟨_, exec_retirement_of_ending onCore compute noProg noTags ending noCmds noEngine noUpdate noHelds noColl noClaims noParty,
      absent, by rw [disp], msgs⟩
  case kill => exact fun s onCore exists_ notKilled noProg condemned => exec_kill_of_condemned onCore exists_ notKilled noProg condemned
  case killStat => exact fun a => by simp [Activity.killStat, statRunaway, and_assoc]
  case grant => exact fun s rest y t d onCore queue free waits => exec_monitorGrant_me onCore queue free waits
  case wake =>
    intro s dst st since onCore done
    exact ⟨_, exec_barWaitWake_me onCore done, by simp, by simp, fun pos _ waits => State.deliver_me_g pos (by exact waits) _⟩

end Sys2Proof.Machine
end

section
/-! SUPPORT. A saved activity that still has a write pending, and what its restoration makes of the register (R166; O48). -/

namespace Sys2Proof.Machine

/-- A saved activity whose g5 is bound to 3 and has a write of 7 pending, in `bar.wait` at a barrier whose awaited phase has not completed. -/
def savedWithPend : Saved :=
  { act := { Activity.absent with
      uid := 1
      life := .live
      regs := ⟨[(5, 3)], [], [], [], [⟨.g, 5⟩]⟩
      pend := [⟨⟨.g, 5⟩, 7, 0, .fixed, []⟩]
      block := .barWait 0 0 0 }
    blocks := [], image := [], cmds := [], mats := [], wake := 1, at_ := none, since := none, order := 0 }

/-- Its blocking point is armed again in the restoration, and with it the pending write takes effect: g5 is 7. -/
theorem restoreOn_savedWithPend : ((State.reset.restoreOn savedWithPend 0).bind (fun x => x.act? 1)).map (fun b => b.raw ⟨.g, 5⟩) = some 7 := by
  decide +kernel

/-- Refutes O48, by its clause on restoration, which speaks of every `Saved`: where a write is pending in the saved context (which
`saveMe` leaves in none that it saves), the restored register holds the value written, not the one that was bound. -/
theorem not_placement : ¬ Obligations.Placement := by
  unfold Obligations.Placement
  rintro ⟨-, -, -, -, -, -, -, -, -, restored, -⟩
  have written := restoreOn_savedWithPend
  obtain ⟨b, hb, written⟩ := Option.map_eq_some_iff.mp written
  obtain ⟨x, hx, hb⟩ := Option.bind_eq_some_iff.mp hb
  obtain ⟨b', hb', -, -, -, -, -, -, -, -, kept, -⟩ := restored State.reset x savedWithPend 0 rfl hx
  have same : b' = b := Option.some.inj (hb'.symm.trans hb)
  have bound : b'.raw ⟨.g, 5⟩ = 3 := kept rfl (⟨.g, 5⟩, 3) (by decide +kernel) (by decide +kernel)
  rw [same, written] at bound
  exact absurd bound (by decide +kernel)

end Sys2Proof.Machine
end

section
/-! SUPPORT. Posts, host queues and the acceptance of jobs (R36, R374-R380, R385), and the statement about them. -/

namespace Sys2Proof.Machine

/-! ## Posts (R380) -/

/-- A unit's answer to a post whose card it has read: FETCH, FULL, or the id with the outcome of the checks. -/
def State.answerPost (uid d vd : Nat) (card : Except Nat Card) (t : State) : State :=
  match card with
  | .error _ => t.postResult uid d 0x30000
  | .ok c =>
    if t.tableRoom vd then
      (t.acceptJob vd c).1.postResult uid d (BitVec.ofNat 64 ((t.acceptJob vd c).2.1 + if t.cardOk vd c then 0 else 0x10000))
    else t.postResult uid d 0x20000

/-- The result's RES bits as a number. -/
theorem postWord_ite (id : Nat) (ok : Bool) :
    postWord id (if ok then 0 else 1) = BitVec.ofNat 64 (id + if ok then 0 else 0x10000) := by
  cases ok <;> rfl

/-- The unit takes the post whose turn it is. -/
theorem exec_jobpostRequest {s : State} {m : Msg} {uid d va vd : Nat} {g : Agent} (found : s.msgs.find? (fun x => x.id = m.id) = some m)
    (post : m.kind = .jobpost uid d va vd g) (takes : s.unitTakes m (agentDie g) g.num = true) (free : s.cardHeld vd va = false) :
    let u := (s.unitBusy (agentDie g)).dropMsg m.id
    exec (.jobpostRequest m.id) s = .next ((u.keepVirt vd (u.dasid vd) va 64).answerPost uid d vd (u.readCard vd va)) := by
  intro u
  show execJobpostRequest _ _ = _
  simp only [execJobpostRequest, found, post, takes, free, Bool.not_true, Bool.or_self, Bool.false_eq_true, if_false]
  show Host.Outcome.next (match u.readCard vd va with
    | .error _ => _
    | .ok c => _) = _
  cases u.readCard vd va with
  | error e => rfl
  | ok c =>
    generalize u.keepVirt vd (u.dasid vd) va 64 = t
    cases room : t.tableRoom vd with
    | false => simp [State.answerPost, room, postWord]
    | true =>
      simp only [State.answerPost, room, ← postWord_ite]
      rfl

/-! ## Acceptance (R374) -/

/-- A card that passes R36 stands in the table under the VD's next id, with its status byte 0. -/
theorem State.acceptJob_of_cardOk {s : State} {vd : Nat} {c : Card} (ok : s.cardOk vd c = true) :
    (s.acceptJob vd c).1 = State.putStatus vd (s.newId vd) 0 { s with disp := { s.disp with
      jobs := s.disp.jobs ++ [({ vd := vd, jid := s.newId vd, owner := c.ownerDie, card := c
                                 preds := (c.preds.filter (fun n => n ≠ 0 && s.held vd n)).eraseDups
                                 readyAt := none, argt := none, argtRead := false, accepted := s.cycle, back := [], next := 0
                                 lastDealt := 0, retired := 0, stat := 0, nerr := 0, stranded := false } : Job)]
      counters := s.disp.counters.put vd (stepId (s.newId vd)) } } := by
  simp only [State.acceptJob, ok, if_true]

/-- A VD's ids run from 1 to 65,535 and begin again at 1. -/
theorem stepId_bounds (n : Nat) : 1 ≤ stepId n ∧ stepId n ≤ 0xFFFF ∧ (1 ≤ n → n < 0xFFFF → stepId n = n + 1) := by
  unfold stepId
  split <;> omega

/-! ## The control word of a host queue (R376) -/

/-- HEAD's field replaced, in numbers. -/
theorem replaceHead_eq (ctl h : Nat) :
    ctl - ctl / 2 ^ 16 % 2 ^ 16 * 2 ^ 16 + h * 2 ^ 16 = ctl / 2 ^ 32 * 2 ^ 32 + h * 2 ^ 16 + ctl % 2 ^ 16 := by
  omega

/-- HEAD advanced: the fields above and below it stay. -/
theorem ringAdvance_false (ctl : Nat) :
    ringAdvance ctl false = ctl / 2 ^ 32 * 2 ^ 32 + (ringHead ctl + 1) % ringSize ctl * 2 ^ 16 + ctl % 2 ^ 16 :=
  replaceHead_eq ctl _

theorem ringAdvance_false_fields {ctl : Nat} (size : ringSize ctl ≤ 2 ^ 16) :
    ringHead (ringAdvance ctl false) = (ringHead ctl + 1) % ringSize ctl ∧ ringTail (ringAdvance ctl false) = ringTail ctl ∧
    ringOn (ringAdvance ctl false) = ringOn ctl := by
  have head : (ringHead ctl + 1) % ringSize ctl < ringSize ctl := Nat.mod_lt _ (by unfold ringSize; positivity)
  rw [ringAdvance_false]
  generalize (ringHead ctl + 1) % ringSize ctl = h at head
  refine ⟨?head, ?tail, ?on⟩
  case head => unfold ringHead; omega
  case tail => unfold ringTail; omega
  case on =>
    have top : (ctl / 2 ^ 32 * 2 ^ 32 + h * 2 ^ 16 + ctl % 2 ^ 16) / 2 ^ 63 = ctl / 2 ^ 63 := by omega
    simp only [ringOn, Nat.testBit_eq_decide_div_mod_eq, top]

/-! ## Entries of the host queues (R376) -/

/-- The unit of die 0 has taken the entry at HEAD of a queue: HEAD of the control word `ctl` advances, with ERR where the entry was
refused, and the turn passes on. -/
def State.advanceQueue (vd q ctl : Nat) (err : Bool) (s : State) : State :=
  State.modVd vd (fun v => { v with jqctl := v.jqctl.put q (BitVec.ofNat 64 (ringAdvance ctl err)) })
    { s.unitBusy 0 with disp := { (s.unitBusy 0).disp with turn := (vd, s.disp.turn.2.put vd q) } }

section
variable {s : State} {vd q : Nat} (turn : s.nextQueue = some (vd, q)) (idle : s.unitIdle 0 = true)
include turn idle

/-- An entry that cannot be read sets ERR. -/
theorem exec_jobQueueEntry_of_error {entry e : Nat}
    (address : entry = (s.vd vd).jqbaseOf q % 2 ^ 56 + 8 * (ringHead ((s.vd vd).jqctlOf q) % ringSize ((s.vd vd).jqctlOf q)))
    (still : s.virtHeld vd (s.dasid vd) entry 8 = false) (read : allOk (s.readVirt vd (s.dasid vd) entry 8) = .error e) :
    exec (.jobQueueEntry vd q) s = .next ((s.keepVirt vd (s.dasid vd) entry 8).advanceQueue vd q ((s.vd vd).jqctlOf q) true) := by
  subst address
  show execJobQueueEntry _ _ _ = _
  simp only [execJobQueueEntry, turn, idle, still, read, ne_eq, not_true_eq_false, decide_false, Bool.not_true, Bool.or_self,
    Bool.false_eq_true, if_false]
  rfl

/-- The card that an entry names is accepted, or its absence sets ERR. -/
theorem exec_jobQueueEntry_of_ok {entry : Nat} {bs : List Byte} {card : Option Card}
    (address : entry = (s.vd vd).jqbaseOf q % 2 ^ 56 + 8 * (ringHead ((s.vd vd).jqctlOf q) % ringSize ((s.vd vd).jqctlOf q)))
    (still : s.virtHeld vd (s.dasid vd) entry 8 = false) (read : allOk (s.readVirt vd (s.dasid vd) entry 8) = .ok bs)
    (cardStill : s.cardHeld vd (ofBytes bs) = false)
    (named : (if ofBytes bs / 2 ^ 56 ≠ 0 || ofBytes bs % 64 ≠ 0 then none else (s.readCard vd (ofBytes bs)).toOption) = card) :
    let f := s.keepVirt vd (s.dasid vd) entry 8
    let t := (f.keepVirt vd (f.dasid vd) (ofBytes bs) 64).advanceQueue vd q ((s.vd vd).jqctlOf q) card.isNone
    exec (.jobQueueEntry vd q) s = .next (card.elim t (fun c => (t.acceptJob vd c).1)) := by
  subst address
  intro f t
  show execJobQueueEntry _ _ _ = _
  simp only [ne_eq] at named
  simp only [execJobQueueEntry, turn, idle, still, read, cardStill, named, ne_eq, not_true_eq_false, decide_false, Bool.not_true, Bool.or_self,
    Bool.false_eq_true, if_false]
  cases card <;> rfl

end

/-! ## From acceptance to readiness (R36, R385) -/

/-- The number that names a job gives back its VD and its id. -/
theorem jobVd_jobId {vd jid : Nat} (bound : jid < 0x10000) : jobVd (vd * 0x10000 + jid) = vd ∧ jobId (vd * 0x10000 + jid) = jid := by
  unfold jobVd jobId
  omega

theorem exec_jobReady {s : State} {vd jid : Nat} {j : Job} (bound : jid < 0x10000) (job : s.jobOf vd jid = some j) (hvd : j.vd = vd)
    (hjid : j.jid = jid) (preds : j.preds = []) (unready : j.readyAt = none) :
    exec (.jobReady (vd * 0x10000 + jid)) s =
      .next (s.modJob vd jid (fun (k : Job) => { k with readyAt := some (s.cycle + 1) })) := by
  show execJobReady _ _ = _
  subst hvd hjid
  simp [execJobReady, jobVd_jobId bound, job, preds, unready]

section
variable {s : State} {j : Job} (bound : j.jid < 0x10000) (job : s.jobOf j.vd j.jid = some j) (unread : j.argtRead = false)
  (due : j.accepted + 68 ≤ s.cycle + 1) (free : s.unitFree j.owner = true) (still : s.recordHeld j.vd j.jid j.card = false)
include bound job unread due free still

/-- A descriptor that the table holds is noted; a job without records completes. -/
theorem exec_argtDescriptorRead_of_named {w : Nat} {d : Desc} {va : Nat} (named : j.card.argt ≠ 0)
    (inTable : s.inTable j.vd j.card.argt = true) (address : s.tableAddr j.vd j.card.argt = va) (lines : s.addrHeld j.vd [va, va + 32] = false)
    (read : (s.unitBusy j.owner).loadPhys j.vd va 64 = .ok w) (parse : Desc.parse (toBytes 64 w) = some d) :
    let t := ((s.unitBusy j.owner).keepAddrs j.vd [va, va + 32]).modJob j.vd j.jid
      (fun (k : Job) => { k with argt := some d, argtRead := true })
    exec (.argtDescriptorRead (j.vd * 0x10000 + j.jid)) s = .next (if j.card.rcount = 0 then t.completeJob j.vd j.jid else t) := by
  subst address
  have late : ¬ s.cycle + 1 < j.accepted + 68 := Nat.not_lt.mpr due
  show execArgtDescriptorRead _ _ = _
  simp [execArgtDescriptorRead, jobVd_jobId bound, job, unread, late, free, still, named, inTable, lines, read, parse]

/-- An argument tensor that the table does not hold completes the job with CARD. -/
theorem exec_argtDescriptorRead_of_unnamed (unnamed : (decide (j.card.argt ≠ 0) && s.inTable j.vd j.card.argt) = false) :
    exec (.argtDescriptorRead (j.vd * 0x10000 + j.jid)) s =
      .next ((((s.unitBusy j.owner).modJob j.vd j.jid (fun (k : Job) => { k with argt := none, argtRead := true })).modJob j.vd j.jid
        (fun (k : Job) => k.error 1 1)).completeJob j.vd j.jid) := by
  have late : ¬ s.cycle + 1 < j.accepted + 68 := Nat.not_lt.mpr due
  show execArgtDescriptorRead _ _ = _
  simp only [execArgtDescriptorRead, jobVd_jobId bound, job, unread, late, free, still, unnamed, decide_false, Bool.not_true, Bool.false_and,
    Bool.or_self, Bool.not_false, Bool.false_eq_true, if_false, if_true]

end

/-! ## O45 -/

/-- Settles O45, clause by clause: the unit's step with its guards met is the answer, the acceptance or the queue's advance that the model
defines; the control word's fields are arithmetic. -/
theorem jobAcceptance : Obligations.JobAcceptance := by
  refine ⟨?post, ?accept, stepId_bounds, ?queue, fun _ => ringAdvance_false_fields, ?argt, ?ready⟩
  case post =>
    intro s m uid d va vd g found post takes free u t
    have step := exec_jobpostRequest found post takes free
    refine ⟨fun e read => ?_, fun c read full => ?_, fun c read room => ?_⟩
    · rw [step, read]
      rfl
    · rw [step, read]
      simp [State.answerPost, t, u, full]
    · rw [step, read]
      simp [State.answerPost, t, u, room]
  case accept => exact fun s vd c ok => State.acceptJob_of_cardOk ok
  case queue =>
    intro s vd q turn idle ctl entry moved f still cardStill
    refine ⟨fun bs c read low aligned card => ?_, fun bs read bad => ?_, fun e read => ?_⟩
    · have named : (if ofBytes bs / 2 ^ 56 ≠ 0 || ofBytes bs % 64 ≠ 0 then none else (s.readCard vd (ofBytes bs)).toOption) = some c := by
        rw [Nat.div_eq_of_lt low, aligned, card]
        rfl
      exact exec_jobQueueEntry_of_ok turn idle rfl still read (cardStill bs read) named
    · have named : (if ofBytes bs / 2 ^ 56 ≠ 0 || ofBytes bs % 64 ≠ 0 then none else (s.readCard vd (ofBytes bs)).toOption) = none := by
        have : ofBytes bs / 2 ^ 56 ≠ 0 ∨ ofBytes bs % 64 ≠ 0 := by omega
        simpa using fun low aligned => absurd this (by simp [low, aligned])
      exact exec_jobQueueEntry_of_ok turn idle rfl still read (cardStill bs read) named
    · exact exec_jobQueueEntry_of_error turn idle rfl still read
  case argt =>
    intro s vd jid j bound job hvd hjid unread due free still v tid va size noted u f lines
    subst hvd hjid
    refine ⟨fun w d hn inTable read parse => ?_, fun outside => ?_⟩
    · have step := exec_argtDescriptorRead_of_named bound job unread due free still hn (va := va) (decide_eq_true inTable) rfl
        (lines hn inTable) read parse
      refine ⟨fun records => ?_, fun none => ?_⟩
      · rw [step, if_neg records]
      · rw [step, if_pos none]
    · refine exec_argtDescriptorRead_of_unnamed bound job unread due free still ?_
      rcases outside with zero | beyond
      · exact Bool.and_eq_false_iff.mpr (.inl (decide_eq_false (not_not_intro zero)))
      · exact Bool.and_eq_false_iff.mpr (.inr (decide_eq_false (Nat.not_lt.mpr beyond)))
  case ready => exact fun s vd jid j bound job hvd hjid preds unready => exec_jobReady bound job hvd hjid preds unready

end Sys2Proof.Machine
end

section
/-! SUPPORT. What the machine's own reads leave unchanged; dealing, starting and completion (R39-R42, R54, R386-R388, R392), and the
statement about them. -/

namespace Sys2Proof.Machine

/-! ## The machine's own reads take no cycle (R301, R430, R453) -/

/-- A fold of steps that keep the cycle keeps it. -/
theorem State.foldl_cycle {α : Type} {f : State → α → State} (keeps : ∀ s x, (f s x).cycle = s.cycle) (l : List α) (s : State) :
    (l.foldl f s).cycle = s.cycle := by
  induction l generalizing s with
  | nil => rfl
  | cons x xs ih => exact (ih (f s x)).trans (keeps s x)

@[simp] theorem State.evictLine_cycle (l : Line) (s : State) : (s.evictLine l).cycle = s.cycle := rfl

@[simp] theorem State.fillLine_cycle (vd : Nat) (k : LineKey) (slice : Nat) (replica : Bool) (f : FillSet) (s : State) :
    (s.fillLine vd k slice replica f).cycle = s.cycle := by
  unfold State.fillLine
  split
  · rfl
  · dsimp only
    split <;> rfl

@[simp] theorem State.countLines_cycle (ks : List LineKey) (s : State) : (s.countLines ks).cycle = s.cycle := by
  unfold State.countLines State.countAt
  refine State.foldl_cycle ?_ _ s
  exact fun _ _ => rfl

@[simp] theorem State.bringLine_cycle (vd : Nat) (k : LineKey) (s : State) : (s.bringLine vd k).cycle = s.cycle := by
  simp only [State.bringLine]
  split <;> simp

@[simp] theorem State.storeCells_cycle (vd : Nat) (k : LineKey) (sect : Nat) (part : Part) (cs : List Host.Cell) (s : State) :
    (s.storeCells vd k sect part cs).cycle = s.cycle := by
  unfold State.storeCells
  dsimp only
  split
  · split <;> rfl
  · rfl

@[simp] theorem State.countEvent_cycle (kind agent cls : Nat) (s : State) : (s.countEvent kind agent cls).cycle = s.cycle := rfl

@[simp] theorem State.ringWrite_cycle (kind agent cls : Nat) (vd : Option Nat) (cyc place info count : Nat) (s : State) :
    (s.ringWrite kind agent cls vd cyc place info count).cycle = s.cycle := by
  unfold State.ringWrite
  dsimp only
  split
  · rfl
  · split
    · rfl
    · rw [State.storeCells_cycle, State.foldl_cycle (fun _ _ => State.countEvent_cycle ..), State.bringLine_cycle]

@[simp] theorem State.report_cycle (kind agent cls : Nat) (vd : Option Nat) (place info : Nat) (s : State) :
    (s.report kind agent cls vd place info).cycle = s.cycle := by
  simp only [State.report, apply_ite State.cycle, State.ringWrite_cycle, State.countEvent_cycle, ite_self]

@[simp] theorem State.fill_cycle (vd : Nat) (k : LineKey) (slice : Nat) (replica : Bool) (f : FillSet) (s : State) :
    (s.fill vd k slice replica f).cycle = s.cycle := by
  unfold State.fill
  dsimp only
  rw [State.foldl_cycle (fun _ _ => State.report_cycle ..), State.fillLine_cycle]

@[simp] theorem State.fetchLine_cycle (vd : Nat) (k : LineKey) (s : State) : (s.fetchLine vd k).cycle = s.cycle := by
  simp only [State.fetchLine]
  split <;> simp

@[simp] theorem State.charge_cycle (vd : Nat) (port : Option Agent) (needs : List (Arbiter × Nat)) (s : State) :
    (s.charge vd port needs).cycle = s.cycle := by
  unfold State.charge
  split <;> rfl

@[simp] theorem State.keepAddrs_cycle (vd : Nat) (pas : List Nat) (s : State) : (s.keepAddrs vd pas).cycle = s.cycle :=
  State.foldl_cycle (fun s k => by simp [State.keepLine]) _ s

@[simp] theorem State.noteWalk_cycle (vd asid va : Nat) (s : State) : (s.noteWalk vd asid va).cycle = s.cycle := by
  unfold State.noteWalk
  split
  · split <;> rfl
  · rfl

@[simp] theorem State.keepVirt_cycle (vd asid va n : Nat) (s : State) : (s.keepVirt vd asid va n).cycle = s.cycle := by
  simp only [State.keepVirt, State.keepAddrs_cycle]
  exact State.foldl_cycle (fun s p => by simp [State.keepWalk]) _ s

/-! ## Dealing (R39, R386) -/

/-- The records that a job has not dealt are those that it has dealt no longer, and those that it deals. -/
theorem Job.take_length_left (j : Job) (n : Nat) :
    (j.take n).1.length = min n j.left ∧ (j.take n).2.left = j.left - min n j.left := by
  simp only [Job.take, Job.left, List.length_append, List.length_take, List.length_map, List.length_range, List.length_drop]
  omega

/-- With no record come back, a chunk is the next records in order. -/
theorem Job.take_of_none_back {j : Job} (n : Nat) (none : j.back = []) :
    (j.take n).1 = (List.range (min n j.left)).map (fun (i : Nat) => j.next + i) := by
  simp [Job.take, Job.left, none]

/-- A job that has not many records left for its span's cores deals the smallest chunk that its card allows. -/
theorem Job.chunk_eq_cmin {j : Job} {cores : Nat} (pos : 0 < cores) (enough : j.card.cmin ≤ j.left)
    (few : j.left ≤ 2 * cores * j.card.cmin) : j.chunk cores = j.card.cmin := by
  have share : (j.left + 2 * cores - 1) / (2 * cores) ≤ j.card.cmin :=
    Nat.lt_succ_iff.mp (Nat.div_lt_of_lt_mul (by rw [Nat.mul_succ]; omega))
  simp only [Job.chunk, Nat.max_eq_right (Nat.succ_le_of_lt pos)]
  omega

theorem exec_dealChunk {s : State} {die n : Nat} {j : Job} (free : s.unitFree (8 + die) = true) (none : s.strandedJob die = none)
    (next : s.nextDeal die = some j) (core : s.dealCore j = some n) :
    let x := j.take (j.chunk (s.usableSpan j.card j.vd).length)
    let t := (s.unitBusy (8 + die)).modJob j.vd j.jid (fun (_ : Job) => { x.2 with lastDealt := s.cycle })
    exec (.dealChunk die) s = .next { t with disp := { t.disp with
      unstarted := t.disp.unstarted ++
        x.1.map (fun (i : Nat) => (⟨j.vd, j.jid, i, n, s.cycle, s.cycle + 2 + unitLatency die n, false⟩ : Unstarted)) } } := by
  intro x t
  show execDealChunk _ _ = _
  simp only [execDealChunk, free, none, next, core, Bool.not_true, Bool.false_eq_true, if_false]
  rfl

/-! ## Starting (R40, R42, R387, R388) -/

/-- The job that stands under an id has it. -/
theorem State.jobOf_ids {s : State} {vd jid : Nat} {j : Job} (job : s.jobOf vd jid = some j) : j.vd = vd ∧ j.jid = jid := by
  simpa using List.find?_some job

/-- The state in which the oldest unstarted activity of a core, of job `j` with its records at `d`, has started there. -/
def State.startRecord (n slot : Nat) (u : Unstarted) (j : Job) (d : Desc) (s : State) : State :=
  let xb := j.card.pages * 0x800
  let va := d.base + u.record * (8 * j.card.rsize)
  let k := s.keepVirt j.card.vd (s.dasid j.card.vd) va (8 * j.card.rsize)
  let t : State := { k with disp := { k.disp with unstarted := k.disp.unstarted.erase u } }
  (t.ensureSeg u.vd u.jid j.card.pages n).place
    { Activity.start s.nextUid ⟨.compute, n⟩ slot 0 s.cycle (j.card.ctx u.jid u.record) with
      lm := s.recordImage j.card d u.record xb
      nextIssue := s.cycle + max ((j.card.dpages * 2048 + 1535) / 1536) (s.missTime ⟨.compute, n⟩ j.card.vd va (8 * j.card.rsize)) }
    [(1, BitVec.ofNat 64 u.record), (2, BitVec.ofNat 64 xb), (3, BitVec.ofNat 64 j.card.stage),
     (63, BitVec.ofNat 64 ((j.card.pages + j.card.dpages) * 0x800))]

theorem exec_activityStart {s : State} {n slot : Nat} {u : Unstarted} {j : Job} {d : Desc} (oldest : s.firstUnstarted n = some u)
    (job : s.jobOf u.vd u.jid = some j) (free : s.freeSlot ⟨.compute, n⟩ coreSlots = some slot)
    (room : s.canTake n j.footprint u.reserved = true) (first : ∀ z, s.firstSaved n = some z → z.act.job.cls < j.card.cls)
    (argt : j.argt = some d)
    (still : s.virtHeld j.card.vd (s.dasid j.card.vd) (d.base + u.record * (8 * j.card.rsize)) (8 * j.card.rsize) = false) :
    exec (.activityStart ⟨.compute, n⟩) s = .next (s.startRecord n slot u j d) := by
  show execActivityStart _ _ = _
  simp only [execActivityStart, oldest, job, free, room, argt, still, ne_eq, not_true_eq_false, Bool.not_true, Bool.false_eq_true,
    if_false, State.startRecord]
  cases saved : s.firstSaved n with
  | none => simp only [Bool.false_eq_true, if_false, JobCtx.top, Card.ctx]
  | some z =>
    have below : ¬ j.card.cls ≤ z.act.job.cls := Nat.not_le.mpr (first z saved)
    simp only [below, decide_false, Bool.false_eq_true, if_false, JobCtx.top, Card.ctx]

/-- A job's image that is read whole comes into its segment on a core. -/
theorem State.loadImage_of_ok {s : State} {ag : Agent} {j : Job} {n : Nat} {image : List Byte}
    (read : allOk (s.readVirt j.vd (s.dasid j.vd) j.card.code n) = .ok image) :
    s.loadImage ag j n = (s.keepVirt j.vd (s.dasid j.vd) j.card.code n).modCoreOf ag (fun (c : Core) => { c with
      segs := c.segs.map (fun (h : CodeSeg) => if h.jid = j.jid && h.vd = j.vd then
        { h.load (image.take (4 * j.card.cwords)) j.card.cwords with loading := none, ready := s.cycle + 1 } else h) }) := by
  simp only [State.loadImage, read, State.keepVirt_cycle]

theorem exec_codeLoad {s : State} {ag : Agent} {vd jid since : Nat} {j : Job} {g : CodeSeg} (bound : jid < 0x10000)
    (seg : (s.coreOf ag).segs.find? (fun (h : CodeSeg) => (h.jid = jid && h.vd = vd) && h.loading.isSome) = some g)
    (loading : g.loading = some since) (job : s.jobOf vd jid = some j)
    (due : since + s.missTime ag vd j.card.code (2048 * j.card.pages) ≤ s.cycle + 1)
    (still : s.virtHeld vd (s.dasid vd) j.card.code (2048 * j.card.pages) = false) :
    exec (.codeLoad ag (vd * 0x10000 + jid)) s = .next (s.loadImage ag j (2048 * j.card.pages)) := by
  obtain ⟨hvd, hjid⟩ : (vd * 0x10000 + jid) / 65536 = vd ∧ (vd * 0x10000 + jid) % 65536 = jid := jobVd_jobId bound
  have late : ¬ s.cycle + 1 < since + s.missTime ag vd j.card.code (2048 * j.card.pages) := Nat.not_lt.mpr due
  show execCodeLoad _ _ _ = _
  simp only [execCodeLoad, hvd, hjid, seg, job, loading, Option.getD_some, late, still, decide_false, Bool.or_self, Bool.false_eq_true,
    if_false]

theorem exec_firstIssue {s : State} {g : CodeSeg} (fresh : s.me.fresh = true) (ready : s.me.nextIssue ≤ s.cycle)
    (onCore : s.core.agent = s.me.agent) (seg : s.seg = some g) (loaded : g.loading = none) (unheld : g.held = false)
    (entry : s.badTarget s.me.pc.toNat = none) (due : s.me.firstCycle g.ready s.cycle ≤ s.cycle + 1) :
    exec (.firstIssue s.me.uid) s =
      .next (s.modMe (fun a => { a with fresh := false, nextIssue := s.me.firstCycle g.ready s.cycle })) := by
  have good : (s.modMe (fun a => { a with fresh := false, nextIssue := s.me.firstCycle g.ready s.cycle })).badTarget s.me.pc.toNat = none :=
    entry
  show execFirstIssue _ _ = _
  simp [execFirstIssue, fresh, Nat.not_lt.mpr ready, State.focus_me onCore, seg, Option.filter_some, loaded, unheld, Nat.not_lt.mpr due, good]

/-! ## Completion (R53, R54, R392) -/

/-- A job that completed is no longer in the table. -/
theorem State.completeJob_jobs {s : State} {vd jid : Nat} {k : Job} (found : (s.jobOf vd jid).isSome = true)
    (k_mem : k ∈ (s.completeJob vd jid).disp.jobs) : ¬ (k.vd = vd ∧ k.jid = jid) ∧ (k.vd = vd → jid ∉ k.preds) := by
  obtain ⟨j, job⟩ := Option.isSome_iff_exists.mp found
  simp only [State.completeJob, job, List.mem_map, List.mem_filter] at k_mem
  obtain ⟨k', ⟨-, other⟩, rfl⟩ := k_mem
  have other' : ¬ (k'.vd = vd ∧ k'.jid = jid) := not_and_or.mpr (by simpa using other)
  split
  next same => exact ⟨other', fun _ => by simp⟩
  next diff => exact ⟨other', fun same => absurd same diff⟩

theorem State.jobOf_completeJob {s : State} {vd jid : Nat} (found : (s.jobOf vd jid).isSome = true) :
    (s.completeJob vd jid).jobOf vd jid = none :=
  List.find?_eq_none.mpr (fun _ k_mem => by simpa using (State.completeJob_jobs found k_mem).1)

theorem Job.retire_clean (k : Job) : k.retire 0 0 = { k with retired := k.retired + 1 } := rfl

theorem Job.retire_retired (k : Job) (stat refused : Nat) : (k.retire stat refused).retired = k.retired + 1 := by
  simp only [Job.retire, Job.error]
  split <;> split <;> rfl

/-- The first status that an activity brings is its job's. -/
theorem Job.retire_stat {k : Job} {stat : Nat} (killed : stat ≠ 0) (none : k.stat = 0) : (k.retire stat 0).stat = stat := by
  simp [Job.retire, Job.error, killed, none]

theorem State.takeRetired_takes {s : State} {m : Msg} {vd jid stat refused die num : Nat} {g : Agent}
    (found : s.msgs.find? (fun x => x.id = m.id) = some m) (retired : m.kind = .retired vd jid stat refused g)
    (unit : s.msgUnit m = some (die, num)) (takes : s.unitTakes m die num = true) :
    s.takeRetired m.id = ((s.unitBusy die).dropMsg m.id).modJob vd jid (fun (k : Job) => k.retire stat refused) := by
  simp [State.takeRetired, found, retired, unit, takes]

/-- The message by which a job is to complete, once it has been sent. -/
theorem State.completion_send {s : State} {j : Job} (none : s.completion j = none) :
    (s.send (.complete j.vd j.jid) s.cycle).completion j = some ⟨s.nextMsg, .complete j.vd j.jid, s.cycle⟩ := by
  simp only [State.completion] at none ⊢
  simp [State.send, List.find?_append, none]

section
variable {s : State} {j : Job}

theorem State.noteCompletion_of_some {m : Msg} (sent : s.completion j = some m) : s.noteCompletion j = s := by
  simp [State.noteCompletion, sent]

theorem State.noteCompletion_of_none (none : s.completion j = none) (done : j.card.rcount ≤ j.retired) (read : j.argtRead = true)
    (performed : s.orphanWrites j.vd = false) : s.noteCompletion j = s.send (.complete j.vd j.jid) s.cycle := by
  simp [State.noteCompletion, none, Nat.not_lt.mpr done, read, performed]

/-- A job completes when its unit takes the message by which it is to complete, which is sent by then. -/
theorem exec_jobCompletion {t : State} {m : Msg} (bound : j.jid < 0x10000) (job : s.jobOf j.vd j.jid = some j) (noted : s.noteCompletion j = t)
    (sent : t.completion j = some m) (still : t.recordHeld j.vd j.jid j.card = false) :
    exec (.jobCompletion (j.vd * 0x10000 + j.jid)) s =
      .next (if t.unitTakes m j.owner 0 then ((t.unitBusy j.owner).dropMsg m.id).completeJob j.vd j.jid else t) := by
  show execJobCompletion _ _ = _
  simp only [execJobCompletion, jobVd_jobId bound, job, noted, sent, still, Bool.or_false]
  cases t.unitTakes m j.owner 0 <;> rfl

end

theorem waitWord_of_lt {id byte : Nat} (idBound : id < 0x10000) (byteBound : byte < 0x100) :
    waitWord id byte = BitVec.ofNat 64 (id + byte * 0x10000) := by
  have hid : id % 2 ^ 16 = id := Nat.mod_eq_of_lt idBound
  have hbyte : byte % 2 ^ 8 = byte := Nat.mod_eq_of_lt byteBound
  rw [waitWord, hid, hbyte]
  rfl

/-- A woken `jobwait` gives the job's id and its status byte. -/
theorem exec_jobwaitWake {s : State} {id dst byte due : Nat} (onCore : s.core.agent = s.me.agent) (waits : s.me.block = .jobDone id dst byte due)
    (isDue : due ≤ s.cycle + 1) :
    exec (.jobwaitWake s.me.uid) s = .next (State.deliver dst (waitWord id byte)
      (s.modMe (fun a => { a with block := .none, nextIssue := max a.nextIssue (s.cycle + 1) }))) := by
  show execJobwaitWake _ _ = _
  simp only [execJobwaitWake, State.act?_me, Option.map_some, waits, Nat.not_lt.mpr isDue, if_false, State.focus_me onCore]

/-! ## O46 -/

/-- Settles O46, clause by clause: each step with its guards met is the model's own operation on the job, the core or the message; what a
chunk, a completion and a retirement do to a job follows from their definitions. -/
theorem dealingAndStarting : Obligations.DealingAndStarting := by
  refine ⟨fun _ _ _ _ => exec_dealChunk, ?take, fun _ _ => Job.chunk_eq_cmin, ?start, ?load, ?issue, ?completion, ?table,
    fun _ _ _ _ _ _ _ _ _ => State.takeRetired_takes, ?retire, ?wake⟩
  case take =>
    intro j n _
    exact ⟨(j.take_length_left n).1, (j.take_length_left n).2, j.take_of_none_back n⟩
  case start =>
    intro s n slot u j d oldest job free room first argt xb ctx va k still t
    obtain ⟨hvd, hjid⟩ := State.jobOf_ids job
    have room' : s.canTake n j.footprint u.reserved = true := by simpa only [Job.footprint, hvd, hjid] using room
    simpa only [State.startRecord] using exec_activityStart oldest job free room' first argt still
  case load =>
    intro s ag vd jid since j g image bound seg loading job n due still read
    obtain ⟨rfl, rfl⟩ := State.jobOf_ids job
    rw [exec_codeLoad bound seg loading job due still, State.loadImage_of_ok read]
  case issue =>
    intro s g fresh ready onCore seg loaded unheld entry t due
    exact exec_firstIssue fresh ready onCore seg loaded unheld entry due
  case completion =>
    intro s vd jid j bound job hvd hjid read done performed still
    subst hvd hjid
    refine ⟨?unsent, ?sent⟩
    case unsent =>
      intro none m t
      have step := exec_jobCompletion bound job (State.noteCompletion_of_none none done read performed) (State.completion_send none) still
      exact ⟨fun takes => step.trans (congrArg _ (if_pos takes)), fun waits => step.trans (congrArg _ (if_neg (Bool.eq_false_iff.mp waits)))⟩
    case sent =>
      intro m sent takes
      exact (exec_jobCompletion bound job (State.noteCompletion_of_some sent) sent still).trans (congrArg _ (if_pos takes))
  case table =>
    intro s vd jid found
    exact ⟨State.jobOf_completeJob found, fun _ k_mem => (State.completeJob_jobs found k_mem).2⟩
  case retire =>
    intro k stat refused
    refine ⟨k.retire_retired stat refused, k.retire_clean, fun killed clean none => ?_⟩
    subst clean
    exact Job.retire_stat killed none
  case wake =>
    intro s id dst byte due onCore waits isDue idBound byteBound
    refine ⟨_, exec_jobwaitWake onCore waits isDue, by simp, by simp, fun pos _ claimed => ?_⟩
    rw [State.deliver_me_g (Nat.pos_of_ne_zero pos) (by exact claimed), waitWord_of_lt idBound byteBound]

end Sys2Proof.Machine
end

section
/-! SUPPORT. Rounding a value on a format's grid (R58, R59, R66), and the statement about it. -/

namespace Sys2Proof.Machine

/-! ## Powers of 2 as fractions -/

theorem pow2_fst_pos (k : Int) : 0 < (pow2 k).1 := by
  unfold pow2
  split <;> simp

theorem pow2_snd_pos (k : Int) : 0 < (pow2 k).2 := by
  unfold pow2
  split <;> simp

theorem pow2_div (k : Int) : ((pow2 k).1 : ℚ) / (pow2 k).2 = 2 ^ k := by
  unfold pow2
  split
  next nonneg =>
    lift k to ℕ using nonneg
    simp
  next neg =>
    obtain ⟨m, rfl⟩ : ∃ m : ℕ, k = -m := ⟨(-k).toNat, by omega⟩
    simp

/-- Comparing a · 2^j with b · 2^k by cross products of their fractions. -/
theorem pow2_cross_le_iff (a b : Nat) (j k : Int) :
    a * (pow2 j).1 * (pow2 k).2 ≤ b * (pow2 k).1 * (pow2 j).2 ↔ (a : ℚ) * 2 ^ j ≤ b * 2 ^ k := by
  have hj : (0 : ℚ) < (pow2 j).2 := Nat.cast_pos.mpr (pow2_snd_pos j)
  have hk : (0 : ℚ) < (pow2 k).2 := Nat.cast_pos.mpr (pow2_snd_pos k)
  rw [← pow2_div j, ← pow2_div k, ← mul_div_assoc, ← mul_div_assoc, div_le_div_iff₀ hj hk]
  exact_mod_cast Iff.rfl

theorem log2_mul_two_pow {n : Nat} (pos : n ≠ 0) (m : Nat) : Nat.log2 (n * 2 ^ m) = Nat.log2 n + m := by
  induction m with
  | zero => simp
  | succ m ih => rw [pow_succ', mul_left_comm, Nat.log2_two_mul (by positivity), ih, add_assoc]

theorem log2_mul_pow2 {n : Nat} (pos : n ≠ 0) (k : Int) : (Nat.log2 (n * (pow2 k).1) : Int) - Nat.log2 (pow2 k).2 = Nat.log2 n + k := by
  unfold pow2
  split
  next nonneg =>
    have one : Nat.log2 1 = 0 := Nat.log2_two_pow (n := 0)
    simp [log2_mul_two_pow pos, Int.toNat_of_nonneg nonneg, one]
  next neg =>
    simp only [Nat.log2_two_pow, mul_one]
    omega

theorem floorLog2_scaled {n : Nat} (pos : n ≠ 0) (k : Int) : floorLog2 (n * (pow2 k).1) (pow2 k).2 = Nat.log2 n + k := by
  have low : (1 : ℚ) * 2 ^ (Nat.log2 n + k : Int) ≤ n * 2 ^ k := by
    rw [one_mul, zpow_add₀ two_ne_zero, zpow_natCast]
    gcongr
    exact_mod_cast Nat.log2_self_le pos
  have notBelow := (pow2_cross_le_iff 1 n (Nat.log2 n + k) k).mpr low
  rw [one_mul, mul_comm (pow2 _).1] at notBelow
  simp only [floorLog2, log2_mul_pow2 pos]
  exact if_neg (Nat.not_lt.mpr notBelow)

/-- n · 2^k is n whole steps of the spacing 2^k. -/
theorem gridQuot_scaled (n : Nat) (k : Int) : gridQuot (n * (pow2 k).1) (pow2 k).2 k = (n, 0, (pow2 k).2 * (pow2 k).1) := by
  have pos : 0 < (pow2 k).2 * (pow2 k).1 := Nat.mul_pos (pow2_snd_pos k) (pow2_fst_pos k)
  have num : n * (pow2 k).1 * (pow2 k).2 = n * ((pow2 k).2 * (pow2 k).1) := by ring
  simp only [gridQuot, num, Nat.mul_div_cancel _ pos, Nat.mul_mod_left]

/-- With nothing left over, no mode and no draw moves the integer part. -/
theorem roundQuot_exact (rm : RMode) (s : Bool) (rnd n : Nat) {den : Nat} (pos : 0 < den) : roundQuot rm s rnd n 0 den = n := by
  cases rm
  case rne => simp [roundQuot, pos.ne]
  all_goals simp [roundQuot]

/-! ## The grid of a format -/

/-- n · 2^(e − P + 1) is a value of the format, with e its exponent: that of the subnormal numbers, or n has all P bits. -/
structure FFmt.OnGrid (f : FFmt) (n : Nat) (e : Int) : Prop where
  emin_le : f.emin ≤ e
  lt : n < 2 ^ f.p
  normal : e = f.emin ∨ 2 ^ (f.p - 1) ≤ n
  le_max : (n : ℚ) * 2 ^ (e - f.p + 1) ≤ f.maxN * 2 ^ f.maxE

/-- R66 finds the exponent of a value on the grid. -/
theorem FFmt.OnGrid.exponent_eq {f : FFmt} {n : Nat} {e : Int} (grid : f.OnGrid n e) (pos : n ≠ 0) :
    (if (Nat.log2 n : Int) + (e - f.p + 1) < f.emin then f.emin else (Nat.log2 n : Int) + (e - f.p + 1)) = e := by
  obtain ⟨emin_le, lt, normal, -⟩ := grid
  have log_lt : Nat.log2 n < f.p := (Nat.log2_lt pos).mpr lt
  rcases normal with rfl | full
  case inl => split <;> omega
  case inr =>
    have le_log : f.p - 1 ≤ Nat.log2 n := (Nat.le_log2 pos).mpr full
    split <;> omega

theorem FFmt.encode_zero (f : FFmt) (s : Bool) (e : Int) : f.encode s 0 e = f.signBit s := by simp [FFmt.encode]

/-- A value on the grid rounds to its own pattern. -/
theorem FFmt.round_onGrid {f : FFmt} {n : Nat} {e : Int} (grid : f.OnGrid n e) (rm : RMode) (ovf rnd : Nat) (s : Bool) :
    f.round rm ovf rnd (.scaled s n (e - f.p + 1)) = f.encode s n e := by
  rcases eq_or_ne n 0 with rfl | pos
  case inl => simp [Val.scaled, FFmt.round, FFmt.encode_zero]
  case inr =>
    have notZero : n * (pow2 (e - f.p + 1)).1 ≠ 0 := Nat.mul_ne_zero pos (pow2_fst_pos _).ne'
    have den_pos := Nat.mul_pos (pow2_snd_pos (e - f.p + 1)) (pow2_fst_pos (e - f.p + 1))
    have noOverflow := Nat.not_lt.mpr ((pow2_cross_le_iff _ _ _ _).mpr grid.le_max)
    simp only [Val.scaled, FFmt.round, notZero, if_false, floorLog2_scaled pos, grid.exponent_eq pos, gridQuot_scaled,
      roundQuot_exact _ _ _ _ den_pos]
    exact if_neg noOverflow

/-! ## The fields of a pattern (R58, R59) -/

namespace FFmt

/-- The fraction field. -/
def fracOf (f : FFmt) (x : Nat) : Nat := x % 2 ^ (f.p - 1)

/-- The exponent field. -/
def expOf (f : FFmt) (x : Nat) : Nat := x / 2 ^ (f.p - 1) % 2 ^ f.ebits

/-- Whether the sign bit is set. -/
def negOf (f : FFmt) (x : Nat) : Bool := x / 2 ^ f.sign % 2 = 1

/-- The significand of a pattern of a finite value, in units of its grid. -/
def signifOf (f : FFmt) (x : Nat) : Nat := if f.expOf x = 0 then f.fracOf x else 2 ^ (f.p - 1) + f.fracOf x

/-- The exponent of a pattern of a finite value; the subnormal values have the smallest. -/
def exponentOf (f : FFmt) (x : Nat) : Int := if f.expOf x = 0 then f.emin else (f.expOf x : Int) - f.bias

/-- The value of a pattern that names neither an infinity nor a NaN. -/
def finiteOf (f : FFmt) (x : Nat) : Val := .scaled (f.negOf x) (f.signifOf x) (f.exponentOf x - f.p + 1)

/-- The exponent field and the fraction of the largest finite value. -/
def top (f : FFmt) : Nat × Nat :=
  match f.kind with
  | .ieee | .e5m2 => (2 ^ f.ebits - 2, 2 ^ (f.p - 1) - 1)
  | .e2m1 => (2 ^ f.ebits - 1, 2 ^ (f.p - 1) - 1)
  | .e4m3 | .e3m5 => (2 ^ f.ebits - 1, 2 ^ (f.p - 1) - 2)

/-- What the rounding of exact values needs of a signed format: its fields fill the pattern, and its largest pattern is within MAXF. -/
structure Fits (f : FFmt) : Prop where
  p_pos : 0 < f.p
  p_le : f.p - 1 ≤ f.sign
  signed : f.kind ≠ .e3m5
  top_pos : 1 < f.top.1
  top_le : let k := (f.top.1 : Int) - f.bias - f.p + 1
    (2 ^ (f.p - 1) + f.top.2) * (pow2 k).1 * (pow2 f.maxE).2 ≤ f.maxN * (pow2 f.maxE).1 * (pow2 k).2

theorem fits_of_mem {f : FFmt} (mem : f ∈ [fFp32, fBf16, fFp16, fE4m3, fE5m2, fE2m1]) : f.Fits := by
  simp only [List.mem_cons, List.not_mem_nil, or_false] at mem
  rcases mem with rfl | rfl | rfl | rfl | rfl | rfl <;>
    exact ⟨by decide, by decide, by decide, by decide, by decide⟩

theorem fracOf_lt (f : FFmt) (x : Nat) : f.fracOf x < 2 ^ (f.p - 1) := Nat.mod_lt _ (by positivity)

theorem expOf_lt (f : FFmt) (x : Nat) : f.expOf x < 2 ^ f.ebits := Nat.mod_lt _ (by positivity)

/-- The two branches of R59 for a finite value, as one. -/
theorem ite_scaled_eq_finiteOf {f : FFmt} (p_pos : 0 < f.p) (x : Nat) :
    (if f.expOf x = 0 then Val.scaled (f.negOf x) (f.fracOf x) (f.emin - (f.p - 1 : Nat))
      else Val.scaled (f.negOf x) (2 ^ (f.p - 1) + f.fracOf x) ((f.expOf x : Int) - f.bias - (f.p - 1 : Nat))) = f.finiteOf x := by
  have step (e : Int) : e - (f.p - 1 : Nat) = e - f.p + 1 := by omega
  unfold finiteOf signifOf exponentOf
  split <;> rw [step]

/-- An infinity, in a format that has it, rounds to its own pattern. -/
theorem round_inf_of_infinities {f : FFmt} (kind : f.kind = .ieee ∨ f.kind = .e5m2) (rm : RMode) (ovf rnd : Nat) (s : Bool) :
    f.round rm ovf rnd (.inf s) = f.infBits s := by
  rcases kind with kind | kind <;> simp only [round, specialInf, kind]

section
variable {f : FFmt} (fits : f.Fits) {x : Nat}
include fits

/-- A pattern is its sign bit, its exponent field and its fraction. -/
theorem fields_eq (bound : x < 2 ^ (f.sign + 1)) : f.signBit (f.negOf x) + f.expOf x * 2 ^ (f.p - 1) + f.fracOf x = x := by
  have width : f.sign = f.p - 1 + f.ebits := by
    have := fits.p_le
    unfold ebits
    omega
  have high : x / 2 ^ f.sign < 2 := Nat.div_lt_of_lt_mul (by rwa [← pow_succ])
  have sign : f.signBit (f.negOf x) = 2 ^ f.sign * (x / 2 ^ f.sign) := by
    obtain zero | one := Nat.le_one_iff_eq_zero_or_eq_one.mp (Nat.le_of_lt_succ high)
    · simp [signBit, negOf, zero]
    · simp [signBit, negOf, one, fits.signed]
  have low : x % 2 ^ f.sign = f.fracOf x + 2 ^ (f.p - 1) * f.expOf x := by
    rw [width, pow_add, Nat.mod_mul]
    rfl
  have whole := Nat.div_add_mod x (2 ^ f.sign)
  rw [sign, mul_comm (f.expOf x)]
  omega

/-- Encode undoes the split of a pattern of a finite value into sign, significand and exponent. -/
theorem encode_fields (bound : x < 2 ^ (f.sign + 1)) : f.encode (f.negOf x) (f.signifOf x) (f.exponentOf x) = x := by
  have fields := fields_eq fits bound
  have frac_lt := f.fracOf_lt x
  by_cases sub : f.expOf x = 0
  case pos =>
    simp only [sub, zero_mul, add_zero] at fields
    simp [encode, signifOf, sub, frac_lt, fields]
  case neg =>
    have hidden : 2 ^ (f.p - 1) + f.fracOf x < 2 * 2 ^ (f.p - 1) := by omega
    simp [encode, signifOf, exponentOf, sub, hidden, fields]

theorem signifOf_lt (x : Nat) : f.signifOf x < 2 ^ f.p := by
  have p_pow : 2 ^ f.p = 2 * 2 ^ (f.p - 1) := by rw [← pow_succ', Nat.sub_add_cancel fits.p_pos]
  have frac_lt := f.fracOf_lt x
  unfold signifOf
  split <;> omega

/-- Below the largest finite value's exponent, a whole binade separates a value from it. -/
theorem le_max_of_expOf_lt (below : f.expOf x < f.top.1) :
    (f.signifOf x : ℚ) * 2 ^ (f.exponentOf x - f.p + 1) ≤ f.maxN * 2 ^ f.maxE := by
  have top_pos := fits.top_pos
  have exp_le : f.exponentOf x - f.p + 1 + 1 ≤ (f.top.1 : Int) - f.bias - f.p + 1 := by
    unfold exponentOf emin
    split <;> omega
  have signif_le : (f.signifOf x : ℚ) ≤ 2 ^ (f.p - 1) * 2 := by
    rw [← pow_succ, Nat.sub_add_cancel fits.p_pos]
    exact_mod_cast (signifOf_lt fits x).le
  calc (f.signifOf x : ℚ) * 2 ^ (f.exponentOf x - f.p + 1)
      ≤ 2 ^ (f.p - 1) * 2 * 2 ^ (f.exponentOf x - f.p + 1) := by gcongr
    _ = 2 ^ (f.p - 1) * 2 ^ (f.exponentOf x - f.p + 1 + 1) := by
      rw [zpow_add_one₀ two_ne_zero (f.exponentOf x - f.p + 1), mul_assoc, mul_comm 2]
    _ ≤ ((2 ^ (f.p - 1) + f.top.2 : Nat) : ℚ) * 2 ^ ((f.top.1 : Int) - f.bias - f.p + 1) := by
      push_cast
      gcongr
      · simp
      · norm_num
    _ ≤ f.maxN * 2 ^ f.maxE := (pow2_cross_le_iff _ _ _ _).mp fits.top_le

theorem le_max_of_fracOf_le (exp_eq : f.expOf x = f.top.1) (frac_le : f.fracOf x ≤ f.top.2) :
    (f.signifOf x : ℚ) * 2 ^ (f.exponentOf x - f.p + 1) ≤ f.maxN * 2 ^ f.maxE := by
  have notSub : f.top.1 ≠ 0 := Nat.ne_zero_of_lt fits.top_pos
  refine le_trans ?_ ((pow2_cross_le_iff _ _ _ _).mp fits.top_le)
  simp only [signifOf, exponentOf, exp_eq, notSub, if_false]
  gcongr

/-- A pattern up to the largest finite one names a value on the grid. -/
theorem onGrid_of_le_top (le_top : f.expOf x < f.top.1 ∨ f.expOf x = f.top.1 ∧ f.fracOf x ≤ f.top.2) :
    f.OnGrid (f.signifOf x) (f.exponentOf x) where
  emin_le := by
    unfold exponentOf emin
    split <;> omega
  lt := signifOf_lt fits x
  normal := by
    unfold exponentOf signifOf
    split <;> simp
  le_max := le_top.elim (le_max_of_expOf_lt fits) fun ⟨exp_eq, frac_le⟩ => le_max_of_fracOf_le fits exp_eq frac_le

theorem decode_of_infinities (kind : f.kind = .ieee ∨ f.kind = .e5m2) :
    f.decode x = if f.expOf x = 2 ^ f.ebits - 1 then (if f.fracOf x = 0 then .inf (f.negOf x) else .nan) else f.finiteOf x := by
  rw [← ite_scaled_eq_finiteOf fits.p_pos]
  rcases kind with kind | kind <;> simp only [decode, kind] <;> rfl

theorem decode_of_e4m3 (kind : f.kind = .e4m3) :
    f.decode x = if f.expOf x = 2 ^ f.ebits - 1 ∧ f.fracOf x = 2 ^ (f.p - 1) - 1 then .nan else f.finiteOf x := by
  rw [← ite_scaled_eq_finiteOf fits.p_pos]
  simp only [decode, kind, ← Bool.decide_and, decide_eq_true_eq]
  rfl

theorem decode_of_e2m1 (kind : f.kind = .e2m1) : f.decode x = f.finiteOf x := by
  rw [← ite_scaled_eq_finiteOf fits.p_pos]
  simp only [decode, kind]
  rfl

/-- A pattern that is no NaN decodes to an infinity, which only two kinds of format have, or is at most the largest finite pattern. -/
theorem decode_cases (num : (f.decode x).isNan = false) :
    (f.decode x = .inf (f.negOf x) ∧ (f.kind = .ieee ∨ f.kind = .e5m2) ∧ f.expOf x = 2 ^ f.ebits - 1 ∧ f.fracOf x = 0) ∨
    (f.decode x = f.finiteOf x ∧ (f.expOf x < f.top.1 ∨ f.expOf x = f.top.1 ∧ f.fracOf x ≤ f.top.2)) := by
  have exp_lt := f.expOf_lt x
  have frac_lt := f.fracOf_lt x
  cases kind : f.kind
  case ieee | e5m2 =>
    rw [decode_of_infinities fits (by simp [kind])] at num ⊢
    by_cases exp_top : f.expOf x = 2 ^ f.ebits - 1
    case pos =>
      by_cases frac_zero : f.fracOf x = 0
      case pos => simp [exp_top, frac_zero]
      case neg => simp [exp_top, frac_zero, Val.isNan] at num
    case neg =>
      refine .inr ⟨if_neg exp_top, ?_⟩
      simp only [top, kind]
      omega
  case e4m3 =>
    rw [decode_of_e4m3 fits kind] at num ⊢
    by_cases isNan : f.expOf x = 2 ^ f.ebits - 1 ∧ f.fracOf x = 2 ^ (f.p - 1) - 1
    case pos => simp [isNan, Val.isNan] at num
    case neg =>
      refine .inr ⟨if_neg isNan, ?_⟩
      simp only [top, kind]
      omega
  case e2m1 =>
    refine .inr ⟨decode_of_e2m1 fits kind, ?_⟩
    simp only [top, kind]
    omega
  case e3m5 => exact absurd kind fits.signed

/-- A pattern with the top exponent and no fraction is the infinity of its sign. -/
theorem infBits_fields (bound : x < 2 ^ (f.sign + 1)) (exp_top : f.expOf x = 2 ^ f.ebits - 1) (frac_zero : f.fracOf x = 0) :
    f.infBits (f.negOf x) = x := by
  have fields := fields_eq fits bound
  rwa [exp_top, frac_zero, add_zero] at fields

end

end FFmt

/-- Settles O26: a pattern that is no NaN decodes to an infinity or to a value on the grid, which rounding keeps, and the pattern is that of its
own fields. -/
theorem roundingIsExact : Obligations.RoundingIsExact := by
  intro f mem rm ovf draw x bound num
  have fits := FFmt.fits_of_mem mem
  rcases FFmt.decode_cases fits num with ⟨inf, kind, exp_top, frac_zero⟩ | ⟨finite, le_top⟩
  case inl => rw [inf, FFmt.round_inf_of_infinities kind, FFmt.infBits_fields fits bound exp_top frac_zero]
  case inr => rw [finite, FFmt.finiteOf, FFmt.round_onGrid (FFmt.onGrid_of_le_top fits le_top), FFmt.encode_fields fits bound]

end Sys2Proof.Machine
end

section
/-! SUPPORT. The bytes of an instruction, and the statements about decoding (R3, R77, R80-R85, R92, R97). -/

namespace Sys2Proof

/-! ## Words and bytes (R3, R77) -/

/-- A word is put together again from its bytes. -/
theorem word32_bytes (w : BitVec 32) :
    word32 (w.extractLsb' 0 8) (w.extractLsb' 8 8) (w.extractLsb' 16 8) (w.extractLsb' 24 8) = w := by
  rw [word32, BitVec.extractLsb'_append_extractLsb'_eq_extractLsb' (by omega), BitVec.extractLsb'_append_extractLsb'_eq_extractLsb' (by omega),
    BitVec.extractLsb'_append_extractLsb'_eq_extractLsb' (by omega)]
  exact extract_all w

/-- The words of a byte string that begins with the bytes of words. -/
theorem toWords_bytes (ws : List (BitVec 32)) (rest : List Byte) : toWords (ws.flatMap ofWord ++ rest) = ws ++ toWords rest := by
  induction ws with
  | nil => rfl
  | cons w ws ih => simp only [List.flatMap_cons, ofWord, List.cons_append, List.nil_append, toWords, word32_bytes, ih]

theorem length_bytes (ws : List (BitVec 32)) : (ws.flatMap ofWord).length = 4 * ws.length := by
  induction ws with
  | nil => rfl
  | cons w ws ih => simp only [List.flatMap_cons, List.length_append, ih, List.length_cons, ofWord, List.length_nil]; omega

/-- Four times the words of an instruction are its bytes. -/
theorem length_encode (i : Instr) : 4 * (encode i).length = i.bytes := by
  unfold encode Instr.bytes
  cases i.enc with
  | r row r => cases ext : r.ext <;> cases lit : r.lit <;> simp [R.len, ext, lit, lenBytes]
  | i | j | z | step => rfl

end Sys2Proof

/-! ## The decoder reads back every instruction -/

namespace Sys2Proof.Laws.Round

/-- The family Round, assembled: a step is not well-formed, and every other instruction has its lemma. -/
theorem every_instruction (i : Instr) : Statement i := by
  cases i with
  | add r => exact add r
  | sub r => exact sub r
  | adds r => exact adds r
  | subs r => exact subs r
  | and_ r => exact and_ r
  | or_ r => exact or_ r
  | xor r => exact xor r
  | andn r => exact andn r
  | shl r => exact shl r
  | shr r => exact shr r
  | sar r => exact sar r
  | ror r => exact ror r
  | mul r => exact mul r
  | mulh r => exact mulh r
  | mulhu r => exact mulhu r
  | div r => exact div r
  | divu r => exact divu r
  | rem r => exact rem r
  | remu r => exact remu r
  | addi stl d a imm => exact addi stl d a imm
  | andi stl d a imm => exact andi stl d a imm
  | ori stl d a imm => exact ori stl d a imm
  | xori stl d a imm => exact xori stl d a imm
  | shli stl d a imm => exact shli stl d a imm
  | shri stl d a imm => exact shri stl d a imm
  | sari stl d a imm => exact sari stl d a imm
  | ceqi stl d a imm => exact ceqi stl d a imm
  | clti stl d a imm => exact clti stl d a imm
  | cltui stl d a imm => exact cltui stl d a imm
  | ceq r => exact ceq r
  | cne r => exact cne r
  | clt r => exact clt r
  | cltu r => exact cltu r
  | min r => exact min r
  | max r => exact max r
  | minu r => exact minu r
  | maxu r => exact maxu r
  | sel r => exact sel r
  | bfxu r => exact bfxu r
  | bfxs r => exact bfxs r
  | bfi r => exact bfi r
  | clz r => exact clz r
  | ctz r => exact ctz r
  | popc r => exact popc r
  | bswap r => exact bswap r
  | adx2 r => exact adx2 r
  | adx4 r => exact adx4 r
  | adx8 r => exact adx8 r
  | adx16 r => exact adx16 r
  | br stl off => exact br stl off
  | call stl off => exact call stl off
  | bnz stl a off => exact bnz stl a off
  | bz stl a off => exact bz stl a off
  | loop stl a off => exact loop stl a off
  | jmp r => exact jmp r
  | jcall r => exact jcall r
  | beq r => exact beq r
  | bne r => exact bne r
  | blt r => exact blt r
  | bltu r => exact bltu r
  | end_ r => exact end_ r
  | nop r => exact nop r
  | lb r => exact lb r
  | lh r => exact lh r
  | lw r => exact lw r
  | ld r => exact ld r
  | lbu r => exact lbu r
  | lhu r => exact lhu r
  | lwu r => exact lwu r
  | sb r => exact sb r
  | sh r => exact sh r
  | sw r => exact sw r
  | sd r => exact sd r
  | barInit r => exact barInit r
  | barExp r => exact barExp r
  | barArr r => exact barArr r
  | barInval r => exact barInval r
  | barWait r => exact barWait r
  | barTest r => exact barTest r
  | fence r => exact fence r
  | sleep r => exact sleep r
  | sleepu r => exact sleepu r
  | mfs r => exact mfs r
  | mts r => exact mts r
  | xret r => exact xret r
  | yield_ r => exact yield_ r
  | freeG r => exact freeG r
  | freeV r => exact freeV r
  | freeK r => exact freeK r
  | region r => exact region r
  | rend r => exact rend r
  | vadd r => exact vadd r
  | vsub r => exact vsub r
  | vmul r => exact vmul r
  | vmin r => exact vmin r
  | vmax r => exact vmax r
  | vminu r => exact vminu r
  | vmaxu r => exact vmaxu r
  | vfma r => exact vfma r
  | vfms r => exact vfms r
  | vfnma r => exact vfnma r
  | vabs r => exact vabs r
  | vneg r => exact vneg r
  | vsel r => exact vsel r
  | vand r => exact vand r
  | vor r => exact vor r
  | vxor r => exact vxor r
  | vandn r => exact vandn r
  | vshl r => exact vshl r
  | vshr r => exact vshr r
  | vsar r => exact vsar r
  | vceq r => exact vceq r
  | vclt r => exact vclt r
  | vcle r => exact vcle r
  | vcun r => exact vcun r
  | vcltu r => exact vcltu r
  | kand r => exact kand r
  | kor r => exact kor r
  | kxor r => exact kxor r
  | kandn r => exact kandn r
  | kpopc r => exact kpopc r
  | kfirst r => exact kfirst r
  | kset r => exact kset r
  | kget r => exact kget r
  | vbcast r => exact vbcast r
  | vext r => exact vext r
  | vins r => exact vins r
  | vidx r => exact vidx r
  | vperm r => exact vperm r
  | vrot r => exact vrot r
  | vcmpr r => exact vcmpr r
  | vrsum r => exact vrsum r
  | vrmax r => exact vrmax r
  | vrmin r => exact vrmin r
  | vrcp r => exact vrcp r
  | vrsqrt r => exact vrsqrt r
  | vexp2 r => exact vexp2 r
  | vlog2 r => exact vlog2 r
  | vsqrt r => exact vsqrt r
  | vcvt r => exact vcvt r
  | vqnt r => exact vqnt r
  | vdqnt r => exact vdqnt r
  | vld r => exact vld r
  | vst r => exact vst r
  | vlds r => exact vlds r
  | vsts r => exact vsts r
  | vldx r => exact vldx r
  | vstx r => exact vstx r
  | tld r => exact tld r
  | tst r => exact tst r
  | tzero r => exact tzero r
  | tmov r => exact tmov r
  | tcvt r => exact tcvt r
  | tfree r => exact tfree r
  | mma r => exact mma r
  | accrd r => exact accrd r
  | accst r => exact accst r
  | azero r => exact azero r
  | afree r => exact afree r
  | cpy r => exact cpy r
  | cpyProg r => exact cpyProg r
  | cpyst r => exact cpyst r
  | cpyl r => exact cpyl r
  | cpylSt r => exact cpylSt r
  | pfx r => exact pfx r
  | gath r => exact gath r
  | scat r => exact scat r
  | red r => exact red r
  | tflush r => exact tflush r
  | codeld r => exact codeld r
  | pwin r => exact pwin r
  | pwret r => exact pwret r
  | meet r => exact meet r
  | part r => exact part r
  | msync r => exact msync r
  | mcancel r => exact mcancel r
  | mget r => exact mget r
  | mgetv r => exact mgetv r
  | mcpy r => exact mcpy r
  | mswap r => exact mswap r
  | coll r => exact coll r
  | ccancel r => exact ccancel r
  | fcast r => exact fcast r
  | fwait r => exact fwait r
  | fstat r => exact fstat r
  | jobpost r => exact jobpost r
  | jobwait r => exact jobwait r
  | spush r => exact spush r
  | sfmt r => exact sfmt r
  | sfill r => exact sfill r
  | swb r => exact swb r
  | baddq r => exact baddq r
  | bqtake r => exact bqtake r
  | _ => exact fun wellFormed => nomatch wellFormed

end Sys2Proof.Laws.Round

namespace Sys2Proof

/-- Decoding the words of a well-formed instruction, whatever words follow, gives the instruction. -/
theorem decodeWords_encode {i : Instr} (wellFormed : i.WellFormed) (more : List (BitVec 32)) : decodeWords (encode i ++ more) = .ok i :=
  Laws.Round.every_instruction i wellFormed more

/-- Settles O54: the words of the bytes are those that the encoder wrote, which the decoder reads back constructor by constructor, and the
bytes that follow are what is left when the instruction's own are dropped. -/
theorem roundTrip : Obligations.RoundTrip := by
  intro i rest wellFormed
  have words : decodeWords (toWords (encodeBytes i ++ rest)) = .ok i := by
    rw [encodeBytes, toWords_bytes]
    exact decodeWords_encode wellFormed (toWords rest)
  have own : (encodeBytes i).length = i.bytes := (length_bytes (encode i)).trans (length_encode i)
  simp only [decode, words, ← own, List.drop_left]

/-- Opcode 0 has no instruction, whatever words follow (R92). -/
theorem decodeWords_zero (ws : List (BitVec 32)) : decodeWords (0#32 :: ws) = .error .unassigned := rfl

/-- Settles O55: the words of the spec by evaluation, each with its length and its fields; opcode 0 by `decodeWords_zero`. -/
theorem decodedWords : Obligations.DecodedWords := by
  unfold Obligations.DecodedWords
  refine ⟨?add, ?addi, ?loop, ?lw, ?bfxs, ?vfma, ?baddq, ?jobpost, ?fcast, decodeWords_zero⟩
  all_goals decide

end Sys2Proof
end

section
/-! SUPPORT. The checks of R100, and the statement about them. -/

namespace Sys2Proof.Machine

/-! ## The checks of R100, in their order -/

/-- The first check: an instruction that is illegal, that the agent lacks, or whose system register is unassigned. -/
theorem precheck_illegal {i : Instr} {s : State}
    (h : i.legal = false ∨ i.onAgent s.me.agent.kind = false ∨ ∃ n w, sysRegOf i = some (n, w) ∧ sysAssigned n s.me.agent.kind = false) :
    precheck i s = .trap 1 (illegalInfo i) := by
  rcases h with illegal | lacks | ⟨n, w, named, unassigned⟩
  · simp only [precheck, illegal, Bool.not_false, Bool.true_or, if_true]
  · simp only [precheck, lacks, Bool.not_false, Bool.or_true, Bool.true_or, if_true]
  · simp only [precheck, named, unassigned, Bool.not_false, Bool.or_true, if_true]

/-- The second check: `mts` to a register without an RW field (R150). -/
theorem precheck_privileged {r : R} {s : State} (legal : (Instr.mts r).WellFormed) (assigned : sysAssigned r.x.toNat s.me.agent.kind = true)
    (readOnly : sysWritable r.x.toNat = false) : precheck (.mts r) s = .trap 0x0D (BitVec.ofNat 64 r.x.toNat) := by
  have onAgent : (Instr.mts r).onAgent s.me.agent.kind = true := by cases s.me.agent.kind <;> rfl
  have isLegal : (Instr.mts r).legal = true := legal
  simp only [precheck, sysRegOf, isLegal, onAgent, assigned, readOnly, Bool.not_true, Bool.not_false, Bool.or_self, Bool.and_self,
    Bool.false_eq_true, if_true, if_false, Option.map_some, Option.getD_some]

/-- An instruction whose checks come to a trap takes it from the state as it was, whatever its own effect. -/
theorem issue_of_precheck_trap {i : Instr} {s : State} {c : Nat} {info : Word} (h : precheck i s = .trap c info) (eff : State → Eff) :
    issue i s eff = .next (s.takeTrap c info false) := by
  simp only [issue, h]

theorem exec_mts (r : R) (s : State) : exec (.mts r) s = issue (.mts r) s (fun p =>
    if 0x20 ≤ r.x.toNat && r.x.toNat ≤ 0x27 && !tsValid (p.me.srcB r) then .fault 4 r.x.toNat
    else .done (p.modMe (fun a => a.sysWrite r.x.toNat (p.me.srcB r)))) := rfl

/-- Settles O13: the checks of R100 one after the other, and the guard that does not hold. -/
theorem checksBeforeIssue : Obligations.ChecksBeforeIssue := by
  refine ⟨fun r s legal assigned readOnly => ?privileged, fun s eff i refused => ?illegal, fun s eff i guarded => ?squelched⟩
  case privileged => exact (exec_mts r s).trans (issue_of_precheck_trap (precheck_privileged legal assigned readOnly) _)
  case illegal => exact issue_of_precheck_trap (precheck_illegal refused) eff
  case squelched => rw [issue_squelch guarded, State.complete_eq_issued]

end Sys2Proof.Machine
end

section
/-! SUPPORT. Taking a trap (R90, R154, R155, R281, R454), and the statement about a trap's entry. -/

namespace Sys2Proof.Machine

/-! ## Pending writes that take effect before a trap's entry (R90) -/

/-- Taking pending writes off the list and writing their registers moves registers only. -/
theorem Moved.commitWhere (p : Pend → Bool) (s : State) :
    Moved { s with me := { s.me with pend := s.me.pend.filter (fun w => !p w) } } (s.commitWhere p) :=
  Moved.foldl (fun t w => Moved.writeReg w.reg w.val w.keep t) (s.me.pend.filter p) _

/-- Pending writes that take effect change registers, spill reserves, the list of pending writes and the next issue, and nothing else. -/
theorem State.flushPending_frame (s : State) : ∃ regs reserve pend next acts, s.flushPending =
    { s with me := { s.me with regs := regs, reserve := reserve, pend := pend, nextIssue := next }, acts := acts } := by
  obtain ⟨me, -, rest⟩ := Moved.commitWhere (fun _ => true) s
  rw [State.flushPending, State.modMe, rest, me]
  exact ⟨_, _, _, _, _, rfl⟩

/-- The check of a transfer's target reads nothing that a pending write changes. -/
@[simp] theorem State.flushPending_badTarget (t : Int) (s : State) : s.flushPending.badTarget t = s.badTarget t := by
  obtain ⟨regs, reserve, pend, next, acts, flushed⟩ := s.flushPending_frame
  rw [flushed]
  rfl

/-! ## Taking a trap, case by case (R154, R155, R281, R454) -/

theorem State.trapCycle_eq (s : State) : s.trapCycle = (s.me.trapping.map (fun w => w.since)).getD s.cycle := by
  unfold State.trapCycle
  cases s.me.trapping <;> rfl

theorem JobCtx.handler_eq (j : JobCtx) (cause : Nat) : j.handler cause = 4 * (if cause = 4 ∧ j.ovle ≠ 0 then j.ovle else j.trape) := by
  simp [JobCtx.handler]

/-- The state of an activity that has entered its handler: pending writes have taken effect, the trap is recorded, and control is at the
handler's first instruction (R154). -/
def State.enterHandler (cause : Nat) (info : Word) (async : Bool) (s : State) : State :=
  let f := s.flushPending
  { f with me := { f.me with
    trap := { f.me.trap with xpc := s.me.pc, xcause := xcauseOf cause async s.me.region.open_, xinfo := info, inh := true }
    region := { f.me.region with closing := none }
    pc := BitVec.ofNat 64 (s.me.job.handler cause)
    party := f.me.party.map (fun q => { q with inSync := none })
    nextIssue := max (s.trapCycle + 2) f.me.nextIssue
    lastIssue := s.trapCycle
    firstTry := none
    listRead := none
    descWait := none
    trapping := none } }

section
variable {s : State} (cause : Nat) (info : Word) (async : Bool)

/-- While forecast tags are held or vector accesses are queued, the entry waits. -/
theorem State.takeTrap_waits (busy : s.me.speculative = true ∨ s.vecBusy = true) : s.takeTrap cause info async = s.awaitEntry cause info async := by
  rw [State.takeTrap, if_pos (by simpa using busy)]

variable (settled : s.me.speculative = false) (vector : s.vecBusy = false)
include settled vector

/-- A program of a spindle or a gateway core ends (R281). -/
theorem State.takeTrap_program {p : ProgCtx} (prog : s.me.prog = some p) : s.takeTrap cause info async = { s with me := { s.me with
    life := .ending
    prog := some { p with fault := some (cause, info) }
    lastIssue := s.trapCycle
    firstTry := none
    listRead := none
    descWait := none
    trapping := none } } := by
  simp only [State.takeTrap, settled, vector, prog, Bool.or_self, Bool.false_eq_true, if_false]
  rfl

/-- Outside a handler control goes to the handler, and an address of it that is no start of an instruction condemns the activity there (R93). -/
theorem State.takeTrap_enters (compute : s.me.prog = none) (outside : s.me.trap.inh = false) : s.takeTrap cause info async =
    if (s.badTarget (s.me.job.handler cause)).isSome then (s.enterHandler cause info async).condemn statTrapnest
    else s.enterHandler cause info async := by
  simp only [State.takeTrap, State.enterHandler, settled, vector, compute, outside, Bool.or_self, Bool.false_and, Bool.false_eq_true, if_false]
  obtain ⟨regs, reserve, pend, next, acts, flushed⟩ := s.flushPending_frame
  rw [flushed]
  rfl

end

/-- Settles O14: each clause is one case of `takeTrap`. -/
theorem trapEntry : Obligations.TrapEntry := by
  refine ⟨fun cause info async s ready => ?enters, fun cause info async s busy => ?waits, fun cause info async s p settled vector prog => ?program,
    fun cause info async s settled vector compute outside bad => ?condemned⟩
  case enters =>
    rw [State.takeTrap_enters cause info async ready.settled ready.vector ready.compute ready.outside, if_neg (by simp [ready.target]),
      State.enterHandler, JobCtx.handler_eq, State.trapCycle_eq]
    rfl
  case waits =>
    rw [State.takeTrap_waits cause info async busy, State.awaitEntry, State.trapCycle_eq]
    rfl
  case program => rw [State.takeTrap_program cause info async settled vector prog, State.trapCycle_eq]
  case condemned =>
    rw [State.flushPending_badTarget] at bad
    rw [State.takeTrap_enters cause info async settled vector compute outside, if_pos bad]
    have uid : s.flushPending.me.uid = s.me.uid := by
      obtain ⟨regs, reserve, pend, next, acts, flushed⟩ := s.flushPending_frame
      rw [flushed]
    exact ⟨rfl, rfl, rfl, congrArg (fun u => Instr.kill u :: s.flushPending.agenda) uid⟩

end Sys2Proof.Machine
end

section
/-! SUPPORT. Transfers of control and their targets (R93, R135, R137, R138), and the statement about them. -/

namespace Sys2Proof.Machine

/-! ## Issuing with results on their way (R87, R88, R138) -/

/-- A state with results of the activity in focus on their way. -/
def State.withPend (w : List Pend) (p : State) : State := { p with me := { p.me with pend := p.me.pend ++ w } }

theorem State.withPend_nil (p : State) : p.withPend [] = p := by simp [State.withPend]

/-- A fixed-latency result in a general register is on its way, or discarded (R43, R87). -/
theorem State.resultG_eq (i : Instr) (d : BitVec 6) (v : Word) (p : State) :
    p.resultG i d v = p.withPend (newWrite .fixed (p.cycle + i.lat) i.srcs ⟨.g, d.toNat⟩ (v.setWidth 1024)) := by
  unfold State.resultG State.pendWrite newWrite State.withPend
  cases (⟨.g, d.toNat⟩ : Reg).binds <;> simp [State.modMe]

theorem State.complete_withPend (i : Instr) (w : List Pend) (p : State) : (p.withPend w).complete i = p.issued i w := by
  rw [State.complete_eq_issued]
  simp [State.issued, State.withPend]

/-- Transferring control to an address is issuing to it. -/
theorem State.transfer_withPend (i : Instr) (t : Int) (w : List Pend) (p : State) :
    (p.withPend w).transfer i t = p.issuedTo i (BitVec.ofInt 64 t) w := by
  unfold State.transfer State.resetRun State.issuedTo State.issued State.withPend
  cases i.blocking <;> simp [State.modMe]

/-- A ready instruction with a fixed-latency result issues with it on its way. -/
theorem issue_resultG {i : Instr} {s : State} {eff : State → Eff} {d : BitVec 6} {v : Word} (ready : Ready i s)
    (done : eff (s.prepare i) = .done ((s.prepare i).resultG i d v)) :
    issue i s eff = .next ((s.prepare i).issued i
      (newWrite .fixed ((s.prepare i).cycle + i.lat) i.srcs ⟨.g, d.toNat⟩ (v.setWidth 1024))) := by
  rw [issue_done ready done, State.resultG_eq, State.complete_withPend]

/-! ## Targets (R93) -/

/-- A target passes the check, or is in XINFO of the trap. -/
theorem State.badTarget_cases (p : State) (t : Int) : p.badTarget t = none ∨ p.badTarget t = some (BitVec.ofInt 64 t) := by
  unfold State.badTarget
  split_ifs <;> simp

theorem State.badTarget_of_not_reachable {p : State} {t : Int} (h : ¬ p.Reachable t) : p.badTarget t = some (BitVec.ofInt 64 t) :=
  (p.badTarget_cases t).resolve_left h

theorem effTransfer_of_reachable {p : State} {t : Int} (h : p.Reachable t) (f : State → State) : effTransfer t f p = .jump (f p) t := by
  simp only [effTransfer, show p.badTarget t = none from h]

theorem effTransfer_of_not_reachable {p : State} {t : Int} (h : ¬ p.Reachable t) (f : State → State) :
    effTransfer t f p = .trap 2 (BitVec.ofInt 64 t) := by
  simp only [effTransfer, State.badTarget_of_not_reachable h]

/-! ## Transfers (R135, R137) -/

section
variable {i : Instr} {s : State} {eff : State → Eff} {t : Int} {f : State → State} (ready : Ready i s)
  (transfers : eff (s.prepare i) = effTransfer t f (s.prepare i))
include ready transfers

/-- A transfer to an address that control may go to, with its results on their way. -/
theorem issue_effTransfer {w : List Pend} (results : f (s.prepare i) = (s.prepare i).withPend w) (reach : (s.prepare i).Reachable t) :
    issue i s eff = .next ((s.prepare i).issuedTo i (BitVec.ofInt 64 t) w) := by
  rw [issue_jump ready (transfers.trans (effTransfer_of_reachable reach f)), results, State.transfer_withPend]

/-- A transfer to another address traps from the state as it was. -/
theorem issue_effTransfer_traps (unreachable : ¬ (s.prepare i).Reachable t) :
    issue i s eff = .next (s.takeTrap 2 (BitVec.ofInt 64 t) false) :=
  issue_trap ready (transfers.trans (effTransfer_of_not_reachable unreachable f))

end

/-- A conditional transfer that is taken. -/
theorem issue_effBranch_taken {i : Instr} {s : State} {cond : State → Bool} {t : State → Int} (ready : Ready i s)
    (holds : cond (s.prepare i) = true) (reach : (s.prepare i).Reachable (t (s.prepare i))) :
    issue i s (fun p => effBranch (cond p) (t p) p) = .next ((s.prepare i).issuedTo i (BitVec.ofInt 64 (t (s.prepare i))) []) :=
  issue_effTransfer ready (if_pos holds) (State.withPend_nil _).symm reach

/-- A conditional transfer that is not taken goes to the next instruction. -/
theorem issue_effBranch_notTaken {i : Instr} {s : State} {cond : State → Bool} {t : State → Int} (ready : Ready i s)
    (fails : cond (s.prepare i) = false) : issue i s (fun p => effBranch (cond p) (t p) p) = .next ((s.prepare i).issued i []) :=
  issue_issued ready (if_neg (by simp [fails]))

/-! ## What the instructions come to (R135) -/

theorem exec_br (stl : BitVec 3) (off : BitVec 20) (s : State) :
    exec (.br stl off) s = issue (.br stl off) s (fun p => effTransfer (p.me.target off) id p) := rfl

theorem exec_call (stl : BitVec 3) (off : BitVec 20) (s : State) : exec (.call stl off) s = issue (.call stl off) s (fun p =>
    effTransfer (p.me.target off) (State.resultG (.call stl off) 62 (p.me.pc + 4)) p) := rfl

theorem exec_bnz (stl : BitVec 3) (a : BitVec 6) (off : BitVec 14) (s : State) :
    exec (.bnz stl a off) s = issue (.bnz stl a off) s (fun p => effBranch (p.me.g a.toNat != 0) (p.me.target off) p) := rfl

theorem exec_bz (stl : BitVec 3) (a : BitVec 6) (off : BitVec 14) (s : State) :
    exec (.bz stl a off) s = issue (.bz stl a off) s (fun p => effBranch (p.me.g a.toNat == 0) (p.me.target off) p) := rfl

theorem exec_loop (stl : BitVec 3) (a : BitVec 6) (off : BitVec 14) (s : State) : exec (.loop stl a off) s = issue (.loop stl a off) s (fun p =>
    if p.me.g a.toNat - 1 ≠ 0 then effTransfer (p.me.target off) (State.resultG (.loop stl a off) a (p.me.g a.toNat - 1)) p
    else .done (p.resultG (.loop stl a off) a (p.me.g a.toNat - 1))) := rfl

theorem exec_jmp (r : R) (s : State) : exec (.jmp r) s = issue (.jmp r) s (fun p => effTransfer (p.me.g r.a.toNat).toNat id p) := rfl

theorem exec_jcall (r : R) (s : State) : exec (.jcall r) s = issue (.jcall r) s (fun p =>
    effTransfer (p.me.g r.a.toNat).toNat (State.resultG (.jcall r) r.d (p.me.next (.jcall r))) p) := rfl

theorem exec_beq (r : R) (s : State) : exec (.beq r) s = issue (.beq r) s (fun p =>
    effBranch (p.me.g r.a.toNat == p.me.srcB r) r.x.toNat p) := rfl
theorem exec_bne (r : R) (s : State) : exec (.bne r) s = issue (.bne r) s (fun p =>
    effBranch (p.me.g r.a.toNat != p.me.srcB r) r.x.toNat p) := rfl
theorem exec_blt (r : R) (s : State) : exec (.blt r) s = issue (.blt r) s (fun p =>
    effBranch (ltS (p.me.g r.a.toNat) (p.me.srcB r)) r.x.toNat p) := rfl
theorem exec_bltu (r : R) (s : State) : exec (.bltu r) s = issue (.bltu r) s (fun p =>
    effBranch (ltU (p.me.g r.a.toNat) (p.me.srcB r)) r.x.toNat p) := rfl

/-- The conditional transfers to an absolute target, with the condition of each. -/
theorem exec_branchOp {c : (R → Instr) × (Word → Word → Prop)} (mem : c ∈ branchOps) (r : R) (s : State) : ∃ cond : State → Bool,
    (∀ p, cond p = true ↔ c.2 (p.me.g r.a.toNat) (p.me.srcB r)) ∧
    exec (c.1 r) s = issue (c.1 r) s (fun p => effBranch (cond p) r.x.toNat p) := by
  simp only [branchOps, List.mem_cons, List.not_mem_nil, or_false] at mem
  rcases mem with rfl | rfl | rfl | rfl
  · exact ⟨_, fun p => beq_iff_eq, exec_beq r s⟩
  · exact ⟨_, fun p => bne_iff_ne, exec_bne r s⟩
  · exact ⟨_, fun p => by simp [ltS], exec_blt r s⟩
  · exact ⟨_, fun p => by simp [ltU], exec_bltu r s⟩

/-- The effect of a conditional transfer that is taken. -/
theorem effBranch_of_ite {c : Bool} {q : Prop} [Decidable q] {t u : Int} (iff : c = true ↔ q) (taken : (if q then some t else none) = some u)
    (p : State) : effBranch c t p = effTransfer u id p := by
  obtain ⟨holds, same⟩ := Option.ite_none_right_eq_some.mp taken
  cases same
  exact if_pos (iff.mpr holds)

/-- Whatever transfer is taken in a state, its effect there is `effTransfer` to that target. -/
theorem exec_of_taken {i : Instr} {s : State} {t : Int} (taken : takenTransfer i (s.prepare i) = some t) :
    ∃ eff f, exec i s = issue i s eff ∧ eff (s.prepare i) = effTransfer t f (s.prepare i) := by
  unfold takenTransfer at taken
  split at taken
  case h_1 stl off => cases taken; exact ⟨_, _, exec_br stl off s, rfl⟩
  case h_2 stl off => cases taken; exact ⟨_, _, exec_call stl off s, rfl⟩
  case h_3 stl a off => exact ⟨_, _, exec_bnz stl a off s, effBranch_of_ite bne_iff_ne taken _⟩
  case h_4 stl a off => exact ⟨_, _, exec_bz stl a off s, effBranch_of_ite beq_iff_eq taken _⟩
  case h_5 stl a off =>
    obtain ⟨more, same⟩ := Option.ite_none_right_eq_some.mp taken
    cases same
    exact ⟨_, _, exec_loop stl a off s, if_pos (sub_ne_zero.mpr more)⟩
  case h_6 r => cases taken; exact ⟨_, _, exec_jmp r s, rfl⟩
  case h_7 r => cases taken; exact ⟨_, _, exec_jcall r s, rfl⟩
  case h_8 r => exact ⟨_, _, exec_beq r s, effBranch_of_ite beq_iff_eq taken _⟩
  case h_9 r => exact ⟨_, _, exec_bne r s, effBranch_of_ite bne_iff_ne taken _⟩
  case h_10 r => exact ⟨_, _, exec_blt r s, effBranch_of_ite (by simp [ltS]) taken _⟩
  case h_11 r => exact ⟨_, _, exec_bltu r s, effBranch_of_ite (by simp [ltU]) taken _⟩
  case h_12 => cases taken

/-- The address that a word or a field stands for, as a word. -/
theorem ofInt_toNat_setWidth {n : Nat} (x : BitVec n) : BitVec.ofInt 64 x.toNat = x.setWidth 64 := by
  rw [BitVec.ofInt_natCast, BitVec.ofNat_toNat]

theorem ofInt_toNat_word (x : Word) : BitVec.ofInt 64 x.toNat = x := by
  rw [ofInt_toNat_setWidth, BitVec.setWidth_eq]

/-- The count that `loop` leaves. -/
theorem ofInt_toNat_sub_one (x : Word) : BitVec.ofInt 64 ((x.toNat : Int) - 1) = x - 1 := by
  rw [Int.sub_eq_add_neg, BitVec.ofInt_add, ofInt_toNat_word, BitVec.sub_eq_add_neg]
  rfl

/-- Settles O5: each transfer by what it comes to, taken or not; those to other addresses by `exec_of_taken`. -/
theorem transfersAndTargets : Obligations.TransfersAndTargets := by
  refine ⟨⟨fun stl off s ready => ?br, fun stl off s ready => ?call, fun stl a off s ready => ⟨?bnz, ?bnzNot⟩, fun stl a off s ready => ⟨?bz, ?bzNot⟩,
    fun stl a off s ready => ?loop, fun r s ready => ?jmp, fun r s ready => ?jcall, fun c mem r s ready => ?branch⟩,
    fun s i t ready taken unreachable => ?misaligned⟩
  case br => exact fun reach => (exec_br stl off s).trans (issue_effTransfer ready rfl (State.withPend_nil _).symm reach)
  case call =>
    intro p t reach
    rw [← State.prepare_cycle (.call stl off) s]
    exact (exec_call stl off s).trans (issue_effTransfer ready rfl (State.resultG_eq _ _ _ _) reach)
  case bnz => exact fun more reach => (exec_bnz stl a off s).trans (issue_effBranch_taken ready (bne_iff_ne.mpr more) reach)
  case bnzNot => exact fun zero => (exec_bnz stl a off s).trans (issue_effBranch_notTaken ready (bne_eq_false_iff_eq.mpr zero))
  case bz => exact fun zero reach => (exec_bz stl a off s).trans (issue_effBranch_taken ready (beq_iff_eq.mpr zero) reach)
  case bzNot => exact fun more => (exec_bz stl a off s).trans (issue_effBranch_notTaken ready (beq_eq_false_iff_ne.mpr more))
  case loop =>
    intro p t
    rw [ofInt_toNat_sub_one, ← State.prepare_cycle (.loop stl a off) s]
    exact ⟨fun more reach => (exec_loop stl a off s).trans (issue_effTransfer ready (if_pos more) (State.resultG_eq _ _ _ _) reach),
      fun zero => (exec_loop stl a off s).trans (issue_resultG ready (if_neg (not_not_intro zero)))⟩
  case jmp =>
    intro p reach
    rw [← ofInt_toNat_word (p.me.g r.a.toNat)]
    exact (exec_jmp r s).trans (issue_effTransfer ready rfl (State.withPend_nil _).symm reach)
  case jcall =>
    intro p reach
    rw [← State.prepare_cycle (.jcall r) s, ← ofInt_toNat_word (p.me.g r.a.toNat)]
    exact (exec_jcall r s).trans (issue_effTransfer ready rfl (State.resultG_eq _ _ _ _) reach)
  case branch =>
    obtain ⟨cond, iff, meaning⟩ := exec_branchOp mem r s
    refine ⟨fun holds reach => meaning.trans ?_, fun fails => meaning.trans ?_⟩
    · rw [← ofInt_toNat_setWidth r.x]
      exact issue_effBranch_taken ready ((iff _).mpr holds) reach
    · exact issue_effBranch_notTaken ready (by simpa using mt (iff _).mp fails)
  case misaligned =>
    obtain ⟨eff, f, meaning, transfers⟩ := exec_of_taken taken
    exact meaning.trans (issue_effTransfer_traps ready transfers unreachable)

end Sys2Proof.Machine
end

section
/-! SUPPORT. Fetching and issuing the instruction at the PC (R77, R91, R94, R390), and the statement about a step. -/

namespace Sys2Proof

/-! ## The first word of an instruction (R77) -/

/-- A well-formed instruction has an encoding. -/
theorem Instr.WellFormed.encoded {i : Instr} (wellFormed : i.WellFormed) : i.enc ≠ .step := by
  intro step
  simp [Instr.WellFormed, Instr.legal, step] at wellFormed

/-- LEN of an instruction's first word gives its length. -/
theorem encode_head {i : Instr} (encoded : i.enc ≠ .step) : ∃ w ws, encode i = w :: ws ∧ lenBytes (fieldLen w) = i.bytes := by
  unfold encode Instr.bytes
  cases enc : i.enc with
  | r row r => exact ⟨_, _, rfl, congrArg lenBytes (fieldLen_word0R row.op row.f r)⟩
  | i op stl d a imm => exact ⟨_, [], rfl, congrArg lenBytes (len_w (imm ++ a ++ d) _ stl)⟩
  | j op stl off => exact ⟨_, [], rfl, congrArg lenBytes (len_w off _ stl)⟩
  | z op stl a off => exact ⟨_, [], rfl, congrArg lenBytes (len_w (off ++ a) _ stl)⟩
  | step => exact absurd enc encoded

theorem fieldLen_eq_mod (w : BitVec 32) : fieldLen w = w.toNat % 4 := by
  simp [fieldLen]

namespace Machine

/-- The words that LEN asks for, where it gives the length of an instruction, are those of the instruction. -/
theorem wordsOf0_of_bytes {i : Instr} {w : BitVec 32} (length : lenBytes (fieldLen w) = i.bytes) : wordsOf0 w = (encode i).length := by
  rw [wordsOf0, ← fieldLen_eq_mod, length, ← length_encode, Nat.mul_div_cancel_left _ (by decide)]

/-- The fetch of an instruction whose words stand at the PC (R91, R94). -/
theorem State.fetch_of_words {s : State} {g : CodeSeg} {i : Instr} {more : List (BitVec 32)} (seg : s.seg = some g) (wellFormed : i.WellFormed)
    (words : g.wordsAt s.me.pc.toNat = encode i ++ more) : s.fetch = .instr i := by
  obtain ⟨w, ws, head, length⟩ := encode_head wellFormed.encoded
  have decoded := decodeWords_encode wellFormed more
  have enough : ¬ (encode i ++ more).length < wordsOf0 w := by
    rw [wordsOf0_of_bytes length, List.length_append]
    omega
  rw [head] at words decoded enough
  simp only [State.fetch, seg, words, List.cons_append] at decoded enough ⊢
  rw [if_neg enough, decoded]

/-! ## A step of an agent (R390) -/

/-- Every instruction and every step answers a next state. -/
theorem exec_next (i : Instr) (s : State) : ∃ t, exec i s = .next t := by
  cases i
  all_goals exact ⟨_, rfl⟩

/-- An activity without a pending trap of R151 has no asynchronous trap to take. -/
theorem State.asyncCause_none {s : State} {a : Activity} (noRunBudget : a.trap.prb = false) (noStore : a.trap.prs = false)
    (noPromise : a.trap.pmp = false) : s.asyncCause a = none := by
  simp [State.asyncCause, noRunBudget, noStore, noPromise]

/-- What a step comes to when an agent's turn comes: the turn of that agent. -/
theorem step_of_issue {s : State} {l : List Agent} {ag : Agent} (running : s.Running) (idle : s.agenda = []) (phase : s.phase = .issue l)
    (next : s.nextAgent l = some ag) : step s = s.agentTurn ag (l.erase ag) := by
  have clocks : s.svc.tripped = false := running
  simp only [step, clocks, idle, phase, next, Bool.false_eq_true, if_false]

/-- What a step comes to when something stands on the agenda. -/
theorem step_of_agenda {s : State} {i : Instr} {rest : List Instr} (running : s.Running) (agenda : s.agenda = i :: rest) :
    step s = State.agendaTurn i { s with agenda := rest } := by
  have clocks : s.svc.tripped = false := running
  simp only [step, clocks, agenda, Bool.false_eq_true, if_false]

/-- The turn of an agent whose chosen activity, in focus, issues. -/
theorem State.agentTurn_of_chosen {s t : State} {ag : Agent} {rest : List Agent} {a : Activity} (chosen : s.chosen ag = some a)
    (issues : (s.take a).issueMe = .next t) : s.agentTurn ag rest = .next (if t.heldBack a.uid then t else
      { (t.drawIssue a).drawSync s a with phase := .issue rest, choiceCtr := t.choiceCtr + 1 }) := by
  simp only [State.agentTurn, chosen, issues]

/-- Settles O56: the chosen activity has no asynchronous trap, so it issues what it fetches, and that is the instruction at its PC. -/
theorem stepRunsTheInstruction : Obligations.StepRunsTheInstruction := by
  refine ⟨fun s l ag a g i more running idle phase next chosen => ?issue, fun s i rest running agenda encoding => ?agenda⟩
  case issue =>
    intro f noRunBudget noStore noPromise seg wellFormed words
    obtain ⟨t, effect⟩ := exec_next i f
    have issues : f.issueMe = .next t := by
      simp only [State.issueMe, State.asyncCause_none noRunBudget noStore noPromise, State.issueOwn,
        State.fetch_of_words seg wellFormed words, effect]
    exact ⟨t, effect, (step_of_issue running idle phase next).trans (State.agentTurn_of_chosen chosen issues)⟩
  case agenda =>
    have isStep : isStep i = true := by rw [isStep, encoding]
    rw [step_of_agenda running agenda, State.agendaTurn, if_pos isStep]

end Machine

end Sys2Proof
end

section
/-! SUPPORT. The values of the scalar instructions that compute (R127-R133), and the statements about them. -/

namespace Sys2Proof.Machine

/-! ## Sums, shifts and products (R127) -/

theorem valAdd_eq (a b : Word) : valAdd a b = BitVec.ofNat 64 (a.toNat + b.toNat) := by
  simp [valAdd, BitVec.ofNat_add]

theorem valSub_eq (a b : Word) : valSub a b = BitVec.ofInt 64 ((a.toNat : Int) - b.toNat) := by
  rw [Int.sub_eq_add_neg, BitVec.ofInt_add, BitVec.ofInt_neg, ofInt_toNat_word, ofInt_toNat_word, ← BitVec.sub_eq_add_neg, valSub]

theorem valAdds_eq (x y : Word) : valAdds x y = BitVec.ofInt 64 (min (max (x.toInt + y.toInt) (-2 ^ 63)) (2 ^ 63 - 1)) := rfl

theorem valSubs_eq (x y : Word) : valSubs x y = BitVec.ofInt 64 (min (max (x.toInt - y.toInt) (-2 ^ 63)) (2 ^ 63 - 1)) := rfl

theorem valShl_eq (a b : Word) : valShl a b = BitVec.ofNat 64 (a.toNat * 2 ^ (b.toNat % 64)) := by
  apply BitVec.eq_of_toNat_eq
  rw [valShl, BitVec.toNat_shiftLeft, Nat.shiftLeft_eq, BitVec.toNat_ofNat]

theorem valShr_eq (a b : Word) : valShr a b = BitVec.ofNat 64 (a.toNat / 2 ^ (b.toNat % 64)) := by
  rw [valShr, ← Nat.shiftRight_eq_div_pow, ← BitVec.toNat_ushiftRight, BitVec.ofNat_toNat, BitVec.setWidth_eq]

theorem valSar_eq (a b : Word) : valSar a b = BitVec.ofInt 64 (a.toInt / 2 ^ (b.toNat % 64)) := by
  rw [valSar, BitVec.sshiftRight_eq, Int.shiftRight_eq_div_pow, Nat.cast_pow, Nat.cast_ofNat]

theorem valRor_eq (a b : Word) : valRor a b = a >>> (b.toNat % 64) ||| a <<< (64 - b.toNat % 64) := by
  rw [valRor, BitVec.rotateRight_def, Nat.mod_mod]

theorem valMul_eq (a b : Word) : valMul a b = BitVec.ofNat 64 (a.toNat * b.toNat) := by
  simp [valMul, BitVec.ofNat_mul]

/-! ## Divisions (R127) -/

/-- The quotient toward zero has the sign of the product and the quotient of the magnitudes. -/
theorem signedQuotient_eq_tdiv (x y : Int) : signedQuotient x y = x.tdiv y := by
  rw [signedQuotient, Int.sign_mul]
  by_cases small : x.natAbs < y.natAbs
  · rw [Nat.div_eq_of_lt small, Nat.cast_zero, mul_zero, eq_comm, ← Int.natAbs_eq_zero, Int.natAbs_tdiv]
    exact Nat.div_eq_of_lt small
  · rw [← Int.sign_mul_natAbs (x.tdiv y), Int.sign_tdiv, if_neg small, Int.natAbs_tdiv]
    rfl

theorem toInt_eq_zero_iff (b : Word) : b.toInt = 0 ↔ b = 0 := BitVec.toInt_inj.symm.trans (by simp) |>.symm

theorem toNat_eq_zero_iff (b : Word) : b.toNat = 0 ↔ b = 0 := BitVec.toNat_inj.symm.trans (by simp) |>.symm

theorem valDiv_eq (x y : Word) :
    valDiv x y = if y.toInt = 0 then BitVec.ofInt 64 (-1) else BitVec.ofInt 64 (signedQuotient x.toInt y.toInt) := by
  simp only [valDiv, toInt_eq_zero_iff, signedQuotient_eq_tdiv]
  rfl

theorem valDivu_eq (a b : Word) : valDivu a b = if b.toNat = 0 then BitVec.ofInt 64 (-1) else BitVec.ofNat 64 (a.toNat / b.toNat) := by
  simp only [valDivu, toNat_eq_zero_iff]
  rfl

theorem valRem_eq (x y : Word) :
    valRem x y = if y.toInt = 0 then x else BitVec.ofInt 64 (x.toInt - y.toInt * signedQuotient x.toInt y.toInt) := by
  simp only [valRem, toInt_eq_zero_iff, signedQuotient_eq_tdiv, Int.tmod_def]

theorem valRemu_eq (a b : Word) : valRemu a b = if b.toNat = 0 then a else BitVec.ofNat 64 (a.toNat - b.toNat * (a.toNat / b.toNat)) := by
  simp only [valRemu, toNat_eq_zero_iff, Nat.mod_eq_sub_mul_div]

/-! ## Comparisons and scaled adds (R129, R133) -/

theorem boolWord_decide (p : Prop) [Decidable p] : boolWord (decide p) = if p then 1 else 0 := by
  simp [boolWord]

theorem valCeq_eq (a b : Word) : valCeq a b = if a = b then 1 else 0 := by simp [valCeq, boolWord]
theorem valCne_eq (a b : Word) : valCne a b = if a ≠ b then 1 else 0 := by simp [valCne, boolWord]
theorem valClt_eq (a b : Word) : valClt a b = if a.toInt < b.toInt then 1 else 0 := boolWord_decide _
theorem valCltu_eq (a b : Word) : valCltu a b = if a.toNat < b.toNat then 1 else 0 := boolWord_decide _

/-- Which of two results a strict comparison leaves is told by the other comparison, not strict. -/
theorem ite_lt_eq_ite_le {α β : Type} [LinearOrder α] (x y : α) (u v : β) :
    (if decide (y < x) = true then u else v) = if x ≤ y then v else u := by
  simp only [decide_eq_true_eq, ← not_le, ite_not]

theorem valMin_eq (a b : Word) : valMin a b = if a.toInt ≤ b.toInt then a else b := ite_lt_eq_ite_le _ _ _ _
theorem valMax_eq (a b : Word) : valMax a b = if b.toInt ≤ a.toInt then a else b := ite_lt_eq_ite_le _ _ _ _
theorem valMinu_eq (a b : Word) : valMinu a b = if a.toNat ≤ b.toNat then a else b := ite_lt_eq_ite_le _ _ _ _
theorem valMaxu_eq (a b : Word) : valMaxu a b = if b.toNat ≤ a.toNat then a else b := ite_lt_eq_ite_le _ _ _ _

theorem add_ofNat_mul (a b : Word) (n : Nat) : a + BitVec.ofNat 64 (n * b.toNat) = BitVec.ofNat 64 (a.toNat + n * b.toNat) := by
  simp [BitVec.ofNat_add]

/-! ## Instructions of two sources -/

/-- A register write that is queued is on its way, or discarded (R43, R87). -/
theorem State.pendWrite_eq (kind : PendKind) (due : Nat) (keep : List Reg) (x : Reg) (v : Vec) (p : State) :
    p.pendWrite kind due keep x v = p.withPend (newWrite kind due keep x v) := by
  unfold State.pendWrite newWrite State.withPend
  cases x.binds <;> simp [State.modMe]

/-- A state whose divider is taken up to a cycle (R123). -/
def State.dividing (due : Nat) (p : State) : State := { p with core := { p.core with divBusy := due } }

theorem effDivide_of_free {p : State} (free : p.core.divBusy ≤ p.cycle) (r : R) (f : Word → Word → Word) :
    effDivide r f p = .done ((p.dividing (p.cycle + 20)).withPend
      (newWrite .divide (p.cycle + 20) [] ⟨.g, r.d.toNat⟩ ((f (p.me.g r.a.toNat) (p.me.srcB r)).setWidth 1024))) := by
  rw [effDivide, if_neg (Nat.not_lt.mpr free)]
  simp only [State.resultAt, State.pendWrite_eq]
  rfl

/-- A ready instruction of the table has its result on its way to G[D], and no other effect. -/
def BinaryOp.Computes (c : BinaryOp) : Prop := ∀ (r : R) (s : State), Ready (c.make r) s →
  let p := s.prepare (c.make r)
  exec (c.make r) s = .next (p.issued (c.make r) (newWrite .fixed (s.cycle + c.latency) (c.make r).srcs ⟨.g, r.d.toNat⟩
    ((c.value (p.me.g r.a.toNat) (p.me.srcB r)).setWidth 1024)))

/-- A ready division that finds the divider free takes it and has its result on its way to G[D]. -/
def BinaryOp.Divides (c : BinaryOp) : Prop := ∀ (r : R) (s : State), Ready (c.make r) s → s.core.divBusy ≤ s.cycle →
  let p := s.prepare (c.make r)
  exec (c.make r) s = .next ((p.dividing (s.cycle + 20)).issued (c.make r) (newWrite .divide (s.cycle + c.latency) [] ⟨.g, r.d.toNat⟩
    ((c.value (p.me.g r.a.toNat) (p.me.srcB r)).setWidth 1024)))

section
variable {c : BinaryOp} {f : Word → Word → Word} (value : ∀ a b, f a b = c.value a b)
include value

/-- An instruction whose effect is `effBinary` computes, once its value is known. -/
theorem BinaryOp.Computes.of_value (lat : ∀ r, (c.make r).lat = c.latency := by exact fun _ => rfl)
    (meaning : ∀ r s, exec (c.make r) s = issue (c.make r) s (effBinary (c.make r) r f) := by exact fun _ _ => rfl) : c.Computes := by
  intro r s ready p
  rw [meaning, issue_resultG ready rfl, lat, value, State.prepare_cycle]

/-- An instruction whose effect is `effDivide` divides, once its value is known. -/
theorem BinaryOp.Divides.of_value (lat : c.latency = 20 := by exact rfl)
    (meaning : ∀ r s, exec (c.make r) s = issue (c.make r) s (effDivide r f) := by exact fun _ _ => rfl) : c.Divides := by
  intro r s ready free p
  have isFree : p.core.divBusy ≤ p.cycle := by simpa [p] using free
  rw [meaning, issue_done ready (effDivide_of_free isFree r f), State.complete_withPend, value, lat, State.prepare_cycle]

end

theorem arithmeticOps_compute : ∀ c ∈ arithmeticOps, c.Computes := by
  simp only [arithmeticOps, List.forall_mem_cons]
  exact ⟨.of_value valAdd_eq, .of_value valSub_eq, .of_value valAdds_eq, .of_value valSubs_eq, .of_value (f := valAnd) fun _ _ => rfl,
    .of_value (f := valOr) fun _ _ => rfl, .of_value (f := valXor) fun _ _ => rfl, .of_value (f := valAndn) fun _ _ => rfl,
    .of_value valShl_eq, .of_value valShr_eq, .of_value valSar_eq, .of_value valRor_eq, .of_value valMul_eq,
    .of_value (f := valMulh) fun _ _ => rfl, .of_value (f := valMulhu) fun _ _ => rfl, List.forall_mem_nil _⟩

theorem divisionOps_divide : ∀ c ∈ divisionOps, c.Divides := by
  simp only [divisionOps, List.forall_mem_cons]
  exact ⟨.of_value valDiv_eq, .of_value valDivu_eq, .of_value valRem_eq, .of_value valRemu_eq, List.forall_mem_nil _⟩

/-- A literal that does not fit the width that its row allows (R85). -/
theorem not_wellFormed_of_lit {i : Instr} {row : Row} {r : R} {l : Word} (enc : i.enc = .r row r) (lit : r.lit = some l)
    (tooLarge : 2 ^ row.lit ≤ l.toNat) : ¬ i.WellFormed := by
  simp [Instr.WellFormed, Instr.legal, enc, Row.framed, lit, Nat.not_lt.mpr tooLarge]

/-- Settles O1: the two tables instruction by instruction; the literal of a shift has six bits. -/
theorem registerArithmetic : Obligations.RegisterArithmetic := by
  refine ⟨arithmeticOps_compute, divisionOps_divide, fun c mem r l lit tooLarge => ?shifts⟩
  simp only [List.mem_cons, List.not_mem_nil, or_false] at mem
  rcases mem with rfl | rfl | rfl | rfl
  all_goals exact not_wellFormed_of_lit rfl lit tooLarge

theorem compareOps_compute : ∀ c ∈ compareOps, c.Computes := by
  simp only [compareOps, List.forall_mem_cons]
  exact ⟨.of_value valCeq_eq, .of_value valCne_eq, .of_value valClt_eq, .of_value valCltu_eq, .of_value valMin_eq, .of_value valMax_eq,
    .of_value valMinu_eq, .of_value valMaxu_eq, List.forall_mem_nil _⟩

theorem scaledOps_compute : ∀ c ∈ scaledOps, c.Computes := by
  simp only [scaledOps, List.forall_mem_cons]
  exact ⟨.of_value (f := valAdx2) fun a b => add_ofNat_mul a b 2, .of_value (f := valAdx4) fun a b => add_ofNat_mul a b 4,
    .of_value (f := valAdx8) fun a b => add_ofNat_mul a b 8, .of_value (f := valAdx16) fun a b => add_ofNat_mul a b 16,
    List.forall_mem_nil _⟩

/-- Settles O2: the two tables instruction by instruction. -/
theorem comparisonsAndScaledAdds : Obligations.ComparisonsAndScaledAdds := ⟨compareOps_compute, scaledOps_compute⟩

/-! ## Immediate forms (R128) -/

/-- A ready immediate form has its result on its way to G[D], and no other effect. -/
def ComputesImm (c : (BitVec 3 → BitVec 6 → BitVec 6 → BitVec 8 → Instr) × (Word → Word → Word)) : Prop :=
  ∀ (stl : BitVec 3) (d a : BitVec 6) (imm : BitVec 8) (s : State), Ready (c.1 stl d a imm) s →
    let i := c.1 stl d a imm
    let p := s.prepare i
    exec i s = .next (p.issued i (newWrite .fixed (s.cycle + 1) i.srcs ⟨.g, d.toNat⟩
      ((c.2 (p.me.g a.toNat) (imm.signExtend 64)).setWidth 1024)))

/-- An instruction whose effect is `effImm` computes, once its value is known from the operands that R97 allows. -/
theorem ComputesImm.of_value {c : (BitVec 3 → BitVec 6 → BitVec 6 → BitVec 8 → Instr) × (Word → Word → Word)} {f : Word → Word → Word}
    (value : ∀ stl d a imm x, (c.1 stl d a imm).WellFormed → f x (imm.signExtend 64) = c.2 x (imm.signExtend 64))
    (lat : ∀ stl d a imm, (c.1 stl d a imm).lat = 1 := by exact fun _ _ _ _ => rfl)
    (meaning : ∀ stl d a imm s, exec (c.1 stl d a imm) s = issue (c.1 stl d a imm) s (effImm (c.1 stl d a imm) d a imm f) :=
      by exact fun _ _ _ _ _ => rfl) : ComputesImm c := by
  intro stl d a imm s ready i p
  rw [meaning, issue_resultG ready rfl, lat, value stl d a imm _ ready.legal, State.prepare_cycle]

theorem valAddi_eq (a m : Word) : valAddi a m = BitVec.ofInt 64 ((a.toNat : Int) + m.toInt) := by
  rw [BitVec.ofInt_add, ofInt_toNat_word, BitVec.ofInt_toInt, valAddi]

/-- The count of an immediate shift that R97 allows is its own remainder. -/
theorem signExtend_toNat_mod {imm : BitVec 8} (small : imm.toNat < 64) : (imm.signExtend 64).toNat % 64 = (imm.signExtend 64).toNat := by
  have positive : imm.msb = false := by
    rw [BitVec.msb_eq_decide, decide_eq_false_iff_not]
    omega
  rw [BitVec.signExtend_eq_setWidth_of_msb_false positive, BitVec.toNat_setWidth]
  omega

section
variable {imm : BitVec 8} (small : imm.toNat < 64) (x : Word)
include small

theorem valShli_eq : valShli x (imm.signExtend 64) = BitVec.ofNat 64 (x.toNat * 2 ^ (imm.signExtend 64).toNat) := by
  rw [← signExtend_toNat_mod small]
  exact valShl_eq x _

theorem valShri_eq : valShri x (imm.signExtend 64) = BitVec.ofNat 64 (x.toNat / 2 ^ (imm.signExtend 64).toNat) := by
  rw [← signExtend_toNat_mod small]
  exact valShr_eq x _

theorem valSari_eq : valSari x (imm.signExtend 64) = BitVec.ofInt 64 (x.toInt / 2 ^ (imm.signExtend 64).toNat) := by
  rw [← signExtend_toNat_mod small]
  exact valSar_eq x _

end

/-- Settles O3: each form has the value of the form with two sources; the count of a well-formed shift is below 64. -/
theorem immediateForms : Obligations.ImmediateForms := by
  have forms : ∀ c ∈ immediateOps, ComputesImm c := by
    simp only [immediateOps, List.forall_mem_cons]
    exact ⟨.of_value fun _ _ _ _ x _ => valAddi_eq x _, .of_value (f := valAndi) fun _ _ _ _ _ _ => rfl,
      .of_value (f := valOri) fun _ _ _ _ _ _ => rfl, .of_value (f := valXori) fun _ _ _ _ _ _ => rfl,
      .of_value fun _ _ _ _ x legal => valShli_eq (of_decide_eq_true legal) x,
      .of_value fun _ _ _ _ x legal => valShri_eq (of_decide_eq_true legal) x,
      .of_value fun _ _ _ _ x legal => valSari_eq (of_decide_eq_true legal) x,
      .of_value fun _ _ _ _ x _ => valCeq_eq x _, .of_value fun _ _ _ _ x _ => valClt_eq x _,
      .of_value fun _ _ _ _ x _ => valCltu_eq x _, List.forall_mem_nil _⟩
  exact forms

/-! ## Select and bit fields (R130, R131) -/

/-- A ready instruction whose result is computed from G[A]. -/
theorem exec_of_effUnary {i : Instr} {r : R} {f : Word → Word} {s : State} (ready : Ready i s) (lat : i.lat = 1)
    (meaning : exec i s = issue i s (effUnary i r f)) :
    exec i s = .next ((s.prepare i).issued i (newWrite .fixed (s.cycle + 1) i.srcs ⟨.g, r.d.toNat⟩
      ((f ((s.prepare i).me.g r.a.toNat)).setWidth 1024))) := by
  rw [meaning, issue_resultG ready rfl, lat, State.prepare_cycle]

/-- The signed value of the low bits of a number is that of the word of those bits. -/
theorem sextNat_eq_toInt {w : Nat} (pos : 0 < w) (n : Nat) : sextNat w n = (BitVec.ofNat w n).toInt := by
  obtain ⟨k, rfl⟩ := Nat.exists_eq_add_one.mpr pos
  have split : n % 2 ^ (k + 1) = n % 2 ^ k + 2 ^ k * (n / 2 ^ k % 2) := Nat.mod_pow_succ
  have low : n % 2 ^ k < 2 ^ k := Nat.mod_lt _ (by positivity)
  rw [sextNat, BitVec.toInt_eq_toNat_cond, BitVec.toNat_ofNat, Nat.add_sub_cancel, pow_succ (2 : Nat), mul_comm (2 ^ k : Nat)] at *
  rcases Nat.mod_two_eq_zero_or_one (n / 2 ^ k) with even | odd
  · rw [if_neg (by omega), if_pos (by rw [even] at split; omega)]
  · rw [if_pos odd, if_neg (by rw [odd] at split; omega)]
    push_cast
    ring

theorem width_pos (r : R) : 0 < r.width := Nat.succ_pos _

theorem valBfxs_eq (r : R) (a : Word) :
    valBfxs r a = BitVec.ofInt 64 (BitVec.ofNat r.width (bitField a r.pos r.width)).toInt := by
  have mod : BitVec.ofNat r.width (bitField a r.pos r.width) = BitVec.ofNat r.width (a.toNat / 2 ^ r.pos) := by
    apply BitVec.eq_of_toNat_eq
    simp [bitField]
  rw [valBfxs, sextNat_eq_toInt (width_pos r), mod]

/-- A number put together from the bits below a place, those of a field and those above. -/
theorem testBit_insert (x y p w k : Nat) :
    (x % 2 ^ p + y % 2 ^ w * 2 ^ p + x / 2 ^ (p + w) * 2 ^ (p + w)).testBit k =
      if p ≤ k ∧ k < p + w then y.testBit (k - p) else x.testBit k := by
  have join : x % 2 ^ p + y % 2 ^ w * 2 ^ p + x / 2 ^ (p + w) * 2 ^ (p + w) =
      2 ^ p * (2 ^ w * (x / 2 ^ (p + w)) + y % 2 ^ w) + x % 2 ^ p := by ring
  have low : x % 2 ^ p < 2 ^ p := Nat.mod_lt _ (by positivity)
  have mid : y % 2 ^ w < 2 ^ w := Nat.mod_lt _ (by positivity)
  rw [join, Nat.testBit_two_pow_mul_add _ low, Nat.testBit_two_pow_mul_add _ mid, Nat.testBit_mod_two_pow, Nat.testBit_mod_two_pow,
    Nat.testBit_div_two_pow]
  rcases Nat.lt_or_ge k p with below | above
  · simp [below, Nat.not_le.mpr below]
  · rcases Nat.lt_or_ge k (p + w) with inside | beyond
    · simp [above, inside, Nat.not_lt.mpr above, (by omega : k - p < w)]
    · have high : ¬ k - p < w := by omega
      simp [Nat.not_lt.mpr above, Nat.not_lt.mpr beyond, high, (by omega : k - p - w + (p + w) = k)]

theorem valBfi_getLsbD (r : R) (old a : Word) {k : Nat} (hk : k < 64) :
    (valBfi r old a).getLsbD k = if r.pos ≤ k ∧ k < r.pos + r.width then a.getLsbD (k - r.pos) else old.getLsbD k := by
  rw [valBfi, BitVec.getLsbD_ofNat, testBit_insert, decide_eq_true hk, Bool.true_and]
  rfl

/-! ## Counts (R132) -/

theorem clzW_le (x : Word) : clzW x ≤ 64 := by
  unfold clzW
  split <;> omega

/-- The bits counted by `clz` are 0, and the one below them is 1. -/
theorem clzW_spec (x : Word) : (∀ k, k < 64 → 64 - clzW x ≤ k → x.getLsbD k = false) ∧ (clzW x < 64 → x.getLsbD (63 - clzW x) = true) := by
  by_cases zero : x = 0
  · simp [zero, clzW]
  · have nonzero : x.toNat ≠ 0 := mt (toNat_eq_zero_iff x).mp zero
    have top : Nat.log2 x.toNat < 64 := (Nat.log2_lt nonzero).mpr x.isLt
    rw [clzW, if_neg zero]
    refine ⟨fun k _ above => Nat.testBit_lt_two_pow ?_, fun _ => ?_⟩
    · exact Nat.lt_log2_self.trans_le (Nat.pow_le_pow_right (by omega) (by omega))
    · rw [(by omega : 63 - (63 - Nat.log2 x.toNat) = Nat.log2 x.toNat)]
      exact Nat.testBit_log2 nonzero

/-- The bits counted by `ctz` are 0, and the one above them is 1. -/
theorem ctzW_spec (x : Word) : ctzW x ≤ 64 ∧ (∀ k, k < ctzW x → x.getLsbD k = false) ∧ (ctzW x < 64 → x.getLsbD (ctzW x) = true) := by
  cases found : (List.range 64).find? (fun i => x.getLsbD i) with
  | none =>
    have none := List.find?_range_eq_none.mp found
    simp only [ctzW, found, Option.getD_none]
    exact ⟨le_refl _, fun k hk => by simpa using none k hk, fun h => absurd h (Nat.lt_irrefl _)⟩
  | some n =>
    obtain ⟨one, mem, zeros⟩ := List.find?_range_eq_some.mp found
    simp only [ctzW, found, Option.getD_some]
    exact ⟨(List.mem_range.mp mem).le, fun k hk => by simpa using zeros k hk, fun _ => one⟩

theorem valPopc_eq (x : Word) : valPopc x = BitVec.ofNat 64 ((List.range 64).countP (fun k => x.getLsbD k)) := by
  rw [List.countP_eq_length_filter]
  rfl

/-! ## Bytes of a number -/

/-- The number of a list of bytes has each of them at its place. -/
theorem ofBytes_div_mod : ∀ (l : List Byte) (k : Nat) (h : k < l.length), ofBytes l / 2 ^ (8 * k) % 2 ^ 8 = l[k].toNat
  | b :: l, 0, _ => by
    have := b.isLt
    simp only [ofBytes, List.getElem_cons_zero]
    omega
  | b :: l, k + 1, h => by
    have := b.isLt
    rw [List.getElem_cons_succ, ← ofBytes_div_mod l k (Nat.lt_of_succ_lt_succ h), mul_add, mul_one, add_comm, pow_add,
      ← Nat.div_div_eq_div_mul, ofBytes, (by omega : (b.toNat + 256 * ofBytes l) / 2 ^ 8 = ofBytes l)]

/-- Each byte of a number stands at its place. -/
theorem toBytes_getElem : ∀ (n v k : Nat) (h : k < (toBytes n v).length), (toBytes n v)[k] = BitVec.ofNat 8 (v / 2 ^ (8 * k))
  | n + 1, v, 0, _ => by simp [toBytes]
  | n + 1, v, k + 1, h => by
    simp only [toBytes, List.getElem_cons_succ]
    rw [toBytes_getElem n (v / 256) k, Nat.div_div_eq_div_mul, mul_add, add_comm, pow_add, mul_one]
    rfl

/-- The bytes of a word. -/
theorem toBytes_getElem_word (n : Nat) (x : Word) {k : Nat} (h : k < (toBytes n x.toNat).length) :
    (toBytes n x.toNat)[k] = x.extractLsb' (8 * k) 8 := by
  rw [toBytes_getElem]
  apply BitVec.eq_of_toNat_eq
  rw [BitVec.toNat_ofNat, BitVec.extractLsb'_toNat, Nat.shiftRight_eq_div_pow]

theorem ofBytes_lt : ∀ l : List Byte, ofBytes l < 2 ^ (8 * l.length)
  | [] => by simp [ofBytes]
  | b :: l => by
    have := b.isLt
    have := ofBytes_lt l
    rw [List.length_cons, mul_add, pow_add, ofBytes]
    omega

/-- The bytes of a word made of eight bytes. -/
theorem ofBytes_extractLsb' {l : List Byte} (length : l.length = 8) {k : Nat} (h : k < l.length) :
    (BitVec.ofNat 64 (ofBytes l)).extractLsb' (8 * k) 8 = l[k] := by
  have bound : ofBytes l < 2 ^ 64 := by simpa [length] using ofBytes_lt l
  apply BitVec.eq_of_toNat_eq
  rw [BitVec.extractLsb'_toNat, BitVec.toNat_ofNat, Nat.mod_eq_of_lt bound, Nat.shiftRight_eq_div_pow, ofBytes_div_mod l k h]

theorem valBswap_extractLsb' (x : Word) {k : Nat} (hk : k < 8) :
    (valBswap x).extractLsb' (8 * k) 8 = x.extractLsb' (8 * (7 - k)) 8 := by
  have length : (toBytes 8 x.toNat).reverse.length = 8 := by rw [List.length_reverse, toBytes_length]
  rw [valBswap, ofBytes_extractLsb' length (hk.trans_eq length.symm), List.getElem_reverse, toBytes_getElem_word]
  simp only [toBytes_length]

theorem exec_sel (r : R) (s : State) : exec (.sel r) s = issue (.sel r) s (fun p =>
    .done (p.resultG (.sel r) r.d (if p.me.g r.c.toNat ≠ 0 then p.me.g r.a.toNat else p.me.srcB r))) := rfl

theorem exec_bfi (r : R) (s : State) : exec (.bfi r) s = issue (.bfi r) s (fun p =>
    .done (p.resultG (.bfi r) r.d (valBfi r (p.me.g r.d.toNat) (p.me.g r.a.toNat)))) := rfl

/-- Settles O4: `sel` and the field instructions by their values, the counts by what they count. -/
theorem selectFieldsAndCounts : Obligations.SelectFieldsAndCounts := by
  refine ⟨fun r s ready => ?sel, fun r s ready => ?bfxu, fun r s ready => ?bfxs, fun r s ready => ?bfi, fun r s ready => ?clz,
    fun r s ready => ?ctz, fun r s ready => ?popc, fun r s ready => ?bswap⟩
  case sel =>
    intro p
    rw [← State.prepare_cycle (.sel r) s]
    exact (exec_sel r s).trans (issue_resultG ready rfl)
  case bfxu => exact exec_of_effUnary ready rfl rfl
  case bfxs =>
    intro p
    rw [← valBfxs_eq]
    exact exec_of_effUnary ready rfl rfl
  case bfi =>
    intro p
    rw [← State.prepare_cycle (.bfi r) s]
    exact ⟨_, (exec_bfi r s).trans (issue_resultG ready rfl), fun k hk => valBfi_getLsbD r _ _ hk⟩
  case clz => exact ⟨_, clzW_le _, exec_of_effUnary ready rfl rfl, clzW_spec _⟩
  case ctz =>
    intro p
    obtain ⟨le, zeros, one⟩ := ctzW_spec (p.me.g r.a.toNat)
    exact ⟨_, le, exec_of_effUnary ready rfl rfl, zeros, one⟩
  case popc =>
    intro p
    rw [← valPopc_eq]
    exact exec_of_effUnary ready rfl rfl
  case bswap => exact ⟨_, exec_of_effUnary ready rfl rfl, fun k hk => valBswap_extractLsb' _ hk⟩

end Sys2Proof.Machine
end

section
/-! SUPPORT. What reports of errors and fills of lines leave unchanged (R301, R407, R430). -/

namespace Sys2Proof.Machine

/-- Two states that differ in memory, in the lines and counts of the tile cache and in the controllers' records of errors. -/
structure Recorded (s t : State) : Prop where
  rest : t = { s with mem := t.mem, cache := t.cache, svc := t.svc }
  buckets : t.cache.buckets = s.cache.buckets
  retired : t.svc.spindlesRetired = s.svc.spindlesRetired

theorem Recorded.refl (s : State) : Recorded s s := ⟨rfl, rfl, rfl⟩

theorem Recorded.trans {s t u : State} (h : Recorded s t) (k : Recorded t u) : Recorded s u :=
  ⟨by rw [k.rest, h.rest], k.buckets.trans h.buckets, k.retired.trans h.retired⟩

theorem Recorded.me {s t : State} (h : Recorded s t) : t.me = s.me := by rw [h.rest]
theorem Recorded.core {s t : State} (h : Recorded s t) : t.core = s.core := by rw [h.rest]

theorem Recorded.ite {p : Prop} [Decidable p] {s t u : State} (h : Recorded s t) (k : Recorded s u) : Recorded s (if p then t else u) := by
  split
  · exact h
  · exact k

theorem Recorded.foldl {α : Type} {f : State → α → State} (hf : ∀ s x, Recorded s (f s x)) (l : List α) (s : State) :
    Recorded s (l.foldl f s) := by
  induction l generalizing s with
  | nil => exact .refl s
  | cons x l ih => exact (hf s x).trans (ih _)

theorem Recorded.evictLine (l : Line) (s : State) : Recorded s (s.evictLine l) := ⟨rfl, rfl, rfl⟩

theorem Recorded.fillLine (vd : Nat) (k : LineKey) (slice : Nat) (replica : Bool) (f : FillSet) (s : State) :
    Recorded s (s.fillLine vd k slice replica f) := by
  unfold State.fillLine
  split
  · exact .refl s
  · next victim _ => cases victim <;> exact ⟨rfl, rfl, rfl⟩

theorem Recorded.countAt (ks : List (Nat × LineKey)) (s : State) : Recorded s (s.countAt ks) := by
  unfold State.countAt
  refine .foldl ?_ ks s
  exact fun _ _ => ⟨rfl, rfl, rfl⟩

theorem Recorded.bringLine (vd : Nat) (k : LineKey) (s : State) : Recorded s (s.bringLine vd k) := by
  have counted := Recorded.countAt ([k].map (fun k => (s.homeSlice k, k))) s
  unfold State.bringLine
  dsimp only
  split
  · exact counted
  · exact counted.trans (.fillLine ..)

theorem Recorded.storeCells (vd : Nat) (k : LineKey) (sect : Nat) (part : Part) (cs : List Host.Cell) (s : State) :
    Recorded s (s.storeCells vd k sect part cs) := by
  have overwritten (c : Cache) (pas : List Nat) : (c.overwrite pas).buckets = c.buckets := by
    unfold Cache.overwrite
    split <;> rfl
  unfold State.storeCells
  dsimp only
  split
  · split <;> exact ⟨rfl, overwritten _ _, rfl⟩
  · exact ⟨rfl, overwritten _ _, rfl⟩

theorem Recorded.countEvent (kind agent cls : Nat) (s : State) : Recorded s (s.countEvent kind agent cls) := ⟨rfl, rfl, rfl⟩

theorem Recorded.ringWrite (kind agent cls : Nat) (vd : Option Nat) (cyc place info count : Nat) (s : State) :
    Recorded s (s.ringWrite kind agent cls vd cyc place info count) := by
  unfold State.ringWrite
  dsimp only
  split
  · exact .refl s
  · split
    · exact ⟨rfl, rfl, rfl⟩
    · refine .trans ?_ (.storeCells ..)
      refine .trans ?_ (.foldl (fun _ _ => .countEvent ..) _ _)
      refine .trans ?_ (.bringLine ..)
      cases vd <;> exact ⟨rfl, rfl, rfl⟩

theorem Recorded.report (kind agent cls : Nat) (vd : Option Nat) (place info : Nat) (s : State) :
    Recorded s (s.report kind agent cls vd place info) := by
  unfold State.report
  dsimp only
  exact .ite (.ringWrite ..) (.ite (.countEvent ..) (.ite ((Recorded.countEvent ..).trans (.ringWrite ..))
    (.trans (t := { s with svc := s.svc.limit ⟨kind, agent, cls, some s.cycle, 0⟩ }) ⟨rfl, rfl, rfl⟩ (.ringWrite ..))))

theorem Recorded.fill (vd : Nat) (k : LineKey) (slice : Nat) (replica : Bool) (f : FillSet) (s : State) :
    Recorded s (s.fill vd k slice replica f) :=
  (Recorded.fillLine ..).trans (.foldl (fun _ _ => .report ..) _ _)

end Sys2Proof.Machine
end

section
/-! SUPPORT. CheckLocal, local loads and local stores (R140-R146), and the statements about them. -/

namespace Sys2Proof.Machine

/-! ## CheckLocal (R142, R278, R420) -/

/-- CheckLocal passes when every byte passes. -/
theorem State.checkLocal_eq_none_iff (s : State) (store : Bool) (n : Nat) (y : Int) :
    s.checkLocal store y n = none ↔ ∀ k : Nat, k < n → s.checkByte store (y + k) = none := by
  induction n generalizing y with
  | zero => simp [State.checkLocal]
  | succ n ih =>
    have next (k : Nat) : y + 1 + k = y + (k + 1 : Nat) := by push_cast; ring
    rw [Nat.forall_lt_succ_left]
    cases first : s.checkByte store y with
    | some c => simp [State.checkLocal, first]
    | none => simp only [State.checkLocal, first, ih, next, Nat.cast_zero, add_zero, true_and]

/-- The first byte that fails decides the trap. -/
theorem State.checkLocal_eq_some_iff (s : State) (store : Bool) (n : Nat) (y z : Int) (c : Nat) :
    s.checkLocal store y n = some (z, c) ↔
      ∃ k : Nat, k < n ∧ z = y + k ∧ s.checkByte store z = some c ∧ ∀ j : Nat, j < k → s.checkByte store (y + j) = none := by
  induction n generalizing y with
  | zero => simp [State.checkLocal]
  | succ n ih =>
    have next (k : Nat) : y + 1 + k = y + (k + 1 : Nat) := by push_cast; ring
    rw [Nat.exists_lt_succ_left]
    cases first : s.checkByte store y with
    | some d =>
      have earlier : ¬ ∃ k, k < n ∧ z = y + (k + 1 : Nat) ∧ s.checkByte store z = some c ∧
          ∀ j : Nat, j < k + 1 → s.checkByte store (y + j) = none := by
        rintro ⟨k, -, -, -, pass⟩
        exact absurd (pass 0 (Nat.succ_pos k)) (by simp [first])
      simp only [State.checkLocal, first, earlier, or_false, Nat.cast_zero, add_zero, Nat.not_lt_zero, false_implies, implies_true, and_true,
        Option.some.injEq, Prod.mk.injEq]
      constructor
      · rintro ⟨rfl, rfl⟩
        exact ⟨rfl, first⟩
      · rintro ⟨rfl, same⟩
        exact ⟨rfl, Option.some.inj (first.symm.trans same)⟩
    | none =>
      have here : ¬ (z = y ∧ s.checkByte store z = some c) := by
        rintro ⟨rfl, fails⟩
        exact absurd fails (by simp [first])
      simp only [State.checkLocal, first, ih, next, Nat.forall_lt_succ_left, Nat.cast_zero, add_zero, true_and, Nat.not_lt_zero, false_implies,
        implies_true, and_true, here, false_or]

section
variable {s : State} (store : Bool) (y : Int)

theorem State.checkByte_compute (compute : s.me.agent.kind = .compute) :
    s.checkByte store y =
      if y < 0 then some 6 else if y < s.me.xb then some 5
      else if y < 0x30000 then (if y.toNat / 0x800 ∈ s.me.frames then none else some 6)
      else if y < 0x400000 ∨ 0x408000 ≤ y ∨ store = true then some 6
      else match s.partner with
        | some q => if (windowFrame q y.toNat).isSome then none else some 6
        | none => some 6 := by
  rcases lt_or_ge y 0 with negative | positive
  · simp [State.checkByte, negative]
  · obtain ⟨n, rfl⟩ := Int.eq_ofNat_of_zero_le positive
    have window : (decide (0x400000 ≤ n) && decide (n < 0x408000) && !store) = true ↔ ¬ (n < 0x400000 ∨ 0x408000 ≤ n ∨ store = true) := by
      simp [and_assoc]
    simp only [State.checkByte, compute, localTop, window, ite_not, Int.toNat_natCast, Nat.cast_lt, Nat.cast_lt_ofNat,
      Nat.ofNat_le_cast]
      <;> rfl

theorem State.checkByte_other (other : s.me.agent.kind ≠ .compute) :
    s.checkByte store y =
      if y < 0 then some 6 else if y < s.me.xb then some 5
      else if y < 0x20000 then (if y.toNat / 0x800 ∈ s.me.frames then none else some 6)
      else if s.me.agent.kind = .gateway ∧ 0x400000 ≤ y ∧ y < 0x402000 ∧ store = false then none else some 6 := by
  rcases lt_or_ge y 0 with negative | positive
  · simp [State.checkByte, negative]
  · obtain ⟨n, rfl⟩ := Int.eq_ofNat_of_zero_le positive
    have range : (decide (0x400000 ≤ n) && decide (n < 0x402000) && !store) = true ↔ 0x400000 ≤ n ∧ n < 0x402000 ∧ store = false := by
      simp [and_assoc]
    cases kind : s.me.agent.kind with
    | compute => exact absurd kind other
    | gateway => simp only [State.checkByte, kind, localTop, range, Int.toNat_natCast, Nat.cast_lt, Nat.cast_lt_ofNat, Nat.ofNat_le_cast, true_and]
    | spindle => simp only [State.checkByte, kind, localTop, Int.toNat_natCast, Nat.cast_lt, Nat.cast_lt_ofNat, reduceCtorEq, false_and, if_false]

end

/-- Settles O10: `checkLocal` by induction on the bytes, `checkByte` by the kind of the agent. -/
theorem checkLocalRules : Obligations.CheckLocalRules :=
  ⟨fun s store y n => ⟨s.checkLocal_eq_none_iff store n y, fun z c => s.checkLocal_eq_some_iff store n y z c⟩,
    fun _ store y compute => State.checkByte_compute store y compute, fun _ store y other => State.checkByte_other store y other⟩

/-! ## What a load reads (R141, R143, R361) -/

theorem Memory.readN_length (m : Memory) (a n : Nat) : (m.readN a n).length = n := by
  induction n generalizing a with
  | zero => rfl
  | succ n ih => simp [Memory.readN, ih]

theorem State.readLocal_length_le (s : State) (y n : Nat) : (s.readLocal y n).length ≤ n := by
  unfold State.readLocal
  split
  · exact (Memory.readN_length ..).le
  · split
    · exact (Memory.readN_length ..).le
    · split
      · exact (Memory.readN_length ..).le
      · exact Nat.zero_le n

theorem State.readTaint_cycle {y n : Nat} {s q : State} (reads : s.readTaint y n = some q) : q.cycle = s.cycle := by
  unfold State.readTaint State.readPartner at reads
  split at reads
  · split at reads
    · cases reads; rfl
    · split at reads
      · cases reads; rfl
      · split at reads
        · cases reads; rfl
        · cases reads
  · cases reads; rfl

theorem Recorded.reportMe (cls place info : Nat) (s : State) : Recorded s (s.reportMe cls place info) := Recorded.report ..

theorem LMem.mend_nil (m : LMem) : m.mend [] = m := by simp [LMem.mend]

theorem LMem.softIn_mend (m : LMem) (a n : Nat) : (m.mend (m.softIn a n)).softIn a n = [] := by
  simp only [LMem.softIn, LMem.mend, List.filter_eq_nil_iff, List.mem_filter, decide_eq_true_eq]
  exact fun w inRange left => left.2 ⟨inRange, left.1⟩

section
variable {s : State} {y : Nat} (own : y < 0x400000) (n : Nat)
include own

/-- With no correctable error in its words a load of own memory corrects nothing. -/
theorem State.correct_of_none (none : s.me.lm.softIn y n = []) : s.correct y n = s := by
  simp only [State.correct, if_pos own, none, LMem.mend_nil, List.foldl_nil]
  rfl

/-- A load of own memory leaves no correctable error in the words it reads. -/
theorem State.softIn_correct : (s.correct y n).me.lm.softIn y n = [] := by
  simp only [State.correct, if_pos own]
  rw [(Recorded.foldl (fun _ _ => Recorded.reportMe ..) _ _).me]
  exact LMem.softIn_mend ..

end

/-! ## The effects of loads and stores (R140, R141, R144, R146) -/

section
variable {i : Instr} {r : R} {p : State} {f : Nat} {ext : Nat → Word}

/-- A load of a byte that fails CheckLocal. -/
theorem effLoad_of_fails {z : Int} {k : Nat} (fails : p.checkLocal false (p.me.ea r) (2 ^ f) = some (z, k)) :
    effLoad i r f ext p = .trap k (localInfo z (2 * f)) := by
  simp only [effLoad, fails]

theorem effStore_of_fails {z : Int} {k : Nat} (fails : p.checkLocal true (p.me.ea r) (2 ^ f) = some (z, k)) :
    effStore r f p = .trap k (localInfo z (2 * f + 1)) := by
  simp only [effStore, fails]

section
variable (passes : p.checkLocal false (p.me.ea r) (2 ^ f) = none)
include passes

/-- A load that overlaps an earlier access waits. -/
theorem effLoad_of_busy (busy : p.me.rangeBusy p.nextCmd false (p.me.ea r).toNat (2 ^ f) = true) : effLoad i r f ext p = .hold p := by
  simp only [effLoad, passes, busy, if_true]

/-- A load whose bytes may be read and meet no poison. -/
theorem effLoad_of_good {q : State} (free : p.me.rangeBusy p.nextCmd false (p.me.ea r).toNat (2 ^ f) = false)
    (reads : p.readTaint (p.me.ea r).toNat (2 ^ f) = some q) (good : q.poisonAt (p.me.ea r).toNat (2 ^ f) = none) :
    effLoad i r f ext p = .done ((q.correct (p.me.ea r).toNat (2 ^ f)).withPend (newWrite .load
      (p.cycle + loadLatency (p.me.ea r).toNat (2 ^ f) + q.bankWait) i.srcs ⟨.g, r.d.toNat⟩
      ((ext (ofBytes (q.readLocal (p.me.ea r).toNat (2 ^ f)))).setWidth 1024))) := by
  simp only [effLoad, passes, free, reads, good, State.resultAt, State.pendWrite_eq, State.readTaint_cycle reads, Bool.false_eq_true, if_false]

end

section
variable (passes : p.checkLocal true (p.me.ea r) (2 ^ f) = none)
include passes

theorem effStore_of_busy (busy : p.me.rangeBusy p.nextCmd true (p.me.ea r).toNat (2 ^ f) = true) : effStore r f p = .hold p := by
  simp only [effStore, passes, busy, if_true]

theorem effStore_of_free (free : p.me.rangeBusy p.nextCmd true (p.me.ea r).toNat (2 ^ f) = false) :
    effStore r f p = .done (p.writeLocal (p.me.ea r).toNat (toBytes (2 ^ f) (p.me.srcB r).toNat)) := by
  simp only [effStore, passes, free, Bool.false_eq_true, if_false]

end

end

/-! ## The tables of loads and stores (R140) -/

/-- Sign extension of a load is that of the word of its bytes. -/
theorem extS_eq {n : Nat} (pos : 0 < n) (v : Nat) : extS n v = (BitVec.ofNat (8 * n) v).signExtend 64 := by
  rw [extS, sextNat_eq_toInt (by omega)]
  rfl

theorem extZ_eq {n v : Nat} (bound : v < 2 ^ n) : extZ v = (BitVec.ofNat n v).setWidth 64 := by
  apply BitVec.eq_of_toNat_eq
  rw [extZ, BitVec.toNat_setWidth, BitVec.toNat_ofNat, BitVec.toNat_ofNat, Nat.mod_eq_of_lt bound]

/-- Each load of the table is `effLoad` of its size, with an extension that agrees on the numbers of that many bytes. -/
theorem exec_loadOp {c : LoadOp} (mem : c ∈ loadOps) : ∃ f ext, c.size = 2 ^ f ∧ (∀ v < 2 ^ (8 * c.size), ext v = c.extend v) ∧
    ∀ r s, exec (c.make r) s = issue (c.make r) s (effLoad (c.make r) r f ext) := by
  simp only [loadOps, List.mem_cons, List.not_mem_nil, or_false] at mem
  rcases mem with rfl | rfl | rfl | rfl | rfl | rfl | rfl
  · exact ⟨0, _, rfl, fun v _ => extS_eq one_pos v, fun _ _ => rfl⟩
  · exact ⟨1, _, rfl, fun v _ => extS_eq two_pos v, fun _ _ => rfl⟩
  · exact ⟨2, _, rfl, fun v _ => extS_eq four_pos v, fun _ _ => rfl⟩
  · exact ⟨3, _, rfl, fun v _ => (extS_eq (by omega) v).trans (BitVec.signExtend_eq _), fun _ _ => rfl⟩
  · exact ⟨0, _, rfl, fun _ bound => extZ_eq bound, fun _ _ => rfl⟩
  · exact ⟨1, _, rfl, fun _ bound => extZ_eq bound, fun _ _ => rfl⟩
  · exact ⟨2, _, rfl, fun _ bound => extZ_eq bound, fun _ _ => rfl⟩

/-- Each store of the table is `effStore` of its size. -/
theorem exec_storeOp {c : (R → Instr) × Nat} (mem : c ∈ storeOps) : ∃ f, c.2 = 2 ^ f ∧
    ∀ r s, exec (c.1 r) s = issue (c.1 r) s (effStore r f) := by
  simp only [storeOps, List.mem_cons, List.not_mem_nil, or_false] at mem
  rcases mem with rfl | rfl | rfl | rfl
  · exact ⟨0, rfl, fun _ _ => rfl⟩
  · exact ⟨1, rfl, fun _ _ => rfl⟩
  · exact ⟨2, rfl, fun _ _ => rfl⟩
  · exact ⟨3, rfl, fun _ _ => rfl⟩

theorem State.bankWait_of_idle {s : State} (idle : s.banksBusy = false) : s.bankWait = 0 := by
  simp [State.bankWait, idle]

/-- Settles O7: a load is `effLoad` of its size, and its bytes are few enough for its extension. -/
theorem localLoads : Obligations.LocalLoads := by
  intro c mem r s q ready p y passes free reads good
  obtain ⟨f, ext, size, agree, meaning⟩ := exec_loadOp mem
  have few : ofBytes (q.readLocal y c.size) < 2 ^ (8 * c.size) :=
    (ofBytes_lt _).trans_le (Nat.pow_le_pow_right two_pos (Nat.mul_le_mul_left 8 (q.readLocal_length_le y c.size)))
  have cycle : p.cycle = s.cycle := State.prepare_cycle _ s
  rw [← agree _ few, ← cycle]
  rw [size] at passes free reads good ⊢
  exact ⟨q.bankWait, State.bankWait_of_idle, fun own none => State.correct_of_none own _ none, fun own => State.softIn_correct own _,
    (meaning r s).trans ((issue_done ready (effLoad_of_good passes free reads good)).trans (by rw [State.complete_withPend]; rfl))⟩

/-- Settles O8: a store is `effStore` of its size. -/
theorem localStores : Obligations.LocalStores := by
  intro c mem r s ready p y passes free
  obtain ⟨f, size, meaning⟩ := exec_storeOp mem
  rw [size] at passes free ⊢
  exact (meaning r s).trans (issue_issued ready (effStore_of_free passes free))

/-- Settles O9: by what a store leaves (O8), the laws of byte memory, and what preparing leaves. -/
theorem storeFrame : Obligations.StoreFrame := by
  intro c mem r s t ready p y passes free next
  have stored := next.symm.trans (localStores c mem r s ready passes free)
  cases stored
  refine ⟨fun a outside => ?outside, fun k hk => ?inside, rfl, ?pend, ?rest⟩
  case outside =>
    refine (Memory.read_writeN_outside _ _ _ _ (by rwa [toBytes_length])).trans ?_
    rw [State.prepare_me_lm]
  case inside =>
    have bound : k < (toBytes c.2 (p.me.srcB r).toNat).length := by rwa [toBytes_length]
    exact (Memory.read_writeN_inside _ _ _ _ bound).trans (toBytes_getElem_word _ _ bound)
  case pend => simp [State.issued]
  case rest => simp [State.issued]

/-- Settles O11: the traps and the waits of `effLoad` and `effStore`. -/
theorem localTrapsAndWaits : Obligations.LocalTrapsAndWaits := by
  refine ⟨⟨fun c mem r s z k ready fails => ?loadTraps, fun c mem r s z k ready fails => ?storeTraps⟩,
    fun c mem r s ready passes busy => ?loadWaits, fun c mem r s ready passes busy => ?storeWaits⟩
  case loadTraps =>
    obtain ⟨f, ext, size, -, meaning⟩ := exec_loadOp mem
    rw [size] at fails ⊢
    rw [Nat.log2_two_pow]
    exact (meaning r s).trans (issue_trap ready (effLoad_of_fails fails))
  case storeTraps =>
    obtain ⟨f, size, meaning⟩ := exec_storeOp mem
    rw [size] at fails ⊢
    rw [Nat.log2_two_pow]
    exact (meaning r s).trans (issue_trap ready (effStore_of_fails fails))
  case loadWaits =>
    obtain ⟨f, ext, size, -, meaning⟩ := exec_loadOp mem
    rw [size] at passes busy
    exact (meaning r s).trans (issue_hold ready (effLoad_of_busy passes busy))
  case storeWaits =>
    obtain ⟨f, size, meaning⟩ := exec_storeOp mem
    rw [size] at passes busy
    exact (meaning r s).trans (issue_hold ready (effStore_of_busy passes busy))

end Sys2Proof.Machine
end

section
/-! SUPPORT. A byte of memory under a store: ciphers keep the length of a sector (R300), a byte of backing memory written under a key, and a
byte at its home slice when cells are stored (R227, R301). -/

namespace Sys2Proof.Machine

/-! ## The ciphers keep lengths (R300) -/

@[simp] theorem aesAdd_length (xs ys : List Nat) : (aesAdd xs ys).length = min xs.length ys.length := by simp [aesAdd]
@[simp] theorem aesRows_length (step : Nat) (xs : List Nat) : (aesRows step xs).length = 16 := by simp [aesRows]
@[simp] theorem leBytes_length (n x : Nat) : (leBytes n x).length = n := by simp [leBytes]

/-- Every word of the key schedule has 4 bytes. -/
theorem aesSchedule_words (n i : Nat) (ws : List (List Nat)) (enough : 8 ≤ ws.length) (words : ∀ w ∈ ws, w.length = 4) :
    (∀ w ∈ aesSchedule n i ws, w.length = 4) ∧ (aesSchedule n i ws).length = n + ws.length := by
  induction n generalizing i ws with
  | zero => simpa [aesSchedule] using words
  | succ n ih =>
    obtain ⟨t, rest, rfl⟩ : ∃ t rest, ws = t :: rest := List.exists_cons_of_length_pos (by omega)
    have last : t.length = 4 := words t (by simp)
    have eighth : ((t :: rest).getD 7 []).length = 4 := by
      rw [List.getD_eq_getElem _ _ (by omega)]
      exact words _ (List.getElem_mem _)
    have next (x : List Nat) (four : x.length = 4) := ih (i + 1) (aesAdd ((t :: rest).getD 7 []) x :: t :: rest)
      (by simp only [List.length_cons] at enough ⊢; omega)
      (by
        intro w mem
        rcases List.mem_cons.1 mem with rfl | mem
        · rw [aesAdd_length, eighth, four, min_self]
        · exact words w mem)
    have lengths (m : Nat) : n + 1 + m = n + (m + 1) := by omega
    unfold aesSchedule
    rw [lengths]
    refine next _ ?_
    simp only [List.headD_cons]
    split
    · simp [last]
    · split
      · simpa using last
      · exact last

/-- The 15 round keys have 16 bytes each. -/
theorem aesRoundKeys_lengths {key : List Nat} (bytes : key.length = 32) :
    (aesRoundKeys key).length = 15 ∧ ∀ k ∈ aesRoundKeys key, k.length = 16 := by
  refine ⟨by simp [aesRoundKeys], ?_⟩
  simp only [aesRoundKeys, List.mem_map, List.mem_range, forall_exists_index, and_imp]
  obtain ⟨words, count⟩ := aesSchedule_words 52 8 (((List.range 8).map (fun i => (key.drop (4 * i)).take 4)).reverse) (by simp) (by
    simp only [List.mem_reverse, List.mem_map, List.mem_range, forall_exists_index, and_imp]
    rintro w i small rfl
    simp only [List.length_take, List.length_drop]
    omega)
  generalize aesSchedule 52 8 _ = ws at words count ⊢
  rintro k i small rfl
  have fours : ∀ n ∈ ((ws.reverse.drop (4 * i)).take 4).map List.length, n = 4 := by
    simp only [List.mem_map, forall_exists_index, and_imp]
    rintro n w mem rfl
    exact words w (List.mem_reverse.1 (List.mem_of_mem_drop (List.mem_of_mem_take mem)))
  rw [List.length_flatten, List.sum_eq_card_nsmul _ 4 fours]
  simp only [List.length_map, List.length_take, List.length_drop, List.length_reverse, count, List.length_range, smul_eq_mul]
  omega

/-- The last of 14 round keys of 16 bytes. -/
theorem length_last_key {ks : List (List Nat)} (count : ks.length = 14) (full : ∀ k ∈ ks, k.length = 16) : (ks.getD 13 []).length = 16 := by
  rw [List.getD_eq_getElem _ _ (by omega)]
  exact full _ (List.getElem_mem _)

theorem aesEncrypt_length {key block : List Nat} (bytes : key.length = 32) (full : block.length = 16) : (aesEncrypt key block).length = 16 := by
  obtain ⟨count, keys⟩ := aesRoundKeys_lengths bytes
  unfold aesEncrypt
  split
  · exact full
  · next k ks split =>
    rw [split] at count keys
    obtain ⟨first, later⟩ := List.forall_mem_cons.1 keys
    rw [aesAdd_length, aesRows_length, length_last_key (by simpa using count) later, min_self]

theorem aesDecrypt_length {key block : List Nat} (bytes : key.length = 32) (full : block.length = 16) : (aesDecrypt key block).length = 16 := by
  obtain ⟨count, keys⟩ := aesRoundKeys_lengths bytes
  unfold aesDecrypt
  split
  · exact full
  · next k ks split =>
    have turned : (k :: ks).length = 15 ∧ ∀ x ∈ k :: ks, x.length = 16 := by
      rw [← split]
      exact ⟨by simpa using count, fun x mem => keys x (List.mem_reverse.1 mem)⟩
    rw [aesAdd_length, List.length_map, aesRows_length,
      length_last_key (by simpa using turned.1) (fun x mem => turned.2 x (List.mem_cons_of_mem _ mem)), min_self]

/-- A sector of 32 bytes keeps its length under a cipher of blocks. -/
theorem xtsSector_length {f : List Nat → List Nat → List Nat}
    (blocks : ∀ {key block : List Nat}, key.length = 32 → block.length = 16 → (f key block).length = 16) (k : KeyPair) (sector : Nat)
    {bs : List Nat} (full : bs.length = 32) : (xtsSector f k sector bs).length = 32 := by
  have one (t : Nat) {xs : List Nat} (half : xs.length = 16) :
      (aesAdd (f (leBytes 32 k.key1.toNat) (aesAdd xs (leBytes 16 t))) (leBytes 16 t)).length = 16 := by
    rw [aesAdd_length, blocks (leBytes_length ..) (by simp [half]), leBytes_length, min_self]
  simp only [xtsSector, List.length_append]
  rw [one _ (by simp [full]), one _ (by simp [full])]

/-! ## A byte of backing memory (R300) -/

theorem PhysMem.sector_length (m : PhysMem) (slot : KeyView) (q : Nat) : (m.sector slot q).length = 32 := by
  have plain : (m.bytes.readN (32 * q) 32).length = 32 := Memory.readN_length ..
  unfold PhysMem.sector
  split
  · dsimp only
    split
    · exact plain
    · unfold KeyView.recrypt
      split
      · rw [List.length_map]
        exact xtsSector_length aesDecrypt_length _ _ (xtsSector_length aesEncrypt_length _ _ (by simpa using plain))
      · exact plain
  · exact plain

/-- The ranges that are stored encrypted. -/
theorem encrypted_iff (pa : Nat) : encrypted pa = true ↔ pa < 0x018000000000 ∨ (0x100000000000 ≤ pa ∧ pa < 0x200000000000) := by
  unfold encrypted paKind
  split_ifs <;> simp <;> omega

/-- The bytes of a sector are all stored alike. -/
theorem encrypted_of_sector {a b : Nat} (same : a / 32 = b / 32) : encrypted a = encrypted b := by
  rw [Bool.eq_iff_iff, encrypted_iff, encrypted_iff]
  omega

/-- What a key reads at an address depends on the bytes of its sector, and on the key that wrote them. -/
theorem PhysMem.get_congr {m n : PhysMem} (slot : KeyView) {a : Nat} (key : AMap.find n.keyOf (a / 32) = AMap.find m.keyOf (a / 32))
    (byte : n.bytes.read a = m.bytes.read a) (bytes : n.bytes.readN (32 * (a / 32)) 32 = m.bytes.readN (32 * (a / 32)) 32) :
    n.get slot a = m.get slot a := by
  simp only [PhysMem.get, PhysMem.sector, key, byte, bytes]

/-- A sector that is stored again under another key reads as before under it. -/
theorem PhysMem.get_rekey (m : PhysMem) (slot : KeyView) (pa a : Nat) : (m.rekey slot pa).get slot a = m.get slot a := by
  cases stored : encrypted pa with
  | false => simp [PhysMem.rekey, stored]
  | true =>
    by_cases same : a / 32 = pa / 32
    · have alike : encrypted a = true := (encrypted_of_sector same).trans stored
      have inSector : a = 32 * (pa / 32) + a % 32 := by omega
      have inside : a % 32 < (m.sector slot (pa / 32)).length := by rw [PhysMem.sector_length]; omega
      cases key : m.keyOf.find (pa / 32) with
      | none => simp [PhysMem.rekey, PhysMem.get, stored, same, key, AMap.find_put_same]
      | some k =>
        by_cases own : k = slot.num
        · simp [PhysMem.rekey, PhysMem.get, stored, key, own]
        · have written : (m.bytes.writeN (32 * (pa / 32)) (m.sector slot (pa / 32))).read a = (m.sector slot (pa / 32))[a % 32] := by
            conv_lhs => rw [inSector]
            exact Memory.read_writeN_inside _ _ _ _ inside
          simp [PhysMem.rekey, PhysMem.get, stored, same, key, own, AMap.find_put_same, alike, written, inside]
    · have other (n : Nat) : AMap.find (m.keyOf.put (pa / 32) n) (a / 32) = AMap.find m.keyOf (a / 32) := AMap.find_put_other _ (Ne.symm same) _
      have outside : 32 * (a / 32) + 32 ≤ 32 * (pa / 32) ∨ 32 * (pa / 32) + (m.sector slot (pa / 32)).length ≤ 32 * (a / 32) := by
        rw [PhysMem.sector_length]
        omega
      have kept : a < 32 * (pa / 32) ∨ 32 * (pa / 32) + (m.sector slot (pa / 32)).length ≤ a := by omega
      unfold PhysMem.rekey
      simp only [stored, Bool.not_true, Bool.false_eq_true, if_false]
      split
      · split
        · rfl
        · exact get_congr slot (other _) (Memory.read_writeN_outside _ _ _ _ kept) (Memory.readN_writeN_outside _ _ _ _ _ outside)
      · exact get_congr slot (other _) rfl rfl

/-- An encrypted sector that is written is one of the key that wrote it. -/
theorem PhysMem.key_rekey (m : PhysMem) (slot : KeyView) {pa : Nat} (stored : encrypted pa = true) :
    AMap.find (m.rekey slot pa).keyOf (pa / 32) = some slot.num := by
  unfold PhysMem.rekey
  simp only [stored, Bool.not_true, Bool.false_eq_true, if_false]
  split
  · next k found =>
    split
    · next own => rw [found, own]
    · exact AMap.find_put_same ..
  · exact AMap.find_put_same ..

theorem PhysMem.get_of_plain (m : PhysMem) (slot : KeyView) {a : Nat} (plain : encrypted a = false) : m.get slot a = m.bytes.read a := by
  unfold PhysMem.get
  split <;> simp [plain]

theorem PhysMem.get_of_own (m : PhysMem) (slot : KeyView) {a : Nat} (own : AMap.find m.keyOf (a / 32) = some slot.num) :
    m.get slot a = m.bytes.read a := by
  simp [PhysMem.get, own]

/-- A byte that has been written reads as itself under the key that wrote it. -/
theorem PhysMem.get_set_same (m : PhysMem) (slot : KeyView) (pa : Nat) (b : Byte) : (m.set slot pa b).get slot pa = b := by
  have written : (m.set slot pa b).bytes.read pa = b := Memory.read_write_same ..
  cases stored : encrypted pa with
  | false => rw [get_of_plain _ _ stored, written]
  | true => rw [get_of_own (m.set slot pa b) _ (m.key_rekey slot stored), written]

/-- A write of a byte leaves every other byte as the key reads it. -/
theorem PhysMem.get_set_other (m : PhysMem) (slot : KeyView) {pa a : Nat} (b : Byte) (other : pa ≠ a) :
    (m.set slot pa b).get slot a = m.get slot a := by
  rw [← m.get_rekey slot pa a]
  have byte : (m.set slot pa b).bytes.read a = (m.rekey slot pa).bytes.read a := Memory.read_write_other _ _ other
  cases stored : encrypted a with
  | false => rw [get_of_plain _ _ stored, get_of_plain _ _ stored, byte]
  | true =>
    by_cases same : a / 32 = pa / 32
    · have own : AMap.find (m.rekey slot pa).keyOf (a / 32) = some slot.num := by
        rw [same]
        exact m.key_rekey slot ((encrypted_of_sector same).symm.trans stored)
      rw [get_of_own _ _ own, get_of_own (m.set slot pa b) _ own, byte]
    · exact get_congr slot rfl byte (Memory.readN_writeN_outside [b] _ _ _ _ (by simp only [List.length_singleton]; omega))

theorem PhysMem.get_setCells_other (slot : KeyView) (cs : List Host.Cell) (m : PhysMem) {a : Nat} (other : a ∉ cs.map (fun c => c.1)) :
    (m.setCells slot cs).get slot a = m.get slot a := by
  induction cs generalizing m with
  | nil => rfl
  | cons c cs ih =>
    simp only [List.map_cons, List.mem_cons, not_or] at other
    exact (ih _ other.2).trans (m.get_set_other slot c.2 (Ne.symm other.1))

theorem PhysMem.get_setCells_same (slot : KeyView) (cs : List Host.Cell) (m : PhysMem) (apart : (cs.map (fun c => c.1)).Nodup) {c : Host.Cell}
    (mem : c ∈ cs) : (m.setCells slot cs).get slot c.1 = c.2 := by
  induction cs generalizing m with
  | nil => exact absurd mem List.not_mem_nil
  | cons d cs ih =>
    obtain ⟨first, rest⟩ := List.nodup_cons.1 apart
    rcases List.mem_cons.1 mem with rfl | mem
    · exact (get_setCells_other slot cs _ first).trans (m.get_set_same slot c.1 c.2)
    · exact ih _ rest mem

@[simp] theorem PhysMem.rekey_poison (m : PhysMem) (slot : KeyView) (pa : Nat) : (m.rekey slot pa).poison = m.poison := by
  unfold PhysMem.rekey
  split
  · rfl
  · dsimp only
    split
    · split <;> rfl
    · rfl

/-- A write poisons nothing. -/
theorem PhysMem.setCells_poison (slot : KeyView) (cs : List Host.Cell) (m : PhysMem) : (m.setCells slot cs).poison = m.poison := by
  induction cs generalizing m with
  | nil => rfl
  | cons c cs ih => exact (ih _).trans (m.rekey_poison slot c.1)

/-! ## A byte at its home slice (R227, R301) -/

/-- What a VD reads at a place: the byte, with its poison, as a command issued under a module number sees it (R417). -/
def State.homeByte (m : BitVec 9) (vd : Nat) (l : Loc) (s : State) : Except Nat (Byte × Bool) :=
  match (s.cache.home l.key).bind (fun x => x.get? l) with
  | some r => .ok r
  | none =>
    let e := (s.asModule m).paError vd l.pa
    if e ≠ 0 then .error e
    else if noRead l.pa then .error errRefused
    else .ok (s.mem.get (s.keySlot vd) l.pa, s.mem.bad l.pa)

theorem State.loadByte_asModule (m : BitVec 9) (vd : Nat) (l : Loc) (s : State) :
    (s.asModule m).loadByte vd l = match s.homeByte m vd l with
      | .error e => .error e
      | .ok (b, bad) => if bad then .error errPoison else .ok b := by
  have sameMem : (s.asModule m).mem.get ((s.asModule m).keySlot vd) l.pa = s.mem.get (s.keySlot vd) l.pa := rfl
  have sameBad : (s.asModule m).mem.bad l.pa = s.mem.bad l.pa := rfl
  have sameHome : (s.asModule m).cache.served none l.key = s.cache.home l.key := rfl
  unfold State.loadByte State.loadVia State.homeByte
  rw [sameHome, sameMem, sameBad]
  cases (s.cache.home l.key).bind (fun x => x.get? l) with
  | some r => rfl
  | none =>
    dsimp only
    split
    · rfl
    · split <;> rfl

/-- A place reads as it did, and is poisoned only where it was. -/
def State.Keeps (m : BitVec 9) (vd : Nat) (l : Loc) (s t : State) : Prop :=
  ∀ b p, s.homeByte m vd l = .ok (b, p) → ∃ q : Bool, t.homeByte m vd l = .ok (b, q) ∧ (q = true → p = true)

theorem State.Keeps.refl (m : BitVec 9) (vd : Nat) (l : Loc) (s : State) : State.Keeps m vd l s s := fun _ p read => ⟨p, read, id⟩

theorem State.Keeps.trans {m : BitVec 9} {vd : Nat} {l : Loc} {s t u : State} (first : State.Keeps m vd l s t) (second : State.Keeps m vd l t u) :
    State.Keeps m vd l s u := by
  intro b p read
  obtain ⟨q, read, less⟩ := first b p read
  obtain ⟨r, read, fewer⟩ := second b q read
  exact ⟨r, read, less ∘ fewer⟩

/-! ### Finding a home line -/

/-- A filter that drops nothing that is looked for. -/
theorem find?_filter_of_imp {α : Type} {p q : α → Bool} (keeps : ∀ x, p x = true → q x = true) (l : List α) :
    (l.filter q).find? p = l.find? p := by
  rw [List.find?_filter]
  congr 1
  funext x
  cases sought : p x with
  | false => simp
  | true => simp [keeps x sought]

/-- The home line of a tag that has been replaced. -/
theorem Cache.home_update_same (c : Cache) (l : Line) (home : l.replica = false) : (c.update l).home l.key = some l := by
  have gone : (c.lines.filter (fun m => !(m.key = l.key && !m.replica))).find? (fun m => m.key = l.key && !m.replica) = none := by
    rw [List.find?_eq_none]
    intro x mem
    have out := (List.mem_filter.1 mem).2
    rwa [Bool.not_eq_true, ← Bool.not_eq_true']
  rw [Cache.home, Cache.update, List.find?_append, gone]
  simp [home]

theorem Cache.home_update_other (c : Cache) {l : Line} {k : LineKey} (other : l.key ≠ k) : (c.update l).home k = c.home k := by
  rw [Cache.home, Cache.update, List.find?_append, find?_filter_of_imp]
  · simp [Cache.home, other]
  · intro x sought
    have key : x.key = k := by simpa using (Bool.and_eq_true_iff.1 sought).1
    simp [key, Ne.symm other]

theorem Cache.home_dropReplicas (c : Cache) (k x : LineKey) : (c.dropReplicas k).home x = c.home x := by
  refine find?_filter_of_imp ?_ _
  intro y sought
  have home : y.replica = false := by simpa using (Bool.and_eq_true_iff.1 sought).2
  simp [home]

theorem Cache.home_overwrite (c : Cache) (pas : List Nat) (x : LineKey) : (c.overwrite pas).home x = c.home x := by
  unfold Cache.overwrite
  split <;> rfl

theorem Cache.key_of_home {c : Cache} {k : LineKey} {l : Line} (found : c.home k = some l) : l.key = k ∧ l.replica = false := by
  have meets := List.find?_some found
  simpa using meets

/-! ### Storing cells -/

/-- The bytes of a part of a sector, and whether they are delivered as poison. -/
def LSector.bytes (p : Part) (t : LSector) : AMap Byte := if p = .cell then t.cells else t.side
def LSector.unfit (p : Part) (t : LSector) : Bool := if p = .cell then t.poison else t.poison || t.badSide

/-- A sector with cells of a part of it written. -/
def LSector.written (p : Part) (cs : List Host.Cell) (t : LSector) : LSector :=
  if p = .cell then
    { t with cells := cs.foldl (fun m c => AMap.put m c.1 c.2) t.cells, dirty := true, poison := t.poison && !wholeSector cs }
  else { t with side := cs.foldl (fun m c => AMap.put m c.1 c.2) t.side, dirty := true }

/-- A line with cells of a part of a sector written. -/
def Line.written (sect : Nat) (part : Part) (cs : List Host.Cell) (l : Line) : Line :=
  match part with
  | .band => { l with band := cs.foldl (fun m c => AMap.put m c.1 c.2) l.band, bandDirty := true }
  | p => { l with sects := l.sects.put sect (((l.sects.find sect).getD LSector.empty).written p cs) }

@[simp] theorem Line.written_key (l : Line) (sect : Nat) (part : Part) (cs : List Host.Cell) : (l.written sect part cs).key = l.key := by
  cases part <;> rfl

@[simp] theorem Line.written_replica (l : Line) (sect : Nat) (part : Part) (cs : List Host.Cell) :
    (l.written sect part cs).replica = l.replica := by
  cases part <;> rfl

/-- Backing memory with cells of a part of a sector written. -/
def PhysMem.stored (slot : KeyView) (part : Part) (cs : List Host.Cell) (m : PhysMem) : PhysMem :=
  let m := m.setCells slot cs
  if part = .cell && wholeSector cs then
    (match cs with
     | c :: _ => m.mark c.1 false
     | [] => m)
  else m

theorem State.storeCells_home {s : State} {k : LineKey} {l : Line} (found : s.cache.home k = some l) (vd sect : Nat) (part : Part)
    (cs : List Host.Cell) :
    s.storeCells vd k sect part cs =
      { s with cache := ((s.cache.dropReplicas k).overwrite (cs.map (fun c => c.1))).update (l.written sect part cs) } := by
  unfold State.storeCells
  simp only [Cache.home_overwrite, Cache.home_dropReplicas, found]
  cases part <;> rfl

theorem State.storeCells_memory {s : State} {k : LineKey} (absent : s.cache.home k = none) (vd sect : Nat) (part : Part) (cs : List Host.Cell) :
    s.storeCells vd k sect part cs =
      { s with
        mem := s.mem.stored (s.keySlot vd) part cs
        cache := (s.cache.dropReplicas k).overwrite (cs.map (fun c => c.1)) } := by
  unfold State.storeCells
  simp only [Cache.home_overwrite, Cache.home_dropReplicas, absent]
  rfl

end Sys2Proof.Machine

namespace Sys2Proof

theorem AMap.find_putCells_other {α : Type} (cs : List (Nat × α)) (m : AMap α) {a : Nat} (other : a ∉ cs.map (fun c => c.1)) :
    AMap.find (cs.foldl (fun m c => AMap.put m c.1 c.2) m) a = AMap.find m a := by
  induction cs generalizing m with
  | nil => rfl
  | cons c cs ih =>
    simp only [List.map_cons, List.mem_cons, not_or] at other
    exact (ih _ other.2).trans (AMap.find_put_other _ (Ne.symm other.1) m)

theorem AMap.find_putCells_same {α : Type} (cs : List (Nat × α)) (m : AMap α) (apart : (cs.map (fun c => c.1)).Nodup) {c : Nat × α} (mem : c ∈ cs) :
    AMap.find (cs.foldl (fun m c => AMap.put m c.1 c.2) m) c.1 = some c.2 := by
  induction cs generalizing m with
  | nil => exact absurd mem List.not_mem_nil
  | cons d cs ih =>
    obtain ⟨first, rest⟩ := List.nodup_cons.1 apart
    rcases List.mem_cons.1 mem with rfl | mem
    · exact (AMap.find_putCells_other cs _ first).trans (AMap.find_put_same c.1 c.2 m)
    · exact ih _ rest mem

end Sys2Proof

namespace Sys2Proof.Machine

/-! ### What a line holds -/

/-- The bytes of a line with their poison, at a place: of its band scale, or of a sector. -/
theorem Line.get?_band (l : Line) (k : LineKey) (sect pa : Nat) :
    l.get? ⟨k, sect, .band, pa⟩ = (AMap.find l.band pa).map (fun b => (b, l.badBand)) := rfl

theorem Line.get?_sector (l : Line) (k : LineKey) (sect : Nat) {p : Part} (inSector : p ≠ .band) (pa : Nat) :
    l.get? ⟨k, sect, p, pa⟩ = (l.sects.find sect).bind (fun t => (AMap.find (t.bytes p) pa).map (fun b => (b, t.unfit p))) := by
  cases p with
  | band => exact absurd rfl inSector
  | cell => cases found : l.sects.find sect <;> simp [Line.get?, found, LSector.bytes, LSector.unfit]
  | side => cases found : l.sects.find sect <;> simp [Line.get?, found, LSector.bytes, LSector.unfit]

theorem Line.written_band (l : Line) (sect : Nat) (cs : List Host.Cell) :
    l.written sect .band cs = { l with band := cs.foldl (fun m c => AMap.put m c.1 c.2) l.band, bandDirty := true } := rfl

theorem Line.written_sector (l : Line) (sect : Nat) {p : Part} (inSector : p ≠ .band) (cs : List Host.Cell) :
    l.written sect p cs = { l with sects := l.sects.put sect (((l.sects.find sect).getD LSector.empty).written p cs) } := by
  cases p with
  | band => exact absurd rfl inSector
  | cell => rfl
  | side => rfl

theorem LSector.bytes_written_same (t : LSector) {p : Part} (cs : List Host.Cell) :
    (t.written p cs).bytes p = cs.foldl (fun m c => AMap.put m c.1 c.2) (t.bytes p) := by
  unfold LSector.bytes LSector.written
  split <;> rfl

theorem LSector.find_written_other (t : LSector) (p q : Part) {cs : List Host.Cell} {a : Nat} (other : a ∉ cs.map (fun c => c.1)) :
    AMap.find ((t.written p cs).bytes q) a = AMap.find (t.bytes q) a := by
  unfold LSector.bytes LSector.written
  split
  · split
    · exact AMap.find_putCells_other cs _ other
    · rfl
  · split
    · rfl
    · exact AMap.find_putCells_other cs _ other

theorem LSector.unfit_written {t : LSector} {p q : Part} {cs : List Host.Cell} (bad : (t.written p cs).unfit q = true) : t.unfit q = true := by
  revert bad
  unfold LSector.unfit LSector.written
  cases t.poison <;> split <;> split <;> simp

@[simp] theorem LSector.bytes_empty (p : Part) : LSector.empty.bytes p = [] := by
  unfold LSector.bytes
  split <;> rfl

/-- What a place held it holds still, poisoned only where it was. -/
def Holds (a b : Option (Byte × Bool)) : Prop :=
  b.map (fun r => r.1) = a.map (fun r => r.1) ∧ (b.any (fun r => r.2) = true → a.any (fun r => r.2) = true)

theorem Holds.refl (a : Option (Byte × Bool)) : Holds a a := ⟨rfl, id⟩

theorem Holds.map (o : Option Byte) {p q : Bool} (less : q = true → p = true) : Holds (o.map (fun b => (b, p))) (o.map (fun b => (b, q))) := by
  cases o with
  | none => exact .refl _
  | some b => exact ⟨rfl, less⟩

theorem Holds.of_none {y : Option (Byte × Bool)} (holds : Holds none y) : y = none := by simpa using holds.1

theorem Holds.of_some {b : Byte} {p : Bool} {y : Option (Byte × Bool)} (holds : Holds (some (b, p)) y) :
    ∃ q, y = some (b, q) ∧ (q = true → p = true) := by
  obtain ⟨byte, less⟩ := holds
  cases y with
  | none => simp at byte
  | some r => exact ⟨r.2, by simp at byte; simp [← byte], by simpa using less⟩

/-- Cells written into a line leave every other byte of it. -/
theorem Line.get?_written_other (l : Line) (sect : Nat) (part : Part) {cs : List Host.Cell} {x : Loc} (other : x.pa ∉ cs.map (fun c => c.1)) :
    Holds (l.get? x) ((l.written sect part cs).get? x) := by
  obtain ⟨k, n, p, pa⟩ := x
  by_cases band : part = .band
  · subst band
    by_cases same : p = .band
    · subst same
      rw [Line.written_band, Line.get?_band, Line.get?_band, AMap.find_putCells_other cs _ other]
      exact .refl _
    · rw [Line.written_band, Line.get?_sector _ _ _ same, Line.get?_sector _ _ _ same]
      exact .refl _
  · rw [Line.written_sector _ _ band]
    by_cases same : p = .band
    · subst same
      exact .refl _
    · rw [Line.get?_sector _ _ _ same, Line.get?_sector _ _ _ same]
      by_cases here : sect = n
      · subst here
        rw [AMap.find_put_same, Option.bind_some, LSector.find_written_other _ _ _ other]
        cases AMap.find l.sects sect with
        | none => simpa [AMap.find] using Holds.refl none
        | some t => exact .map _ LSector.unfit_written
      · rw [AMap.find_put_other _ here]
        exact .refl _

/-- A cell written into a line is held there. -/
theorem Line.get?_written_same (l : Line) {cs : List Host.Cell} (apart : (cs.map (fun c => c.1)).Nodup) (k : LineKey) (sect : Nat) (part : Part)
    {c : Host.Cell} (mem : c ∈ cs) : ∃ bad, (l.written sect part cs).get? ⟨k, sect, part, c.1⟩ = some (c.2, bad) := by
  by_cases band : part = .band
  · subst band
    rw [Line.written_band, Line.get?_band, AMap.find_putCells_same cs _ apart mem]
    exact ⟨_, rfl⟩
  · rw [Line.written_sector _ _ band, Line.get?_sector _ _ _ band, AMap.find_put_same, Option.bind_some, LSector.bytes_written_same,
      AMap.find_putCells_same cs _ apart mem]
    exact ⟨_, rfl⟩

/-! ### What backing memory holds -/

theorem PhysMem.get_stored (slot : KeyView) (part : Part) (cs : List Host.Cell) (m : PhysMem) (a : Nat) :
    (m.stored slot part cs).get slot a = (m.setCells slot cs).get slot a := by
  unfold PhysMem.stored
  dsimp only
  split
  · split <;> rfl
  · rfl

theorem PhysMem.bad_of_stored {slot : KeyView} {part : Part} {cs : List Host.Cell} {m : PhysMem} {a : Nat}
    (bad : (m.stored slot part cs).bad a = true) : m.bad a = true := by
  have written : (m.setCells slot cs).bad a = m.bad a := by simp only [PhysMem.bad, setCells_poison]
  rw [← written]
  revert bad
  unfold PhysMem.stored
  dsimp only
  split
  · split
    · simp +contextual [PhysMem.mark, PhysMem.bad, setErase]
    · exact id
  · exact id

/-! ### What a place reads as after cells are stored -/

@[simp] theorem State.storeCells_svc (vd : Nat) (k : LineKey) (sect : Nat) (part : Part) (cs : List Host.Cell) (s : State) :
    (s.storeCells vd k sect part cs).svc = s.svc := by
  cases found : s.cache.home k with
  | none => rw [State.storeCells_memory found]
  | some l => rw [State.storeCells_home found]

/-- Whether an address is served, and the key it is read under, are the controllers' to say. -/
theorem State.paError_congr {s t : State} (same : t.svc = s.svc) (m : BitVec 9) (vd pa : Nat) :
    (t.asModule m).paError vd pa = (s.asModule m).paError vd pa := by
  have modules : (t.asModule m).svc = (s.asModule m).svc := by simp only [State.asModule, same]
  unfold State.paError State.keySel
  rw [modules]

theorem State.keySlot_congr {s t : State} (same : t.svc = s.svc) (vd : Nat) : t.keySlot vd = s.keySlot vd := by
  unfold State.keySlot State.keySel
  rw [same]

/-- A place that can be read: a line holds its tag, or its address may be read. -/
def State.Readable (l : Loc) (s : State) : Prop := (s.cache.home l.key).isSome = true ∨ noRead l.pa = false

theorem State.homeByte_of_line (m : BitVec 9) (vd : Nat) (l : Loc) {s : State} {x : Line} {r : Byte × Bool} (found : s.cache.home l.key = some x)
    (held : x.get? l = some r) : s.homeByte m vd l = .ok r := by
  simp [State.homeByte, found, held]

theorem State.homeByte_of_memory (m : BitVec 9) (vd : Nat) (l : Loc) {s : State} (absent : (s.cache.home l.key).bind (fun x => x.get? l) = none) :
    s.homeByte m vd l = if (s.asModule m).paError vd l.pa ≠ 0 then .error ((s.asModule m).paError vd l.pa)
      else if noRead l.pa then .error errRefused else .ok (s.mem.get (s.keySlot vd) l.pa, s.mem.bad l.pa) := by
  simp [State.homeByte, absent]

theorem State.home_storeCells (vd : Nat) (s : State) (k : LineKey) (sect : Nat) (part : Part) (cs : List Host.Cell) (x : LineKey) :
    (s.storeCells vd k sect part cs).cache.home x =
      if x = k then (s.cache.home k).map (fun l => l.written sect part cs) else s.cache.home x := by
  cases found : s.cache.home k with
  | none =>
    rw [State.storeCells_memory found, Cache.home_overwrite, Cache.home_dropReplicas]
    split
    · next same => rw [same, found, Option.map_none]
    · rfl
  | some l =>
    obtain ⟨key, home⟩ := Cache.key_of_home found
    have key' : (l.written sect part cs).key = k := key ▸ l.written_key sect part cs
    rw [State.storeCells_home found]
    split
    · next same =>
      rw [same, ← key', Cache.home_update_same _ _ ((l.written_replica sect part cs).trans home), Option.map_some]
    · next other =>
      rw [Cache.home_update_other _ (key' ▸ Ne.symm other), Cache.home_overwrite, Cache.home_dropReplicas]

theorem State.Readable.storeCells {s : State} {l : Loc} (readable : s.Readable l) (vd : Nat) (k : LineKey) (sect : Nat) (part : Part)
    (cs : List Host.Cell) : (s.storeCells vd k sect part cs).Readable l := by
  refine readable.imp_left fun found => ?_
  rw [State.home_storeCells]
  split
  · next same => rw [Option.isSome_map, ← same, found]
  · exact found

section
variable (m : BitVec 9) (vd : Nat) (s : State) (k : LineKey) (sect : Nat) (part : Part) {cs : List Host.Cell}

/-- What lines hold, but for the bytes that a store writes, they hold after it. -/
theorem State.storeCells_lines {l : Loc} (other : l.pa ∉ cs.map (fun c => c.1)) :
    Holds ((s.cache.home l.key).bind (fun x => x.get? l)) (((s.storeCells vd k sect part cs).cache.home l.key).bind (fun x => x.get? l)) := by
  rw [State.home_storeCells]
  split
  · next same =>
    rw [same]
    cases s.cache.home k with
    | none => exact .refl _
    | some x => exact x.get?_written_other sect part other
  · exact .refl _

/-- What backing memory holds, but for the bytes that a store writes, it holds after it. -/
theorem State.storeCells_backing {a : Nat} (other : a ∉ cs.map (fun c => c.1)) :
    (s.storeCells vd k sect part cs).mem.get (s.keySlot vd) a = s.mem.get (s.keySlot vd) a ∧
      ((s.storeCells vd k sect part cs).mem.bad a = true → s.mem.bad a = true) := by
  cases found : s.cache.home k with
  | some x =>
    rw [State.storeCells_home found]
    exact ⟨rfl, id⟩
  | none =>
    rw [State.storeCells_memory found]
    exact ⟨(PhysMem.get_stored ..).trans (PhysMem.get_setCells_other _ _ _ other), PhysMem.bad_of_stored⟩

/-- A store leaves every byte that it does not write. -/
theorem State.storeCells_keeps {l : Loc} (other : l.pa ∉ cs.map (fun c => c.1)) : State.Keeps m vd l s (s.storeCells vd k sect part cs) := by
  intro b p read
  have lines := s.storeCells_lines vd k sect part other
  obtain ⟨byte, poison⟩ := s.storeCells_backing vd k sect part other
  have served := State.paError_congr (s.storeCells_svc vd k sect part cs) m vd l.pa
  have slot := State.keySlot_congr (s.storeCells_svc vd k sect part cs) vd
  cases before : (s.cache.home l.key).bind (fun x => x.get? l) with
  | some r =>
    obtain rfl : r = (b, p) := by simpa [State.homeByte, before] using read
    obtain ⟨q, after, less⟩ := Holds.of_some (before ▸ lines)
    exact ⟨q, by simp [State.homeByte, after], less⟩
  | none =>
    rw [State.homeByte_of_memory m vd l before] at read
    rw [State.homeByte_of_memory m vd l (Holds.of_none (before ▸ lines)), served, slot, byte]
    split_ifs at read ⊢
    obtain ⟨rfl, rfl⟩ := by simpa using read
    exact ⟨_, rfl, poison⟩

/-- A cell that is stored reads as its byte, poisoned or not. -/
theorem State.homeByte_storeCells (apart : (cs.map (fun c => c.1)).Nodup) {c : Host.Cell} (mem : c ∈ cs)
    (served : (s.asModule m).paError vd c.1 = 0) (readable : s.Readable ⟨k, sect, part, c.1⟩) :
    ∃ bad, (s.storeCells vd k sect part cs).homeByte m vd ⟨k, sect, part, c.1⟩ = .ok (c.2, bad) := by
  cases found : s.cache.home k with
  | some x =>
    obtain ⟨bad, held⟩ := x.get?_written_same apart k sect part mem
    have home : (s.storeCells vd k sect part cs).cache.home k = some (x.written sect part cs) := by
      rw [State.home_storeCells, if_pos rfl, found, Option.map_some]
    exact ⟨bad, State.homeByte_of_line m vd ⟨k, sect, part, c.1⟩ home held⟩
  | none =>
    have home : (s.storeCells vd k sect part cs).cache.home k = none := by
      rw [State.home_storeCells, if_pos rfl, found, Option.map_none]
    have served' := (State.paError_congr (s.storeCells_svc vd k sect part cs) m vd c.1).trans served
    have reads : noRead c.1 = false := readable.resolve_left (by simp [found])
    have byte : (s.storeCells vd k sect part cs).mem.get ((s.storeCells vd k sect part cs).keySlot vd) c.1 = c.2 := by
      rw [State.keySlot_congr (s.storeCells_svc vd k sect part cs), State.storeCells_memory found]
      exact (PhysMem.get_stored ..).trans (PhysMem.get_setCells_same _ _ _ apart mem)
    rw [State.homeByte_of_memory m vd ⟨k, sect, part, c.1⟩ (by simp [home])]
    simp [served', reads, byte]

end

end Sys2Proof.Machine
end

section
/-! SUPPORT. A unit of a write performed at its home: what its bytes read as afterwards, and every other byte (R201, R205, R227). -/

namespace Sys2Proof.Machine

/-! ## Bytes that are written out, sector by sector (R227) -/

/-- The part of a sector of a line in which a byte lies. -/
def OutByte.group (x : OutByte) : LineKey × Nat × Part := (x.loc.key, x.loc.sect, x.loc.part)

/-- The cells of one part of a sector, among bytes to be written. -/
def groupCells (xs : List OutByte) (g : LineKey × Nat × Part) : List Host.Cell :=
  (xs.filter (fun x => x.loc.key = g.1 && x.loc.sect = g.2.1 && x.loc.part = g.2.2)).map (fun x => (x.loc.pa, x.byte))

/-- The cells of some parts of sectors are stored. -/
def State.storeGroups (vd : Nat) (xs : List OutByte) (gs : List (LineKey × Nat × Part)) (s : State) : State :=
  gs.foldl (fun s g => s.storeCells vd g.1 g.2.1 g.2.2 (groupCells xs g)) s

/-- The addresses of bytes to be written. -/
def outPas (xs : List OutByte) : List Nat := xs.map (fun x => x.loc.pa)

section
variable {xs : List OutByte}

theorem groupCells_pas (xs : List OutByte) (g : LineKey × Nat × Part) :
    ((groupCells xs g).map (fun c => c.1)).Sublist (outPas xs) := by
  rw [groupCells, List.map_map]
  exact List.Sublist.map (fun x : OutByte => x.loc.pa) List.filter_sublist

theorem mem_groupCells {x : OutByte} (mem : x ∈ xs) : (x.loc.pa, x.byte) ∈ groupCells xs x.group :=
  List.mem_map.2 ⟨x, List.mem_filter.2 ⟨mem, by simp [OutByte.group]⟩, rfl⟩

/-- A byte's address lies in its own group alone. -/
theorem eq_group_of_mem_groupCells (apart : (outPas xs).Nodup) {x : OutByte} (mem : x ∈ xs) {g : LineKey × Nat × Part}
    (inGroup : x.loc.pa ∈ (groupCells xs g).map (fun c => c.1)) : g = x.group := by
  simp only [groupCells, List.map_map, List.mem_map, List.mem_filter, Function.comp_apply, Bool.and_eq_true, decide_eq_true_eq] at inGroup
  obtain ⟨y, ⟨mem', ⟨key, sect⟩, part⟩, pa⟩ := inGroup
  obtain rfl : y = x := List.inj_on_of_nodup_map apart mem' mem pa
  exact Prod.ext key.symm (Prod.ext sect.symm part.symm)

theorem State.writeOut_of_sound (vd : Nat) (sound : ∀ x ∈ xs, x.bad = false) (s : State) :
    s.writeOut vd xs = s.storeGroups vd xs (xs.map OutByte.group).eraseDups := by
  unfold State.writeOut State.storeGroups
  refine List.foldl_ext _ _ _ fun t g _ => ?_
  have clean : (xs.filter (fun x => x.loc.key = g.1 && x.loc.sect = g.2.1 && x.loc.part = g.2.2)).find? (fun x => x.bad) = none := by
    rw [List.find?_eq_none]
    intro x mem
    simp [sound x (List.mem_of_mem_filter mem)]
  dsimp only
  rw [clean]
  rfl

section
variable (vd : Nat) (gs : List (LineKey × Nat × Part)) (s : State)

theorem State.storeGroups_svc : (s.storeGroups vd xs gs).svc = s.svc := by
  induction gs generalizing s with
  | nil => rfl
  | cons g gs ih => exact (ih _).trans (State.storeCells_svc ..)

theorem State.storeGroups_keeps (m : BitVec 9) {l : Loc} (other : l.pa ∉ outPas xs) : State.Keeps m vd l s (s.storeGroups vd xs gs) := by
  induction gs generalizing s with
  | nil => exact .refl m vd l s
  | cons g gs ih => exact (s.storeCells_keeps m vd _ _ _ (fun mem => other ((groupCells_pas xs g).subset mem))).trans (ih _)

/-- Each byte whose group is stored reads as it was written. -/
theorem State.homeByte_storeGroups (m : BitVec 9) (apart : (outPas xs).Nodup) {x : OutByte} (mem : x ∈ xs)
    (served : (s.asModule m).paError vd x.loc.pa = 0) (readable : s.Readable x.loc)
    (written : x.group ∈ gs ∨ ∃ bad, s.homeByte m vd x.loc = .ok (x.byte, bad)) :
    ∃ bad, (s.storeGroups vd xs gs).homeByte m vd x.loc = .ok (x.byte, bad) := by
  induction gs generalizing s with
  | nil => simpa [State.storeGroups] using written
  | cons g gs ih =>
    refine ih _ ((State.paError_congr (State.storeCells_svc ..) m vd _).trans served) (readable.storeCells ..) ?_
    by_cases own : g = x.group
    · subst own
      exact .inr (s.homeByte_storeCells m vd _ _ _ (apart.sublist (groupCells_pas xs _)) (mem_groupCells mem) served readable)
    · rcases written with later | ⟨bad, read⟩
      · exact .inl ((List.mem_cons.1 later).resolve_left (Ne.symm own))
      · obtain ⟨bad', read, -⟩ := s.storeCells_keeps m vd g.1 g.2.1 g.2.2
          (fun inGroup => own (eq_group_of_mem_groupCells apart mem inGroup)) x.byte bad read
        exact .inr ⟨bad', read⟩

end

section
variable (vd : Nat) (sound : ∀ x ∈ xs, x.bad = false) (s : State)
include sound

theorem State.writeOut_svc : (s.writeOut vd xs).svc = s.svc := by
  rw [State.writeOut_of_sound vd sound]
  exact State.storeGroups_svc ..

/-- Sound bytes that are written out leave every other byte as it reads. -/
theorem State.writeOut_keeps (m : BitVec 9) {l : Loc} (other : l.pa ∉ outPas xs) : State.Keeps m vd l s (s.writeOut vd xs) := by
  rw [State.writeOut_of_sound vd sound]
  exact State.storeGroups_keeps vd _ s m other

/-- Each of them reads as it was written. -/
theorem State.homeByte_writeOut (m : BitVec 9) (apart : (outPas xs).Nodup) {x : OutByte} (mem : x ∈ xs)
    (served : (s.asModule m).paError vd x.loc.pa = 0) (readable : s.Readable x.loc) :
    ∃ bad, (s.writeOut vd xs).homeByte m vd x.loc = .ok (x.byte, bad) := by
  rw [State.writeOut_of_sound vd sound]
  exact State.homeByte_storeGroups vd _ s m apart mem served readable
    (.inl (List.mem_eraseDups.2 (List.mem_map_of_mem mem)))

end
end

/-! ## Reductions, element by element (R201) -/

/-- Outcomes of a unit of a write that deliver bytes. -/
def Delivers (out : List (Except Nat (Src × OutByte))) (ys : List OutByte) : Prop :=
  out.map (fun r => r.map (fun p => p.2)) = ys.map Except.ok

theorem Delivers.length_eq {out : List (Except Nat (Src × OutByte))} {ys : List OutByte} (delivers : Delivers out ys) :
    out.length = ys.length := by
  simpa using congrArg List.length delivers

theorem Delivers.take {out : List (Except Nat (Src × OutByte))} {ys : List OutByte} (delivers : Delivers out ys) (n : Nat) :
    Delivers (out.take n) (ys.take n) := by
  rw [Delivers, List.map_take, List.map_take, delivers]

theorem Delivers.drop {out : List (Except Nat (Src × OutByte))} {ys : List OutByte} (delivers : Delivers out ys) (n : Nat) :
    Delivers (out.drop n) (ys.drop n) := by
  rw [Delivers, List.map_drop, List.map_drop, delivers]

theorem Delivers.nil_iff {ys : List OutByte} : Delivers [] ys ↔ ys = [] := by
  simp [Delivers, eq_comm]

theorem Delivers.cons_inv {r : Except Nat (Src × OutByte)} {out : List (Except Nat (Src × OutByte))} {ys : List OutByte}
    (delivers : Delivers (r :: out) ys) : ∃ x y zs, r = .ok (x, y) ∧ ys = y :: zs ∧ Delivers out zs := by
  cases ys with
  | nil => simp [Delivers] at delivers
  | cons y zs =>
    simp only [Delivers, List.map_cons, List.cons.injEq] at delivers
    obtain ⟨first, rest⟩ := delivers
    cases r with
    | error e => simp [Except.map] at first
    | ok p =>
      obtain rfl : p.2 = y := by simpa [Except.map] using first
      exact ⟨p.1, p.2, zs, rfl, rfl, rest⟩

/-- An element all of whose bytes are delivered. -/
theorem Delivers.elemBytes {out : List (Except Nat (Src × OutByte))} {ys : List OutByte} (delivers : Delivers out ys) :
    elemBytes out = some ys := by
  induction out generalizing ys with
  | nil => rw [Delivers.nil_iff.1 delivers]; rfl
  | cons r out ih =>
    obtain ⟨x, y, zs, rfl, rfl, rest⟩ := delivers.cons_inv
    rw [Machine.elemBytes, ih rest, Option.map_some]

theorem allOk_map_ok (bs : List Byte) : allOk (bs.map Except.ok) = .ok bs := by
  induction bs with
  | nil => rfl
  | cons b bs ih => simp [allOk, ih]

/-- An element of a tensor with its new value. -/
def redBytes (c : Cmd) (t : Target) (n : Nat) (ys : List OutByte) (old : List Byte) : List OutByte :=
  (ys.zip (toBytes n (redElem c.r.redOp t.desc.fmt (ofBytes old) (ofBytes (ys.map (fun y => y.byte)))))).map
    (fun z => { z.1 with byte := z.2 })

section
variable (c : Cmd) (t : Target) (n : Nat) (ys : List OutByte) (old : List Byte)

theorem redBytes_sound (sound : ∀ y ∈ ys, y.bad = false) : ∀ y ∈ redBytes c t n ys old, y.bad = false := by
  intro y mem
  obtain ⟨z, inZip, rfl⟩ := List.mem_map.1 mem
  exact sound z.1 (List.of_mem_zip inZip).1

theorem redBytes_pas {ys : List OutByte} (fits : ys.length ≤ n) : outPas (redBytes c t n ys old) = outPas ys := by
  have firsts := congrArg (List.map (fun y : OutByte => y.loc.pa))
    (List.map_fst_zip (l₁ := ys) (l₂ := toBytes n (redElem c.r.redOp t.desc.fmt (ofBytes old) (ofBytes (ys.map (fun y => y.byte)))))
      (by rw [toBytes_length]; exact fits))
  rw [outPas, redBytes, List.map_map]
  rw [List.map_map] at firsts
  exact firsts

end

section
variable (c : Cmd) (t : Target) {n fuel e : Nat} {out : List (Except Nat (Src × OutByte))} {ys : List OutByte} (delivers : Delivers out ys)
  (left : out ≠ []) (s : State)
include delivers left

/-- An element whose bytes can be read is written anew. -/
theorem State.redOut_of_loads {old : List Byte}
    (loads : (ys.take n).map (fun y => (s.asModule c.modid).loadByte t.vd y.loc) = old.map Except.ok) :
    State.redOut c t n (fuel + 1) out e s = State.redOut c t n fuel (out.drop n) e (s.writeOut t.vd (redBytes c t n (ys.take n) old)) := by
  obtain ⟨r, rest, rfl⟩ := List.exists_cons_of_ne_nil left
  simp only [State.redOut, (delivers.take n).elemBytes, loads, allOk_map_ok]
  rfl

/-- An element is written anew or left. -/
theorem State.redOut_step : ∃ d s', State.redOut c t n (fuel + 1) out e s = State.redOut c t n fuel (out.drop n) d s' ∧
    (s' = s ∨ ∃ old, s' = s.writeOut t.vd (redBytes c t n (ys.take n) old)) := by
  obtain ⟨r, rest, rfl⟩ := List.exists_cons_of_ne_nil left
  simp only [State.redOut, (delivers.take n).elemBytes]
  split
  · exact ⟨_, s, rfl, .inl rfl⟩
  · exact ⟨_, _, rfl, .inr ⟨_, rfl⟩⟩

end

/-- A byte that a VD reads is at its home slice, sound. -/
theorem State.homeByte_of_loadByte {m : BitVec 9} {vd : Nat} {l : Loc} {s : State} {b : Byte} (read : (s.asModule m).loadByte vd l = .ok b) :
    s.homeByte m vd l = .ok (b, false) := by
  rw [State.loadByte_asModule] at read
  cases home : s.homeByte m vd l with
  | error e => simp [home] at read
  | ok r =>
    obtain ⟨c, bad⟩ := r
    cases bad with
    | true => simp [home] at read
    | false => simpa [home] using read

theorem State.loadByte_of_homeByte {m : BitVec 9} {vd : Nat} {l : Loc} {s : State} {b : Byte} {bad : Bool}
    (home : s.homeByte m vd l = .ok (b, bad)) : (s.asModule m).loadByte vd l = if bad then .error errPoison else .ok b := by
  rw [State.loadByte_asModule, home]

theorem State.readable_of_loadByte {m : BitVec 9} {vd : Nat} {l : Loc} {s : State} {b : Byte} (read : (s.asModule m).loadByte vd l = .ok b) :
    s.Readable l := by
  have home := State.homeByte_of_loadByte read
  by_cases resident : (s.cache.home l.key).isSome = true
  · exact .inl resident
  · refine .inr ?_
    have absent : s.cache.home l.key = none := by simpa using resident
    rw [State.homeByte_of_memory m vd l (by simp [absent])] at home
    split_ifs at home with _ refused
    simpa using refused

/-- A byte that a VD reads it reads on, where its place is kept. -/
theorem State.Keeps.loadByte {m : BitVec 9} {vd : Nat} {l : Loc} {s t : State} (keeps : State.Keeps m vd l s t) {b : Byte}
    (read : (s.asModule m).loadByte vd l = .ok b) : (t.asModule m).loadByte vd l = .ok b := by
  obtain ⟨q, home, less⟩ := keeps b false (State.homeByte_of_loadByte read)
  obtain rfl : q = false := by simpa using less
  rw [State.loadByte_of_homeByte home]
  rfl

/-- A step of an update leaves the bytes of other elements. -/
theorem State.redStep_keeps (c : Cmd) (t : Target) (m : BitVec 9) {n : Nat} {ys : List OutByte} (sound : ∀ y ∈ ys, y.bad = false) {s s' : State}
    (step : s' = s ∨ ∃ old, s' = s.writeOut t.vd (redBytes c t n (ys.take n) old)) :
    s'.svc = s.svc ∧ ∀ l : Loc, l.pa ∉ outPas (ys.take n) → State.Keeps m t.vd l s s' := by
  rcases step with rfl | ⟨old, rfl⟩
  · exact ⟨rfl, fun l _ => .refl m t.vd l s'⟩
  · have good := redBytes_sound c t n (ys.take n) old (fun y mem => sound y (List.mem_of_mem_take mem))
    refine ⟨s.writeOut_svc t.vd good, fun l other => s.writeOut_keeps t.vd good m ?_⟩
    rwa [redBytes_pas c t n old (List.length_take_le ..)]

/-- An update leaves every byte that is not in one of its elements. -/
theorem State.redOut_keeps (c : Cmd) (t : Target) (m : BitVec 9) (n fuel : Nat) {out : List (Except Nat (Src × OutByte))} {ys : List OutByte}
    (delivers : Delivers out ys) (sound : ∀ y ∈ ys, y.bad = false) (e : Nat) (s : State) {l : Loc} (other : l.pa ∉ outPas ys) :
    State.Keeps m t.vd l s (State.redOut c t n fuel out e s).1 := by
  induction fuel generalizing out ys e s with
  | zero => exact .refl m t.vd l s
  | succ fuel ih =>
    by_cases done : out = []
    · subst done
      exact .refl m t.vd l s
    · obtain ⟨d, s', rest, step⟩ := State.redOut_step c t (n := n) (fuel := fuel) (e := e) delivers done s
      rw [rest]
      have now := (State.redStep_keeps c t m sound step).2 l (fun mem => other (List.map_subset _ (List.take_subset n ys) mem))
      exact now.trans (ih (delivers.drop n) (fun y mem => sound y (List.mem_of_mem_drop mem)) d s'
        (fun mem => other (List.map_subset _ (List.drop_subset n ys) mem)))

/-- Elements of bytes at addresses of their own do not meet. -/
theorem outPas_take_drop {ys : List OutByte} (apart : (outPas ys).Nodup) (n : Nat) :
    (outPas (ys.take n)).Nodup ∧ (outPas (ys.drop n)).Nodup ∧ ∀ pa ∈ outPas (ys.take n), pa ∉ outPas (ys.drop n) := by
  have halves : (outPas (ys.take n) ++ outPas (ys.drop n)).Nodup := by
    rwa [outPas, outPas, ← List.map_append, List.take_append_drop]
  obtain ⟨first, rest, between⟩ := List.nodup_append'.1 halves
  exact ⟨first, rest, fun pa mem => between mem⟩

theorem exists_loc_of_mem_redBytes {c : Cmd} {t : Target} {n : Nat} {ys : List OutByte} {old : List Byte} {y : OutByte}
    (mem : y ∈ redBytes c t n ys old) : ∃ z ∈ ys, z.loc = y.loc := by
  obtain ⟨z, inZip, rfl⟩ := List.mem_map.1 mem
  exact ⟨z.1, (List.of_mem_zip inZip).1, rfl⟩

theorem exists_byte_of_loads {m : BitVec 9} {vd : Nat} {s : State} {ys : List OutByte} {old : List Byte}
    (loads : ys.map (fun y => (s.asModule m).loadByte vd y.loc) = old.map Except.ok) {y : OutByte} (mem : y ∈ ys) :
    ∃ b, (s.asModule m).loadByte vd y.loc = .ok b := by
  have inLoads := List.mem_map_of_mem (f := fun y : OutByte => (s.asModule m).loadByte vd y.loc) mem
  rw [loads] at inLoads
  obtain ⟨b, -, eq⟩ := List.mem_map.1 inLoads
  exact ⟨b, eq.symm⟩

section
variable (c : Cmd) (t : Target) {n fuel : Nat} {out : List (Except Nat (Src × OutByte))} {ys : List OutByte} (delivers : Delivers out ys)
  (sound : ∀ y ∈ ys, y.bad = false) (apart : (outPas ys).Nodup)
include delivers sound apart

/-- Each byte of the first element, if that could be read, reads as the byte of its new value. -/
theorem State.homeByte_redOut_first (left : out ≠ []) (e : Nat) (s : State)
    (served : ∀ y ∈ ys, (s.asModule c.modid).paError t.vd y.loc.pa = 0) {old : List Byte}
    (loads : (ys.take n).map (fun y => (s.asModule c.modid).loadByte t.vd y.loc) = old.map Except.ok) {y : OutByte}
    (mem : y ∈ redBytes c t n (ys.take n) old) :
    ∃ bad, (State.redOut c t n (fuel + 1) out e s).1.homeByte c.modid t.vd y.loc = .ok (y.byte, bad) := by
  obtain ⟨first, -, between⟩ := outPas_take_drop apart n
  have pas := redBytes_pas c t n old (List.length_take_le n ys)
  have good := redBytes_sound c t n (ys.take n) old (fun y mem => sound y (List.mem_of_mem_take mem))
  obtain ⟨z, inElement, place⟩ := exists_loc_of_mem_redBytes mem
  obtain ⟨b, read⟩ := exists_byte_of_loads loads inElement
  have written := s.homeByte_writeOut t.vd good c.modid (pas ▸ first) mem (place ▸ served z (List.mem_of_mem_take inElement))
    (place ▸ State.readable_of_loadByte read)
  obtain ⟨bad, written⟩ := written
  have kept := State.redOut_keeps c t c.modid n fuel (delivers.drop n) (fun y mem => sound y (List.mem_of_mem_drop mem)) e
    (s.writeOut t.vd (redBytes c t n (ys.take n) old)) (l := y.loc)
    (between _ (pas ▸ List.mem_map_of_mem (f := fun y : OutByte => y.loc.pa) mem))
  obtain ⟨bad', after, -⟩ := kept _ _ written
  rw [State.redOut_of_loads c t delivers left s loads]
  exact ⟨bad', after⟩

/-- Each byte of an element that could be read reads as the byte of the element's new value. -/
theorem State.homeByte_redOut (bytes : 0 < n) (k : Nat) (enough : k < fuel) (inside : n * (k + 1) ≤ ys.length) (e : Nat) (s : State)
    (served : ∀ y ∈ ys, (s.asModule c.modid).paError t.vd y.loc.pa = 0) {old : List Byte}
    (loads : ((ys.drop (n * k)).take n).map (fun y => (s.asModule c.modid).loadByte t.vd y.loc) = old.map Except.ok) {y : OutByte}
    (mem : y ∈ redBytes c t n ((ys.drop (n * k)).take n) old) :
    ∃ bad, (State.redOut c t n fuel out e s).1.homeByte c.modid t.vd y.loc = .ok (y.byte, bad) := by
  induction k generalizing fuel out ys e s with
  | zero =>
    obtain ⟨fuel, rfl⟩ : ∃ f, fuel = f + 1 := ⟨fuel - 1, by omega⟩
    have left : out ≠ [] := by
      rintro rfl
      rw [Delivers.nil_iff.1 delivers, List.length_nil] at inside
      omega
    exact State.homeByte_redOut_first c t delivers sound apart left e s served loads mem
  | succ k ih =>
    obtain ⟨fuel, rfl⟩ : ∃ f, fuel = f + 1 := ⟨fuel - 1, by omega⟩
    have left : out ≠ [] := by
      rintro rfl
      rw [Delivers.nil_iff.1 delivers, List.length_nil, Nat.mul_succ] at inside
      omega
    have later : ys.drop (n * (k + 1)) = (ys.drop n).drop (n * k) := by rw [List.drop_drop, Nat.mul_succ, Nat.add_comm]
    rw [later] at loads mem
    obtain ⟨-, rest, between⟩ := outPas_take_drop apart n
    obtain ⟨d, s', next, step⟩ := State.redOut_step c t (n := n) (fuel := fuel) (e := e) delivers left s
    obtain ⟨svc, keeps⟩ := State.redStep_keeps c t c.modid sound step
    have inRest {y : OutByte} (mem : y ∈ ((ys.drop n).drop (n * k)).take n) : y ∈ ys.drop n := List.mem_of_mem_drop (List.mem_of_mem_take mem)
    have loads' : (((ys.drop n).drop (n * k)).take n).map (fun y => (s'.asModule c.modid).loadByte t.vd y.loc) = old.map Except.ok := by
      rw [← loads]
      refine List.map_congr_left fun y mem => ?_
      obtain ⟨b, read⟩ := exists_byte_of_loads loads mem
      rw [read]
      exact (keeps y.loc fun inFirst => between _ inFirst (List.mem_map_of_mem (inRest mem))).loadByte read
    rw [next]
    exact ih (delivers.drop n) (fun y mem => sound y (List.mem_of_mem_drop mem)) rest (by omega)
      (by rw [List.length_drop]; rw [Nat.mul_succ] at inside; omega) d s'
      (fun y mem => (State.paError_congr svc c.modid t.vd _).trans (served y (List.mem_of_mem_drop mem))) loads' mem

end

/-! ## A unit of a write (R191, R192, R205) -/

/-- Whether a source byte has a place in memory: it lies in the tensor, and is no band scale of a tile of fewer than 64 rows. -/
def Src.placed (d : Desc) (x : Src) : Bool :=
  match x with
  | .zero => false
  | .band _ _ _ => d.tr = 64
  | _ => true

/-- The outcome of a source byte that has a place: what is to be written there, or why it cannot be. -/
def State.outByte (s : State) (c : Cmd) (t : Target) (z : Nat × Src) : Option (Except Nat (Src × OutByte)) :=
  match s.resolve t c.xlat true z.2 with
  | .error e => some (.error e)
  | .ok none => none
  | .ok (some l) =>
    if (s.asModule c.modid).paError t.vd l.pa ≠ 0 then some (.error ((s.asModule c.modid).paError t.vd l.pa))
    else some (.ok (z.2, ⟨l, (s.localByte c (c.base + z.1)).1, (s.localByte c (c.base + z.1)).2⟩))

theorem State.outBytes_eq (s : State) (c : Cmd) (t : Target) (zs : List (Nat × Src)) :
    s.outBytes c t (fun _ => false) zs = (zs.filter (fun z => z.2.placed t.desc)).filterMap (s.outByte c t) := by
  rw [List.filterMap_filter, State.outBytes]
  refine List.filterMap_congr fun z _ => ?_
  obtain ⟨o, x⟩ := z
  cases x <;> by_cases rows : t.desc.tr = 64 <;> simp [Src.placed, State.outByte, rows] <;> rfl

/-- The byte that is to be written at a place, from a sound word of local memory. -/
def soundByte (y : Loc × Byte) : OutByte := ⟨y.1, y.2, false⟩

/-- Bytes of local memory all of which have a place and are sound. -/
theorem delivers_of_resolved {s : State} {c : Cmd} {t : Target} (own : c.payload = none) (device : t.vd = c.vd) {zs : List (Nat × Src)}
    {w : List (Loc × Byte)} (clean : ∀ z ∈ zs, s.poisonAt (c.base + z.1) 1 = none)
    (places : zs.map (fun z => (s.resolve t c.xlat true z.2, (s.readLocal (c.base + z.1) 1).headD 0)) = w.map (fun y => (Except.ok (some y.1), y.2)))
    (served : ∀ y ∈ w, (s.asModule c.modid).paError c.vd y.1.pa = 0) : Delivers (zs.filterMap (s.outByte c t)) (w.map soundByte) := by
  induction zs generalizing w with
  | nil =>
    obtain rfl : w = [] := by simpa using places.symm
    rfl
  | cons z zs ih =>
    cases w with
    | nil => simp at places
    | cons y w =>
      simp only [List.map_cons, List.cons.injEq, Prod.mk.injEq] at places
      obtain ⟨⟨place, byte⟩, rest⟩ := places
      have source : s.localByte c (c.base + z.1) = (y.2, false) := by
        simp only [State.localByte, own, clean z (List.mem_cons_self ..), byte, Option.isSome_none]
      have first : s.outByte c t z = some (.ok (z.2, soundByte y)) := by
        simp [State.outByte, place, device, served y (List.mem_cons_self ..), source, soundByte]
      have others := ih (fun z mem => clean z (List.mem_cons_of_mem _ mem)) rest (fun y mem => served y (List.mem_cons_of_mem _ mem))
      rw [List.filterMap_cons, first, Delivers]
      simpa [Except.map, Delivers] using others

theorem Cmd.target_vd {c : Cmd} {t : Target} (target : c.target = some t) : t.vd = c.vd := by
  obtain ⟨d, -, rfl⟩ := Option.map_eq_some_iff.1 target
  rfl

/-- The bytes that are delivered. -/
theorem Delivers.good {out : List (Except Nat (Src × OutByte))} {ys : List OutByte} (delivers : Delivers out ys) :
    (out.filterMap (fun r => match r with
      | .ok p => some p
      | .error _ => none)).map (fun p => p.2) = ys := by
  induction out generalizing ys with
  | nil => rw [Delivers.nil_iff.1 delivers]; rfl
  | cons r out ih =>
    obtain ⟨x, y, zs, rfl, rfl, rest⟩ := delivers.cons_inv
    exact congrArg (y :: ·) (ih rest)

/-- Whether a write command is an update (R201). -/
def Cmd.Updates (c : Cmd) : Prop := c.kind = .red ∨ (c.kind = .cpyst ∧ c.r.redOp ≠ 0)

section
variable {s : State} {c : Cmd} {x : Target} {u : Nat} {w : List (Loc × Byte)} (target : c.target = some x) (own : c.payload = none)
  (writes : s.UnitWrites c x u w)
include target own writes

/-- What a unit is to write is delivered. -/
theorem State.UnitWrites.delivers : Delivers (s.outBytes c x (fun _ => false) (c.unitSrc u)) (w.map soundByte) := by
  obtain ⟨clean, places, served, -⟩ := writes
  rw [State.outBytes_eq]
  exact delivers_of_resolved own (Cmd.target_vd target) clean places served

/-- An update reads its elements and writes them anew. -/
theorem State.UnitWrites.performUnit_update (updates : c.Updates) :
    ∃ e, (s.performUnit c u (fun _ => false)).1 = (State.redOut c x (fmtBits x.desc.fmt / 8) w.length
      (s.outBytes c x (fun _ => false) (c.unitSrc u)) e (s.countLines (s.unitLines c u))).1 := by
  have count : (s.outBytes c x (fun _ => false) (c.unitSrc u)).length = w.length :=
    (writes.delivers target own).length_eq.trans (List.length_map ..)
  have update : (decide (c.kind = .red) || decide (c.kind = .cpyst) && decide (c.r.redOp ≠ 0)) = true := by
    simpa [Cmd.Updates] using updates
  simp only [State.performUnit, target, update, if_true, count]
  exact ⟨_, rfl⟩

/-- Any other write writes its bytes out. -/
theorem State.UnitWrites.performUnit_write (plain : ¬ c.Updates) :
    (s.performUnit c u (fun _ => false)).1 = (s.countLines (s.unitLines c u)).writeOut x.vd (w.map soundByte) := by
  have write : (decide (c.kind = .red) || decide (c.kind = .cpyst) && decide (c.r.redOp ≠ 0)) = false := by
    simpa [Cmd.Updates] using plain
  have good := (writes.delivers target own).good
  simp only [State.performUnit, target, write]
  rw [← good]
  rfl

end

/-! ### What memory holds after a unit -/

@[simp] theorem State.countAt_svc (ks : List (Nat × LineKey)) (s : State) : (s.countAt ks).svc = s.svc := by
  induction ks generalizing s with
  | nil => rfl
  | cons k ks ih => exact ih _

theorem outPas_soundByte (w : List (Loc × Byte)) : outPas (w.map soundByte) = w.map (fun y => y.1.pa) := by
  rw [outPas, List.map_map]
  rfl

theorem soundByte_sound (w : List (Loc × Byte)) : ∀ y ∈ w.map soundByte, y.bad = false := by
  rintro _ mem
  obtain ⟨y, -, rfl⟩ := List.mem_map.1 mem
  rfl

/-- A command reads a byte where a state holds it, poisoned or not. -/
theorem State.byteFor_of_homeByte {s : State} {c : Cmd} {l : Loc} {b : Byte} (held : ∃ bad, s.homeByte c.modid c.vd l = .ok (b, bad)) :
    s.byteFor c l = .ok b ∨ s.byteFor c l = .error errPoison := by
  obtain ⟨bad, home⟩ := held
  rw [State.byteFor, State.loadByte_of_homeByte home]
  cases bad with
  | false => exact .inl rfl
  | true => exact .inr rfl

section
variable {s : State} {c : Cmd} {x : Target} {u : Nat} {w : List (Loc × Byte)} (target : c.target = some x) (own : c.payload = none)
  (writes : s.UnitWrites c x u w)
include target own writes

/-- Every byte of memory that a unit does not write, and that could be read, reads as before. -/
theorem State.UnitWrites.byteFor_other {l : Loc} {v : Byte} (other : l.pa ∉ w.map (fun y => y.1.pa))
    (read : (s.countLines (s.unitLines c u)).byteFor c l = .ok v) : (s.performUnit c u (fun _ => false)).1.byteFor c l = .ok v := by
  have outside : l.pa ∉ outPas (w.map soundByte) := outPas_soundByte w ▸ other
  have device := Cmd.target_vd target
  refine State.Keeps.loadByte ?_ read
  rw [← device]
  by_cases updates : c.Updates
  · obtain ⟨e, performed⟩ := writes.performUnit_update target own updates
    rw [performed]
    exact State.redOut_keeps c x c.modid _ _ (writes.delivers target own) (soundByte_sound w) e _ outside
  · rw [writes.performUnit_write target own updates]
    exact State.writeOut_keeps x.vd (soundByte_sound w) _ c.modid outside

/-- Each byte that a write other than an update writes reads as its source byte. -/
theorem State.UnitWrites.byteFor_written (plain : ¬ c.Updates) {y : Loc × Byte} (mem : y ∈ w) (reads : noRead y.1.pa = false) :
    (s.performUnit c u (fun _ => false)).1.byteFor c y.1 = .ok y.2 ∨ (s.performUnit c u (fun _ => false)).1.byteFor c y.1 = .error errPoison := by
  obtain ⟨-, -, served, apart⟩ := id writes
  have device := Cmd.target_vd target
  refine State.byteFor_of_homeByte ?_
  rw [writes.performUnit_write target own plain, ← device]
  exact State.homeByte_writeOut x.vd (soundByte_sound w) _ c.modid (outPas_soundByte w ▸ apart) (List.mem_map_of_mem (f := soundByte) mem)
    ((State.paError_congr (State.countAt_svc ..) ..).trans (device ▸ served y mem)) (.inr reads)

/-- Each byte of an element that an update meets readable reads as the byte of the element's new value. -/
theorem State.UnitWrites.byteFor_updated (updates : c.Updates) {n : Nat} (size : n = fmtBits x.desc.fmt / 8) (bytes : 0 < n) {e : Nat} {old : List Byte}
    (inside : n * (e + 1) ≤ w.length)
    (loads : ((w.drop (n * e)).take n).map (fun y => (s.countLines (s.unitLines c u)).byteFor c y.1) = old.map Except.ok) {y : (Loc × Byte) × Byte}
    (mem : y ∈ ((w.drop (n * e)).take n).zip
      (toBytes n (redElem c.r.redOp x.desc.fmt (ofBytes old) (ofBytes (((w.drop (n * e)).take n).map (fun y => y.2)))))) :
    (s.performUnit c u (fun _ => false)).1.byteFor c y.1.1 = .ok y.2 ∨
      (s.performUnit c u (fun _ => false)).1.byteFor c y.1.1 = .error errPoison := by
  obtain ⟨-, -, served, apart⟩ := id writes
  have device := Cmd.target_vd target
  obtain ⟨d, performed⟩ := writes.performUnit_update target own updates
  have shape (k : Nat) : ((w.map soundByte).drop k).take n = ((w.drop k).take n).map soundByte := by rw [List.map_take, List.map_drop]
  refine State.byteFor_of_homeByte ?_
  rw [performed, ← device, ← size]
  refine State.homeByte_redOut c x (writes.delivers target own) (soundByte_sound w) (outPas_soundByte w ▸ apart) bytes e ?_ ?_ d _ ?_ (old := old)
    (y := { soundByte y.1 with byte := y.2 }) ?_ ?_
  · exact lt_of_lt_of_le (Nat.lt_succ_self e) ((Nat.le_mul_of_pos_left _ bytes).trans inside)
  · rwa [List.length_map]
  · rintro _ inUnit
    obtain ⟨z, written, rfl⟩ := List.mem_map.1 inUnit
    exact (State.paError_congr (State.countAt_svc ..) ..).trans (device ▸ served z written)
  · rw [shape, List.map_map, ← loads, device]
    rfl
  · rw [redBytes, shape, List.map_map, List.zip_map_left]
    exact List.mem_map.2 ⟨_, List.mem_map_of_mem (f := Prod.map soundByte id) mem, rfl⟩

end

end Sys2Proof.Machine
end

section
/-! SUPPORT. The updates of R201 on elements of a format, by kind of element. -/

namespace Sys2Proof.Machine

/-! ## The order of values (R176) -/

theorem Val.lt_irrefl (v : Val) : v.lt v = false := by
  cases v <;> simp [Val.lt]

theorem Val.lt_asymm {u v : Val} (less : u.lt v = true) : v.lt u = false := by
  cases u <;> cases v <;> simp only [Val.lt, Bool.and_eq_true, Bool.not_eq_true', decide_eq_true_eq, decide_eq_false_iff_not, reduceCtorEq] at less ⊢
  case inf.inf => simp [less]
  case inf.fin => simp [less]
  case fin.inf => exact less
  case fin.fin => exact less.not_gt

/-! ## Integers -/

theorem truncInt_eq_toNat (w : Nat) (v : Int) : truncInt w v = (BitVec.ofInt w v).toNat := by
  rw [BitVec.toNat_ofInt, truncInt]
  push_cast
  rfl

section
variable {f : Nat} (int : isInt f = true) (old x : Nat)
include int

theorem fmtBits_pos_of_isInt : 0 < fmtBits f := by
  have range : 8 ≤ f ∧ f ≤ 10 := by simpa [isInt] using int
  obtain ⟨low, high⟩ := range
  interval_cases f <;> decide

/-- Additions of integers wrap. -/
theorem redElem_add_int : redElem 1 f old x = (BitVec.ofNat (fmtBits f) old + BitVec.ofNat (fmtBits f) x).toNat := by
  have pos := fmtBits_pos_of_isInt int
  simp only [redElem, int, if_true, truncInt_eq_toNat, sextNat_eq_toInt pos, BitVec.ofInt_add, BitVec.ofInt_toInt]

theorem redElem_min_int : (BitVec.ofNat (fmtBits f) (redElem 2 f old x)).toInt =
    min (BitVec.ofNat (fmtBits f) old).toInt (BitVec.ofNat (fmtBits f) x).toInt := by
  have pos := fmtBits_pos_of_isInt int
  simp only [redElem, int, if_true, sextNat_eq_toInt pos]
  split
  · next less => exact (min_eq_right less.le).symm
  · next more => exact (min_eq_left (not_lt.1 more)).symm

theorem redElem_max_int : (BitVec.ofNat (fmtBits f) (redElem 3 f old x)).toInt =
    max (BitVec.ofNat (fmtBits f) old).toInt (BitVec.ofNat (fmtBits f) x).toInt := by
  have pos := fmtBits_pos_of_isInt int
  simp only [redElem, int, if_true, sextNat_eq_toInt pos]
  split
  · next less => exact (max_eq_right less.le).symm
  · next more => exact (max_eq_left (not_lt.1 more)).symm

end

/-! ## Floating-point numbers -/

section
variable {f : Nat} (float : isInt f = false) (old x : Nat)
include float

theorem redElem_nan (nan : ((floatFmt f).decode old).isNan = true ∨ ((floatFmt f).decode x).isNan = true) :
    redElem 2 f old x = (floatFmt f).canonNan ∧ redElem 3 f old x = (floatFmt f).canonNan := by
  have either : (((floatFmt f).decode old).isNan || ((floatFmt f).decode x).isNan) = true := by simpa using nan
  simp [redElem, float, either]

/-- The minimum is one of the operands, and neither is less. -/
theorem redElem_min_float (number : ((floatFmt f).decode old).isNan = false) (number' : ((floatFmt f).decode x).isNan = false) :
    (redElem 2 f old x = old ∨ redElem 2 f old x = x) ∧
      ((floatFmt f).decode old).lt ((floatFmt f).decode (redElem 2 f old x)) = false ∧
      ((floatFmt f).decode x).lt ((floatFmt f).decode (redElem 2 f old x)) = false := by
  simp only [redElem, float, Bool.false_eq_true, if_false, number, number', Bool.or_self]
  split_ifs with first second sign
  · exact ⟨.inl rfl, Val.lt_irrefl _, Val.lt_asymm first⟩
  · exact ⟨.inr rfl, Val.lt_asymm second, Val.lt_irrefl _⟩
  · exact ⟨.inl rfl, Val.lt_irrefl _, Bool.not_eq_true _ ▸ second⟩
  · exact ⟨.inr rfl, Bool.not_eq_true _ ▸ first, Val.lt_irrefl _⟩

/-- The maximum is one of the operands, and neither is greater. -/
theorem redElem_max_float (number : ((floatFmt f).decode old).isNan = false) (number' : ((floatFmt f).decode x).isNan = false) :
    (redElem 3 f old x = old ∨ redElem 3 f old x = x) ∧
      ((floatFmt f).decode (redElem 3 f old x)).lt ((floatFmt f).decode old) = false ∧
      ((floatFmt f).decode (redElem 3 f old x)).lt ((floatFmt f).decode x) = false := by
  simp only [redElem, float, Bool.false_eq_true, if_false, number, number', Bool.or_self]
  split_ifs with first second sign
  · exact ⟨.inr rfl, Val.lt_asymm first, Val.lt_irrefl _⟩
  · exact ⟨.inl rfl, Val.lt_irrefl _, Val.lt_asymm second⟩
  · exact ⟨.inr rfl, Bool.not_eq_true _ ▸ second, Val.lt_irrefl _⟩
  · exact ⟨.inl rfl, Val.lt_irrefl _, Bool.not_eq_true _ ▸ first⟩

end

/-- The updates of R201. -/
theorem reductionValues : ReductionValues := by
  intro f old x oldFits xFits
  refine ⟨fun int => ⟨redElem_add_int int old x, redElem_min_int int old x, redElem_max_int int old x⟩, fun float => ⟨?_, redElem_nan float old x,
    fun number number' => ?_⟩, ?_, ?_, ?_⟩
  · simp [redElem, float, FFmt.roundRne]
  · obtain ⟨least, notOld, notX⟩ := redElem_min_float float old x number number'
    obtain ⟨greatest, overOld, overX⟩ := redElem_max_float float old x number number'
    exact ⟨least, greatest, notOld, notX, overOld, overX⟩
  · rw [BitVec.toNat_and, BitVec.toNat_ofNat, BitVec.toNat_ofNat, Nat.mod_eq_of_lt oldFits, Nat.mod_eq_of_lt xFits, redElem]
  · rw [BitVec.toNat_or, BitVec.toNat_ofNat, BitVec.toNat_ofNat, Nat.mod_eq_of_lt oldFits, Nat.mod_eq_of_lt xFits, redElem]
  · rw [BitVec.toNat_xor, BitVec.toNat_ofNat, BitVec.toNat_ofNat, Nat.mod_eq_of_lt oldFits, Nat.mod_eq_of_lt xFits]
    rfl

end Sys2Proof.Machine
end

section
/-! SUPPORT. The steps of the copy queue on a command that stands in it (R194, R200-R212, R244), and the statement about them. -/

namespace Sys2Proof.Machine

/-! ## A command in focus -/

section
variable {s : State} {c : Cmd} (has : s.HasCmd c)
include has

/-- A command whose activity is in focus is acted on as the state stands. -/
theorem State.HasCmd.onCmd (f : Cmd → State → State) : s.onCmd c.id f = f c s := by
  obtain ⟨owner, onCore, found⟩ := has
  simp only [State.onCmd, found, ← owner, State.act?_me, Option.isSome_some, if_true, State.focus_me onCore, State.focusCore]

theorem State.HasCmd.owner : s.me.uid = c.owner := has.1

theorem State.HasCmd.found : s.cmd? c.id = some (s.core.agent, c) := has.2.2

end

/-! ## Starts (R200, R223, R229) -/

/-- The state in which a command starts: one start a cycle, and before a release or sc command at `.sys` lines are written through. -/
def State.toStart (c : Cmd) (s : State) : State :=
  let n : State := { s with core := { s.core with startedAt := s.cycle + 1 } }
  if (c.sem = 2 ∨ c.sem = 3) ∧ c.scope = 3 then n.writeThrough else n

@[simp] theorem State.toStart_cycle (c : Cmd) (s : State) : (s.toStart c).cycle = s.cycle := by
  unfold State.toStart
  split <;> rfl

section
variable {s : State} {c : Cmd} (has : s.HasCmd c) (program : c.kind ≠ .cpyProg) (turn : s.turnOf c = true)
include has program turn

/-- A command whose turn it is starts, by its kind. -/
theorem State.HasCmd.copyStart (t : State)
    (starts : (match c.kind with
      | .fence => (s.toStart c).dropCmd c
      | .pwret => ((s.toStart c).returnWindow c.opA.toNat).dropCmd c
      | _ => (s.toStart c).putCmd { (s.toStart c).holdUnits (c.start s.cycle) with
          covers := if c.kind.isWrite && 2 ≤ c.sem then (s.toStart c).observed (s.toStart c).core ((s.toStart c).ownerOf c) c.id else [] }) = t) :
    exec (.copyStart c.id) s = .next t := by
  have through : (if (c.sem = 2 || c.sem = 3) && c.scope = 3 then
      (s.modCore (fun k => { k with startedAt := s.cycle + 1 })).writeThrough
    else s.modCore (fun k => { k with startedAt := s.cycle + 1 })) = s.toStart c := by
    simp [State.toStart, State.modCore]
  have arm : exec (.copyStart c.id) s = execCopyStart c.id s := rfl
  rw [arm, execCopyStart, has.onCmd]
  simp only [program, turn, decide_false, Bool.not_true, Bool.or_self, Bool.false_eq_true, if_false, through, State.toStart_cycle]
  exact congrArg Host.Outcome.next starts

theorem State.HasCmd.copyStart_fence (fence : c.kind = .fence) : exec (.copyStart c.id) s = .next ((s.toStart c).dropCmd c) :=
  has.copyStart program turn _ (by rw [fence])

theorem State.HasCmd.copyStart_pwret (pwret : c.kind = .pwret) :
    exec (.copyStart c.id) s = .next (((s.toStart c).returnWindow c.opA.toNat).dropCmd c) :=
  has.copyStart program turn _ (by rw [pwret])

theorem State.HasCmd.copyStart_other (fence : c.kind ≠ .fence) (pwret : c.kind ≠ .pwret) :
    exec (.copyStart c.id) s = .next ((s.toStart c).putCmd { c with
      started := true
      startedAt := s.cycle
      due := if c.kind.isWrite then s.cycle + (c.len + 63) / 64 else c.due
      heldUnits := c.todo.filter (fun u => (s.toStart c).onHold (c.start s.cycle) u)
      covers := if c.kind.isWrite ∧ 2 ≤ c.sem then (s.toStart c).observed (s.toStart c).core ((s.toStart c).ownerOf c) c.id else [] }) := by
  refine has.copyStart program turn _ ?_
  split
  · next is => exact absurd is fence
  · next is => exact absurd is pwret
  · simp only [Bool.and_eq_true, decide_eq_true_eq]
    rfl

end

/-! ## Translations (R194, R298) -/

section
variable {s : State} {c : Cmd} {g : Nat} (has : s.HasCmd c) (owed : (pagesOf c.spans).find? (fun g => (AMap.find c.xlat g).isNone) = some g)
include has owed

/-- A page that the agent's cache holds is looked up. -/
theorem State.HasCmd.pageWalk_hit {x : Xlat} (hit : s.core.tlbFind c.vd (s.asidOf c) (g * pageBytes) = some x) :
    exec (.pageWalk c.id) s = .next ({ s with core := s.core.tlbFill x }.putCmd
      { c with xlat := AMap.put c.xlat g (some (x.pa + (g * pageBytes - x.va), x.writable)) }) := by
  have arm : exec (.pageWalk c.id) s = execPageWalk c.id s := rfl
  rw [arm, execPageWalk, has.onCmd]
  simp only [Cmd.pageOwed, owed, hit]
  rfl

section
variable (miss : s.core.tlbFind c.vd (s.asidOf c) (g * pageBytes) = none) (free : s.walkHeld c.vd (s.asidOf c) (g * pageBytes) = false)
  (way : c.issued + 2 * levelLatency s.core.agent (s.walker s.core.agent) ≤ s.cycle)
  (passed : s.hasPassed (.walk c.id g) (s.walkNeeds s.core.agent c.vd (s.asidOf c) (g * pageBytes)) = true)
include miss free way passed

/-- A page is walked once the request has made its way. -/
theorem State.HasCmd.pageWalk_found {x : Xlat} (found : s.walk c.vd (s.asidOf c) (g * pageBytes) = some x) :
    let q := s.fetchWalk c.vd (s.asidOf c) (g * pageBytes)
    exec (.pageWalk c.id) s = .next ({ q with core := q.core.tlbFill x }.putCmd
      { c with xlat := AMap.put c.xlat g (some (x.pa + (g * pageBytes - x.va), x.writable)) }) := by
  have arm : exec (.pageWalk c.id) s = execPageWalk c.id s := rfl
  rw [arm, execPageWalk, has.onCmd]
  simp only [Cmd.pageOwed, owed, miss, free, passed, found, not_lt.2 way, decide_false, Bool.not_true, Bool.or_self, Bool.false_eq_true, if_false]
  rfl

/-- A walk that finds no page records that. -/
theorem State.HasCmd.pageWalk_failed (failed : s.walk c.vd (s.asidOf c) (g * pageBytes) = none) :
    exec (.pageWalk c.id) s = .next ((s.fetchWalk c.vd (s.asidOf c) (g * pageBytes)).putCmd { c with xlat := AMap.put c.xlat g none }) := by
  have arm : exec (.pageWalk c.id) s = execPageWalk c.id s := rfl
  rw [arm, execPageWalk, has.onCmd]
  simp only [Cmd.pageOwed, owed, miss, free, passed, failed, not_lt.2 way, decide_false, Bool.not_true, Bool.or_self, Bool.false_eq_true, if_false]

end
end

/-! ## Lines (R297, R407) -/

/-- The replica slice of a line is as the buckets and the retired spindles have it. -/
theorem Recorded.replicaFor {s t : State} (same : Recorded s t) (c : Cmd) (k : LineKey) : t.replicaFor c k = s.replicaFor c k := by
  unfold State.replicaFor State.replicaSlice State.bucket
  rw [same.core, same.buckets, same.retired]

/-- A unit of one line that no replica serves has it filled. -/
theorem State.HasCmd.lineFill {s : State} {c : Cmd} {x : Target} {u : Nat} {k : LineKey} (has : s.HasCmd c) (target : c.target = some x)
    (started : c.started = true) (left : u ∈ c.todo) (unfilled : u ∉ c.filled) (line : s.unitLines c u = [k])
    (still : (s.bucket k.bucket).hold = false) (warm : s.unitAt c u s.warmHeld = false) (absent : s.cache.home k = none)
    (direct : s.unitAt c u isSwitch = false) (behind : s.warmBehind c u = false) (replica : s.replicaFor c k = none) (may : s.mayFill c u = true)
    (time : s.fillTime c [k] ≤ s.cycle) :
    exec (.lineFill c.id u false) s = .next ((s.fill c.vd k (s.homeSlice k) false (s.fillSet x c.xlat k)).putCmd { c with
      filled := setInsert c.filled u
      due := max c.due s.cycle }) := by
  have arm : exec (.lineFill c.id u false) s = execLineFill c.id u false s := rfl
  have home : [k].filter (fun k => (s.cache.home k).isNone) = [k] := by simp [absent]
  have away : s.atHand c k = false := by simp [State.atHand, replica, absent]
  have unheld : s.onHold c u = false := by simp [State.onHold, line, still]
  have set : s.lineSet c k = s.fillSet x c.xlat k := by simp [State.lineSet, target]
  have later : (s.fill c.vd k (s.homeSlice k) false (s.fillSet x c.xlat k)).replicaFor c k = none :=
    ((Recorded.fill ..).replicaFor c k).trans replica
  rw [arm, execLineFill, has.onCmd]
  simp only [line, home]
  simp [started, left, unfilled, away, direct, unheld, warm, behind, may, not_lt.2 time, set, later]

/-! ## Units of loads (R205, R211, R244) -/

theorem CmdKind.of_isLoad {k : CmdKind} (load : k.isLoad = true) : k.isWrite = false ∧ k ≠ .sfill ∧ k ≠ .pfx ∧ k ≠ .codeld := by
  cases k <;> simp [CmdKind.isLoad, CmdKind.isWrite] at load ⊢

theorem State.HasCmd.landingUnit {s : State} {c : Cmd} {u : Nat} (has : s.HasCmd c) (copy : s.loc? c.id = none)
    (load : c.kind.isLoad = true) (started : c.started = true) (left : u ∈ c.todo) (ready : s.unitReady c u = true)
    (linked : s.unitAt c u s.linkWaits = false) (trip : s.tripDone c u = true) (due : c.due + ((c.unitSrc u).length + 63) / 64 ≤ s.cycle)
    (port : s.core.portFree + ((c.unitSrc u).length + 63) / 64 ≤ s.cycle) :
    exec (.landingUnit c.id u) s = .next (s.landUnit c u (fun _ => false)) := by
  have arm : exec (.landingUnit c.id u) s = execLandingUnit c.id u s := rfl
  obtain ⟨reads, sfill, pfx, -⟩ := CmdKind.of_isLoad load
  have alone : c.batch u = [u] := by simp [Cmd.batch, reads]
  have beats : (sumOf ([u].map (fun v => (c.unitSrc v).length)) + 63) / 64 = ((c.unitSrc u).length + 63) / 64 := by simp [sumOf]
  have landed : s.landBatch c u (fun _ => false) = s.landUnit c u (fun _ => false) := by
    rw [State.landBatch, alone]
    exact has.onCmd _
  have nothing : s.landLoc c.id = s := by simp only [State.landLoc, copy]
  rw [arm, execLandingUnit, nothing, has.onCmd]
  simp only [alone, beats, landed]
  simp [sfill, pfx, started, left, load, ready, linked, trip, not_lt.2 due, not_lt.2 port]

/-! ### What a unit of a load leaves -/

/-- The memory and the handle of the activity in focus are as they were. -/
def State.SameMemory (s t : State) : Prop := t.me.lm = s.me.lm ∧ t.me.uid = s.me.uid

theorem State.SameMemory.modAct {f : Activity → Activity} (keeps : ∀ a, (f a).lm = a.lm ∧ (f a).uid = a.uid) (uid : Nat) (s : State) :
    s.SameMemory (s.modAct uid f) := by
  unfold State.modAct
  split
  · exact keeps s.me
  · exact ⟨rfl, rfl⟩

theorem State.SameMemory.trans {s t u : State} (first : s.SameMemory t) (second : t.SameMemory u) : s.SameMemory u :=
  ⟨second.1.trans first.1, second.2.trans first.2⟩

theorem State.SameMemory.acquire (c : Cmd) (xs : List (Nat × Src)) (s : State) : s.SameMemory (s.acquire c xs) := by
  unfold State.acquire
  split
  · exact ⟨rfl, rfl⟩
  · split
    · exact ⟨rfl, rfl⟩
    · refine .modAct ?_ _ s
      exact fun _ => ⟨rfl, rfl⟩

theorem State.SameMemory.countServed (c : Cmd) (ks : List LineKey) (s : State) : s.SameMemory (s.countServed c ks) := by
  have same : (s.countServed c ks).me = s.me := (Recorded.countAt ..).me
  exact ⟨congrArg Activity.lm same, congrArg Activity.uid same⟩

theorem State.SameMemory.dropCmd (c : Cmd) (s : State) : s.SameMemory (s.dropCmd c) :=
  State.SameMemory.modAct (f := fun a => a.release c.id) (fun _ => ⟨rfl, rfl⟩) c.owner (s.modCore _)

theorem State.modAct_core (uid : Nat) (f : Activity → Activity) (s : State) : (s.modAct uid f).core = s.core := by
  unfold State.modAct
  split <;> rfl

theorem State.modAct_of_uid {uid : Nat} {s : State} (focus : s.me.uid = uid) (f : Activity → Activity) : s.modAct uid f = s.modMe f := by
  rw [← focus, State.modAct_me]

theorem State.modAct_cycle (uid : Nat) (f : Activity → Activity) (s : State) : (s.modAct uid f).cycle = s.cycle := by
  unfold State.modAct
  split <;> rfl

theorem State.dropCmd_cycle (c : Cmd) (s : State) : (s.dropCmd c).cycle = s.cycle := State.modAct_cycle ..

theorem State.dropCmd_copyq (c : Cmd) (s : State) : (s.dropCmd c).core.copyq = s.core.copyq.filter (fun d => d.id ≠ c.id) := by
  rw [State.dropCmd, State.modAct_core]
  rfl

@[simp] theorem State.barNote_zero (uid bytes arrivals code : Nat) (s : State) : s.barNote uid 0 bytes arrivals code = s := by
  simp [State.barNote, State.barUpdate]

/-- The sources of a unit that have not landed. -/
def Cmd.restOf (c : Cmd) (u : Nat) : List (Nat × Src) := (c.unitSrc u).drop (64 * (c.landed u).1)

/-- The command once a unit has come. -/
def Cmd.without (c : Cmd) (u : Nat) : Cmd := { c with todo := c.todo.erase u, landing := c.landing.del u }

/-- The state in which the bytes of a unit land: it has synchronised, and its accesses are counted. -/
def State.served (c : Cmd) (u : Nat) (s : State) : State := (s.acquire c (c.restOf u)).countServed c ((s.acquire c (c.restOf u)).unitLines c u)

theorem State.SameMemory.served (c : Cmd) (u : Nat) (s : State) : s.SameMemory (s.served c u) :=
  (State.SameMemory.acquire c (c.restOf u) s).trans (.countServed ..)

theorem State.landWhole_eq (c : Cmd) (cells : List (Nat × Option Byte)) (s : State) :
    ∃ st, s.landWhole c cells = (s.landCells c.owner (if c.apart = true ∨ c.todo = [] then c.staged ++ cells
      else (c.staged ++ cells).filter (fun x => !c.owes (x.1 / 32))), { c with staged := st }) := by
  by_cases whole : c.apart = true ∨ c.todo = []
  · exact ⟨[], by simp [State.landWhole, whole]⟩
  · exact ⟨_, by simp only [State.landWhole, Bool.or_eq_true, decide_eq_true_eq, whole, if_false]; rfl⟩

/-- What ends a unit of a load whose bytes have landed: its barrier counts them, and the command ends with its last unit. -/
def State.endUnit (n code phase : Nat) (landed : State × Cmd) : State :=
  let c := landed.2
  let s := (landed.1.barNote c.owner c.bar n 0 code).modCore (fun k => { k with portFree := landed.1.cycle })
  let c : Cmd := { c with
    kept := c.kept + 1
    counted := if c.bar = 0 then 0 else if phase = c.phase then c.counted + n else n
    phase := if c.bar = 0 then c.phase else phase
    err := if c.err = 0 then code else c.err }
  if c.todo = [] then s.dropCmd c else s.putCmd c

theorem State.landUnit_eq {c : Cmd} {x : Target} (target : c.target = some x) (u : Nat) (refuse : Nat → Bool) (s : State) :
    ∃ code phase, s.landUnit c u refuse = State.endUnit (c.unitSrc u).length code phase
      ((s.served c u).landWhole (c.without u) (s.unitCells c x refuse (c.restOf u)).1) := by
  unfold State.landUnit
  rw [target]
  exact ⟨_, _, rfl⟩

theorem State.endUnit_memory (n code phase : Nat) {t : State} {d : Cmd} (bar : d.bar = 0) : t.SameMemory (State.endUnit n code phase (t, d)) := by
  simp only [State.endUnit, bar, State.barNote_zero]
  split
  · exact State.SameMemory.dropCmd _ (t.modCore fun k => { k with portFree := t.cycle })
  · exact ⟨rfl, rfl⟩

theorem State.endUnit_copyq (n code phase : Nat) {t : State} {d : Cmd} (last : d.todo = []) :
    ∀ e ∈ (State.endUnit n code phase (t, d)).core.copyq, e.id ≠ d.id := by
  intro e mem
  simp only [State.endUnit, last, if_true, State.dropCmd_copyq] at mem
  simpa using (List.mem_filter.1 mem).2

/-- The bytes of a unit land in the memory of the activity in focus, each with its whole beat. -/
theorem State.HasCmd.landUnit_memory {s : State} {c : Cmd} {x : Target} (has : s.HasCmd c) (target : c.target = some x) (u : Nat)
    (refuse : Nat → Bool) (bar : c.bar = 0) :
    let cells := c.staged ++ (s.unitCells c x refuse (c.restOf u)).1
    (s.landUnit c u refuse).me.lm = s.me.lm.land (if c.apart = true ∨ (c.without u).todo = [] then cells
      else cells.filter (fun y => !(c.without u).owes (y.1 / 32))) := by
  obtain ⟨code, phase, eq⟩ := State.landUnit_eq target u refuse s
  obtain ⟨st, landed⟩ := State.landWhole_eq (c.without u) (s.unitCells c x refuse (c.restOf u)).1 (s.served c u)
  obtain ⟨lm, uid⟩ := State.SameMemory.served c u s
  have owner : (s.served c u).me.uid = (c.without u).owner := uid.trans has.owner
  rw [eq, landed, (State.endUnit_memory _ code phase (d := { c.without u with staged := st }) bar).1, State.landCells, ← owner, State.modAct_me,
    State.modMe_me, lm]
  rfl

theorem State.landUnit_last {s : State} {c : Cmd} {x : Target} (target : c.target = some x) (u : Nat) (refuse : Nat → Bool) (last : c.todo = [u]) :
    ∀ d ∈ (s.landUnit c u refuse).core.copyq, d.id ≠ c.id := by
  obtain ⟨code, phase, eq⟩ := State.landUnit_eq target u refuse s
  obtain ⟨st, landed⟩ := State.landWhole_eq (c.without u) (s.unitCells c x refuse (c.restOf u)).1 (s.served c u)
  rw [eq, landed]
  exact State.endUnit_copyq _ code phase (d := { c.without u with staged := st }) (by simp [Cmd.without, last])

/-! ## Units of writes (R205, R212) -/

/-- A unit of a write is performed with those that are served with it, rows in the order of their indexes. -/
theorem State.HasCmd.storePerformed {s : State} {c : Cmd} {u : Nat} (has : s.HasCmd c)
    (kind : c.kind = .cpyst ∨ c.kind = .cpylSt ∨ ((c.kind = .scat ∨ c.kind = .red) ∧ c.todo.head? = some u)) (started : c.started = true)
    (left : u ∈ c.todo) (direct : s.unitAt c u isSwitch = false)
    (ready : ∀ v ∈ c.batch u, s.unitReady c v = true ∧ s.unitAt c v s.linkWaits = false ∧ s.tripDone c v = true) :
    exec (.storePerformed c.id u) s = .next (s.performNext c u (fun _ => false)) := by
  have arm : exec (.storePerformed c.id u) s = execStorePerformed c.id u s := rfl
  have batch : (c.batch u).any (fun v => !s.unitReady c v || s.unitAt c v s.linkWaits || !s.tripDone c v) = false := by
    rw [List.any_eq_false]
    intro v mem
    obtain ⟨hand, linked, trip⟩ := ready v mem
    simp [hand, linked, trip]
  have write : c.kind.isWrite = true ∧ c.kind ≠ .swb ∧ c.kind ≠ .tflush := by
    rcases kind with store | linear | ⟨scatter | update, -⟩
    · simp [store, CmdKind.isWrite]
    · simp [linear, CmdKind.isWrite]
    · simp [scatter, CmdKind.isWrite]
    · simp [update, CmdKind.isWrite]
  obtain ⟨writes, stream, flush⟩ := write
  have turn : ((c.kind = .scat || c.kind = .red) && c.todo.head? ≠ some u) = false := by
    rcases kind with store | linear | ⟨-, head⟩
    · simp [store]
    · simp [linear]
    · simp [head]
  rw [arm, execStorePerformed, has.onCmd]
  simp only [stream, if_false, started, writes, flush, left, turn, direct, batch]
  simp

/-! ### Journal entries (R212) -/

section
variable {s : State} {c : Cmd} {e : JEntry} {n : Nat} (has : s.HasCmd c) (entry : s.core.journal.find n = some e) (own : e.cmd = c.id)
  (started : c.started = true) (done : c.todo = [])
include has entry own started done

/-- The write behind an entry is performed without an error: the entry is freed. -/
theorem State.HasCmd.journalAck_free (good : c.err = 0) :
    exec (.journalAck s.core.agent n) s = .next ((s.dropCmd c).modCore (fun k => { k with journal := k.journal.del n })) := by
  have arm : exec (.journalAck s.core.agent n) s = execJournalAck s.core.agent n s := rfl
  have core : s.coreOf s.core.agent = s.core := if_pos rfl
  have focus : s.focusCore s.core.agent = s := if_pos rfl
  rw [arm, execJournalAck, core]
  simp only [entry, own, has.found, started, done, focus, good]
  simp

/-- The write behind an entry has met an error: the entry is marked with its code, and its activity told. -/
theorem State.HasCmd.journalAck_refused (bad : c.err ≠ 0) :
    ∃ t, exec (.journalAck s.core.agent n) s = .next t ∧ t.me.trap.prs = true ∧ t.core.journal.find n = some { e with
      code := c.err
      order := s.cycle } := by
  have arm : exec (.journalAck s.core.agent n) s = execJournalAck s.core.agent n s := rfl
  have core : s.coreOf s.core.agent = s.core := if_pos rfl
  have focus : s.focusCore s.core.agent = s := if_pos rfl
  obtain ⟨-, uid⟩ := State.SameMemory.dropCmd c s
  have owner : (s.dropCmd c).me.uid = c.owner := uid.trans has.owner
  have known : ((s.dropCmd c).act? c.owner).isNone = false := by rw [← owner, State.act?_me]; rfl
  rw [arm, execJournalAck, core]
  simp only [entry, own, has.found, started, done, focus, bad, known]
  refine ⟨_, rfl, ?_, ?_⟩
  · rw [State.modAct_of_uid (s := (s.dropCmd c).modCore _) owner]
    rfl
  · simp [State.modAct_core, AMap.find_put_same, State.dropCmd_cycle]

end

/-! ## Flushes and code loads (R204, R207) -/

theorem State.HasCmd.tflushDone {s : State} {c : Cmd} (has : s.HasCmd c) (started : c.started = true) (flush : c.kind = .tflush)
    (left : c.todo ≠ []) (trip : s.tripDone c 0 = true)
    (still : ∀ l ∈ s.cache.lines, l.key.vd = c.vd → l.key.tid = c.tid → (s.bucket l.key.bucket).hold = false) :
    exec (.tflushDone c.id) s = .next ((s.flushLines (fun l => l.key.vd = c.vd && l.key.tid = c.tid)).endWrite { c with todo := [] }) := by
  have arm : exec (.tflushDone c.id) s = execTflushDone c.id s := rfl
  have free : (s.tensorLines c).any (fun l => (s.bucket l.key.bucket).hold) = false := by
    rw [List.any_eq_false]
    intro l mem
    obtain ⟨inCache, mine⟩ := List.mem_filter.1 mem
    obtain ⟨vd, tid⟩ : l.key.vd = c.vd ∧ l.key.tid = c.tid := by simpa using mine
    simp [still l inCache vd tid]
  rw [arm, execTflushDone, has.onCmd]
  simp [started, flush, left, free, trip]

/-- A code load whose image has come replaces the segment. -/
theorem State.HasCmd.codeldDone {s : State} {c : Cmd} {pas : List Nat} {image : List Byte} (has : s.HasCmd c) (started : c.started = true)
    (load : c.kind = .codeld) (ready : s.unitReady c 0 = true) (linked : s.unitAt c 0 s.linkWaits = false) (trip : s.tripDone c 0 = true)
    (places : (List.range c.len).map (fun k => PageMap.apply c.xlat false (c.opB.toNat + k)) = pas.map Except.ok)
    (bytes : pas.map (fun pa => (s.asModule c.modid).loadVia (s.replicaFor c (addrKey c.vd pa)) c.vd (addrLoc c.vd pa)) = image.map Except.ok) :
    let q := s.countServed c (s.unitLines c 0)
    exec (.codeldDone c.id) s = .next ({ q with core := { q.core with segs := q.core.segs.map (fun (g : CodeSeg) =>
      if g.jid = c.jid ∧ g.vd = c.vd then g.load image (c.len / 4) else g) } }.dropCmd c) := by
  have arm : exec (.codeldDone c.id) s = execCodeldDone c.id s := rfl
  have come : allOk (c.imagePas.map (fun r => r.bind (fun pa =>
      (s.asModule c.modid).loadVia (s.replicaFor c (addrLoc c.vd pa).key) c.vd (addrLoc c.vd pa)))) = .ok image := by
    rw [Cmd.imagePas, places, List.map_map]
    exact (congrArg allOk bytes).trans (allOk_map_ok image)
  rw [arm, execCodeldDone, has.onCmd]
  simp only [started, load, ready, linked, trip, State.endCodeld, Bool.false_eq_true, if_false, come]
  simp
  rfl

/-! ## Requests that time out (R414, R436) -/

/-- A request of a store that has waited too long is performed, its bytes refused. -/
theorem State.HasCmd.timeout {s : State} {c : Cmd} {u : Nat} (has : s.HasCmd c) (started : c.started = true) (store : c.kind = .cpyst)
    (late : c.startedAt + 170000 ≤ s.cycle) (p : State → Nat → Bool) (waits : c.todo.find? (fun u => s.unitAt c u (p s)) = some u) :
    s.timeout c.id p = s.performNext c u (p s) := by
  have limit : ¬ s.cycle < c.startedAt + requestLimit := not_lt.2 late
  rw [State.timeout, has.onCmd]
  simp only [waits, started, limit, store]
  simp [CmdKind.isLoad, CmdKind.isWrite]

/-- Settles O36: each step of the queue by the lemma about it above; what memory holds after a unit of a write by the bytes that are stored. -/
theorem copyQueue : Obligations.CopyQueue := by
  refine ⟨fun s c has program turn => ?_, fun s c g has owed => ⟨fun x => has.pageWalk_hit owed, fun miss free way passed =>
      ⟨fun x => has.pageWalk_found owed miss free way passed, has.pageWalk_failed owed miss free way passed⟩⟩, ?_,
    fun s c x u has copy target load started left ready linked trip => ?_, fun s c u has => has.storePerformed,
    fun s c x u w target own writes => ⟨fun l v => writes.byteFor_other target own, ?_, ?_⟩, reductionValues,
    fun s c e n has entry own started done => ⟨has.journalAck_free entry own started done, has.journalAck_refused entry own started done⟩,
    fun s c has started flush left trip still => has.tflushDone started flush left trip still,
    fun s c pas image has started load ready linked trip places bytes => has.codeldDone started load ready linked trip places bytes,
    fun s c u has started store late => ⟨?_, ?_⟩⟩
  · exact ⟨has.copyStart_fence program turn, has.copyStart_pwret program turn, has.copyStart_other program turn⟩
  · intro s c x u k has target started left unfilled line still warm absent direct behind replica may time
    exact has.lineFill target started left unfilled line still warm absent direct behind replica may time
  · intro beats rest cells due port
    have landed : c.staged ++ (s.unitCells c x (fun _ => false) (c.restOf u)).1 = cells := by
      simp only [State.unitCells, List.map_map]
      rfl
    exact ⟨has.landingUnit copy load started left ready linked trip due port,
      fun bar => landed ▸ has.landUnit_memory target u (fun _ => false) bar, State.landUnit_last target u (fun _ => false)⟩
  · intro kind y mem reads
    refine writes.byteFor_written target own ?_ mem reads
    rcases kind with linear | scatter | ⟨store, plain⟩
    · simp [Cmd.Updates, linear]
    · simp [Cmd.Updates, scatter]
    · simp [Cmd.Updates, store, plain]
  · intro updates bytes e old inside loads new y mem
    exact writes.byteFor_updated target own updates rfl bytes inside loads mem
  · intro waits
    exact congrArg Host.Outcome.next (has.timeout started store late State.linkWaits waits)
  · intro waits
    exact congrArg Host.Outcome.next (has.timeout started store late State.cxlAt waits)

end Sys2Proof.Machine
end

section
/-! SUPPORT. System registers, `mfs` and `mts` (R148-R151, R250), and the statement about them. -/

namespace Sys2Proof.Machine

/-! ## What the system registers read (R148) -/

/-- The fields of XSTAT, the highest first (R151). -/
theorem TrapRegs.xstat_eq (t : TrapRegs) : t.xstat =
    (if t.prb then 2 ^ 10 else 0) + (if t.pmp then 2 ^ 9 else 0) + (if t.prs then 2 ^ 8 else 0) + (if t.inh then 1 else 0) := by
  unfold TrapRegs.xstat
  ac_rfl

/-- The fields of RGSTAT, the highest first (R157). -/
theorem Region.rgstat_eq (g : Region) : g.rgstat =
    g.rcnt % 2 ^ 16 * 2 ^ 8 + g.try_ % 4 * 2 ^ 2 + (if g.pin then 2 else 0) + (if g.open_ then 1 else 0) := by
  unfold Region.rgstat
  omega

/-- The numbers of the system registers of a compute core (R148). -/
def systemRegisterNumbers : List Nat := [
  0x00, 0x01, 0x02, 0x03, 0x04, 0x05, 0x06, 0x07, 0x08, 0x10, 0x11, 0x12, 0x13, 0x18, 0x19,
  0x20, 0x21, 0x22, 0x23, 0x24, 0x25, 0x26, 0x27, 0x40, 0x41, 0x42]

/-- Number by number, the table of R148 holds what is read. -/
theorem systemRegister_eq_map (s : State) : systemRegister s = systemRegisterNumbers.map (fun n => (n, s.sysRead n)) := by
  rw [systemRegister, ← TrapRegs.xstat_eq, ← Region.rgstat_eq]
  rfl

theorem State.sysRead_of_mem {s : State} {c : Nat × Word} (mem : c ∈ systemRegister s) : s.sysRead c.1 = c.2 := by
  rw [systemRegister_eq_map] at mem
  obtain ⟨n, -, rfl⟩ := List.mem_map.mp mem
  rfl

theorem exec_mfs (r : R) (s : State) :
    exec (.mfs r) s = issue (.mfs r) s (fun p => .done (p.resultG (.mfs r) r.d (p.sysRead r.x.toNat))) := rfl

/-! ## What `mts` writes (R150, R250) -/

/-- The tile shapes after a write to one of them: a shape of 0 is listed nowhere. -/
def writeShape (n : Nat) (v : Word) (ts : AMap Word) : AMap Word := if v = 0 then ts.del n else ts.put n v

theorem writeShape_same (n : Nat) (v : Word) (ts : AMap Word) : ((writeShape n v ts).find n).getD 0 = v := by
  by_cases zero : v = 0
  · simp [writeShape, zero, AMap.find_del_same]
  · rw [writeShape, if_neg zero, AMap.find_put_same, Option.getD_some]

theorem writeShape_other {n k : Nat} (other : k ≠ n) (v : Word) (ts : AMap Word) : (writeShape n v ts).find k = ts.find k := by
  unfold writeShape
  split
  · exact AMap.find_del_other other.symm ts
  · exact AMap.find_put_other v other.symm ts

theorem Activity.sysWrite_shape {n : Nat} (bound : n < 8) (v : Word) (a : Activity) :
    a.sysWrite (0x20 + n) v = { a with ts := writeShape n v a.ts } := by
  interval_cases n <;> rfl

/-- A ready `mts` writes its register and issues, unless the value is an invalid tile shape (R250). -/
theorem exec_mts_ready {r : R} {s : State} {n : Nat} {a : Activity} (ready : Ready (.mts r) s) (reg : r.x.toNat = n)
    (valid : n < 0x20 ∨ tsValid ((s.prepare (.mts r)).me.srcB r) = true)
    (write : (s.prepare (.mts r)).me.sysWrite n ((s.prepare (.mts r)).me.srcB r) = a) :
    exec (.mts r) s = .next ({ s.prepare (.mts r) with me := a }.issued (.mts r) []) := by
  subst reg write
  refine (exec_mts r s).trans (issue_issued ready (if_neg ?_))
  rcases valid with below | valid
  · simp [below]
  · simp [valid]

/-- Settles O12: the table of R148 by `systemRegister_eq_map`, each register of `mts` by what `sysWrite` makes of it. -/
theorem systemRegisters : Obligations.SystemRegisters := by
  refine ⟨⟨fun s c mem => State.sysRead_of_mem mem, fun r s ready => ?mfs⟩, fun r s ready => ⟨?schk, ?seed, ?xpc, ?inh, ?shape⟩⟩
  case mfs =>
    intro p
    rw [← State.prepare_cycle (.mfs r) s]
    exact (exec_mfs r s).trans (issue_resultG ready rfl)
  case schk => exact fun reg => exec_mts_ready ready reg (.inl (by decide)) rfl
  case seed => exact fun reg => exec_mts_ready ready reg (.inl (by decide)) rfl
  case xpc => exact fun reg => exec_mts_ready ready reg (.inl (by decide)) rfl
  case inh => exact fun reg => exec_mts_ready ready reg (.inl (by decide)) rfl
  case shape =>
    exact fun n bound reg valid => ⟨writeShape n _ _, exec_mts_ready ready reg (.inr valid) (Activity.sysWrite_shape bound _ _),
      writeShape_same n _ _, fun k other => writeShape_other other _ _⟩

end Sys2Proof.Machine
end

section
/-! SUPPORT. Traps inside a handler and the return from one (R155, R392), and the statement about them. -/

namespace Sys2Proof.Machine

/-- A synchronous trap inside a handler condemns the activity, its issue slot used (R155). -/
theorem State.takeTrap_nested {s : State} (cause : Nat) (info : Word) (settled : s.me.speculative = false) (vector : s.vecBusy = false)
    (compute : s.me.prog = none) (inside : s.me.trap.inh = true) : s.takeTrap cause info false =
      (s.modMe (fun a => { a with lastIssue := s.trapCycle, trapping := none })).condemn statTrapnest := by
  simp only [State.takeTrap, settled, vector, compute, inside, Bool.or_self, Bool.not_false, Bool.and_self, Bool.false_eq_true, if_false, if_true]

/-! ## `xret` (R155) -/

theorem exec_xret (r : R) (s : State) : exec (.xret r) s = issue (.xret r) s (State.returnTrap (.xret r)) := rfl

/-- The state of an activity that is in no handler any more. -/
def State.leaveHandler (p : State) : State := { p with me := { p.me with trap := { p.me.trap with inh := false } } }

theorem State.returnTrap_outside {p : State} (outside : p.me.trap.inh = false) (i : Instr) : p.returnTrap i = .trap 1 (illegalInfo i) := by
  simp only [State.returnTrap, outside, Bool.not_false, if_true]

/-- In a handler a return is a transfer to XPC, with INH cleared. -/
theorem State.returnTrap_inside {p : State} (inside : p.me.trap.inh = true) (i : Instr) :
    p.returnTrap i = effTransfer p.me.trap.xpc.toNat State.leaveHandler p := by
  simp only [State.returnTrap, inside, Bool.not_true, Bool.false_eq_true, if_false]
  rfl

/-- Settles O15: a trap in a handler by `takeTrap_nested`, and `xret` as a transfer to XPC. -/
theorem nestedTrapsAndReturn : Obligations.NestedTrapsAndReturn := by
  refine ⟨fun cause info s settled vector compute inside => ?nested, fun r s ready => ?_⟩
  case nested =>
    rw [State.takeTrap_nested cause info settled vector compute inside, State.trapCycle_eq]
    rfl
  intro p
  have trap : p.me.trap = s.me.trap := State.prepare_me_trap (.xret r) s
  rw [exec_xret, ← trap]
  refine ⟨fun inside reach => ?returns, fun inside unreachable => ?misaligned, fun outside => ?illegal⟩
  case returns =>
    have jumps : p.returnTrap (.xret r) = .jump p.leaveHandler p.me.trap.xpc.toNat :=
      (State.returnTrap_inside inside _).trans (effTransfer_of_reachable reach _)
    rw [issue_jump ready jumps, ← State.withPend_nil p.leaveHandler, State.transfer_withPend, ofInt_toNat_word]
    rfl
  case misaligned =>
    rw [issue_effTransfer_traps ready (State.returnTrap_inside inside _) unreachable, ofInt_toNat_word]
  case illegal => exact issue_trap ready (State.returnTrap_outside outside _)

end Sys2Proof.Machine
end

section
/-! SUPPORT. Elements of vector registers (R167, R168): the model's numbers as words, and the vector that a list of elements makes. -/

namespace Sys2Proof.Machine

/-! ## Numbers by digits -/

/-- A digit of the number that a list of digits spells, lowest first. -/
theorem foldr_digits_div_mod {b : Nat} (pos : 0 < b) (l : List Nat) (j : Nat) :
    l.foldr (fun e acc => e % b + b * acc) 0 / b ^ j % b = l.getD j 0 % b := by
  induction l generalizing j with
  | nil => simp
  | cons e l ih =>
    have low : e % b < b := Nat.mod_lt _ pos
    cases j with
    | zero => simp [Nat.add_mul_mod_self_left]
    | succ j =>
      rw [List.foldr_cons, List.getD_cons_succ, ← ih, pow_succ', ← Nat.div_div_eq_div_mul, Nat.add_mul_div_left _ _ pos,
        Nat.div_eq_of_lt low, Nat.zero_add]

/-- Numbers that agree on the bits of a word are the same word. -/
theorem ofNat_eq_of_mod_eq {w a b : Nat} (same : a % 2 ^ w = b % 2 ^ w) : BitVec.ofNat w a = BitVec.ofNat w b :=
  BitVec.eq_of_toNat_eq (by rw [BitVec.toNat_ofNat, BitVec.toNat_ofNat, same])

/-- A field of a number as a word, when it lies within the word. -/
theorem extractLsb'_ofNat_of_le {a w m : Nat} (fits : a + w ≤ m) (n : Nat) :
    (BitVec.ofNat m n).extractLsb' a w = BitVec.ofNat w (n / 2 ^ a) := by
  apply BitVec.eq_of_getLsbD_eq
  intro k low
  simp only [BitVec.getLsbD_extractLsb', BitVec.getLsbD_ofNat, low, (by omega : a + k < m), Nat.testBit_div_two_pow, Nat.add_comm,
    decide_true, Bool.true_and]

/-! ## Elements (R167) -/

theorem fmtWidth_pos (f : Nat) : 0 < fmtWidth f := by
  unfold fmtWidth
  split <;> decide

/-- The elements of a format fill a vector register. -/
theorem fmtCount_mul_fmtWidth (f : Nat) : fmtCount f * fmtWidth f = 1024 := by
  unfold fmtCount fmtWidth
  split <;> rfl

/-- An element of the format lies in the register. -/
theorem element_fits {f j : Nat} (bound : j < fmtCount f) : fmtWidth f * j + fmtWidth f ≤ 1024 := by
  rw [← fmtCount_mul_fmtWidth f, mul_comm (fmtCount f), ← Nat.mul_succ]
  exact Nat.mul_le_mul_left _ bound

theorem elem_eq_toNat (w : Nat) (x : Vec) (i : Nat) : elem w x i = (element w x i).toNat := by
  rw [element, BitVec.extractLsb'_toNat, Nat.shiftRight_eq_div_pow, elem]

theorem ofNat_elem (w : Nat) (x : Vec) (i : Nat) : BitVec.ofNat w (elem w x i) = element w x i := by
  rw [elem_eq_toNat, BitVec.ofNat_toNat, BitVec.setWidth_eq]

/-- An element of the vector that a list makes; elements past its end are 0. -/
theorem element_packElems {w j : Nat} (fits : w * j + w ≤ 1024) (l : List Nat) : element w (packElems w l) j = BitVec.ofNat w (l.getD j 0) := by
  rw [element, packElems, extractLsb'_ofNat_of_le fits, pow_mul]
  exact ofNat_eq_of_mod_eq (foldr_digits_div_mod (Nat.two_pow_pos w) l j)

theorem element_packElems_range {w j n : Nat} (fits : w * j + w ≤ 1024) (bound : j < n) (f : Nat → Nat) :
    element w (packElems w ((List.range n).map f)) j = BitVec.ofNat w (f j) := by
  rw [element_packElems fits]
  simp [bound]

/-- An element of a write under a mask (R168). -/
theorem element_maskedElems {w j n : Nat} (fits : w * j + w ≤ 1024) (bound : j < n) (k : Mask) (zm : Bool) (old : Vec) (op : Nat → Nat) :
    element w (maskedElems w n k zm old op) j =
      if k.getLsbD j then BitVec.ofNat w (op j) else if zm then 0 else element w old j := by
  rw [maskedElems, element_packElems_range fits bound]
  split_ifs
  · rfl
  · rfl
  · exact ofNat_elem ..

/-! ## Numbers of elements as words -/

theorem sx_elem (r : R) (x : Vec) (i : Nat) : sx r (elem (fmtWidth r.fmt) x i) = (element (fmtWidth r.fmt) x i).toInt := by
  rw [sx, sextNat_eq_toInt (fmtWidth_pos _), ofNat_elem]

theorem decF_elem (r : R) (x : Vec) (i : Nat) : decF r (elem (fmtWidth r.fmt) x i) = valueOf r (element (fmtWidth r.fmt) x i) := by
  rw [decF, valueOf, elem_eq_toNat]

theorem ofNat_truncInt (w : Nat) (v : Int) : BitVec.ofNat w (truncInt w v) = BitVec.ofInt w v := by
  rw [truncInt_eq_toNat, BitVec.ofNat_toNat, BitVec.setWidth_eq]

/-- IntOut as a word (R174). -/
theorem ofNat_intOut (r : R) (v : Int) : BitVec.ofNat (fmtWidth r.fmt) (intOut r v) = integerOp r v := by
  rw [intOut, ofNat_truncInt]
  rfl

theorem ofNat_roundF (r : R) (d : Nat) (v : Val) : BitVec.ofNat (fmtWidth r.fmt) (roundF r d v) = roundedOp r d v := rfl

/-! ## Results of the vector unit (R70, R87, R171) -/

theorem State.resultV_eq (i : Instr) (d : BitVec 6) (v : Vec) (p : State) :
    p.resultV i d v = p.withPend (newWrite .fixed (p.cycle + i.lat) i.srcs ⟨.v, d.toNat⟩ v) := State.pendWrite_eq ..

theorem State.resultK_eq (i : Instr) (d : BitVec 6) (v : Mask) (p : State) :
    p.resultK i d v = p.withPend (newWrite .fixed (p.cycle + i.lat) i.srcs ⟨.k, d.toNat⟩ (v.setWidth 1024)) := State.pendWrite_eq ..

/-- A state with another SEED. -/
def State.seeded (seed : Word) (p : State) : State := { p with me := { p.me with seed := seed } }

/-- The draws of an instruction (R70). -/
theorem State.draw_eq (rs : Bool) (n : Nat) (p : State) :
    p.draw rs n = (p.seeded (drawsOf rs p.me.seed n).1, (drawsOf rs p.me.seed n).2) := by
  cases rs <;> rfl

/-- Without `.rs` there is no draw. -/
theorem getD_drawsOf_false (seed : Word) (n j : Nat) : (drawsOf false seed n).2.getD j 0 = 0 := rfl

/-- A ready instruction whose effect leaves results on their way. -/
theorem issue_withPend {i : Instr} {s t : State} {w : List Pend} {eff : State → Eff} (ready : Ready i s)
    (done : eff (s.prepare i) = .done (t.withPend w)) : issue i s eff = .next (t.issued i w) := by
  rw [issue_done ready done, State.complete_withPend]

/-! ## Element-wise instructions (R168) -/

/-- An element operation on the elements of V[A], V[B] and V[C]. -/
def ElemOp.onSources (op : ElemOp) (r : R) (m : Activity) (d j : Nat) : Nat :=
  op d (elem (fmtWidth r.fmt) (m.v r.a.toNat) j) (elem (fmtWidth r.fmt) (m.v r.b.toNat) j) (elem (fmtWidth r.fmt) (m.v r.c.toNat) j)

theorem effArith_eq (i : Instr) (r : R) (op : ElemOp) : effArith i r op = effElems i r (R.rs r) (op.onSources r) := rfl

theorem effPlain_eq (i : Instr) (r : R) (op : ElemOp) : effPlain i r op = effElems i r false (op.onSources r) := rfl

section
variable {c : ElementOp} {rs : R → Bool} {op : R → Activity → Nat → Nat → Nat}

/-- What an element-wise instruction does, once its latency, its draws and its element values are known. -/
theorem ElementResult.of_effElems (meaning : ∀ r s, exec (c.make r) s = issue (c.make r) s (effElems (c.make r) r (rs r) (op r)))
    (draws : ∀ r, rs r = (c.draws && decide (r.rm = 4))) (lat : ∀ r, (c.make r).WellFormed → (c.make r).lat = c.latency r)
    (value : ∀ r m d j, (c.make r).WellFormed → (c.draws = false → d = 0) → BitVec.ofNat (fmtWidth r.fmt) (op r m d j) = c.value r m d j) :
    ElementResult c := by
  intro r s ready i p w n d
  have issued : effElems i r (rs r) (op r) p = .done ((p.seeded d.1).withPend (newWrite .fixed (s.cycle + c.latency r) i.srcs ⟨.v, r.d.toNat⟩
      (maskedElems w n (p.me.k r.km) r.zm (p.me.v r.d.toNat) (fun j => op r p.me (d.2.getD j 0) j)))) := by
    simp only [effElems, State.draw_eq, draws, State.resultV_eq, lat r ready.legal, i]
    rw [← State.prepare_cycle i s]
    rfl
  refine ⟨_, (meaning r s).trans (issue_withPend ready issued), fmtCount_mul_fmtWidth _, fun j bound => ?_⟩
  have zero : c.draws = false → d.2.getD j 0 = 0 := fun none => by simp only [d, none, Bool.false_and, getD_drawsOf_false]
  rw [element_maskedElems (element_fits bound) bound, value r p.me _ j ready.legal zero]

end

end Sys2Proof.Machine
end

section
/-! SUPPORT. The rounding arithmetic of the vector unit (R172-R174), and the statement about it. -/

namespace Sys2Proof.Machine

/-! ## Formats and latencies (R168, R171) -/

/-- The floating-point and the integer formats have nothing in common. -/
theorem isInt_of_isFp {f : Nat} (fp : isFp f = true) : isInt f = false := by
  have few : f ≤ 2 := by simpa [isFp] using fp
  simp only [isInt, decide_eq_false (by omega : ¬ 8 ≤ f), Bool.false_and]

theorem fp_or_int_of_arithOk {r : R} (ok : arithOk r = true) : isFp r.fmt = true ∨ isInt r.fmt = true := by
  unfold arithOk at ok
  split at ok
  · next fp => exact .inl fp
  · exact .inr (by simp only [Bool.and_eq_true] at ok; exact ok.1.1)

theorem isFp_of_isInt {f : Nat} (int : isInt f = true) : isFp f = false := by
  by_contra fp
  exact absurd (isInt_of_isFp (Bool.not_eq_false _ ▸ fp)) (by simp [int])

/-- What a well-formed instruction's entry asks beyond its row (R96). -/
theorem Instr.WellFormed.extra {i : Instr} (wellFormed : i.WellFormed) : i.extra = true := (Bool.and_eq_true_iff.mp wellFormed).2

/-- The latency by format of R171, told by either kind of format. -/
theorem mixedLatency_eq {r : R} (kind : isFp r.fmt = true ∨ isInt r.fmt = true) : (if isInt r.fmt then 2 else 4) = mixedLatency r := by
  rcases kind with fp | int
  · simp [mixedLatency, fp, isInt_of_isFp fp]
  · simp [mixedLatency, int, isFp_of_isInt int]

/-! ## Arithmetic by elements (R173, R174) -/

/-- What an instruction on V[A], V[B] and V[C] does, from its values on elements. -/
theorem ElementResult.of_effArith {make : R → Instr} {fp : Bool → Val → Val → Val → Val} {int : Int → Int → Int → Int} {op : R → ElemOp}
    (value : ∀ r d a b c, op r d a b c =
      if isFp r.fmt then roundF r d (fp (isRdn r) (decF r a) (decF r b) (decF r c)) else intOut r (int (sx r a) (sx r b) (sx r c)))
    (meaning : ∀ r s, exec (make r) s = issue (make r) s (effArith (make r) r (op r)) := by exact fun _ _ => rfl)
    (lat : ∀ r, (make r).lat = if isInt r.fmt then 2 else 4 := by exact fun _ => rfl)
    (extra : ∀ r, (make r).extra = arithOk r := by exact fun _ => rfl) : ElementResult (roundingOp make fp int) := by
  refine .of_effElems (rs := R.rs) (op := fun r => (op r).onSources r) (fun r s => (meaning r s).trans (by rw [effArith_eq]; rfl)) (fun _ => rfl)
    (fun r wellFormed => (lat r).trans (mixedLatency_eq (fp_or_int_of_arithOk ((extra r).symm.trans (Instr.WellFormed.extra wellFormed))))) fun r m d j _ _ => ?_
  simp only [ElemOp.onSources, value, roundingOp, onElements, decF_elem, sx_elem]
  split
  · rfl
  · exact ofNat_intOut ..

/-- Settles O20, instruction by instruction. -/
theorem vectorArithmetic : Obligations.VectorArithmetic := by
  simp only [Obligations.VectorArithmetic, roundingOps, List.forall_mem_cons]
  exact ⟨.of_effArith (op := opAdd) fun _ _ _ _ _ => rfl, .of_effArith (op := opSub) fun _ _ _ _ _ => rfl,
    .of_effArith (op := opMul) fun _ _ _ _ _ => rfl, .of_effArith (op := opFma) fun _ _ _ _ _ => rfl,
    .of_effArith (op := opFms) fun _ _ _ _ _ => rfl, .of_effArith (op := opFnma) fun _ _ _ _ _ => rfl, List.forall_mem_nil _⟩

end Sys2Proof.Machine
end

section
/-! SUPPORT. The order of patterns of a floating-point format (R58, R59): numbers neither of which is less have one pattern, or are zeros. -/

namespace Sys2Proof.Machine

/-- A value has one place on the grid. -/
theorem FFmt.OnGrid.unique {f : FFmt} {n m : Nat} {e g : Int} (left : f.OnGrid n e) (right : f.OnGrid m g) (pos : 0 < f.p)
    (same : (n : ℚ) * 2 ^ (e - f.p + 1) = m * 2 ^ (g - f.p + 1)) (order : e ≤ g) : n = m ∧ e = g := by
  obtain ⟨d, rfl⟩ := Int.exists_add_of_le order
  have scale : (n : ℚ) = m * 2 ^ d := by
    have split : e + d - f.p + 1 = (e - f.p + 1) + d := by ring
    rw [split, zpow_add₀ two_ne_zero (e - f.p + 1) d, zpow_natCast, mul_comm ((2 : ℚ) ^ (e - f.p + 1)), ← mul_assoc] at same
    exact mul_right_cancel₀ (zpow_ne_zero _ two_ne_zero) same
  have whole : n = m * 2 ^ d := by exact_mod_cast scale
  rcases Nat.eq_zero_or_pos d with rfl | up
  · exact ⟨by simpa using whole, by simp⟩
  · have full : 2 ^ (f.p - 1) ≤ m := right.normal.resolve_left (by have := left.emin_le; omega)
    have high : 2 ^ f.p ≤ n := by
      calc 2 ^ f.p = 2 ^ (f.p - 1) * 2 ^ 1 := by rw [← pow_add, Nat.sub_add_cancel pos]
        _ ≤ m * 2 ^ d := Nat.mul_le_mul full (Nat.pow_le_pow_right two_pos up)
        _ = n := whole.symm
    exact absurd left.lt (Nat.not_lt.mpr high)

theorem signedNum_eq_zero (s : Bool) (n : Nat) : signedNum s n = 0 ↔ n = 0 := by
  cases s <;> simp [signedNum]

/-- Signed numerators that are equal and not 0 agree in sign and magnitude. -/
theorem signedNum_inj {s t : Bool} {m n : Nat} (same : signedNum s m = signedNum t n) (nonzero : m ≠ 0) : s = t ∧ m = n := by
  cases s <;> cases t <;> simp [signedNum] at same ⊢ <;> omega

namespace FFmt

section
variable {f : FFmt} (fits : f.Fits) {x y : Nat} (xBound : x < 2 ^ (f.sign + 1)) (yBound : y < 2 ^ (f.sign + 1))
include fits xBound

/-- A pattern without significand is its sign bit alone. -/
theorem eq_signBit_of_signifOf (zero : f.signifOf x = 0) : x = f.signBit (f.negOf x) := by
  have fields := encode_fields fits xBound
  rwa [zero, encode_zero, eq_comm] at fields

include yBound

theorem eq_of_fields (neg : f.negOf x = f.negOf y) (signif : f.signifOf x = f.signifOf y) (exponent : f.exponentOf x = f.exponentOf y) : x = y := by
  rw [← encode_fields fits xBound, ← encode_fields fits yBound, neg, signif, exponent]

/-- Finite values that are equal have one pattern, or are zeros. -/
theorem eq_or_zeros_of_finiteOf (xTop : f.expOf x < f.top.1 ∨ f.expOf x = f.top.1 ∧ f.fracOf x ≤ f.top.2)
    (yTop : f.expOf y < f.top.1 ∨ f.expOf y = f.top.1 ∧ f.fracOf y ≤ f.top.2)
    (notLess : (f.finiteOf x).lt (f.finiteOf y) = false) (notGreater : (f.finiteOf y).lt (f.finiteOf x) = false) :
    x = y ∨ x = f.signBit (f.negOf x) ∧ y = f.signBit (f.negOf y) := by
  have xGrid := onGrid_of_le_top fits xTop
  have yGrid := onGrid_of_le_top fits yTop
  simp only [finiteOf, Val.scaled, Val.lt, decide_eq_false_iff_not, not_lt] at notLess notGreater
  have equal := le_antisymm notGreater notLess
  by_cases zero : f.signifOf x = 0
  · rw [zero, zero_mul, zero_mul, (signedNum_eq_zero _ _).mpr rfl, eq_comm, signedNum_eq_zero, mul_assoc] at equal
    have yZero : f.signifOf y = 0 := (Nat.mul_eq_zero.mp equal).resolve_right (Nat.mul_pos (pow2_fst_pos _) (pow2_snd_pos _)).ne'
    exact .inr ⟨eq_signBit_of_signifOf fits xBound zero, eq_signBit_of_signifOf fits yBound yZero⟩
  · have nonzero : f.signifOf x * (pow2 (f.exponentOf x - f.p + 1)).1 * (pow2 (f.exponentOf y - f.p + 1)).2 ≠ 0 :=
      Nat.mul_ne_zero (Nat.mul_ne_zero zero (pow2_fst_pos _).ne') (pow2_snd_pos _).ne'
    obtain ⟨neg, magnitude⟩ := signedNum_inj equal nonzero
    have value := le_antisymm ((pow2_cross_le_iff _ _ _ _).mp magnitude.le) ((pow2_cross_le_iff _ _ _ _).mp magnitude.ge)
    rcases le_total (f.exponentOf x) (f.exponentOf y) with order | order
    · obtain ⟨signif, exponent⟩ := xGrid.unique yGrid fits.p_pos value order
      exact .inl (eq_of_fields fits xBound yBound neg signif exponent)
    · obtain ⟨signif, exponent⟩ := yGrid.unique xGrid fits.p_pos value.symm order
      exact .inl (eq_of_fields fits xBound yBound neg signif.symm exponent.symm)

/-- Numbers neither of which is less have one pattern, or are zeros. -/
theorem eq_or_zeros_of_not_lt (xNum : (f.decode x).isNan = false) (yNum : (f.decode y).isNan = false)
    (notLess : (f.decode x).lt (f.decode y) = false) (notGreater : (f.decode y).lt (f.decode x) = false) :
    x = y ∨ x = f.signBit (f.negOf x) ∧ y = f.signBit (f.negOf y) := by
  rcases decode_cases fits xNum with ⟨xInf, -, xExp, xFrac⟩ | ⟨xFinite, xTop⟩ <;>
    rcases decode_cases fits yNum with ⟨yInf, -, yExp, yFrac⟩ | ⟨yFinite, yTop⟩
  case inl.inl =>
    have sign : f.negOf x = f.negOf y := by
      cases hx : f.negOf x <;> cases hy : f.negOf y <;> simp [xInf, yInf, hx, hy, Val.lt] at notLess notGreater ⊢
    exact .inl (by rw [← infBits_fields fits xBound xExp xFrac, ← infBits_fields fits yBound yExp yFrac, sign])
  case inl.inr =>
    simp only [xInf, yFinite, finiteOf, Val.scaled, Val.lt, Bool.not_eq_false'] at notLess notGreater
    exact absurd notGreater (by simp [notLess])
  case inr.inl =>
    simp only [xFinite, yInf, finiteOf, Val.scaled, Val.lt, Bool.not_eq_false'] at notLess notGreater
    exact absurd notLess (by simp [notGreater])
  case inr.inr =>
    rw [xFinite, yFinite] at notLess notGreater
    exact eq_or_zeros_of_finiteOf fits xBound yBound xTop yTop notLess notGreater

end

end FFmt

end Sys2Proof.Machine
end

section
/-! SUPPORT. The element-wise instructions that draw nothing (R173-R175, R178, R180). -/

namespace Sys2Proof.Machine

/-! ## Fields of a floating-point element (R58) -/

section
variable {r : R} (fp : isFp r.fmt = true)
include fp

theorem fits_of_isFp : (floatFmt r.fmt).Fits := by
  have few : r.fmt ≤ 2 := by simpa [isFp] using fp
  apply FFmt.fits_of_mem
  interval_cases r.fmt <;> decide

/-- The sign bit of a floating-point element is its highest bit. -/
theorem sign_add_one : (floatFmt r.fmt).sign + 1 = fmtWidth r.fmt := by
  have few : r.fmt ≤ 2 := by simpa [isFp] using fp
  interval_cases r.fmt <;> rfl

theorem sign_eq : (floatFmt r.fmt).sign = fmtWidth r.fmt - 1 := Nat.eq_sub_of_add_eq (sign_add_one fp)

theorem element_lt (a : BitVec (fmtWidth r.fmt)) : a.toNat < 2 ^ ((floatFmt r.fmt).sign + 1) := by
  rw [sign_add_one fp]
  exact a.isLt

theorem signElement_toNat : (signElement r).toNat = 2 ^ (floatFmt r.fmt).sign := by
  rw [signElement, BitVec.toNat_ofNat, ← sign_eq fp]
  exact Nat.mod_eq_of_lt (Nat.pow_lt_pow_right (by omega) (by have := sign_add_one fp; omega))

end

theorem FFmt.signBit_eq (f : FFmt) (signed : f.kind ≠ .e3m5) (s : Bool) : f.signBit s = if s then 2 ^ f.sign else 0 := by
  simp [FFmt.signBit, signed]

section
variable {w : Nat} (a b : BitVec w)

theorem ofNat_ite_toNat (p : Prop) [Decidable p] : BitVec.ofNat w (if p then a.toNat else b.toNat) = if p then a else b := by
  split <;> rw [BitVec.ofNat_toNat, BitVec.setWidth_eq]

end

/-! ## Smaller and larger (R173, R174) -/

section
variable {r : R} (a b : BitVec (fmtWidth r.fmt)) (d c : Nat)

/-- Floating-point elements neither of which is less are one, or are zeros: each a sign bit or nothing. -/
theorem eq_or_zeros_of_valueOf (fp : isFp r.fmt = true) (aNum : (valueOf r a).isNan = false) (bNum : (valueOf r b).isNan = false)
    (notLess : (valueOf r a).lt (valueOf r b) = false) (notGreater : (valueOf r b).lt (valueOf r a) = false) :
    a = b ∨ (a = 0 ∨ a = signElement r) ∧ (b = 0 ∨ b = signElement r) := by
  have fits := fits_of_isFp fp
  have zero_or_sign (x : BitVec (fmtWidth r.fmt)) {s : Bool} (bits : x.toNat = (floatFmt r.fmt).signBit s) : x = 0 ∨ x = signElement r := by
    rw [FFmt.signBit_eq _ fits.signed] at bits
    cases s
    · exact .inl (BitVec.eq_of_toNat_eq (by simpa using bits))
    · exact .inr (BitVec.eq_of_toNat_eq (by simpa [signElement_toNat fp] using bits))
  rcases FFmt.eq_or_zeros_of_not_lt fits (element_lt fp a) (element_lt fp b) aNum bNum notLess notGreater with same | ⟨aZero, bZero⟩
  · exact .inl (BitVec.eq_of_toNat_eq same)
  · exact .inr ⟨zero_or_sign a aZero, zero_or_sign b bZero⟩

theorem signF_zero : signF r 0 = false := by simp [signF]

theorem signF_signElement (fp : isFp r.fmt = true) : signF r (signElement r).toNat = true := by
  rw [signF, signElement_toNat fp, Nat.testBit_two_pow_self]

/-- Of two zeros the smaller has the sign bit when one of them has. -/
theorem min_of_tie (fp : isFp r.fmt = true) (tie : a = b ∨ (a = 0 ∨ a = signElement r) ∧ (b = 0 ∨ b = signElement r)) :
    (if signF r a.toNat = true then a else b) = a ||| b := by
  rcases tie with rfl | ⟨rfl | rfl, rfl | rfl⟩
  case inl => simp
  all_goals simp [signF_zero, signF_signElement fp]

/-- Of two zeros the larger has the sign bit when both have. -/
theorem max_of_tie (fp : isFp r.fmt = true) (tie : a = b ∨ (a = 0 ∨ a = signElement r) ∧ (b = 0 ∨ b = signElement r)) :
    (if signF r a.toNat = true then b else a) = a &&& b := by
  rcases tie with rfl | ⟨rfl | rfl, rfl | rfl⟩
  case inl => simp
  all_goals simp [signF_zero, signF_signElement fp]

end

/-! ## Values of the instructions (R173-R175, R178, R180) -/

/-- What an instruction on V[A] and V[B] that draws nothing does, from its values on elements. -/
theorem ElementResult.of_effPlain {make : R → Instr} {latency : R → Nat} {f : (r : R) → (a b : BitVec (fmtWidth r.fmt)) → BitVec (fmtWidth r.fmt)}
    {op : R → ElemOp} (meaning : ∀ r s, exec (make r) s = issue (make r) s (effPlain (make r) r (op r)))
    (lat : ∀ r, (make r).WellFormed → (make r).lat = latency r)
    (value : ∀ (r : R) (a b : BitVec (fmtWidth r.fmt)) (c : Nat), BitVec.ofNat (fmtWidth r.fmt) (op r 0 a.toNat b.toNat c) = f r a b) :
    ElementResult (plainOp make latency f) := by
  refine .of_effElems (rs := fun _ => false) (op := fun r => (op r).onSources r)
    (fun r s => (meaning r s).trans (by rw [effPlain_eq]; rfl)) (fun _ => rfl) lat fun r m d j _ zero => ?_
  rw [zero rfl, ElemOp.onSources, elem_eq_toNat, elem_eq_toNat, value]
  rfl

section
variable (r : R) (a b : BitVec (fmtWidth r.fmt)) (c : Nat)

theorem sx_toNat : sx r a.toNat = a.toInt := by
  rw [sx, sextNat_eq_toInt (fmtWidth_pos _), BitVec.ofNat_toNat, BitVec.setWidth_eq]

theorem decF_toNat : decF r a.toNat = valueOf r a := by rw [decF, valueOf]

theorem opMin_eq : BitVec.ofNat (fmtWidth r.fmt) (opMin r 0 a.toNat b.toNat c) =
    if isFp r.fmt then
      if (valueOf r a).isNan || (valueOf r b).isNan then nanElement r
      else if (valueOf r a).lt (valueOf r b) then a else if (valueOf r b).lt (valueOf r a) then b else a ||| b
    else if a.toInt ≤ b.toInt then a else b := by
  simp only [opMin, decF_toNat, sx_toNat]
  by_cases fp : isFp r.fmt = true
  · rw [if_pos fp, if_pos fp]
    split_ifs with nan less greater sign
    · rfl
    · simp
    · simp
    all_goals
      simp only [Bool.or_eq_true, not_or, Bool.not_eq_true] at nan less greater
      rw [← min_of_tie a b fp (eq_or_zeros_of_valueOf a b fp nan.1 nan.2 less greater)]
      simp [sign]
  · rw [if_neg fp, if_neg fp, ← ite_lt_eq_ite_le]
    simp only [decide_eq_true_eq, ofNat_ite_toNat]

theorem opMax_eq : BitVec.ofNat (fmtWidth r.fmt) (opMax r 0 a.toNat b.toNat c) =
    if isFp r.fmt then
      if (valueOf r a).isNan || (valueOf r b).isNan then nanElement r
      else if (valueOf r a).lt (valueOf r b) then b else if (valueOf r b).lt (valueOf r a) then a else a &&& b
    else if b.toInt ≤ a.toInt then a else b := by
  simp only [opMax, decF_toNat, sx_toNat]
  by_cases fp : isFp r.fmt = true
  · rw [if_pos fp, if_pos fp]
    split_ifs with nan less greater sign
    · rfl
    · simp
    · simp
    all_goals
      simp only [Bool.or_eq_true, not_or, Bool.not_eq_true] at nan less greater
      rw [← max_of_tie a b fp (eq_or_zeros_of_valueOf a b fp nan.1 nan.2 less greater)]
      simp [sign]
  · rw [if_neg fp, if_neg fp, ← ite_lt_eq_ite_le]
    simp only [decide_eq_true_eq, ofNat_ite_toNat]

theorem opMinu_eq : BitVec.ofNat (fmtWidth r.fmt) (opMinu r 0 a.toNat b.toNat c) = if a.toNat ≤ b.toNat then a else b := by
  rw [opMinu, min_def, ofNat_ite_toNat]

theorem opMaxu_eq : BitVec.ofNat (fmtWidth r.fmt) (opMaxu r 0 a.toNat b.toNat c) = if b.toNat ≤ a.toNat then a else b := by
  rw [opMaxu, max_comm, max_def, ofNat_ite_toNat]

/-- Clearing the sign bit. -/
theorem opAbs_eq : BitVec.ofNat (fmtWidth r.fmt) (opAbs r 0 a.toNat b.toNat c) =
    if isFp r.fmt then (if (valueOf r a).isNan then nanElement r else a &&& ~~~signElement r) else integerOp r a.toInt.natAbs := by
  simp only [opAbs, decF_toNat, sx_toNat]
  split_ifs with fp nan
  · rfl
  · apply BitVec.eq_of_getLsbD_eq
    intro k low
    have top := sign_eq fp
    rw [BitVec.getLsbD_ofNat, BitVec.getLsbD_and, BitVec.getLsbD_not, signElement, BitVec.getLsbD_ofNat, Nat.testBit_mod_two_pow,
      Nat.testBit_two_pow, top]
    rcases Nat.lt_or_ge k (fmtWidth r.fmt - 1) with below | sign
    · simp [below, low, below.ne', BitVec.getLsbD]
    · simp [(by omega : k = fmtWidth r.fmt - 1)]
  · exact ofNat_intOut ..

theorem opNeg_eq : BitVec.ofNat (fmtWidth r.fmt) (opNeg r 0 a.toNat b.toNat c) =
    if isFp r.fmt then (if (valueOf r a).isNan then nanElement r else a ^^^ signElement r) else integerOp r (-a.toInt) := by
  simp only [opNeg, decF_toNat, sx_toNat]
  split_ifs with fp nan
  · rfl
  · rw [← signElement_toNat fp, ← BitVec.toNat_xor, BitVec.ofNat_toNat, BitVec.setWidth_eq]
  · exact ofNat_intOut ..

theorem opAndn_eq : BitVec.ofNat (fmtWidth r.fmt) (opAndn r 0 a.toNat b.toNat c) = a &&& ~~~b := by
  rw [opAndn, ← BitVec.toNat_not, ← BitVec.toNat_and, BitVec.ofNat_toNat, BitVec.setWidth_eq]

theorem opShl_eq : BitVec.ofNat (fmtWidth r.fmt) (opShl r 0 a.toNat b.toNat c) = if fmtWidth r.fmt ≤ b.toNat then 0 else a <<< b.toNat := by
  rw [opShl]
  split_ifs
  · rfl
  · rw [← Nat.shiftLeft_eq, ← BitVec.toNat_shiftLeft, BitVec.ofNat_toNat, BitVec.setWidth_eq]

theorem opShr_eq : BitVec.ofNat (fmtWidth r.fmt) (opShr r 0 a.toNat b.toNat c) = if fmtWidth r.fmt ≤ b.toNat then 0 else a >>> b.toNat := by
  rw [opShr]
  split_ifs
  · rfl
  · rw [← Nat.shiftRight_eq_div_pow, ← BitVec.toNat_ushiftRight, BitVec.ofNat_toNat, BitVec.setWidth_eq]

theorem opSar_eq : BitVec.ofNat (fmtWidth r.fmt) (opSar r 0 a.toNat b.toNat c) = a.sshiftRight (min b.toNat (fmtWidth r.fmt - 1)) := by
  rw [opSar, ofNat_truncInt, sx_toNat, BitVec.sshiftRight_eq, Int.shiftRight_eq_div_pow, Nat.cast_pow, Nat.cast_ofNat]

end

/-- A bitwise operation on elements is the one on words. -/
theorem ofNat_toNat_self {w : Nat} (x : BitVec w) : BitVec.ofNat w x.toNat = x := by rw [BitVec.ofNat_toNat, BitVec.setWidth_eq]

theorem selectingOps_result : ∀ c ∈ selectingOps, ElementResult c := by
  have both {r : R} (ok : (isFp r.fmt || isInt r.fmt) = true) : isFp r.fmt = true ∨ isInt r.fmt = true := by simpa using ok
  simp only [selectingOps, List.forall_mem_cons]
  exact ⟨.of_effPlain (op := opMin) (fun _ _ => rfl) (fun _ h => mixedLatency_eq (both (Instr.WellFormed.extra h))) opMin_eq,
    .of_effPlain (op := opMax) (fun _ _ => rfl) (fun _ h => mixedLatency_eq (both (Instr.WellFormed.extra h))) opMax_eq,
    .of_effPlain (op := opMinu) (fun _ _ => rfl) (fun _ _ => rfl) opMinu_eq,
    .of_effPlain (op := opMaxu) (fun _ _ => rfl) (fun _ _ => rfl) opMaxu_eq,
    .of_effPlain (op := opAbs) (fun _ _ => rfl) (fun _ _ => rfl) fun r a => opAbs_eq r a,
    .of_effPlain (op := opNeg) (fun _ _ => rfl) (fun _ _ => rfl) fun r a => opNeg_eq r a, List.forall_mem_nil _⟩

theorem logicOps_result : ∀ c ∈ logicOps, ElementResult c := by
  simp only [logicOps, List.forall_mem_cons]
  exact ⟨.of_effPlain (op := opAnd) (fun _ _ => rfl) (fun _ _ => rfl) fun _ _ _ _ => ofNat_toNat_self (_ &&& _),
    .of_effPlain (op := opOr) (fun _ _ => rfl) (fun _ _ => rfl) fun _ a b _ => by rw [opOr, ← BitVec.toNat_or, ofNat_toNat_self],
    .of_effPlain (op := opXor) (fun _ _ => rfl) (fun _ _ => rfl) fun _ a b _ => by rw [opXor, ← BitVec.toNat_xor, ofNat_toNat_self],
    .of_effPlain (op := opAndn) (fun _ _ => rfl) (fun _ _ => rfl) opAndn_eq,
    .of_effPlain (op := opShl) (fun _ _ => rfl) (fun _ _ => rfl) opShl_eq,
    .of_effPlain (op := opShr) (fun _ _ => rfl) (fun _ _ => rfl) opShr_eq,
    .of_effPlain (op := opSar) (fun _ _ => rfl) (fun _ _ => rfl) opSar_eq, List.forall_mem_nil _⟩

theorem moveOps_result : ∀ c ∈ moveOps, ElementResult c := by
  simp only [moveOps, List.forall_mem_cons]
  refine ⟨.of_effElems (rs := fun _ => false) (op := fun r m _ _ => (m.srcB r).toNat % 2 ^ fmtWidth r.fmt) (fun _ _ => rfl) (fun _ => rfl)
      (fun _ _ => rfl) fun r m d j _ _ => ?bcast,
    .of_effElems (rs := fun _ => false) (op := fun r _ _ j => if isInt r.fmt then j else (floatFmt r.fmt).roundRne (Val.ofInt j))
      (fun _ _ => rfl) (fun _ => rfl) (fun _ _ => rfl) fun r m d j _ _ => ?idx,
    .of_effElems (rs := fun _ => false) (op := fun r m _ j => elem (fmtWidth r.fmt) (m.v r.a.toNat)
      (elem (fmtWidth r.fmt) (m.v r.b.toNat) j % fmtCount r.fmt)) (fun _ _ => rfl) (fun _ => rfl) (fun _ _ => rfl) fun r m d j _ _ => ?perm,
    .of_effElems (rs := fun _ => false) (op := fun r m _ j => elem (fmtWidth r.fmt) (m.v r.a.toNat) ((j + m.pick r) % fmtCount r.fmt))
      (fun _ _ => rfl) (fun _ => rfl) (fun _ _ => rfl) fun r m d j _ _ => ?rot, List.forall_mem_nil _⟩
  case bcast => exact (ofNat_eq_of_mod_eq (Nat.mod_mod ..)).trans (BitVec.ofNat_toNat ..)
  case idx => rfl
  case perm => exact (ofNat_elem ..).trans (by rw [elem_eq_toNat])
  case rot => exact ofNat_elem ..

/-- A function of R180 as a word: its BF16 pattern, in the upper half of an FP32 element. -/
def bf16Element (f : Val → Val) (r : R) (a _ : BitVec (fmtWidth r.fmt)) : BitVec (fmtWidth r.fmt) :=
  BitVec.ofNat _ (fBf16.round (RMode.of r.rm) r.ovf 0 (f (valueOf r a)) * (if r.fmt = 0 then 2 ^ 16 else 1))

theorem opBf16_eq (f : Val → Val) (r : R) (a b : BitVec (fmtWidth r.fmt)) (c : Nat) :
    BitVec.ofNat (fmtWidth r.fmt) (opBf16 r f 0 a.toNat b.toNat c) = bf16Element f r a b := by
  rw [opBf16, bf16Element, decF_toNat, mul_ite, mul_one]

theorem functionOps_result : ∀ c ∈ functionOps, ElementResult c := by
  simp only [functionOps, List.forall_mem_cons]
  exact ⟨.of_effPlain (f := bf16Element fnRcp) (fun _ _ => rfl) (fun _ _ => rfl) (opBf16_eq fnRcp),
    .of_effPlain (f := bf16Element fnRsqrt) (fun _ _ => rfl) (fun _ _ => rfl) (opBf16_eq fnRsqrt),
    .of_effPlain (f := bf16Element fnExp2) (fun _ _ => rfl) (fun _ _ => rfl) (opBf16_eq fnExp2),
    .of_effPlain (f := bf16Element fnLog2) (fun _ _ => rfl) (fun _ _ => rfl) (opBf16_eq fnLog2),
    .of_effPlain (f := fun r a _ => roundedOp r 0 (fnSqrt (valueOf r a))) (fun _ _ => rfl) (fun _ _ => rfl) (op := opSqrt) fun r a b c => by
      rw [opSqrt, decF_toNat, ofNat_roundF], List.forall_mem_nil _⟩

/-- The element-wise instructions that draw nothing write what their elements give. -/
theorem plainOps_result : ∀ c ∈ selectingOps ++ logicOps ++ moveOps ++ functionOps, ElementResult c := by
  simp only [List.mem_append]
  rintro c (((selecting | logic) | move) | function)
  · exact selectingOps_result c selecting
  · exact logicOps_result c logic
  · exact moveOps_result c move
  · exact functionOps_result c function

end Sys2Proof.Machine
end

section
/-! SUPPORT. The functions of R180: square roots, powers of 2 and logarithms, and the statement about the element-wise instructions that draw
nothing. -/

namespace Sys2Proof.Machine

/-! ## Square roots -/

/-- The search by bits, between a number whose square is not above n and one whose square is. -/
theorem isqrtFrom_spec (n i acc : Nat) (low : acc * acc ≤ n) (high : n < (acc + 2 ^ i) * (acc + 2 ^ i)) :
    isqrtFrom n i acc * isqrtFrom n i acc ≤ n ∧ n < (isqrtFrom n i acc + 1) * (isqrtFrom n i acc + 1) := by
  induction i generalizing acc with
  | zero => exact ⟨low, high⟩
  | succ i ih =>
    have twice : acc + 2 ^ (i + 1) = acc + 2 ^ i + 2 ^ i := by ring
    rw [twice] at high
    simp only [isqrtFrom]
    split
    · next fits => exact ih _ fits high
    · next above => exact ih _ low (Nat.lt_of_not_le above)

theorem isqrt_eq_sqrt (n : Nat) : isqrt n = Nat.sqrt n := by
  have high : n < (0 + 2 ^ (Nat.log2 n / 2 + 1)) * (0 + 2 ^ (Nat.log2 n / 2 + 1)) := by
    rw [zero_add, ← pow_add]
    exact Nat.lt_log2_self.trans_le (Nat.pow_le_pow_right two_pos (by omega))
  exact Nat.eq_sqrt.mpr (isqrtFrom_spec n _ 0 (Nat.zero_le _) high)

/-- Half a step above the root of p·q·s² lies within half a step of √(p/q), in steps of 1/(q·s). -/
theorem square_between {p q s x : Nat} (low : x * x < p * q * (s * s)) (high : p * q * (s * s) < (x + 1) * (x + 1)) (pos : 0 < q) :
    (2 * x + 1 - 1) * (2 * x + 1 - 1) * q < p * (q * (s * 2)) * (q * (s * 2)) ∧
    p * (q * (s * 2)) * (q * (s * 2)) < (2 * x + 1 + 1) * (2 * x + 1 + 1) * q := by
  have root : p * (q * (s * 2)) * (q * (s * 2)) = 4 * q * (p * q * (s * s)) := by ring
  have below : (2 * x + 1 - 1) * (2 * x + 1 - 1) * q = 4 * q * (x * x) := by rw [Nat.add_sub_cancel]; ring
  have above : (2 * x + 1 + 1) * (2 * x + 1 + 1) * q = 4 * q * ((x + 1) * (x + 1)) := by ring
  rw [root, below, above]
  exact ⟨Nat.mul_lt_mul_of_pos_left low (by omega), Nat.mul_lt_mul_of_pos_left high (by omega)⟩

/-- The square root of a positive fraction is near the root (R180). -/
theorem sqrtVal_near {p q : Nat} (ppos : 0 < p) (qpos : 0 < q) : ∃ a b, sqrtVal p q = .fin false a b ∧ NearRoot p q a b := by
  have scale : (2 : Nat) ^ 640 = 2 ^ 320 * 2 ^ 320 := by rw [← pow_add]
  have twice : (2 : Nat) ^ 321 = 2 ^ 320 * 2 := by rw [← pow_succ]
  have pos : (0 : Nat) < 2 ^ 320 := by positivity
  simp only [sqrtVal, NearRoot, isqrt_eq_sqrt, scale, twice]
  generalize (2 : Nat) ^ 320 = s at pos
  have low := Nat.sqrt_le (p * q * (s * s))
  have high := Nat.lt_succ_sqrt (p * q * (s * s))
  have large : s ≤ Nat.sqrt (p * q * (s * s)) := Nat.le_sqrt.mpr (Nat.le_mul_of_pos_left _ (Nat.mul_pos ppos qpos))
  generalize Nat.sqrt (p * q * (s * s)) = x at low high large
  by_cases exact_ : x * x = p * q * (s * s)
  · refine ⟨x, q * s, if_pos exact_, Nat.mul_pos qpos pos, .inl ?_⟩
    rw [exact_]
    ring
  · refine ⟨2 * x + 1, q * (s * 2), if_neg exact_, Nat.mul_pos qpos (Nat.mul_pos pos two_pos), .inr ⟨by omega, ?_⟩⟩
    exact square_between (lt_of_le_of_ne low exact_) high qpos

/-! ## Powers of 2 -/

theorem pow2_natCast (n : Nat) : pow2 (n : Int) = (2 ^ n, 1) := by simp [pow2]

theorem pow2_neg_natCast (n : Nat) : pow2 (-(n : Int)) = (1, 2 ^ n) := by
  rcases Nat.eq_zero_or_pos n with rfl | pos
  · rfl
  · simp [pow2, pos.ne']

/-- The power lies between that of no bit and that of every bit, in fixed point. -/
theorem exp2Bits_bounds (bits : List Bool) (c acc : Nat) (one : 2 ^ 512 ≤ c) :
    acc ≤ exp2Bits bits c acc ∧ exp2Bits bits c acc * 2 ^ 512 ≤ acc * c := by
  induction bits generalizing c acc with
  | nil => exact ⟨le_refl _, Nat.mul_le_mul_left _ one⟩
  | cons b bits ih =>
    simp only [exp2Bits, isqrt_eq_sqrt]
    have pos : (0 : Nat) < 2 ^ 512 := by positivity
    have root := Nat.sqrt_le (c * 2 ^ 512)
    have rootOne : 2 ^ 512 ≤ Nat.sqrt (c * 2 ^ 512) := Nat.le_sqrt.mpr (Nat.mul_le_mul_right _ one)
    generalize Nat.sqrt (c * 2 ^ 512) = d at root rootOne
    have rest := ih d (if b then acc * d / 2 ^ 512 else acc) rootOne
    generalize exp2Bits bits d (if b then acc * d / 2 ^ 512 else acc) = y at rest
    generalize (2 : Nat) ^ 512 = s at *
    have less : d ≤ c := by nlinarith
    obtain ⟨low, high⟩ := rest
    cases b
    · exact ⟨low, high.trans (Nat.mul_le_mul_left _ less)⟩
    · have step : acc * d / s * s ≤ acc * d := Nat.div_mul_le_self ..
      simp only [if_true] at low high
      refine ⟨((Nat.le_div_iff_mul_le pos).mpr (Nat.mul_le_mul_left _ rootOne)).trans low, ?_⟩
      refine Nat.le_of_mul_le_mul_right (?_ : y * s * s ≤ acc * c * s) pos
      calc y * s * s ≤ acc * d / s * d * s := Nat.mul_le_mul_right _ high
        _ = acc * d / s * s * d := by ring
        _ ≤ acc * d * d := Nat.mul_le_mul_right _ step
        _ = acc * (d * d) := by ring
        _ ≤ acc * (c * s) := Nat.mul_le_mul_left _ root
        _ = acc * c * s := by ring

/-- Powers of 2 with whole exponents that no format's range reaches beyond. -/
theorem exp2Val_whole (neg : Bool) {n : Nat} (bound : n ≤ 4096) : exp2Val neg n 1 = .scaled false 1 (signedNum neg n) := by
  have range : ¬ signedNum neg n > 4096 ∧ ¬ signedNum neg n < -4096 := by cases neg <;> simp [signedNum] <;> omega
  simp [exp2Val, range]

/-- From 1 up to the base, in fixed point. -/
theorem exp2Bits_one_le (bits : List Bool) {c : Nat} (one : 2 ^ 512 ≤ c) :
    2 ^ 512 ≤ exp2Bits bits c (2 ^ 512) ∧ exp2Bits bits c (2 ^ 512) ≤ c := by
  obtain ⟨low, high⟩ := exp2Bits_bounds bits c (2 ^ 512) one
  rw [mul_comm] at high
  exact ⟨low, le_of_mul_le_mul_left high (by positivity)⟩

/-- Between whole exponents, so is the power. -/
theorem exp2Val_between {p q i : Nat} (bound : i < 4096) (low : i * q < p) (high : p < (i + 1) * q) :
    ∃ m, exp2Val false p q = .scaled false m ((i : Int) - 513) ∧ 2 ^ 513 < m ∧ m ≤ 2 ^ 514 + 1 := by
  have qpos : 0 < q := Nat.pos_of_ne_zero (by rintro rfl; simp at high)
  have whole : p / q = i := Nat.div_eq_of_lt_le low.le high
  have fraction : p % q ≠ 0 := by
    have := Nat.div_add_mod p q
    rw [whole, mul_comm] at this
    omega
  refine ⟨2 * exp2Bits (bitsDown (p % q) (Nat.log2 q)) (2 ^ 513) (2 ^ 512) + 1, ?_, ?_⟩
  · have quotient : (signedNum false p) / (q : Int) = (i : Int) := by rw [← whole]; rfl
    have rest : ((signedNum false p) % (q : Int)).toNat = p % q := rfl
    simp only [exp2Val, quotient, rest, fraction, if_false]
    rw [if_neg (by omega), if_neg (by omega)]
  · have once : (2 : Nat) ^ 513 = 2 ^ 512 * 2 := by rw [← pow_succ]
    have twice : (2 : Nat) ^ 514 = 2 ^ 513 * 2 := by rw [← pow_succ]
    rw [twice]
    generalize (2 : Nat) ^ 513 = t at once ⊢
    obtain ⟨low, high⟩ := exp2Bits_one_le (bitsDown (p % q) (Nat.log2 q)) (c := t) (by omega)
    omega

/-! ## Logarithms -/

theorem log2Bits_lt (i m acc : Nat) : log2Bits i m acc < (acc + 1) * 2 ^ i := by
  induction i generalizing m acc with
  | zero => simp [log2Bits]
  | succ i ih =>
    have twice : (acc + 1) * 2 ^ (i + 1) = (2 * acc + 1 + 1) * 2 ^ i := by ring
    simp only [log2Bits]
    rw [twice]
    split
    · exact ih ..
    · exact (ih ..).trans_le (Nat.mul_le_mul_right _ (by omega))

section
variable {p q : Nat} (ppos : 0 < p) (qpos : 0 < q)
include ppos qpos

/-- ⌊log₂ (p/q)⌋ is what its name says. -/
theorem floorLog2_bounds : (2 : ℚ) ^ floorLog2 p q ≤ p / q ∧ (p : ℚ) / q < 2 ^ (floorLog2 p q + 1) := by
  have q0 : (0 : ℚ) < q := Nat.cast_pos.mpr qpos
  have pLow : (2 : ℚ) ^ Nat.log2 p ≤ p := by exact_mod_cast Nat.log2_self_le ppos.ne'
  have pHigh : (p : ℚ) < 2 ^ (Nat.log2 p + 1) := by exact_mod_cast Nat.lt_log2_self
  have qLow : (2 : ℚ) ^ Nat.log2 q ≤ q := by exact_mod_cast Nat.log2_self_le qpos.ne'
  have qHigh : (q : ℚ) < 2 ^ (Nat.log2 q + 1) := by exact_mod_cast Nat.lt_log2_self
  have test : p * (pow2 ((Nat.log2 p : Int) - Nat.log2 q)).2 < q * (pow2 ((Nat.log2 p : Int) - Nat.log2 q)).1 ↔
      (p : ℚ) / q < 2 ^ ((Nat.log2 p : Int) - Nat.log2 q) := by
    have cross := pow2_cross_le_iff q p ((Nat.log2 p : Int) - Nat.log2 q) 0
    rw [show pow2 0 = (1, 1) from rfl] at cross
    rw [div_lt_iff₀ q0, ← not_le, ← not_le, mul_comm _ (q : ℚ)]
    simpa using not_congr cross
  simp only [floorLog2, test]
  split
  · next below =>
    refine ⟨?_, by simpa using below⟩
    rw [le_div_iff₀ q0]
    calc (2 : ℚ) ^ ((Nat.log2 p : Int) - Nat.log2 q - 1) * q
        ≤ 2 ^ ((Nat.log2 p : Int) - Nat.log2 q - 1) * 2 ^ (Nat.log2 q + 1) := by gcongr
      _ = 2 ^ Nat.log2 p := by
        rw [← zpow_natCast, ← zpow_add₀ two_ne_zero, ← zpow_natCast]
        congr 1
        push_cast
        ring
      _ ≤ p := pLow
  · next above =>
    refine ⟨not_lt.mp above, ?_⟩
    rw [div_lt_iff₀ q0]
    calc (p : ℚ) < 2 ^ (Nat.log2 p + 1) := pHigh
      _ = 2 ^ ((Nat.log2 p : Int) - Nat.log2 q + 1) * 2 ^ Nat.log2 q := by
        rw [← zpow_natCast, ← zpow_natCast, ← zpow_add₀ two_ne_zero]
        congr 1
        push_cast
        ring
      _ ≤ 2 ^ ((Nat.log2 p : Int) - Nat.log2 q + 1) * q := by gcongr

theorem floorLog2_eq {e : Nat} (low : 2 ^ e * q ≤ p) (high : p < 2 ^ (e + 1) * q) : floorLog2 p q = e := by
  have q0 : (0 : ℚ) < q := Nat.cast_pos.mpr qpos
  obtain ⟨floorLow, floorHigh⟩ := floorLog2_bounds ppos qpos
  have eLow : (2 : ℚ) ^ (e : Int) ≤ p / q := by
    rw [zpow_natCast, le_div_iff₀ q0]
    exact_mod_cast low
  have eHigh : (p : ℚ) / q < 2 ^ ((e : Int) + 1) := by
    rw [div_lt_iff₀ q0]
    exact_mod_cast high
  have up := (zpow_lt_zpow_iff_right₀ one_lt_two).mp (eLow.trans_lt floorHigh)
  have down := (zpow_lt_zpow_iff_right₀ one_lt_two).mp (floorLow.trans_lt eHigh)
  omega

/-- The logarithm of a power of 2 is whole. -/
theorem log2Val_power {e : Nat} (power : p = 2 ^ e * q) : log2Val p q = .fin false e 1 := by
  have floor := floorLog2_eq ppos qpos (e := e) power.ge (by rw [power, pow_succ]; nlinarith [Nat.mul_pos (Nat.two_pow_pos e) qpos])
  have isPower : p * 1 = q * 2 ^ e := by rw [power, mul_one, mul_comm]
  simp only [log2Val, floor, pow2_natCast, if_pos isPower]
  rfl

/-- Between powers of 2, the logarithm is between whole numbers. -/
theorem log2Val_between {e : Nat} (low : 2 ^ e * q < p) (high : p < 2 ^ (e + 1) * q) :
    ∃ n, log2Val p q = .fin false n (2 ^ 161) ∧ e * 2 ^ 161 < n ∧ n < (e + 1) * 2 ^ 161 := by
  have floor := floorLog2_eq ppos qpos low.le high
  have noPower : ¬ p * 1 = q * 2 ^ e := by rw [mul_one, mul_comm]; exact low.ne'
  have bits := log2Bits_lt 160 (p * 1 * 2 ^ 512 / (q * 2 ^ e)) 0
  simp only [log2Val, floor, pow2_natCast, if_neg noPower]
  generalize log2Bits 160 (p * 1 * 2 ^ 512 / (q * 2 ^ e)) 0 = y at bits
  refine ⟨e * 2 ^ 161 + (2 * y + 1), ?_, by omega, by omega⟩
  have whole : (e : Int) * 2 ^ 161 + (2 * y + 1) = ((e * 2 ^ 161 + (2 * y + 1) : Nat) : Int) := by push_cast; ring
  rw [whole, Int.natAbs_natCast, decide_eq_false (Int.not_lt.mpr (Int.natCast_nonneg _))]

end

/-! ## The statement -/

/-- The table of R180, operand by operand. -/
theorem specialOperands : SpecialOperands := by
  refine ⟨fun f mem => ?nan, fun neg q pos => ⟨rfl, rfl, rfl, ⟨1, one_pos, rfl⟩, ?zero⟩, rfl, rfl, fun p q ppos _ f mem => ?negative,
    fun p pos => ?one⟩
  case nan =>
    simp only [List.mem_cons, List.not_mem_nil, or_false] at mem
    rcases mem with rfl | rfl | rfl | rfl | rfl <;> rfl
  case zero =>
    have nothing : signedNum neg 0 = 0 := (signedNum_eq_zero neg 0).mpr rfl
    simp [fnExp2, exp2Val, nothing, Val.scaled, pow2]
  case negative =>
    have nonzero : p ≠ 0 := ppos.ne'
    simp only [List.mem_cons, List.not_mem_nil, or_false] at mem
    rcases mem with rfl | rfl | rfl
    · simp [fnRsqrt, nonzero]
    · simp [fnLog2, nonzero]
    · simp [fnSqrt, nonzero]
  case one => simpa [fnLog2, pos.ne'] using log2Val_power pos pos (e := 0) (by simp)

/-- The values of R180 on positive operands. -/
theorem functionValues : FunctionValues := by
  intro p q ppos qpos
  have nonzero : p ≠ 0 := ppos.ne'
  have power (n : Nat) : (2 : Nat) ^ n ≠ 0 := (Nat.two_pow_pos n).ne'
  refine ⟨fun neg => if_neg nonzero, ?sqrt, ?rsqrt, fun n bound => ⟨?up, ?down, ?log⟩, fun i bound low high => ?power, fun e low high => ?logs⟩
  case sqrt => simpa [fnSqrt, nonzero] using sqrtVal_near ppos qpos
  case rsqrt => simpa [fnRsqrt, nonzero] using sqrtVal_near qpos ppos
  case up => simp [fnExp2, exp2Val_whole false bound, Val.scaled, signedNum, pow2_natCast]
  case down => simp [fnExp2, exp2Val_whole true bound, Val.scaled, signedNum, pow2_neg_natCast]
  case log => simpa [fnLog2, power] using log2Val_power (Nat.two_pow_pos n) one_pos (e := n) (by simp)
  case power => exact exp2Val_between bound low high
  case logs => simpa only [fnLog2, nonzero, if_false, Bool.false_eq_true] using log2Val_between ppos qpos low high

/-- Settles O21: the instructions table by table, and the functions of R180. -/
theorem vectorElements : Obligations.VectorElements := ⟨plainOps_result, specialOperands, functionValues⟩

end Sys2Proof.Machine
end

section
/-! SUPPORT. Compares, selections, moves and mask instructions (R175-R178), and the statements about them. -/

namespace Sys2Proof.Machine

/-! ## Issuing with one result (R87) -/

section
variable {i : Instr} {s : State} {eff : State → Eff} {d : BitVec 6} (ready : Ready i s)
include ready

theorem issue_resultV {v : Vec} (done : eff (s.prepare i) = .done ((s.prepare i).resultV i d v)) :
    issue i s eff = .next ((s.prepare i).issued i (newWrite .fixed (s.cycle + i.lat) i.srcs ⟨.v, d.toNat⟩ v)) := by
  rw [State.resultV_eq, State.prepare_cycle] at done
  exact issue_withPend ready done

theorem issue_resultK {v : Mask} (done : eff (s.prepare i) = .done ((s.prepare i).resultK i d v)) :
    issue i s eff = .next ((s.prepare i).issued i (newWrite .fixed (s.cycle + i.lat) i.srcs ⟨.k, d.toNat⟩ (v.setWidth 1024))) := by
  rw [State.resultK_eq, State.prepare_cycle] at done
  exact issue_withPend ready done

end

/-! ## Compares (R175, R176) -/

/-- A bit of the mask that a test makes. -/
theorem maskOf_getLsbD (f : Nat → Bool) {j : Nat} (bound : j < 128) : (maskOf f).getLsbD j = f j := by
  have digits : (List.range 128).foldr (fun i acc => acc * 2 + (if f i then 1 else 0)) 0 =
      ((List.range 128).map (fun i => if f i then 1 else 0)).foldr (fun e acc => e % 2 + 2 * acc) 0 := by
    rw [List.foldr_map]
    congr 1
    funext i acc
    split <;> omega
  rw [maskOf, BitVec.getLsbD_ofNat, decide_eq_true bound, Bool.true_and, digits, Nat.testBit_eq_decide_div_mod_eq,
    foldr_digits_div_mod two_pos]
  cases h : f j <;> simp [bound, h]

/-- What a compare does (R176): the condition on each active element, and 0 for every other bit. -/
def CompareResult (c : (R → Instr) × ((r : R) → (a b : BitVec (fmtWidth r.fmt)) → Bool)) : Prop :=
  ∀ (r : R) (s : State), Ready (c.1 r) s →
    let p := s.prepare (c.1 r)
    let w := fmtWidth r.fmt
    ∃ v : Mask, exec (c.1 r) s = .next (p.issued (c.1 r)
        (newWrite .fixed (s.cycle + mixedLatency r) (c.1 r).srcs ⟨.k, r.d.toNat⟩ (v.setWidth 1024))) ∧
      ∀ j, j < 128 → v.getLsbD j = ((j < fmtCount r.fmt : Bool) && (p.me.k r.km).getLsbD j &&
        c.2 r (element w (p.me.v r.a.toNat) j) (element w (p.me.v r.b.toNat) j))

theorem CompareResult.of_effCompare {make : R → Instr} {f : (r : R) → (a b : BitVec (fmtWidth r.fmt)) → Bool} {cond : R → Nat → Nat → Bool}
    (meaning : ∀ r s, exec (make r) s = issue (make r) s (effCompare (make r) r (cond r)))
    (lat : ∀ r, (make r).WellFormed → (make r).lat = mixedLatency r)
    (value : ∀ (r : R) (a b : BitVec (fmtWidth r.fmt)), cond r a.toNat b.toNat = f r a b) : CompareResult (make, f) := by
  intro r s ready p w
  refine ⟨_, ?_, fun j bound => maskOf_getLsbD (fun j => (j < fmtCount r.fmt : Bool) && (p.me.k r.km).getLsbD j &&
    f r (element w (p.me.v r.a.toNat) j) (element w (p.me.v r.b.toNat) j)) bound⟩
  rw [meaning, ← lat r ready.legal]
  refine issue_resultK ready ?_
  simp only [effCompare, elem_eq_toNat, value]
  rfl

theorem condEq_eq (r : R) (a b : BitVec (fmtWidth r.fmt)) :
    condEq r a.toNat b.toNat = if isFp r.fmt then (valueOf r a).eq (valueOf r b) else decide (a = b) := by
  simp only [condEq, decF_toNat, sx_toNat, BitVec.toInt_inj]

theorem condLt_eq (r : R) (a b : BitVec (fmtWidth r.fmt)) :
    condLt r a.toNat b.toNat = if isFp r.fmt then (valueOf r a).lt (valueOf r b) else decide (a.toInt < b.toInt) := by
  simp only [condLt, decF_toNat, sx_toNat]

theorem condLe_eq (r : R) (a b : BitVec (fmtWidth r.fmt)) :
    condLe r a.toNat b.toNat = if isFp r.fmt then (valueOf r a).lt (valueOf r b) || (valueOf r a).eq (valueOf r b) else decide (a.toInt ≤ b.toInt) := by
  rw [condLe, condLt_eq, condEq_eq]
  split
  · rfl
  · rw [← Bool.decide_or]
    exact decide_eq_decide.mpr (by rw [le_iff_lt_or_eq, BitVec.toInt_inj])

theorem vectorCompares_result : ∀ c ∈ vectorCompares, CompareResult c := by
  have both {r : R} (ok : (isFp r.fmt || isInt r.fmt) = true) : isFp r.fmt = true ∨ isInt r.fmt = true := by simpa using ok
  have mixed {i : Instr} {r : R} (h : i.WellFormed) (extra : i.extra = (isFp r.fmt || isInt r.fmt)) : (if isInt r.fmt then 2 else 4) = mixedLatency r :=
    mixedLatency_eq (both (extra.symm.trans (Instr.WellFormed.extra h)))
  simp only [vectorCompares, List.forall_mem_cons]
  exact ⟨.of_effCompare (fun _ _ => rfl) (fun _ h => mixed h rfl) condEq_eq, .of_effCompare (fun _ _ => rfl) (fun _ h => mixed h rfl) condLt_eq,
    .of_effCompare (fun _ _ => rfl) (fun _ h => mixed h rfl) condLe_eq,
    .of_effCompare (cond := condUn) (fun _ _ => rfl) (fun _ h => mixedLatency_eq (.inl (Instr.WellFormed.extra h))) fun _ _ _ => rfl,
    .of_effCompare (cond := condLtu) (fun _ _ => rfl) (fun r h => by rw [mixedLatency, isFp_of_isInt (Instr.WellFormed.extra h)]; rfl) fun _ _ _ => rfl,
    List.forall_mem_nil _⟩

theorem Val.eq_nan_of_isNan {v : Val} (nan : v.isNan = true) : v = .nan := by
  cases v
  case nan => rfl
  all_goals exact absurd nan Bool.false_ne_true

/-- A modifier bit that the row leaves unused is 0 (R97). -/
theorem not_wellFormed_of_modifier {i : Instr} {row : Row} {r : R} {k : Nat} (enc : i.enc = .r row r) (set : r.m.getLsbD k = true)
    (unused : row.m.getLsbD k = false) (bound : k < 13) : ¬ i.WellFormed := by
  have nonzero : (r.m &&& ~~~row.m == 0) = false := beq_eq_false_iff_ne.mpr fun none => by
    have bit := congrArg (fun m => BitVec.getLsbD m k) none
    rw [BitVec.getLsbD_and, BitVec.getLsbD_not, set, unused, decide_eq_true bound] at bit
    exact absurd bit (by simp)
  simp only [Instr.WellFormed, Instr.legal, enc, Row.fields, nonzero, Bool.and_false, Bool.false_and, Bool.false_eq_true, not_false_iff]

end Sys2Proof.Machine

namespace Sys2Proof

open Machine

/-- Settles O22: compare by compare; the row of a compare leaves ZM unused. -/
theorem vectorCompares : Obligations.VectorCompares := by
  refine ⟨vectorCompares_result, fun c mem r zm => ?zm, fun x y nan => ?nan, fun b c p q => ?zero⟩
  case zm =>
    simp only [Machine.vectorCompares, List.mem_cons, List.not_mem_nil, or_false] at mem
    rcases mem with rfl | rfl | rfl | rfl | rfl
    all_goals exact not_wellFormed_of_modifier rfl zm (by rfl) (by omega)
  case nan =>
    rcases nan with left | right
    · exact Val.eq_nan_of_isNan left ▸ ⟨rfl, rfl⟩
    · exact Val.eq_nan_of_isNan right ▸ by cases x <;> exact ⟨rfl, rfl⟩
  case zero => cases b <;> cases c <;> simp [Val.eq, signedNum]

end Sys2Proof
end

section
/-! SUPPORT. Selections, moves between classes and mask instructions (R175, R177, R178), and the statement about them. -/

namespace Sys2Proof.Machine

/-! ## What the instructions come to -/

theorem exec_vsel (r : R) (s : State) : exec (.vsel r) s = issue (.vsel r) s (fun p =>
    .done (p.resultV (.vsel r) r.d (packElems (fmtWidth r.fmt) ((List.range (fmtCount r.fmt)).map (fun j =>
      if (p.me.k r.km).getLsbD j then elem (fmtWidth r.fmt) (p.me.v r.a.toNat) j else elem (fmtWidth r.fmt) (p.me.v r.b.toNat) j))))) := rfl

theorem exec_vins (r : R) (s : State) : exec (.vins r) s = issue (.vins r) s (fun p =>
    .done (p.resultV (.vins r) r.d (packElems (fmtWidth r.fmt) ((List.range (fmtCount r.fmt)).map (fun j =>
      if j = p.me.pick r then (p.me.g r.a.toNat).toNat % 2 ^ fmtWidth r.fmt else elem (fmtWidth r.fmt) (p.me.v r.d.toNat) j))))) := rfl

theorem exec_vcmpr (r : R) (s : State) : exec (.vcmpr r) s = issue (.vcmpr r) s (fun p =>
    .done (p.resultV (.vcmpr r) r.d (packElems (fmtWidth r.fmt)
      (((List.range (fmtCount r.fmt)).filter (fun j => (p.me.k r.km).getLsbD j)).map (fun j =>
        elem (fmtWidth r.fmt) (p.me.v r.a.toNat) j))))) := rfl

theorem exec_vext (r : R) (s : State) : exec (.vext r) s = issue (.vext r) s (fun p =>
    .done (p.resultG (.vext r) r.d (if isInt r.fmt then BitVec.ofInt 64 (sx r (elem (fmtWidth r.fmt) (p.me.v r.a.toNat) (p.me.pick r)))
      else BitVec.ofNat 64 (elem (fmtWidth r.fmt) (p.me.v r.a.toNat) (p.me.pick r))))) := rfl

theorem exec_kpopc (r : R) (s : State) : exec (.kpopc r) s = issue (.kpopc r) s (fun p =>
    .done (p.resultG (.kpopc r) r.d (BitVec.ofNat 64 (popcount (p.me.k r.a.toNat).toNat 128)))) := rfl

theorem exec_kfirst (r : R) (s : State) : exec (.kfirst r) s = issue (.kfirst r) s (fun p =>
    .done (p.resultG (.kfirst r) r.d
      (BitVec.ofNat 64 (((List.range 128).find? (fun j => (p.me.k r.a.toNat).getLsbD j)).getD 128)))) := rfl

theorem exec_kset (r : R) (s : State) : exec (.kset r) s = issue (.kset r) s (fun p =>
    .done (p.resultK (.kset r) r.d (BitVec.ofNat 128 ((p.me.g r.a.toNat).toNat + (p.me.srcB r).toNat * 2 ^ 64)))) := rfl

theorem exec_kget (r : R) (s : State) : exec (.kget r) s = issue (.kget r) s (fun p =>
    .done (p.resultG (.kget r) r.d ((p.me.k r.a.toNat).extractLsb' (if r.m.getLsbD 0 then 64 else 0) 64))) := rfl

/-! ## Values -/

/-- An element of a selection between two elements. -/
theorem ofNat_ite_elem {w : Nat} (p : Prop) [Decidable p] (x y : Vec) (i j : Nat) :
    BitVec.ofNat w (if p then elem w x i else elem w y j) = if p then element w x i else element w y j := by
  split <;> exact ofNat_elem ..

/-- An element of a list of elements, and 0 past its end. -/
theorem ofNat_getD_map_elem {w : Nat} (x : Vec) (l : List Nat) (j : Nat) :
    BitVec.ofNat w ((l.map (fun k => elem w x k)).getD j 0) = match l[j]? with
      | some k => element w x k
      | none => 0 := by
  rw [List.getD_eq_getElem?_getD, List.getElem?_map]
  cases l[j]? with
  | none => rfl
  | some k => exact ofNat_elem ..

/-- An element in a general register: signed for an integer format (R178). -/
theorem ite_elem_eq (r : R) (x : Vec) (j : Nat) :
    (if isInt r.fmt then BitVec.ofInt 64 (sx r (elem (fmtWidth r.fmt) x j)) else BitVec.ofNat 64 (elem (fmtWidth r.fmt) x j)) =
      if isInt r.fmt then (element (fmtWidth r.fmt) x j).signExtend 64 else (element (fmtWidth r.fmt) x j).setWidth 64 := by
  rw [sx_elem, elem_eq_toNat, BitVec.ofNat_toNat]
  rfl

/-- The lowest bit of a mask that is 1, or 128. -/
theorem find?_getLsbD_spec (x : Mask) : ((List.range 128).find? (fun j => x.getLsbD j)).getD 128 ≤ 128 ∧
    (∀ j, j < ((List.range 128).find? (fun j => x.getLsbD j)).getD 128 → x.getLsbD j = false) ∧
    (((List.range 128).find? (fun j => x.getLsbD j)).getD 128 < 128 →
      x.getLsbD (((List.range 128).find? (fun j => x.getLsbD j)).getD 128) = true) := by
  cases found : (List.range 128).find? (fun j => x.getLsbD j) with
  | none =>
    have none := List.find?_range_eq_none.mp found
    exact ⟨le_refl _, fun j below => by simpa using none j below, fun h => absurd h (Nat.lt_irrefl _)⟩
  | some n =>
    obtain ⟨one, mem, zeros⟩ := List.find?_range_eq_some.mp found
    exact ⟨(List.mem_range.mp mem).le, fun j below => by simpa using zeros j below, fun _ => one⟩

/-- A mask put together from two words. -/
theorem ofNat_add_mul_eq_append (x y : Word) : BitVec.ofNat 128 (x.toNat + y.toNat * 2 ^ 64) = y ++ x := by
  apply BitVec.eq_of_toNat_eq
  have xBound := x.isLt
  have yBound := y.isLt
  rw [BitVec.toNat_append, BitVec.toNat_ofNat, ← Nat.shiftLeft_add_eq_or_of_lt xBound, Nat.shiftLeft_eq]
  omega

/-! ## The statement -/

theorem exec_maskOp {c : (R → Instr) × (Mask → Mask → Mask)}
    (mem : c ∈ [(Instr.kand, fun (x y : Mask) => x &&& y), (.kor, fun x y => x ||| y), (.kxor, fun x y => x ^^^ y), (.kandn, fun x y => x &&& ~~~y)])
    (r : R) : (∀ s, exec (c.1 r) s = issue (c.1 r) s (effMask (c.1 r) r c.2)) ∧ (c.1 r).lat = 2 := by
  simp only [List.mem_cons, List.not_mem_nil, or_false] at mem
  rcases mem with rfl | rfl | rfl | rfl
  all_goals exact ⟨fun _ => rfl, rfl⟩

/-- Settles O23, instruction by instruction. -/
theorem vectorSelectionsAndMasks : Obligations.VectorSelectionsAndMasks := by
  refine ⟨⟨fun r s ready => ?vsel, fun r s ready => ?vins, fun r s ready => ?vcmpr, fun r s ready => ?vext⟩, fun c mem r s ready => ?logic,
    fun r s ready => ?kpopc, fun r s ready => ?kfirst, fun r s ready => ?kset, fun r s ready => ?kget⟩
  case vsel =>
    refine ⟨_, (exec_vsel r s).trans (issue_resultV ready rfl), fun j bound => ?_⟩
    rw [element_packElems_range (element_fits bound) bound, ofNat_ite_elem]
  case vins =>
    refine ⟨_, (exec_vins r s).trans (issue_resultV ready rfl), fun j bound => ?_⟩
    rw [element_packElems_range (element_fits bound) bound, apply_ite (BitVec.ofNat _), ofNat_elem,
      ofNat_eq_of_mod_eq (Nat.mod_mod ..), BitVec.ofNat_toNat]
    rfl
  case vcmpr =>
    refine ⟨_, (exec_vcmpr r s).trans (issue_resultV ready rfl), fun j bound => ?_⟩
    exact (element_packElems (element_fits bound) _).trans (ofNat_getD_map_elem ..)
  case vext =>
    intro p x
    rw [exec_vext, issue_resultG ready rfl, State.prepare_cycle, ite_elem_eq]
    rfl
  case logic =>
    obtain ⟨meaning, lat⟩ := exec_maskOp mem r
    intro p
    rw [meaning, ← lat]
    exact issue_resultK ready rfl
  case kpopc =>
    intro p
    rw [exec_kpopc, issue_resultG ready rfl, State.prepare_cycle, List.countP_eq_length_filter]
    rfl
  case kfirst =>
    intro p
    obtain ⟨le, zeros, one⟩ := find?_getLsbD_spec (p.me.k r.a.toNat)
    refine ⟨_, le, ?_, zeros, one⟩
    rw [exec_kfirst, issue_resultG ready rfl, State.prepare_cycle]
    rfl
  case kset =>
    intro p
    rw [exec_kset, ← ofNat_add_mul_eq_append]
    exact issue_resultK ready rfl
  case kget =>
    intro p
    rw [exec_kget, issue_resultG ready rfl, State.prepare_cycle]
    rfl

end Sys2Proof.Machine
end

section
/-! SUPPORT. Bounds of rounded patterns (R58, R66, R68), the reduction tree (R179), and the statement about reductions. -/

namespace Sys2Proof.Machine

/-! ## A rounded pattern fits its format -/

/-- A format with infinities and NaNs whose largest exponent is that of its largest finite value: what bounds its patterns. -/
structure FFmt.Interchange (f : FFmt) : Prop where
  kind : f.kind = .ieee
  width : f.sign = f.p - 1 + f.ebits
  exponents : 2 ^ f.ebits = 2 * f.bias + 2
  p_pos : 0 < f.p
  max_lt : ¬ 1 * (pow2 (f.bias + 1)).1 * (pow2 f.maxE).2 ≤ f.maxN * (pow2 f.maxE).1 * (pow2 (f.bias + 1)).2
  nan_lt : f.canonNan < 2 ^ (f.sign + 1)
  max_bits : ∀ s, f.maxBits s < 2 ^ (f.sign + 1)

theorem interchange_of_isFp {r : R} (fp : isFp r.fmt = true) : (floatFmt r.fmt).Interchange := by
  have few : r.fmt ≤ 2 := by simpa [isFp] using fp
  interval_cases r.fmt
  all_goals exact ⟨rfl, rfl, rfl, by decide, by decide, by decide, by decide⟩

theorem FFmt.signBit_le (f : FFmt) (s : Bool) : f.signBit s ≤ 2 ^ f.sign := by
  unfold FFmt.signBit
  split <;> simp

theorem FFmt.signBit_lt (f : FFmt) (s : Bool) : f.signBit s < 2 ^ (f.sign + 1) := (f.signBit_le s).trans_lt (Nat.pow_lt_pow_succ one_lt_two)

namespace FFmt.Interchange

variable {f : FFmt} (f_ok : f.Interchange)
include f_ok

theorem two_pow_sign : 2 ^ f.sign = (2 * f.bias + 2) * 2 ^ (f.p - 1) := by rw [f_ok.width, pow_add, f_ok.exponents, mul_comm]

/-- A magnitude below the sign bit, with a sign. -/
theorem lt_of_magnitude {s : Bool} {m : Nat} (below : m < (2 * f.bias + 2) * 2 ^ (f.p - 1)) : f.signBit s + m < 2 ^ (f.sign + 1) := by
  have sign := f.signBit_le s
  rw [← f_ok.two_pow_sign] at below
  rw [pow_succ]
  omega

theorem infBits_lt (s : Bool) : f.infBits s < 2 ^ (f.sign + 1) := by
  refine f_ok.lt_of_magnitude (Nat.mul_lt_mul_of_pos_right ?_ (by positivity))
  rw [f_ok.exponents]
  omega

/-- The exponent of a value that is not above the largest. -/
theorem exponent_lt {n m : Nat} {e : Int} (low : 2 ^ (f.p - 1 + m) ≤ n) (max : (n : ℚ) * 2 ^ (e - f.p + 1) ≤ f.maxN * 2 ^ f.maxE) :
    e + m < f.bias + 1 := by
  have top : (f.maxN : ℚ) * 2 ^ f.maxE < 2 ^ ((f.bias : Int) + 1) := by
    have cross := mt (pow2_cross_le_iff 1 f.maxN (f.bias + 1) f.maxE).mpr f_ok.max_lt
    simpa using cross
  have low : ((2 : ℚ) ^ (f.p - 1 + m)) ≤ n := by exact_mod_cast low
  have scaled : (2 : ℚ) ^ (e + m) < 2 ^ ((f.bias : Int) + 1) := by
    calc (2 : ℚ) ^ (e + m) = 2 ^ (f.p - 1 + m) * 2 ^ (e - f.p + 1) := by
          have := f_ok.p_pos
          rw [← zpow_natCast, ← zpow_add₀ two_ne_zero]
          congr 1
          omega
      _ ≤ n * 2 ^ (e - f.p + 1) := by gcongr
      _ ≤ f.maxN * 2 ^ f.maxE := max
      _ < 2 ^ ((f.bias : Int) + 1) := top
  exact (zpow_lt_zpow_iff_right₀ one_lt_two).mp scaled

theorem encode_lt {s : Bool} {n : Nat} {e : Int} (max : (n : ℚ) * 2 ^ (e - f.p + 1) ≤ f.maxN * 2 ^ f.maxE) :
    f.encode s n e < 2 ^ (f.sign + 1) := by
  have pos : 0 < 2 ^ (f.p - 1) := by positivity
  unfold FFmt.encode
  dsimp only
  split_ifs with subnormal normal
  · exact f_ok.lt_of_magnitude (subnormal.trans_le (Nat.le_mul_of_pos_left _ (by omega)))
  · have exponent := f_ok.exponent_lt (m := 0) (Nat.le_of_not_lt subnormal) max
    rw [add_assoc]
    refine f_ok.lt_of_magnitude ?_
    calc (e + f.bias).toNat * 2 ^ (f.p - 1) + (n - 2 ^ (f.p - 1)) < ((e + f.bias).toNat + 1) * 2 ^ (f.p - 1) := by rw [Nat.succ_mul]; omega
      _ ≤ (2 * f.bias + 2) * 2 ^ (f.p - 1) := Nat.mul_le_mul_right _ (by omega)
  · have exponent := f_ok.exponent_lt (m := 1) (by rw [pow_succ, mul_comm]; omega) max
    exact f_ok.lt_of_magnitude (Nat.mul_lt_mul_of_pos_right (by omega) pos)

theorem overflow_lt (rm : RMode) (ovf : Nat) (s : Bool) : f.overflow rm ovf s < 2 ^ (f.sign + 1) := by
  have inf := f_ok.infBits_lt
  have max := f_ok.max_bits
  unfold FFmt.overflow
  rw [f_ok.kind]
  split
  · exact max s
  split
  · exact f_ok.nan_lt
  cases rm with
  | rne => exact inf s
  | rs => exact inf s
  | rtz => exact max s
  | rup => cases s with
    | true => exact max true
    | false => exact inf false
  | rdn => cases s with
    | true => exact inf true
    | false => exact max false

/-- A rounded value is a pattern of its format. -/
theorem round_lt (rm : RMode) (ovf rnd : Nat) (v : Val) : f.round rm ovf rnd v < 2 ^ (f.sign + 1) := by
  cases v with
  | nan => exact f_ok.nan_lt
  | inf s =>
    simp only [FFmt.round, FFmt.specialInf, f_ok.kind]
    exact f_ok.infBits_lt s
  | fin s p q =>
    unfold FFmt.round
    dsimp only
    split
    · exact f.signBit_lt s
    generalize (if floorLog2 p q < f.emin then f.emin else floorLog2 p q) = e
    split
    · exact f_ok.overflow_lt rm ovf s
    next within => exact f_ok.encode_lt ((pow2_cross_le_iff _ _ _ _).mp (Nat.le_of_not_lt within))

end FFmt.Interchange

end Sys2Proof.Machine
end

section
/-! SUPPORT. The reduction tree (R179), and the statement about reductions. -/

namespace Sys2Proof.Machine

/-! ## The tree, level by level -/

/-- A level of the tree of R179: neighbours combined, with a draw each. -/
def reduceLevel (f : Nat → Nat → Nat → Nat) (t ds : List Nat) : List Nat :=
  (List.range (t.length / 2)).map (fun j => f (ds.getD j 0) (t.getD (2 * j) 0) (t.getD (2 * j + 1) 0))

theorem reduceTree_succ (f : Nat → Nat → Nat → Nat) (k : Nat) (t ds : List Nat) :
    reduceTree f (k + 1) t ds = reduceTree f k (reduceLevel f t ds) (ds.drop (t.length / 2)) := rfl

theorem reduceLevel_length (f : Nat → Nat → Nat → Nat) (t ds : List Nat) : (reduceLevel f t ds).length = t.length / 2 := by simp [reduceLevel]

theorem pairUp_eq_reduceLevel (f : Nat → Nat → Nat → Nat) : ∀ t ds, pairUp f t ds = reduceLevel f t ds
  | [], _ => by simp [pairUp, reduceLevel]
  | [_], _ => by simp [pairUp, reduceLevel]
  | a :: b :: rest, ds => by
    have half : (a :: b :: rest).length / 2 = rest.length / 2 + 1 := Nat.add_div_right _ two_pos
    rw [pairUp, pairUp_eq_reduceLevel f rest, reduceLevel, reduceLevel, half, List.range_succ_eq_map, List.map_cons, List.map_map]
    congr 1
    · cases ds <;> rfl
    · refine List.map_congr_left fun j _ => ?_
      cases ds <;> rfl

/-- The model's tree is that of R179 when the leaves are a power of 2 in number. -/
theorem treeReduce_eq_reduceTree (f : Nat → Nat → Nat → Nat) {k fuel : Nat} (enough : k ≤ fuel) {l : List Nat} (ds : List Nat)
    (length : l.length = 2 ^ k) : treeReduce f fuel l ds = reduceTree f k l ds := by
  induction k generalizing fuel l ds with
  | zero =>
    cases fuel with
    | zero => rfl
    | succ fuel => exact (if_pos length.le).trans (by cases l <;> rfl)
  | succ k ih =>
    obtain ⟨fuel, rfl⟩ := Nat.exists_eq_add_of_le' (Nat.zero_lt_succ k |>.trans_le enough)
    have half : l.length / 2 = 2 ^ k := by rw [length, pow_succ, Nat.mul_div_cancel _ two_pos]
    have many : ¬ l.length ≤ 1 := by have := Nat.two_pow_pos k; omega
    rw [treeReduce, if_neg many, pairUp_eq_reduceLevel, reduceTree_succ]
    exact ih (by omega) _ ((reduceLevel_length ..).trans half)

section
variable {P : Nat → Prop} {f g : Nat → Nat → Nat → Nat} (closed : ∀ d a b, P a → P b → P (g d a b))
  (same : ∀ d a b, P a → P b → f d a b = g d a b)

/-- A level takes neighbours, so what holds of the leaves holds of them. -/
theorem neighbours {t : List Nat} (leaves : ∀ x ∈ t, P x) {j : Nat} (bound : j < t.length / 2) : P (t.getD (2 * j) 0) ∧ P (t.getD (2 * j + 1) 0) := by
  rw [List.getD_eq_getElem t 0 (by omega), List.getD_eq_getElem t 0 (by omega)]
  exact ⟨leaves _ (List.getElem_mem _), leaves _ (List.getElem_mem _)⟩

include closed in
theorem forall_mem_reduceLevel {t : List Nat} (leaves : ∀ x ∈ t, P x) (ds : List Nat) : ∀ x ∈ reduceLevel g t ds, P x := by
  simp only [reduceLevel, List.forall_mem_map, List.mem_range]
  intro j bound
  obtain ⟨left, right⟩ := neighbours leaves bound
  exact closed _ _ _ left right

include same in
theorem reduceLevel_congr {t : List Nat} (leaves : ∀ x ∈ t, P x) (ds : List Nat) : reduceLevel f t ds = reduceLevel g t ds := by
  refine List.map_congr_left fun j mem => ?_
  obtain ⟨left, right⟩ := neighbours leaves (List.mem_range.mp mem)
  exact same _ _ _ left right

include closed same in
/-- Combinations that agree on what the leaves are and stay there give one tree. -/
theorem reduceTree_congr {k : Nat} {t : List Nat} (length : t.length = 2 ^ k) (leaves : ∀ x ∈ t, P x) (ds : List Nat) :
    reduceTree f k t ds = reduceTree g k t ds ∧ P (reduceTree g k t ds) := by
  induction k generalizing t ds with
  | zero =>
    obtain ⟨x, rfl⟩ := List.length_eq_one_iff.mp length
    exact ⟨rfl, leaves x (List.mem_singleton_self x)⟩
  | succ k ih =>
    have half : t.length / 2 = 2 ^ k := by rw [length, pow_succ, Nat.mul_div_cancel _ two_pos]
    rw [reduceTree_succ, reduceTree_succ, reduceLevel_congr same leaves]
    exact ih ((reduceLevel_length ..).trans half) (forall_mem_reduceLevel closed leaves ds) _

end

/-! ## The combinations on elements -/

theorem roundF_lt {r : R} (fp : isFp r.fmt = true) (d : Nat) (v : Val) : roundF r d v < 2 ^ fmtWidth r.fmt := by
  rw [← sign_add_one fp]
  exact (interchange_of_isFp fp).round_lt ..

theorem opAdd_eq_toNat (r : R) (d : Nat) (a b : BitVec (fmtWidth r.fmt)) (c : Nat) : opAdd r d a.toNat b.toNat c =
    (if isFp r.fmt then roundedOp r d ((valueOf r a).add (r.rm = 2) (valueOf r b)) else integerOp r (a.toInt + b.toInt)).toNat := by
  simp only [opAdd, decF_toNat, sx_toNat]
  split_ifs with fp
  · rw [← ofNat_roundF, BitVec.toNat_ofNat, Nat.mod_eq_of_lt (roundF_lt fp ..)]
    rfl
  · exact truncInt_eq_toNat ..

theorem nanF_lt {r : R} (fp : isFp r.fmt = true) : nanF r < 2 ^ fmtWidth r.fmt := by
  rw [← sign_add_one fp]
  exact (interchange_of_isFp fp).nan_lt

theorem opMax_lt {r : R} {d a b c : Nat} (aBound : a < 2 ^ fmtWidth r.fmt) (bBound : b < 2 ^ fmtWidth r.fmt) : opMax r d a b c < 2 ^ fmtWidth r.fmt := by
  simp only [opMax]
  split_ifs with fp
  · exact nanF_lt fp
  all_goals assumption

theorem opMin_lt {r : R} {d a b c : Nat} (aBound : a < 2 ^ fmtWidth r.fmt) (bBound : b < 2 ^ fmtWidth r.fmt) : opMin r d a b c < 2 ^ fmtWidth r.fmt := by
  simp only [opMin]
  split_ifs with fp
  · exact nanF_lt fp
  all_goals assumption

/-! ## The statement -/

theorem fmtCount_eq_two_pow (f : Nat) : fmtCount f = 2 ^ (fmtCount f).log2 ∧ (fmtCount f).log2 ≤ 8 := by
  unfold fmtCount fmtWidth
  split <;> decide

/-- A reduced value in a general register (R179). -/
theorem reduced_eq (r : R) {t : Nat} (bound : t < 2 ^ fmtWidth r.fmt) :
    (if isFp r.fmt then BitVec.ofNat 64 t else BitVec.ofInt 64 (sx r t)) =
      if isFp r.fmt then (BitVec.ofNat (fmtWidth r.fmt) t).setWidth 64 else (BitVec.ofNat (fmtWidth r.fmt) t).signExtend 64 := by
  obtain ⟨x, rfl⟩ : ∃ x : BitVec (fmtWidth r.fmt), x.toNat = t := ⟨BitVec.ofNat _ t, by rw [BitVec.toNat_ofNat, Nat.mod_eq_of_lt bound]⟩
  rw [ofNat_toNat_self, sx_toNat, BitVec.ofNat_toNat]
  rfl

/-- What a reduction does (R179). -/
def ReductionResult (c : (R → Instr) × Bool × (R → Nat) × (R → Nat → Nat → Nat → Nat)) : Prop :=
  ∀ (r : R) (s : State), Ready (c.1 r) s →
    let p := s.prepare (c.1 r)
    let w := fmtWidth r.fmt
    let n := fmtCount r.fmt
    let d := drawsOf (c.2.1 && r.rm = 4) p.me.seed (n - 1)
    let leaves := (List.range n).map (fun j =>
      if (p.me.k r.km).getLsbD j then (element w (p.me.v r.a.toNat) j).toNat else c.2.2.1 r)
    let t := BitVec.ofNat w (reduceTree (c.2.2.2 r) n.log2 leaves d.2)
    exec (c.1 r) s = .next ({ p with me := { p.me with seed := d.1 } }.issued (c.1 r)
      (newWrite .engine (s.cycle + 8) (c.1 r).srcs ⟨.g, r.d.toNat⟩
        ((if isFp r.fmt then t.setWidth 64 else t.signExtend 64).setWidth 1024)))

theorem ReductionResult.of_effReduce {make : R → Instr} {draws : Bool} {ident : R → Nat} {combine : R → Nat → Nat → Nat → Nat} {rs : R → Bool}
    {op : R → ElemOp} (meaning : ∀ r s, exec (make r) s = issue (make r) s (effReduce (make r) r (rs r) (ident r) (op r)))
    (drawing : ∀ r, rs r = (draws && decide (r.rm = 4))) (identBound : ∀ r, ident r < 2 ^ fmtWidth r.fmt)
    (value : ∀ r d (a b : BitVec (fmtWidth r.fmt)), op r d a.toNat b.toNat 0 = combine r d a.toNat b.toNat ∧
      combine r d a.toNat b.toNat < 2 ^ fmtWidth r.fmt) :
    ReductionResult (make, draws, ident, combine) := by
  intro r s ready p w n d leaves t
  obtain ⟨power, levels⟩ := fmtCount_eq_two_pow r.fmt
  have length : leaves.length = 2 ^ n.log2 := by simpa [leaves] using power
  have bounds : ∀ x ∈ leaves, x < 2 ^ w := by
    simp only [leaves, List.forall_mem_map]
    intro j _
    split_ifs
    · exact BitVec.isLt _
    · exact identBound r
  have value' : ∀ d a b, a < 2 ^ w → b < 2 ^ w → op r d a b 0 = combine r d a b ∧ combine r d a b < 2 ^ w := fun d a b aBound bBound => by
    have combined := value r d (BitVec.ofNat _ a) (BitVec.ofNat _ b)
    rwa [BitVec.toNat_ofNat, BitVec.toNat_ofNat, Nat.mod_eq_of_lt aBound, Nat.mod_eq_of_lt bBound] at combined
  obtain ⟨tree, bound⟩ := reduceTree_congr (P := (· < 2 ^ w)) (fun d a b aBound bBound => (value' d a b aBound bBound).2)
    (fun d a b aBound bBound => (value' d a b aBound bBound).1) length bounds d.2
  rw [meaning]
  refine issue_withPend ready ?_
  simp only [effReduce, State.draw_eq, drawing, elem_eq_toNat, State.resultAt, State.pendWrite_eq]
  rw [treeReduce_eq_reduceTree _ levels _ length, tree, reduced_eq r bound, ← State.prepare_cycle (make r) s]
  rfl

theorem identSum_eq (r : R) : identSum r = if isFp r.fmt ∧ r.rm ≠ 2 then 2 ^ (fmtWidth r.fmt - 1) else 0 := by
  simp only [identSum, isRdn, Bool.and_eq_true, Bool.not_eq_true', decide_eq_false_iff_not]
  exact if_ctx_congr Iff.rfl (fun sum => by rw [sign_eq sum.1]) fun _ => rfl

theorem two_pow_pred_lt (f : Nat) : 2 ^ (fmtWidth f - 1) < 2 ^ fmtWidth f := Nat.pow_lt_pow_right one_lt_two (Nat.sub_one_lt (fmtWidth_pos f).ne')

theorem infBits_lt {r : R} (fp : isFp r.fmt = true) (s : Bool) : (floatFmt r.fmt).infBits s < 2 ^ fmtWidth r.fmt := by
  rw [← sign_add_one fp]
  exact (interchange_of_isFp fp).infBits_lt s

theorem identSum_lt (r : R) : identSum r < 2 ^ fmtWidth r.fmt := by
  rw [identSum_eq]
  split
  · exact two_pow_pred_lt _
  · exact Nat.two_pow_pos _

theorem identMax_lt (r : R) : identMax r < 2 ^ fmtWidth r.fmt := by
  unfold identMax
  split
  next fp => exact infBits_lt fp true
  · exact two_pow_pred_lt _

theorem identMin_lt (r : R) : identMin r < 2 ^ fmtWidth r.fmt := by
  unfold identMin
  split
  next fp => exact infBits_lt fp false
  · exact (Nat.sub_le ..).trans_lt (two_pow_pred_lt _)

theorem vrsum_result : ReductionResult (.vrsum, true, identSum, fun r d a b =>
    (if isFp r.fmt then roundedOp r d ((valueOf r (BitVec.ofNat _ a)).add (r.rm = 2) (valueOf r (BitVec.ofNat _ b)))
     else integerOp r ((BitVec.ofNat (fmtWidth r.fmt) a).toInt + (BitVec.ofNat (fmtWidth r.fmt) b).toInt)).toNat) :=
  .of_effReduce (op := opAdd) (fun _ _ => rfl) (fun _ => rfl) identSum_lt fun r d a b => by
    rw [ofNat_toNat_self, ofNat_toNat_self]
    exact ⟨opAdd_eq_toNat r d a b 0, BitVec.isLt _⟩

theorem vrmax_result : ReductionResult (.vrmax, false, identMax, fun r _ a b => opMax r 0 a b 0) :=
  .of_effReduce (rs := fun _ => false) (ident := identMax) (op := opMax) (fun _ _ => rfl) (fun _ => rfl) identMax_lt
    fun r d a b => ⟨by rw [opMax, opMax], opMax_lt a.isLt b.isLt⟩

theorem vrmin_result : ReductionResult (.vrmin, false, identMin, fun r _ a b => opMin r 0 a b 0) :=
  .of_effReduce (rs := fun _ => false) (ident := identMin) (op := opMin) (fun _ _ => rfl) (fun _ => rfl) identMin_lt
    fun r d a b => ⟨by rw [opMin, opMin], opMin_lt a.isLt b.isLt⟩

theorem reductions_result : ∀ c ∈ reductions, ReductionResult c := by
  simp only [reductions, List.forall_mem_cons, ← identSum_eq]
  exact ⟨vrsum_result, vrmax_result, vrmin_result, List.forall_mem_nil _⟩

end Sys2Proof.Machine

namespace Sys2Proof

open Machine

/-- Settles O24: the model's tree is that of R179 level by level, its combinations give patterns of the format, and on those they are R179's. -/
theorem reductions : Obligations.Reductions := reductions_result

end Sys2Proof
end

section
/-! SUPPORT. Conversions and the packing of blocks (R65, R181-R184), and the statement about them. -/

namespace Sys2Proof.Machine

/-! ## Conversions by elements (R181) -/

theorem ofNat_convElem (r : R) (d : Nat) (x : BitVec (fmtWidth r.fmt)) :
    BitVec.ofNat (fmtWidth r.xfmt) (convElem r.fmt r.xfmt (RMode.of r.rm) r.ovf d x.toNat) = converted r d x := by
  have value : sextNat (fmtWidth r.fmt) x.toNat = x.toInt := sx_toNat r x
  unfold convElem converted
  cases isInt r.fmt <;> cases isInt r.xfmt
  · rfl
  · exact ofNat_truncInt ..
  · rw [value]; rfl
  · rw [value]; exact ofNat_truncInt ..

theorem ofNat_convElem_elem (r : R) (d : Nat) (x : Vec) (j : Nat) :
    BitVec.ofNat (fmtWidth r.xfmt) (convElem r.fmt r.xfmt (RMode.of r.rm) r.ovf d (elem (fmtWidth r.fmt) x j)) =
      converted r d (element (fmtWidth r.fmt) x j) := by
  rw [elem_eq_toNat, ofNat_convElem]

/-- A wider format has fewer elements (R167). -/
theorem fmtCount_anti {f g : Nat} (wider : fmtWidth f ≤ fmtWidth g) : fmtCount g ≤ fmtCount f := Nat.div_le_div_left wider (fmtWidth_pos f)

/-- The vector that a conversion to elements at least as wide writes (R181). -/
def widened (r : R) (m : Activity) (ds : List Nat) : Vec :=
  maskedElems (fmtWidth r.xfmt) (fmtCount r.xfmt) (m.k r.km) r.zm (m.v r.d.toNat) fun j =>
    convElem r.fmt r.xfmt (RMode.of r.rm) r.ovf (ds.getD j 0) (elem (fmtWidth r.fmt) (m.v r.a.toNat) (r.xpart * fmtCount r.xfmt + j))

/-- The vector that a conversion to narrower elements writes (R181). -/
def narrowed (r : R) (m : Activity) (ds : List Nat) : Vec :=
  packElems (fmtWidth r.xfmt) ((List.range (fmtCount r.xfmt)).map fun j =>
    if r.xpart * fmtCount r.fmt ≤ j && j < r.xpart * fmtCount r.fmt + fmtCount r.fmt then
      if (m.k r.km).getLsbD j then convElem r.fmt r.xfmt (RMode.of r.rm) r.ovf (ds.getD (j - r.xpart * fmtCount r.fmt) 0)
        (elem (fmtWidth r.fmt) (m.v r.a.toNat) (j - r.xpart * fmtCount r.fmt))
      else if r.zm then 0 else elem (fmtWidth r.xfmt) (m.v r.d.toNat) j
    else elem (fmtWidth r.xfmt) (m.v r.d.toNat) j)

theorem effVcvt_eq (r : R) (p : State) :
    let d := drawsOf (r.rm = 4) p.me.seed (min (fmtCount r.fmt) (fmtCount r.xfmt))
    effVcvt r p = .done ((p.seeded d.1).withPend (newWrite .fixed (p.cycle + 4) (Instr.vcvt r).srcs ⟨.v, r.d.toNat⟩
      (if fmtWidth r.fmt ≤ fmtWidth r.xfmt then widened r p.me d.2 else narrowed r p.me d.2))) := by
  unfold effVcvt
  dsimp only
  split
  · next wide =>
    rw [Nat.min_eq_right (fmtCount_anti wide), State.draw_eq, State.resultV_eq]
    rfl
  · next narrow =>
    rw [Nat.min_eq_left (fmtCount_anti (Nat.le_of_not_le narrow)), State.draw_eq, State.resultV_eq]
    rfl

theorem element_widened (r : R) (m : Activity) (ds : List Nat) {j : Nat} (bound : j < fmtCount r.xfmt) :
    element (fmtWidth r.xfmt) (widened r m ds) j =
      if (m.k r.km).getLsbD j then converted r (ds.getD j 0) (element (fmtWidth r.fmt) (m.v r.a.toNat) (r.xpart * fmtCount r.xfmt + j))
      else if r.zm then 0 else element (fmtWidth r.xfmt) (m.v r.d.toNat) j := by
  rw [widened, element_maskedElems (element_fits bound) bound, ofNat_convElem_elem]

theorem element_narrowed (r : R) (m : Activity) (ds : List Nat) {j : Nat} (bound : j < fmtCount r.xfmt) :
    element (fmtWidth r.xfmt) (narrowed r m ds) j =
      if r.xpart * fmtCount r.fmt ≤ j ∧ j < r.xpart * fmtCount r.fmt + fmtCount r.fmt then
        if (m.k r.km).getLsbD j then converted r (ds.getD (j - r.xpart * fmtCount r.fmt) 0)
          (element (fmtWidth r.fmt) (m.v r.a.toNat) (j - r.xpart * fmtCount r.fmt))
        else if r.zm then 0 else element (fmtWidth r.xfmt) (m.v r.d.toNat) j
      else element (fmtWidth r.xfmt) (m.v r.d.toNat) j := by
  simp only [narrowed, element_packElems_range (element_fits bound) bound, apply_ite (BitVec.ofNat _), ofNat_convElem_elem, ofNat_elem,
    Bool.and_eq_true, decide_eq_true_eq]
  rfl

/-! ## Blocks in a vector (R65, R182) -/

/-- Lists of one length after another: an entry of one of them. -/
theorem getD_flatMap_range {α : Type} {m : Nat} {g : Nat → List α} (length : ∀ j, (g j).length = m) {n j t : Nat} (block : j < n) (entry : t < m)
    (x : α) : ((List.range n).flatMap g).getD (m * j + t) x = (g j).getD t x := by
  induction n generalizing g j with
  | zero => omega
  | succ n ih =>
    rw [List.range_succ_eq_map, List.flatMap_cons, List.flatMap_map]
    cases j with
    | zero => rw [List.getD_append _ _ _ _ (by rw [length]; omega)]; simp
    | succ j =>
      rw [List.getD_append_right _ _ _ _ (by rw [length, Nat.mul_succ]; omega), length, ← ih (fun j => length (j + 1)) (by omega)]
      congr 1
      rw [Nat.mul_succ]
      omega

theorem length_flatMap_range {α : Type} {m : Nat} {g : Nat → List α} (length : ∀ j, (g j).length = m) (n : Nat) :
    ((List.range n).flatMap g).length = m * n := by
  simp [List.length_flatMap, length, mul_comm]

theorem element_setVecBytes (x : Vec) (off : Nat) (bs : List Byte) {i : Nat} (bound : i < 128) :
    element 8 (setVecBytes x off bs) i = if off ≤ i ∧ i < off + bs.length then bs.getD (i - off) 0 else element 8 x i := by
  rw [setVecBytes, element_packElems_range (by omega) bound, apply_ite (BitVec.ofNat 8), ofNat_toNat_self, ofNat_elem]
  simp only [Bool.and_eq_true, decide_eq_true_eq]

/-- A code of 4 bits is half of a byte. -/
theorem element_four (x : Vec) (k : Nat) : element 4 x k = (element 8 x (k / 2)).extractLsb' (4 * (k % 2)) 4 := by
  apply BitVec.eq_of_getLsbD_eq
  intro i low
  simp only [element, BitVec.getLsbD_extractLsb', low, decide_true, Bool.true_and]
  rw [decide_eq_true (by omega : 4 * (k % 2) + i < 8), Bool.true_and]
  congr 1
  omega

theorem packBlock_length (f : Nat) {codes : List Nat} (eight : codes.length = 8) : (packBlock f codes).length = blockBytes f := by
  unfold packBlock blockBytes
  split <;> simp [eight]

theorem packBlock_getD_of_ne {f : Nat} (fp8 : f ≠ 7) {codes : List Nat} {i : Nat} (bound : i < codes.length) :
    (packBlock f codes).getD i 0 = BitVec.ofNat 8 (codes.getD i 0) := by
  simp [packBlock, fp8, bound]

theorem packBlock_nibble (codes : List Nat) {i : Nat} (bound : i < 8) :
    ((packBlock 7 codes).getD (i / 2) 0).extractLsb' (4 * (i % 2)) 4 = BitVec.ofNat 4 (codes.getD i 0) := by
  have pack : packBlock 7 codes = toBytes 4 (codes.foldr (fun c acc => c % 16 + 16 * acc) 0) := rfl
  rw [pack, List.getD_eq_getElem _ _ (by rw [toBytes_length]; omega), toBytes_getElem, extractLsb'_ofNat_of_le (by omega),
    Nat.div_div_eq_div_mul, ← pow_add, (by omega : 8 * (i / 2) + 4 * (i % 2) = 4 * i), pow_mul]
  exact ofNat_eq_of_mod_eq (foldr_digits_div_mod (b := 16) (by omega) codes i)

/-- The width of a code of a block format (R64). -/
def codeWidth (f : Nat) : Nat := if f = 7 then 4 else 8

section
variable (x : Vec) (part : Nat) {nb : Nat} {codes : Nat → List Nat} (eight : ∀ j, (codes j).length = 8)
include eight

theorem packedBlocks_getD_of_ne {f i : Nat} (fp8 : f ≠ 7) (inside : i < 8 * nb) :
    ((List.range nb).flatMap fun j => packBlock f (codes j)).getD i 0 = BitVec.ofNat 8 ((codes (i / 8)).getD (i % 8) 0) := by
  have width : blockBytes f = 8 := if_neg fp8
  have entry := getD_flatMap_range (fun j => (packBlock_length f (eight j)).trans width) (by omega : i / 8 < nb) (by omega : i % 8 < 8) 0
  rw [Nat.div_add_mod] at entry
  rw [entry, packBlock_getD_of_ne fp8 (by rw [eight]; omega)]

theorem packedBlocks_nibble {i : Nat} (inside : i < 8 * nb) :
    (((List.range nb).flatMap fun j => packBlock 7 (codes j)).getD (i / 2) 0).extractLsb' (4 * (i % 2)) 4 =
      BitVec.ofNat 4 ((codes (i / 8)).getD (i % 8) 0) := by
  have entry := getD_flatMap_range (fun j => packBlock_length 7 (eight j)) (by omega : i / 8 < nb) (by simp [blockBytes]; omega : i % 8 / 2 < blockBytes 7) 0
  rw [show blockBytes 7 = 4 from rfl, (by omega : 4 * (i / 8) + i % 8 / 2 = i / 2)] at entry
  rw [entry, ← packBlock_nibble _ (by omega : i % 8 < 8), (by omega : i % 8 % 2 = i % 2)]

/-- The codes of blocks in their span of a vector register (R183). -/
theorem element_packedBlocks (f : Nat) {k : Nat} (bound : k * codeWidth f < 1024) :
    element (codeWidth f) (setVecBytes x (part * (nb * blockBytes f)) ((List.range nb).flatMap fun j => packBlock f (codes j))) k =
      if part * (8 * nb) ≤ k ∧ k < part * (8 * nb) + 8 * nb then
        BitVec.ofNat (codeWidth f) ((codes ((k - part * (8 * nb)) / 8)).getD ((k - part * (8 * nb)) % 8) 0)
      else element (codeWidth f) x k := by
  have bytes := length_flatMap_range (fun j => packBlock_length f (eight j)) nb
  have start : part * (8 * nb) = 8 * (part * nb) := mul_left_comm ..
  by_cases fp4 : f = 7
  · subst fp4
    have width : blockBytes 7 = 4 := rfl
    have offset : part * (nb * 4) = 4 * (part * nb) := by rw [← mul_assoc, mul_comm]
    change k * 4 < 1024 at bound
    show element 4 _ k = if _ then BitVec.ofNat 4 _ else element 4 x k
    rw [element_four, element_four x, element_setVecBytes _ _ _ (by omega), bytes, width, start, offset]
    split_ifs
    · rw [← packedBlocks_nibble eight (by omega : k - 8 * (part * nb) < 8 * nb), (by omega : k / 2 - 4 * (part * nb) = (k - 8 * (part * nb)) / 2),
        (by omega : k % 2 = (k - 8 * (part * nb)) % 2)]
    · omega
    · omega
    · rfl
  · have width : blockBytes f = 8 := if_neg fp4
    have offset : part * (nb * 8) = 8 * (part * nb) := by rw [← mul_assoc, mul_comm]
    have code : codeWidth f = 8 := if_neg fp4
    rw [code] at bound ⊢
    rw [element_setVecBytes _ _ _ (by omega), bytes, width, start, offset]
    split_ifs with span
    · exact packedBlocks_getD_of_ne eight fp4 (by omega)
    · rfl

end

/-- A digit of 4 bits of the number that bytes spell. -/
theorem ofBytes_nibble (l : List Byte) {i : Nat} (within : i / 2 < l.length) :
    ofBytes l / 16 ^ i % 16 = (l[i / 2].extractLsb' (4 * (i % 2)) 4).toNat := by
  have split : 16 ^ i = 2 ^ (8 * (i / 2)) * 2 ^ (4 * (i % 2)) := by
    rw [← pow_add, (by omega : 8 * (i / 2) + 4 * (i % 2) = 4 * i)]
    exact (pow_mul 2 4 i).symm
  rw [BitVec.extractLsb'_toNat, Nat.shiftRight_eq_div_pow, ← ofBytes_div_mod l _ within, split, ← Nat.div_div_eq_div_mul]
  rcases Nat.mod_two_eq_zero_or_one i with even | odd
  · rw [even]; omega
  · rw [odd]; omega

/-- The codes that a span of a vector register holds (R184). -/
theorem unpackBlock_vecBytes (x : Vec) (f part nb j : Nat) :
    unpackBlock f (vecBytes x (part * (nb * blockBytes f) + blockBytes f * j) (blockBytes f)) =
      (List.range 8).map fun i => (element (codeWidth f) x (part * (8 * nb) + (8 * j + i))).toNat := by
  have start : part * (8 * nb) = 8 * (part * nb) := mul_left_comm ..
  by_cases fp4 : f = 7
  · subst fp4
    have width : blockBytes 7 = 4 := rfl
    have offset : part * (nb * 4) = 4 * (part * nb) := by rw [← mul_assoc, mul_comm]
    rw [width, start, offset, unpackBlock, if_pos rfl]
    refine List.map_congr_left fun i mem => ?_
    have bound := List.mem_range.mp mem
    rw [ofBytes_nibble _ (by simp [vecBytes]; omega)]
    show _ = (element 4 x _).toNat
    rw [element_four, (by omega : (8 * (part * nb) + (8 * j + i)) % 2 = i % 2),
      (by omega : (8 * (part * nb) + (8 * j + i)) / 2 = 4 * (part * nb) + 4 * j + i / 2)]
    simp only [vecBytes, List.getElem_map, List.getElem_range]
    rfl
  · have width : blockBytes f = 8 := if_neg fp4
    have offset : part * (nb * 8) = 8 * (part * nb) := by rw [← mul_assoc, mul_comm]
    have code : codeWidth f = 8 := if_neg fp4
    rw [unpackBlock, if_neg fp4, vecBytes, List.map_map, width, start, offset, code]
    refine List.map_congr_left fun i _ => ?_
    rw [← Nat.add_assoc]
    rfl

end Sys2Proof.Machine
end

section
/-! SUPPORT. Block quantisation (R182-R184), and the statement about conversions. -/

namespace Sys2Proof.Machine

theorem State.withPend_withPend (v w : List Pend) (p : State) : (p.withPend v).withPend w = p.withPend (v ++ w) := by
  simp only [State.withPend, List.append_assoc]

theorem eight_mul_blockCount (r : R) : 8 * blockCount r = fmtCount r.fmt := by
  unfold blockCount fmtCount fmtWidth
  split <;> rfl

/-! ## The draws of a block (R70, R183) -/

theorem srDraws_length (x : Word) (n : Nat) : (srDraws x n).2.length = n := by
  induction n generalizing x with
  | zero => rfl
  | succ n ih => exact congrArg (· + 1) (ih (srStep x))

/-- The draws of a block's elements: one each under `.rs`, else none. -/
theorem drawsOf_block (rs : Prop) [Decidable rs] (seed : Word) {n j : Nat} (within : 8 * j + 8 ≤ n) :
    ((drawsOf rs seed n).2.drop (8 * j)).take 8 =
      (List.range (if rs then 8 else 0)).map (fun i => (drawsOf rs seed n).2.getD (8 * j + i) 0) := by
  by_cases draws : rs
  · simp only [drawsOf, draws, decide_true, if_true]
    refine List.ext_getElem (by simp [srDraws_length]; omega) fun i inside _ => ?_
    have entry : 8 * j + i < (srDraws seed n).2.length := by rw [srDraws_length]; simp at inside; omega
    simp [List.getElem?_eq_getElem entry]
  · simp [drawsOf, draws]

/-! ## To a block-scaled format (R183) -/

theorem requantise_length (f : FFmt) (top : Nat) (rm : RMode) (draws : List Nat) (b : Val) (xs : List Val) :
    (requantise f top rm draws b xs).2.length = xs.length := by
  unfold requantise
  dsimp only
  split_ifs <;> simp

/-- A block of `vqnt`: its scale and its codes (R72, R183). -/
def quantisedBlock (r : R) (m : Activity) (ds : List Nat) (j : Nat) : Nat × List Nat :=
  requantise (floatFmt r.xfmt) (blockTop r.xfmt) (RMode.of r.rm) ((ds.drop (8 * j)).take 8) (fBf16.decode ((m.srcB r).toNat % 2 ^ 16))
    ((List.range 8).map (fun i => decF r (elem (fmtWidth r.fmt) (m.v r.a.toNat) (8 * j + i))))

theorem quantisedBlock_length (r : R) (m : Activity) (ds : List Nat) (j : Nat) : (quantisedBlock r m ds j).2.length = 8 := by
  rw [quantisedBlock, requantise_length, List.length_map, List.length_range]

theorem blockTop_eq (f : Nat) : blockTop f = if f = 5 then 448 else if f = 6 then 57344 else 6 := by
  unfold blockTop
  split <;> simp_all

/-- A block by what R183 says of its elements and its draws. -/
theorem quantisedBlock_eq (r : R) (m : Activity) (seed : Word) {j : Nat} (bound : j < blockCount r) :
    quantisedBlock r m (drawsOf (r.rm = 4) seed (fmtCount r.fmt)).2 j = requantise (floatFmt r.xfmt)
      (if r.xfmt = 5 then 448 else if r.xfmt = 6 then 57344 else 6) (RMode.of r.rm)
      ((List.range (if r.rm = 4 then 8 else 0)).map (fun i => (drawsOf (r.rm = 4) seed (fmtCount r.fmt)).2.getD (8 * j + i) 0))
      (fBf16.decode ((m.srcB r).toNat % 2 ^ 16))
      ((List.range 8).map (fun i => valueOf r (element (fmtWidth r.fmt) (m.v r.a.toNat) (8 * j + i)))) := by
  have blocks := eight_mul_blockCount r
  simp only [quantisedBlock, blockTop_eq, drawsOf_block (r.rm = 4) seed (by omega : 8 * j + 8 ≤ fmtCount r.fmt), decF_elem]

/-- The vector that `vqnt` writes. -/
def quantisedVec (r : R) (m : Activity) (ds : List Nat) : Vec :=
  setVecBytes (m.v r.d.toNat) (r.xpart * (blockCount r * blockBytes r.xfmt))
    ((List.range (blockCount r)).flatMap fun j => packBlock r.xfmt (quantisedBlock r m ds j).2)

/-- The scales that `vqnt` writes. -/
def quantisedScales (r : R) (m : Activity) (ds : List Nat) : Word :=
  BitVec.ofNat 64 (((List.range (blockCount r)).map fun j => (quantisedBlock r m ds j).1).foldr (fun b acc => b % 256 + 256 * acc) 0)

theorem effVqnt_eq (r : R) (p : State) :
    let d := drawsOf (r.rm = 4) p.me.seed (fmtCount r.fmt)
    effVqnt r p = .done ((p.seeded d.1).withPend (newWrite .fixed (p.cycle + 4) (Instr.vqnt r).srcs ⟨.v, r.d.toNat⟩ (quantisedVec r p.me d.2) ++
      newWrite .fixed (p.cycle + 4) (Instr.vqnt r).srcs ⟨.g, r.e.toNat⟩ ((quantisedScales r p.me d.2).setWidth 1024))) := by
  unfold effVqnt
  simp only [State.draw_eq, eight_mul_blockCount, State.resultV_eq, State.resultG_eq, State.withPend_withPend, List.flatMap_map, List.foldr_map]
  rw [quantisedVec, quantisedScales, List.foldr_map]
  rfl

theorem element_quantisedVec (r : R) (m : Activity) (ds : List Nat) {k : Nat} (bound : k * codeWidth r.xfmt < 1024) :
    element (codeWidth r.xfmt) (quantisedVec r m ds) k =
      if r.xpart * fmtCount r.fmt ≤ k ∧ k < r.xpart * fmtCount r.fmt + fmtCount r.fmt then
        BitVec.ofNat (codeWidth r.xfmt) ((quantisedBlock r m ds ((k - r.xpart * fmtCount r.fmt) / 8)).2.getD ((k - r.xpart * fmtCount r.fmt) % 8) 0)
      else element (codeWidth r.xfmt) (m.v r.d.toNat) k := by
  rw [quantisedVec, element_packedBlocks _ _ (quantisedBlock_length r m ds) _ bound, eight_mul_blockCount]

theorem extractLsb'_quantisedScales (r : R) (m : Activity) (ds : List Nat) {j : Nat} (bound : j < 8) :
    (quantisedScales r m ds).extractLsb' (8 * j) 8 = if j < blockCount r then BitVec.ofNat 8 (quantisedBlock r m ds j).1 else 0 := by
  rw [quantisedScales, extractLsb'_ofNat_of_le (by omega), pow_mul]
  rw [ofNat_eq_of_mod_eq (foldr_digits_div_mod (b := 256) (by omega) _ j)]
  split_ifs with block
  · simp [block]
  · simp [Nat.le_of_not_lt block]

/-! ## From a block-scaled format (R184) -/

/-- A code of the span that PART names. -/
def spanCode (r : R) (m : Activity) (k : Nat) : Nat := (element (codeWidth r.xfmt) (m.v r.a.toNat) (r.xpart * fmtCount r.fmt + k)).toNat

/-- The values of a block of the span. -/
def blockValues (r : R) (m : Activity) (j : Nat) : List Val :=
  (List.range 8).map fun i => blockElem (floatFmt r.xfmt) (blockHasNan r.xfmt ((List.range 8).map fun i => spanCode r m (8 * j + i)))
    (spanCode r m (8 * j + i)) ((m.srcB r).toNat / 256 ^ j % 256) (fBf16.decode ((m.g r.c.toNat).toNat % 2 ^ 16))

theorem effVdqnt_eq (r : R) (p : State) :
    let d := drawsOf (r.rm = 4) p.me.seed (fmtCount r.fmt)
    effVdqnt r p = .done ((p.seeded d.1).withPend (newWrite .fixed (p.cycle + 4) (Instr.vdqnt r).srcs ⟨.v, r.d.toNat⟩
      (packElems (fmtWidth r.fmt) ((((List.range (blockCount r)).flatMap (blockValues r p.me)).zipIdx).map
        fun e => roundF r (d.2.getD e.2 0) e.1)))) := by
  unfold effVdqnt
  simp only [State.draw_eq, eight_mul_blockCount, State.resultV_eq, unpackBlock_vecBytes, List.map_map]
  rfl

theorem getD_map_zipIdx {α : Type} (l : List α) (f : α × Nat → Nat) {k : Nat} (bound : k < l.length) (x : α) :
    (l.zipIdx.map f).getD k 0 = f (l.getD k x, k) := by
  simp [bound]

theorem element_dequantised (r : R) (m : Activity) (ds : List Nat) {k : Nat} (bound : k < fmtCount r.fmt) :
    element (fmtWidth r.fmt) (packElems (fmtWidth r.fmt) ((((List.range (blockCount r)).flatMap (blockValues r m)).zipIdx).map
      fun e => roundF r (ds.getD e.2 0) e.1)) k =
    roundedOp r (ds.getD k 0) (blockElem (floatFmt r.xfmt) (blockHasNan r.xfmt ((List.range 8).map fun i => spanCode r m (8 * (k / 8) + i)))
      (spanCode r m k) ((m.srcB r).extractLsb' (8 * (k / 8)) 8).toNat (fBf16.decode ((m.g r.c.toNat).toNat % 2 ^ 16))) := by
  have blocks := eight_mul_blockCount r
  have eight : ∀ j, (blockValues r m j).length = 8 := fun j => by simp [blockValues]
  have within : k < ((List.range (blockCount r)).flatMap (blockValues r m)).length := by rw [length_flatMap_range eight, blocks]; exact bound
  have entry := getD_flatMap_range eight (by omega : k / 8 < blockCount r) (by omega : k % 8 < 8) .nan
  have scale : (m.srcB r).toNat / 256 ^ (k / 8) % 256 = ((m.srcB r).extractLsb' (8 * (k / 8)) 8).toNat := by
    rw [BitVec.extractLsb'_toNat, Nat.shiftRight_eq_div_pow, pow_mul]
    rfl
  rw [Nat.div_add_mod] at entry
  rw [element_packElems (element_fits bound), getD_map_zipIdx _ _ within .nan, entry, ← scale, ofNat_roundF]
  congr 1
  rw [blockValues, List.getD_eq_getElem _ _ (by simp; omega)]
  simp only [List.getElem_map, List.getElem_range, Nat.div_add_mod]

/-! ## The statement -/

/-- Settles O25: `vcvt` by the wider of its formats, `vqnt` and `vdqnt` block by block. -/
theorem conversions : Obligations.Conversions := by
  refine ⟨fun r s ready => ?vcvt, fun r s ready => ?vqnt, fun r s ready => ?vdqnt⟩
  case vcvt =>
    have done := effVcvt_eq r (s.prepare (.vcvt r))
    rw [State.prepare_cycle] at done
    refine ⟨_, issue_withPend ready done, fun j bound => ?_⟩
    split
    · exact element_widened r _ _ bound
    · exact element_narrowed r _ _ bound
  case vqnt =>
    have done := effVqnt_eq r (s.prepare (.vqnt r))
    rw [State.prepare_cycle] at done
    refine ⟨_, _, issue_withPend ready done, fun k bound => ?_, fun j bound => ?_⟩
    · refine (element_quantisedVec r _ _ bound).trans (if_ctx_congr Iff.rfl (fun inside => ?_) fun _ => rfl)
      have blocks := eight_mul_blockCount r
      rw [quantisedBlock_eq r _ _ (by omega)]
      rfl
    · refine (extractLsb'_quantisedScales r _ _ bound).trans (if_ctx_congr Iff.rfl (fun inside => ?_) fun _ => rfl)
      rw [quantisedBlock_eq r _ _ inside]
  case vdqnt =>
    have done := effVdqnt_eq r (s.prepare (.vdqnt r))
    rw [State.prepare_cycle] at done
    refine ⟨_, issue_withPend ready done, fun k bound => ?_⟩
    refine (element_dequantised r _ _ bound).trans ?_
    simp only [blockHasNan, List.any_map]
    rfl

end Sys2Proof.Machine
end

section
/-! SUPPORT. The parts of vector loads and stores (R142, R143, R185-R188): their addresses and checks, what a load reads and corrects, and
the bytes and the poison that a store leaves. -/

namespace Sys2Proof.Machine

/-! ## Addresses and checks (R185, R186) -/

theorem addrIndex_eq (r : R) : addrIndex r = fun m i => (m.g r.a.toNat).toNat + r.x.toInt + (element (fmtWidth r.fmt) (m.v r.c.toNat) i).toNat := by
  funext m i
  rw [addrIndex, elem_eq_toNat]
  rfl

theorem exec_vectorLoad {c : VectorAccess} (mem : c ∈ vectorLoads) :
    c.store = false ∧ ∀ r s, exec (c.make r) s = issue (c.make r) s (effVecMem r true c.contiguous (c.addr r)) := by
  simp only [vectorLoads, List.mem_cons, List.not_mem_nil, or_false] at mem
  rcases mem with rfl | rfl | rfl
  · exact ⟨rfl, fun _ _ => rfl⟩
  · exact ⟨rfl, fun _ _ => rfl⟩
  · exact ⟨rfl, fun r s => congrArg (fun addr => issue (.vldx r) s (effVecMem r true false addr)) (addrIndex_eq r)⟩

theorem exec_vectorStore {c : VectorAccess} (mem : c ∈ vectorStores) :
    c.store = true ∧ ∀ r s, exec (c.make r) s = issue (c.make r) s (effVecMem r false c.contiguous (c.addr r)) := by
  simp only [vectorStores, List.mem_cons, List.not_mem_nil, or_false] at mem
  rcases mem with rfl | rfl | rfl
  · exact ⟨rfl, fun _ _ => rfl⟩
  · exact ⟨rfl, fun _ _ => rfl⟩
  · exact ⟨rfl, fun r s => congrArg (fun addr => issue (.vstx r) s (effVecMem r false false addr)) (addrIndex_eq r)⟩

theorem exec_vectorAccess {c : VectorAccess} (mem : c ∈ vectorLoads ++ vectorStores) (r : R) (s : State) :
    exec (c.make r) s = issue (c.make r) s (effVecMem r (!c.store) c.contiguous (c.addr r)) := by
  rcases List.mem_append.mp mem with load | store
  · obtain ⟨loads, meaning⟩ := exec_vectorLoad load
    rw [meaning, loads]
    rfl
  · obtain ⟨stores, meaning⟩ := exec_vectorStore store
    rw [meaning, stores]
    rfl

section
variable {p : State} {store : Bool} {f : Nat}

theorem State.checkElems_eq_none {l : List (Nat × Int)} (passes : ∀ e ∈ l, p.checkLocal store e.2 (fmtWidth f / 8) = none) :
    p.checkElems store f l = none := by
  induction l with
  | nil => rfl
  | cons e l ih =>
    obtain ⟨first, rest⟩ := List.forall_mem_cons.mp passes
    rw [State.checkElems, first]
    exact ih rest

/-- The first element that fails decides. -/
theorem State.checkElems_eq_some {before after : List (Nat × Int)} {i k : Nat} {y z : Int}
    (passes : ∀ e ∈ before, p.checkLocal store e.2 (fmtWidth f / 8) = none) (fails : p.checkLocal store y (fmtWidth f / 8) = some (z, k)) :
    p.checkElems store f (before ++ (i, y) :: after) =
      some (k, localInfo z ((if store then 1 else 0) + 2 * Nat.log2 (fmtWidth f / 8) + 16 * i + 2 ^ 11)) := by
  induction before with
  | nil => rw [List.nil_append, State.checkElems, fails]
  | cons e l ih =>
    obtain ⟨first, rest⟩ := List.forall_mem_cons.mp passes
    rw [List.cons_append, State.checkElems, first]
    exact ih rest

end

/-- An access takes at least one cycle (R188). -/
theorem accessCycles_pos (bytes : Nat) (ys used : List Nat) (n : Nat) : 1 ≤ accessCycles bytes ys used n := by
  induction ys generalizing used n with
  | nil => rfl
  | cons y ys ih =>
    rw [accessCycles]
    split
    · exact Nat.le_add_left ..
    · exact ih ..

/-! ## What a load reads and corrects (R143, R361) -/

/-- A read of the partner's state adds to the verdicts that the activity waits for, and to nothing else. -/
theorem State.readTaint_eq {y n : Nat} {p q : State} (reads : p.readTaint y n = some q) : ∃ ts, q = p.modMe (fun a => { a with taints := ts }) := by
  unfold State.readTaint State.readPartner at reads
  split at reads
  · split at reads
    · cases reads; exact ⟨p.me.taints, rfl⟩
    · split at reads
      · cases reads; exact ⟨p.me.taints, rfl⟩
      · split at reads
        · cases reads; exact ⟨_, rfl⟩
        · cases reads
  · cases reads; exact ⟨p.me.taints, rfl⟩

/-- Correcting makes no commands. -/
theorem State.correct_nextCmd (y n : Nat) (s : State) : (s.correct y n).nextCmd = s.nextCmd := by
  unfold State.correct
  split
  · dsimp only
    rw [(Recorded.foldl (fun _ _ => Recorded.reportMe ..) _ _).rest]
    rfl
  · split
    · dsimp only
      rw [(Recorded.foldl (fun _ _ => Recorded.reportMe ..) _ _).rest]
      unfold State.modAct
      split <;> rfl
    · rfl

theorem State.correctElems_nextCmd (bytes : Nat) (es : List (Nat × Nat)) (s : State) : (s.correctElems bytes es).nextCmd = s.nextCmd := by
  induction es generalizing s with
  | nil => rfl
  | cons e es ih => exact (ih _).trans (State.correct_nextCmd ..)

/-- An active element is found in the list of the access under its number. -/
theorem VectorAccess.find?_access (c : VectorAccess) (r : R) (m : Activity) {j : Nat} (bound : j < fmtCount r.fmt) (active : (m.k r.km).getLsbD j = true) :
    (c.access r m).find? (fun e => e.1 = j) = some (j, (c.addr r m j).toNat) := by
  rw [VectorAccess.access, List.find?_map, List.find?_filter, List.find?_range_eq_some.mpr ⟨?_, List.mem_range.mpr bound, fun i below => ?_⟩]
  · rfl
  · simp [active]
  · simp [below.ne]

/-! ## What a store writes (R143, R186) -/

/-- A memory after the writes of elements, in order. -/
def LMem.writeElems (g : Nat × Nat → List Byte) (l : List (Nat × Nat)) (m : LMem) : LMem := l.foldl (fun m e => m.write e.2 (g e)) m

theorem State.foldl_writeLocal (g : Nat × Nat → List Byte) (l : List (Nat × Nat)) (s : State) :
    l.foldl (fun s e => s.writeLocal e.2 (g e)) s = s.modMe (fun a => { a with lm := a.lm.writeElems g l }) := by
  induction l generalizing s with
  | nil => rfl
  | cons e l ih => exact ih _

theorem LMem.writeElems_append_singleton (g : Nat × Nat → List Byte) (l : List (Nat × Nat)) (e : Nat × Nat) (m : LMem) :
    m.writeElems g (l ++ [e]) = (m.writeElems g l).write e.2 (g e) := by
  simp only [LMem.writeElems, List.foldl_append, List.foldl_cons, List.foldl_nil]

section
variable {g : Nat × Nat → List Byte} {n : Nat} (length : ∀ e, (g e).length = n) (m : LMem)
include length

/-- A byte is that of the last element that covers it. -/
theorem LMem.read_writeElems (l : List (Nat × Nat)) (a : Nat) : (m.writeElems g l).bytes.read a =
    (l.reverse.find? (fun e => e.2 ≤ a && a < e.2 + n)).elim (m.bytes.read a) (fun e => (g e).getD (a - e.2) 0) := by
  induction l using List.reverseRecOn with
  | nil => rfl
  | append_singleton l e ih =>
    rw [LMem.writeElems_append_singleton, List.reverse_concat, List.find?_cons]
    show (((m.writeElems g l).bytes).writeN e.2 (g e)).read a = _
    by_cases covers : e.2 ≤ a ∧ a < e.2 + n
    · have inside : a - e.2 < (g e).length := by rw [length]; omega
      have read := Memory.read_writeN_inside (g e) (m.writeElems g l).bytes e.2 (a - e.2) inside
      rw [Nat.add_sub_cancel' covers.1] at read
      rw [read, ← List.getD_eq_getElem _ 0 inside]
      simp [covers]
    · rw [Memory.read_writeN_outside _ _ _ _ (by rw [length]; omega), ih]
      have misses : (e.2 ≤ a && a < e.2 + n : Bool) = false := by simpa using covers
      rw [misses]

/-- A word loses its poison in a write that covers it. -/
theorem LMem.mem_poison_writeElems (l : List (Nat × Nat)) (k : Nat) :
    k ∈ (m.writeElems g l).poison ↔ k ∈ m.poison ∧ ∀ e ∈ l, ¬ (e.2 ≤ 8 * k ∧ 8 * k + 8 ≤ e.2 + n) := by
  induction l using List.reverseRecOn with
  | nil => simp [LMem.writeElems]
  | append_singleton l e ih =>
    rw [LMem.writeElems_append_singleton]
    simp only [LMem.write, List.mem_filter, ih, length, List.forall_mem_append, List.forall_mem_singleton, and_assoc,
      Bool.not_eq_true', Bool.and_eq_false_imp, decide_eq_true_eq, decide_eq_false_iff_not, not_and]

end

/-- The words that elements cover between them. -/
theorem mem_coveredWords {bytes k : Nat} (ys : List Nat) :
    k ∈ coveredWords bytes ys ↔ ∀ j, j < 8 → ∃ y ∈ ys, y ≤ 8 * k + j ∧ 8 * k + j < y + bytes := by
  have touched (y : Nat) (low : y ≤ 8 * k + 0) (high : 8 * k + 0 < y + bytes) : k ∈ wordsOf y bytes := by
    rw [wordsOf, if_neg (by omega)]
    exact List.mem_map.mpr ⟨k - y / 8, List.mem_range.mpr (by omega), by omega⟩
  simp only [coveredWords, List.mem_filter, List.mem_eraseDups, List.mem_flatMap, List.all_eq_true, List.mem_range, List.any_eq_true,
    Bool.and_eq_true, decide_eq_true_eq]
  refine ⟨fun h => h.2, fun covered => ⟨?_, covered⟩⟩
  obtain ⟨y, mem, low, high⟩ := covered 0 (by omega)
  exact ⟨y, mem, touched y low high⟩

/-- A byte of an element. -/
theorem toBytes_elem_getD {n t : Nat} (w : Nat) (x : Vec) (i : Nat) (within : t < n) :
    (toBytes n (elem w x i)).getD t 0 = (element w x i).extractLsb' (8 * t) 8 := by
  rw [List.getD_eq_getElem _ _ (by rw [toBytes_length]; exact within), toBytes_getElem, elem_eq_toNat]
  apply BitVec.eq_of_toNat_eq
  rw [BitVec.toNat_ofNat, BitVec.extractLsb'_toNat, Nat.shiftRight_eq_div_pow]

end Sys2Proof.Machine
end

section
/-! SUPPORT. The effects of vector loads and stores (R185-R188), and the completion of a load. -/

namespace Sys2Proof.Machine

/-! ## The queue entry (R186, R187) -/

/-- The entry of an access in the queue. -/
def VectorAccess.command (c : VectorAccess) (r : R) (p : State) (waiting : Bool) : VecCmd :=
  let x := c.access r p.me
  let span := if c.contiguous then 1 else accessCycles (fmtWidth r.fmt / 8) (x.map (fun e => e.2)) [] 0
  ⟨p.nextCmd, p.me.uid, p.me.pc, !c.store, waiting, x, r.fmt, r.d.toNat, p.me.k r.km, r.zm,
    if c.store then p.me.v r.b.toNat else p.me.v r.d.toNat, span, if c.store then p.cycle + span else p.cycle + 3 + span, false⟩

/-- The banks take a cycle at least, and one for a contiguous access (R188). -/
theorem VectorAccess.command_span (c : VectorAccess) (r : R) (p : State) (waiting : Bool) :
    1 ≤ (c.command r p waiting).span ∧ (c.contiguous = true → (c.command r p waiting).span = 1) := by
  refine ⟨?_, fun contiguous => if_pos contiguous⟩
  simp only [VectorAccess.command]
  split
  · exact le_refl 1
  · exact accessCycles_pos ..

/-- What is left when an access has entered the queue, with its scoreboard entry. -/
def State.vecQueued (d : VecCmd) (range : Nat × Nat) (s : State) : State :=
  { s with
    nextCmd := s.nextCmd + 1
    me := { s.me with claims := s.me.claims ++ rangeClaim d.id range (!d.load) }
    core := { s.core with vecq := s.core.vecq ++ [d] } }

theorem State.vecQueued_of_nextCmd {s : State} {n : Nat} (next : s.nextCmd = n) (d : VecCmd) (range : Nat × Nat) :
    s.vecQueued d range = { s with
      nextCmd := n + 1
      me := { s.me with claims := s.me.claims ++ rangeClaim d.id range (!d.load) }
      core := { s.core with vecq := s.core.vecq ++ [d] } } := by
  rw [← next]
  rfl

/-- The scoreboard entry of an access in the queue. -/
theorem VectorAccess.claims_vecQueued (c : VectorAccess) (r : R) (p q : State) (waiting : Bool) (range : Nat × Nat) :
    (q.vecQueued (c.command r p waiting) range).me.claims = q.me.claims ++ rangeClaim p.nextCmd range c.store := by
  show _ ++ rangeClaim p.nextCmd range (!!c.store) = _
  rw [Bool.not_not]

theorem State.claimReg_v (n : Nat) (s : State) :
    s.claimReg ⟨.v, n⟩ = { s with me := { s.me with claimed := s.me.claimed ++ [⟨.v, n⟩] } } := by
  have binds : (⟨.v, n⟩ : Reg).binds = true := Bool.or_true _
  simp only [State.claimReg, binds, Bool.not_true, Bool.false_eq_true, if_false]
  rfl

section
variable {c : VectorAccess} {r : R} {p q : State}

/-- The range of an access (R187). -/
def VectorAccess.range (c : VectorAccess) (r : R) (m : Activity) : Nat × Nat := elemRange (fmtWidth r.fmt / 8) (c.access r m)

/-- Every byte of every active element passes CheckLocal, and the queue and the scoreboard have room (R20, R23, R186). -/
structure VectorAccess.Enters (c : VectorAccess) (r : R) (p : State) : Prop where
  passes : ∀ e ∈ c.access r p.me, p.checkLocal c.store (c.addr r p.me e.1) (fmtWidth r.fmt / 8) = none
  room : p.core.vecq.length < 16
  scored : (c.range r p.me).2 ≠ 0 → p.scoreUsed p.me.agent < scoreSize p.me.agent.kind

theorem VectorAccess.Enters.checkElems (enters : c.Enters r p) :
    p.checkElems c.store r.fmt (((List.range (fmtCount r.fmt)).filter (fun j => (p.me.k r.km).getLsbD j)).map (fun j => (j, c.addr r p.me j))) = none := by
  refine State.checkElems_eq_none fun e mem => ?_
  obtain ⟨j, active, rfl⟩ := List.mem_map.mp mem
  exact enters.passes (j, _) (List.mem_map_of_mem active)

/-- An access that enters, up to what the range scoreboard says. -/
theorem effVecMem_of_enters (enters : c.Enters r p) (reads : if c.store = true then q = p else p.readTaint 0x400000 (inWindow (c.access r p.me)) = some q) :
    effVecMem r (!c.store) c.contiguous (c.addr r) p =
      if p.me.rangeBusy p.nextCmd c.store (c.range r p.me).1 (c.range r p.me).2 then
        .done (if c.store then q.vecQueued (c.command r p true) (c.range r p.me)
          else (q.vecQueued (c.command r p true) (c.range r p.me)).claimReg ⟨.v, r.d.toNat⟩)
      else if c.store then .done ((q.vecStore (c.command r p false)).vecQueued (c.command r p false) (c.range r p.me))
      else (q.vecPoison (fmtWidth r.fmt / 8) (c.access r p.me)).elim
        (.done (((q.correctElems (fmtWidth r.fmt / 8) (c.access r p.me)).vecQueued
          { c.command r p false with data := q.vecLoad (c.command r p false) } (c.range r p.me)).claimReg ⟨.v, r.d.toNat⟩))
        (.poison 1) := by
  have checks := enters.checkElems
  have room : ¬ p.core.vecq.length ≥ vecQueueSize := Nat.not_le.mpr enters.room
  have scored := enters.scored
  have access : ((List.range (fmtCount r.fmt)).filter (fun j => (p.me.k r.km).getLsbD j)).map (fun j => (j, (c.addr r p.me j).toNat)) =
    c.access r p.me := rfl
  unfold effVecMem
  simp only [Bool.not_not, checks, access]
  rcases range : elemRange (fmtWidth r.fmt / 8) (c.access r p.me) with ⟨lo, len⟩
  have named : c.range r p.me = (lo, len) := range
  rw [named] at scored
  have entry : (decide (len ≠ 0) && decide (p.scoreUsed p.me.agent ≥ scoreSize p.me.agent.kind)) = false := by
    simpa using scored
  simp only [named, room, entry, if_false, Bool.false_eq_true]
  cases stores : c.store with
  | true =>
    obtain rfl : q = p := by simpa [stores] using reads
    cases busy : q.me.rangeBusy q.nextCmd true lo len
    all_goals
      simp only [VectorAccess.command, stores, Bool.not_true, Bool.false_eq_true, if_false, if_true]
      rfl
  | false =>
    replace reads : p.readTaint 0x400000 (inWindow (c.access r p.me)) = some q := by simpa [stores] using reads
    simp only [Bool.not_false, if_true, reads]
    obtain ⟨ts, rfl⟩ := State.readTaint_eq reads
    cases busy : p.me.rangeBusy p.nextCmd false lo len with
    | true =>
      simp only [VectorAccess.command, stores, Bool.not_false, Bool.false_eq_true, if_false, if_true]
      rfl
    | false =>
      simp only [VectorAccess.command, stores, Bool.not_false, Bool.false_eq_true, if_false]
      cases (p.modMe fun a => { a with taints := ts }).vecPoison (fmtWidth r.fmt / 8) (c.access r p.me)
      all_goals rfl

/-- The first element that fails CheckLocal decides the trap (R142, R186). -/
theorem effVecMem_of_fails {before after : List (Nat × Nat)} {e : Nat × Nat} {z : Int} {k : Nat} (elements : c.access r p.me = before ++ e :: after)
    (passes : ∀ f ∈ before, p.checkLocal c.store (c.addr r p.me f.1) (fmtWidth r.fmt / 8) = none)
    (fails : p.checkLocal c.store (c.addr r p.me e.1) (fmtWidth r.fmt / 8) = some (z, k)) :
    effVecMem r (!c.store) c.contiguous (c.addr r) p =
      .trap k (localInfo z ((if c.store then 1 else 0) + 2 * Nat.log2 (fmtWidth r.fmt / 8) + 16 * e.1 + 2 ^ 11)) := by
  obtain ⟨first, rest, active, rfl, tail⟩ := List.map_eq_append_iff.mp elements
  obtain ⟨j, others, rfl, rfl, -⟩ := List.map_eq_cons_iff.mp tail
  have failing := State.checkElems_eq_some (i := j) (before := first.map (fun j => (j, c.addr r p.me j))) (after := others.map (fun j => (j, c.addr r p.me j)))
    (fun e mem => by
      obtain ⟨i, earlier, rfl⟩ := List.mem_map.mp mem
      exact passes (i, _) (List.mem_map_of_mem earlier)) fails
  unfold effVecMem
  simp only [Bool.not_not, active, List.map_append, List.map_cons, failing]

/-- A load's value: the bytes of each active element (R168, R186). -/
theorem VectorAccess.element_vecLoad (loads : c.store = false) (waiting : Bool) {j : Nat} (bound : j < fmtCount r.fmt) :
    element (fmtWidth r.fmt) (q.vecLoad (c.command r p waiting)) j =
      if (p.me.k r.km).getLsbD j then BitVec.ofNat (fmtWidth r.fmt) (ofBytes (q.readLocal (c.addr r p.me j).toNat (fmtWidth r.fmt / 8)))
      else if r.zm then 0 else element (fmtWidth r.fmt) (p.me.v r.d.toNat) j := by
  simp only [State.vecLoad, VectorAccess.command, loads, Bool.false_eq_true, if_false]
  rw [element_maskedElems (element_fits bound) bound]
  split_ifs with active
  · rw [c.find?_access r p.me bound active]
  · rfl
  · rfl

end

/-! ## A store (R143, R186) -/

/-- The memory that a store leaves. -/
def VecCmd.stored (d : VecCmd) (m : LMem) : LMem :=
  (m.writeElems (fun e => toBytes (fmtWidth d.fmt / 8) (elem (fmtWidth d.fmt) d.data e.1)) d.elems).clear
    (coveredWords (fmtWidth d.fmt / 8) (d.elems.map (fun e => e.2)))

theorem State.vecStore_eq (d : VecCmd) (s : State) : s.vecStore d = s.modMe (fun a => { a with lm := d.stored a.lm }) := by
  simp only [State.vecStore, State.foldl_writeLocal]
  rfl

theorem VecCmd.mem_poison_stored (d : VecCmd) (m : LMem) (k : Nat) : k ∈ (d.stored m).poison ↔
    k ∈ m.poison ∧ ¬ ∀ j : Nat, j < 8 → ∃ e ∈ d.elems, e.2 ≤ 8 * k + j ∧ 8 * k + j < e.2 + fmtWidth d.fmt / 8 := by
  have covered := mem_coveredWords (bytes := fmtWidth d.fmt / 8) (k := k) (d.elems.map (fun e => e.2))
  simp only [List.mem_map, exists_exists_and_eq_and] at covered
  simp only [VecCmd.stored, LMem.clear, List.mem_filter, decide_eq_true_eq, covered,
    LMem.mem_poison_writeElems (fun e => toBytes_length ..), and_assoc, and_congr_right_iff]
  refine fun _ => ⟨fun h => h.2, fun uncovered => ⟨fun e mem whole => uncovered fun j low => ⟨e, mem, ?_⟩, uncovered⟩⟩
  omega

/-- A byte of the memory after a store. -/
theorem VecCmd.read_stored (d : VecCmd) (m : LMem) (a : Nat) : (d.stored m).bytes.read a =
    (d.elems.reverse.find? (fun e => e.2 ≤ a && a < e.2 + fmtWidth d.fmt / 8)).elim (m.bytes.read a)
      (fun e => (element (fmtWidth d.fmt) d.data e.1).extractLsb' (8 * (a - e.2)) 8) := by
  refine (LMem.read_writeElems (fun e => toBytes_length ..) m d.elems a).trans ?_
  cases found : d.elems.reverse.find? (fun e => e.2 ≤ a && a < e.2 + fmtWidth d.fmt / 8) with
  | none => rfl
  | some e =>
    have covers := List.find?_some found
    simp only [Bool.and_eq_true, decide_eq_true_eq] at covers
    exact toBytes_elem_getD _ _ _ (by omega)

/-! ## Completion of a load (R187) -/

section
variable {s : State} {c : VecCmd} (queued : s.vecCmd? c.id = some c) (mine : s.me.uid = c.owner) (onCore : s.core.agent = s.me.agent)
  (made : c.waiting = false) (loads : c.load = true)
include queued mine onCore made loads

/-- At its last access a load gives back its scoreboard entry. -/
theorem exec_vectorAccessDone_of_claim (due : c.due ≤ s.cycle + 4) (claim : ∃ x ∈ s.me.claims, x.cmd = c.id) :
    exec (.vectorAccessDone c.id) s = .next (s.modMe (fun a => a.release c.id)) := by
  have claimed : s.me.claims.any (fun x => x.cmd = c.id) = true := by simpa using claim
  show execVectorAccessDone c.id s = _
  simp [execVectorAccessDone, queued, ← mine, State.focus_me onCore, made, loads, claimed, due]

/-- Later its value reaches its register. -/
theorem exec_vectorAccessDone_of_value (due : c.due ≤ s.cycle + 1) (released : ∀ x ∈ s.me.claims, x.cmd ≠ c.id) (fresh : c.stale = false) :
    exec (.vectorAccessDone c.id) s = .next ((s.dropVec c.id).deliverV c.dst c.data) := by
  have free : s.me.claims.any (fun x => x.cmd = c.id) = false := by simpa using released
  show execVectorAccessDone c.id s = _
  simp [execVectorAccessDone, queued, ← mine, State.focus_me onCore, made, loads, free, Nat.not_lt.mpr due, fresh]

end

/-- A vector register that has just been set is in a physical register, so its value is the one set. -/
theorem Activity.v_set {a : Activity} {n : Nat} (x : Vec) : ({ a with regs := a.regs.set ⟨.v, n⟩ x } : Activity).v n = x := by
  simp [Activity.v, Regs.set, AMap.find_put_same]

/-- A claimed vector register gets its value and is free to read. -/
theorem State.deliverV_of_claimed {d : Nat} {x : Vec} {s : State} (claimed : (⟨.v, d⟩ : Reg) ∈ s.me.claimed) :
    (s.deliverV d x).me.v d = x ∧ (s.deliverV d x).me.claimed = s.me.claimed.erase ⟨.v, d⟩ ∧ (s.deliverV d x).core = s.core := by
  have binds : (⟨.v, d⟩ : Reg).binds = true := Bool.or_true _
  rw [State.deliverV, if_pos claimed]
  have moved := Moved.writeReg ⟨.v, d⟩ x [] (s.modMe (fun a => { a with claimed := a.claimed.erase ⟨.v, d⟩ }))
  refine ⟨?_, by rw [moved.me]; rfl, by rw [moved.rest]; rfl⟩
  simp only [State.writeReg, binds, Bool.not_true, Bool.false_eq_true, if_false]
  exact Activity.v_set x

end Sys2Proof.Machine
end

section
/-! SUPPORT. The statement about vector loads and stores (R185-R188). -/

namespace Sys2Proof.Machine

/-- A ready instruction whose effect leaves no result on its way. -/
theorem issue_issued_nil {i : Instr} {s t : State} {eff : State → Eff} (ready : Ready i s) (done : eff (s.prepare i) = .done t) :
    issue i s eff = .next (t.issued i []) := issue_withPend ready (by rw [State.withPend_nil]; exact done)

/-! ## Each way to enter the queue (R187) -/

section
variable {c : VectorAccess} {r : R} {p q : State} (enters : c.Enters r p)
include enters

/-- A load whose access is made at once. -/
theorem effVecMem_of_load (loads : c.store = false) (free : p.me.rangeBusy p.nextCmd false (c.range r p.me).1 (c.range r p.me).2 = false)
    (reads : p.readTaint 0x400000 (inWindow (c.access r p.me)) = some q) (sound : q.vecPoison (fmtWidth r.fmt / 8) (c.access r p.me) = none) :
    effVecMem r true c.contiguous (c.addr r) p = .done (((q.correctElems (fmtWidth r.fmt / 8) (c.access r p.me)).vecQueued
      { c.command r p false with data := q.vecLoad (c.command r p false) } (c.range r p.me)).claimReg ⟨.v, r.d.toNat⟩) := by
  have effect := effVecMem_of_enters enters (q := q) (by rw [if_neg (by simp [loads])]; exact reads)
  simpa only [loads, free, sound, Bool.not_false, Bool.false_eq_true, if_false, Option.elim_none] using effect

/-- A store whose access is made at once. -/
theorem effVecMem_of_store (stores : c.store = true) (free : p.me.rangeBusy p.nextCmd true (c.range r p.me).1 (c.range r p.me).2 = false) :
    effVecMem r false c.contiguous (c.addr r) p =
      .done ((p.vecStore (c.command r p false)).vecQueued (c.command r p false) (c.range r p.me)) := by
  have effect := effVecMem_of_enters enters (q := p) (if_pos stores ▸ rfl)
  simpa only [stores, free, Bool.not_true, Bool.false_eq_true, if_false, if_true] using effect

/-- An access that the range scoreboard holds waits in the queue. -/
theorem effVecMem_of_busy (busy : p.me.rangeBusy p.nextCmd c.store (c.range r p.me).1 (c.range r p.me).2 = true)
    (reads : if c.store = true then q = p else p.readTaint 0x400000 (inWindow (c.access r p.me)) = some q) :
    effVecMem r (!c.store) c.contiguous (c.addr r) p = .done (if c.store then q.vecQueued (c.command r p true) (c.range r p.me)
      else (q.vecQueued (c.command r p true) (c.range r p.me)).claimReg ⟨.v, r.d.toNat⟩) := by
  rw [effVecMem_of_enters enters reads, if_pos busy]

end

/-! ## The statement -/

/-- Settles O27: a good access enters with the value or the memory of its elements, a held one enters and waits, the first bad element
decides the trap, and a load's value comes last. -/
theorem vectorAccesses : Obligations.VectorAccesses := by
  refine ⟨?load, ?store, ?busy, ?trap, ?release, ?value⟩
  case load =>
    intro c mem r s q ready p x n w passes room free scored reads sound z
    obtain ⟨loads, meaning⟩ := exec_vectorLoad mem
    have enters : c.Enters r p := ⟨fun e mem => by rw [loads]; exact passes e mem, room, scored⟩
    obtain ⟨span, unit⟩ := c.command_span r p false
    obtain ⟨ts, tainted⟩ := State.readTaint_eq reads
    have next : z.nextCmd = p.nextCmd := by rw [State.correctElems_nextCmd, tainted]; rfl
    have start : s.cycle = p.cycle := (State.prepare_cycle ..).symm
    refine ⟨_, _, span, unit, ?_, fun j bound => VectorAccess.element_vecLoad loads false bound⟩
    rw [meaning]
    refine issue_issued_nil ready ((effVecMem_of_load enters loads free reads sound).trans ?_)
    rw [State.claimReg_v, start, State.vecQueued_of_nextCmd next]
    simp only [VectorAccess.command, loads]
    rfl
  case store =>
    intro c mem r s ready p x w passes room free scored
    obtain ⟨stores, meaning⟩ := exec_vectorStore mem
    have enters : c.Enters r p := ⟨fun e mem => by rw [stores]; exact passes e mem, room, scored⟩
    obtain ⟨span, unit⟩ := c.command_span r p false
    have start : s.cycle = p.cycle := (State.prepare_cycle ..).symm
    refine ⟨(c.command r p false).stored p.me.lm, _, span, unit, ?_, fun k => ?_, fun a => ?_⟩
    · rw [meaning]
      refine issue_issued_nil ready ((effVecMem_of_store enters stores free).trans ?_)
      rw [State.vecStore_eq, start]
      simp only [State.vecQueued, VectorAccess.command, stores]
      rfl
    · exact VecCmd.mem_poison_stored ..
    · have data : (c.command r p false).data = p.me.v r.b.toNat := if_pos stores
      have read := (c.command r p false).read_stored p.me.lm a
      rw [data] at read
      refine read.trans ?_
      show Option.elim (x.reverse.find? (fun e => e.2 ≤ a && a < e.2 + w / 8)) _ _ = _
      cases x.reverse.find? (fun e => e.2 ≤ a && a < e.2 + w / 8)
      all_goals rfl
  case busy =>
    intro c mem r s q ready p x w passes room busy scored reads
    have enters : c.Enters r p := ⟨passes, room, scored⟩
    have effect := effVecMem_of_busy enters busy reads
    have claims := c.claims_vecQueued r p q true (c.range r p.me)
    by_cases stores : c.store = true
    · rw [if_pos stores] at effect reads
      refine ⟨_, c.command r p true, (exec_vectorAccess mem r s).trans (issue_issued_nil ready effect),
        by rw [reads]; rfl, rfl, rfl, rfl, rfl, rfl, claims, ?_⟩
      rw [if_pos stores, List.append_nil]
      rfl
    · rw [if_neg stores] at effect reads
      obtain ⟨ts, tainted⟩ := State.readTaint_eq reads
      rw [State.claimReg_v] at effect
      refine ⟨_, c.command r p true, (exec_vectorAccess mem r s).trans (issue_issued_nil ready effect),
        by rw [tainted]; rfl, rfl, rfl, rfl, rfl, rfl, claims, ?_⟩
      rw [if_neg stores]
      rfl
  case trap =>
    intro c mem r s ready p x w before after e z k elements passes fails
    rw [exec_vectorAccess mem, issue_trap ready (effVecMem_of_fails elements passes fails), localInfo, mul_comm (2 ^ 48)]
  case release =>
    intro s c queued mine onCore made loads due claim
    exact exec_vectorAccessDone_of_claim queued mine onCore made loads due claim
  case value =>
    intro s c queued mine onCore made loads due released claimed fresh
    have bound : (⟨.v, c.dst⟩ : Reg) ∈ (s.dropVec c.id).me.claimed := claimed
    obtain ⟨value, free, core⟩ := State.deliverV_of_claimed (x := c.data) bound
    exact ⟨_, exec_vectorAccessDone_of_value queued mine onCore made loads due released fresh, value, free, by rw [core]; rfl⟩

end Sys2Proof.Machine
end

section
/-! SUPPORT. Stage barriers, the barrier instructions and sleeping (R216-R220, R224), and the statements about them. -/

namespace Sys2Proof.Machine

/-! ## The update and the layout (R217, R218) -/

/-- An update in one equation: the code and the error of the phase first, then the counts, and the next phase when none is left. -/
theorem Bar.update_eq (b : Bar) (bytes arrivals code : Nat) :
    let short : Bool := b.pb < bytes ∨ b.pa < arrivals
    let failed : Bool := b.ecur ∨ code ≠ 0 ∨ short = true
    let named := if code ≠ 0 ∧ b.ecur = false then code else if short = true ∧ b.ecur = false then 7 else b.code
    b.update bytes arrivals code =
      if b.pb - bytes = 0 ∧ b.pa - arrivals = 0 ∧ (b.pb ≠ 0 ∨ b.pa ≠ 0) then
        ⟨b.rlb, b.rla, (b.phase + 1) % 256, false, failed, named, b.rlb, b.rla⟩
      else ⟨b.pb - bytes, b.pa - arrivals, b.phase, failed, b.elast, named, b.rlb, b.rla⟩ := by
  obtain ⟨pb, pa, phase, ecur, elast, old, rlb, rla⟩ := b
  unfold Bar.update Bar.isOpen
  by_cases fault : code = 0
  · by_cases short : pb < bytes ∨ pa < arrivals
    · cases ecur <;> simp [fault, short, and_assoc]
    · cases ecur <;> simp [fault, short, and_assoc]
  · by_cases short : pb < bytes ∨ pa < arrivals
    · cases ecur <;> simp [fault, short, and_assoc]
    · cases ecur <;> simp [fault, short, and_assoc]

/-- Every field of a barrier fits its bits (R217). -/
structure Bar.Fits (b : Bar) : Prop where
  pb : b.pb < 2 ^ 32
  pa : b.pa < 2 ^ 16
  phase : b.phase < 256
  code : b.code < 64
  rlb : b.rlb < 2 ^ 32
  rla : b.rla < 2 ^ 16

theorem Bar.ofNum_toNum {b : Bar} (fits : b.Fits) : Bar.ofNum b.toNum = b := by
  obtain ⟨pb, pa, phase, ecur, elast, code, rlb, rla⟩ := b
  obtain ⟨hpb, hpa, hphase, hcode, hrlb, hrla⟩ := fits
  dsimp only at hpb hpa hphase hcode hrlb hrla
  simp only [Bar.ofNum, Bar.toNum, Bar.mk.injEq]
  cases ecur <;> cases elast <;> simp <;> omega

theorem Bar.toNum_lt {b : Bar} : b.toNum < 256 ^ 16 := by
  unfold Bar.toNum
  split <;> split <;> omega

/-- The barrier stored at an address is the one that stands there. -/
theorem Activity.bar_setBar {b : Bar} (fits : b.Fits) (a : Activity) (y : Nat) : (a.setBar y b).bar y = b := by
  have read := Memory.readN_writeN (toBytes 16 b.toNum) a.lm.bytes y
  rw [toBytes_length] at read
  have stored : (a.setBar y b).lm.read y 16 = toBytes 16 b.toNum := read
  rw [Activity.bar, stored, ofBytes_toBytes 16 _ Bar.toNum_lt, Bar.ofNum_toNum fits]

/-- Settles O17: the update by its equation, the layout field by field. -/
theorem barrierUpdateAndLayout : Obligations.BarrierUpdateAndLayout := by
  refine ⟨fun b bytes arrivals code => ?update, fun b pb pa phase code rlb rla => ?layout⟩
  case update =>
    intro short code' ecur' u
    have eq : u = _ := b.update_eq bytes arrivals code
    rw [eq]
    refine ⟨?_, ?_, ?_, fun complete => ?_, fun goesOn => ?_⟩
    · split <;> rfl
    · split <;> rfl
    · split <;> rfl
    · rw [if_pos complete]; exact ⟨rfl, rfl, rfl, rfl, rfl⟩
    · rw [if_neg goesOn]; exact ⟨rfl, rfl, rfl, rfl, rfl⟩
  case layout =>
    have fits : b.Fits := ⟨pb, pa, phase, code, rlb, rla⟩
    exact ⟨Bar.ofNum_toNum fits, fun a y => Activity.bar_setBar fits a y⟩

/-! ## The barrier instructions (R216, R219, R220) -/

/-- The instructions go through `issue` with their own effects. -/
theorem exec_barriers (r : R) (s : State) : exec (.barInit r) s = execBarInit r s ∧ exec (.barExp r) s = execBarExp r s ∧
    exec (.barArr r) s = execBarArr r s ∧ exec (.barInval r) s = execBarInval r s ∧ exec (.barTest r) s = execBarTest r s ∧
    exec (.barWait r) s = execBarWait r s := ⟨rfl, rfl, rfl, rfl, rfl, rfl⟩

theorem State.BarrierAt.barCheck {p : State} {y : Nat} (good : p.BarrierAt y) (f : Nat) : p.barCheck f y = none := by
  obtain ⟨inside, aligned⟩ := good
  simp [State.barCheck, inside, aligned]

theorem State.barResult_eq (i : Instr) (d : BitVec 6) (v : Nat) (p : State) :
    p.barResult i d v = p.withPend (newWrite .engine (p.cycle + 1) i.srcs ⟨.g, d.toNat⟩ ((BitVec.ofNat 64 v).setWidth 1024)) :=
  State.pendWrite_eq ..

/-- A ready instruction whose effect is a result of the barrier unit. -/
theorem issue_barResult {i : Instr} {s t : State} {eff : State → Eff} {d : BitVec 6} {x : Vec} (v : Nat) (ready : Ready i s)
    (done : eff (s.prepare i) = .done (t.barResult i d v)) (now : t.cycle = (s.prepare i).cycle) (word : (BitVec.ofNat 64 v).setWidth 1024 = x) :
    issue i s eff = .next (t.issued i (newWrite .engine (s.cycle + 1) i.srcs ⟨.g, d.toNat⟩ x)) := by
  rw [State.barResult_eq, now, State.prepare_cycle, word] at done
  exact issue_withPend ready done

/-- The distance of the phase from a token of 8 bits. -/
theorem Bar.ahead_mod (b : Bar) (token : Nat) : b.ahead (token % 256) = (b.phase + 256 - token % 256) % 256 := by
  rw [Bar.ahead, Nat.mod_mod]

/-- Settles O18, instruction by instruction: the address passes its checks, and the rest is the instruction's own case. -/
theorem barrierInstructions : Obligations.BarrierInstructions := by
  refine ⟨fun r s ready => ?init, fun r s ready => ?exp, fun r s ready => ?arr, fun r s ready => ?inval, fun r s ready => ?test,
    fun r s ready => ?wait⟩
  all_goals obtain ⟨init, exp, arr, inval, test, wait⟩ := exec_barriers r s
  case init =>
    intro p y b a good counts unnamed
    have counted : (decide (b = 0) && decide (a = 0)) = false := by simpa [imp_iff_not_or] using counts
    rw [init, execBarInit]
    refine issue_barResult 0 ready ?_ rfl (BitVec.setWidth_zero ..)
    dsimp only
    rw [good.barCheck, counted, unnamed]
    rfl
  case exp =>
    intro p y b good
    rw [exp, execBarExp]
    refine issue_barResult b.phase ready ?_ rfl rfl
    dsimp only
    rw [good.barCheck]
    rfl
  case arr =>
    intro p y n good counts
    rw [arr, execBarArr]
    refine issue_issued ready ?_
    dsimp only
    rw [good.barCheck]
    exact if_neg counts
  case inval =>
    intro p y good unnamed
    rw [inval, execBarInval]
    refine issue_issued ready ?_
    dsimp only
    rw [good.barCheck, unnamed]
    rfl
  case test =>
    intro p y b d good
    rw [test, execBarTest]
    refine issue_barResult (b.status (if d = 1 then 0 else if d = 0 then 2 else 1)) ready ?_ rfl rfl
    dsimp only
    rw [good.barCheck, Bar.ahead_mod]
  case wait =>
    intro p y t b d good
    have ahead : b.ahead t = d := b.ahead_mod _
    rw [wait, execBarWait]
    refine ⟨fun past => issue_barResult (b.status (if d = 1 then 0 else 1)) ready ?_ rfl rfl, fun same => issue_issued ready ?_⟩
    · dsimp only
      rw [good.barCheck, ahead]
      show (if d = 1 then _ else if d = 0 then _ else _) = _
      rw [if_neg past]
      by_cases next : d = 1
      · rw [if_pos next, if_pos next]
      · rw [if_neg next, if_neg next]
    · dsimp only
      rw [good.barCheck, ahead, same]
      rfl

/-! ## Sleeping (R224) -/

section
variable {i : Instr} {s : State} {wake : Nat} {eff : State → Eff} (ready : Ready i s) (sleeps : eff (s.prepare i) = effSleep wake (s.prepare i))
include ready sleeps

theorem issue_sleep_over (come : wake ≤ s.cycle) : issue i s eff = .next ((s.prepare i).issued i []) := by
  rw [← State.prepare_cycle i s] at come
  exact issue_issued ready (sleeps.trans (if_pos come))

theorem issue_sleep_waits (waits : s.cycle < wake) : issue i s eff = .next ({ (s.prepare i).flushPending with
    me := { (s.prepare i).flushPending.me with block := .sleep wake } }.issued i []) := by
  rw [← State.prepare_cycle i s] at waits
  exact issue_issued ready (sleeps.trans (if_neg (Nat.not_le.mpr waits)))

end

theorem exec_sleep (r : R) (s : State) : exec (.sleep r) s = issue (.sleep r) s (fun p => effSleep (p.cycle + (p.me.srcB r).toNat) p) := rfl

theorem exec_sleepu (r : R) (s : State) : exec (.sleepu r) s = issue (.sleepu r) s (fun p => effSleep (p.me.srcB r).toNat p) := rfl

/-- What SLEEP_WAKE makes of an activity that sleeps. -/
theorem exec_sleepWake {s : State} {uid w : Nat} {a : Activity} (found : s.act? uid = some a) (asleep : a.block = .sleep w) :
    exec (.sleepWake uid) s = .next (if w ≤ s.cycle then
      s.modAct uid (fun a => { a with block := .none, nextIssue := max a.nextIssue (w + 1) }) else s) := by
  have arm : exec (.sleepWake uid) s = execSleepWake uid s := rfl
  rw [arm, execSleepWake, found, Option.map_some, asleep]

/-- Settles O19: the two instructions by `effSleep`, the wake step by its one case. -/
theorem sleeping : Obligations.Sleeping := by
  refine ⟨?issue, fun uid w a s found asleep come => ?wakes, fun uid w a s found asleep waits => ?sleeps, fun a w asleep => ?kind⟩
  case issue =>
    simp only [List.forall_mem_cons, List.not_mem_nil, false_implies, implies_true, and_true]
    refine ⟨fun r s ready => ?_, fun r s ready => ?_⟩
    · rw [exec_sleep]
      exact ⟨issue_sleep_over ready (by rw [State.prepare_cycle]; rfl), issue_sleep_waits ready (by rw [State.prepare_cycle]; rfl)⟩
    · rw [exec_sleepu]
      exact ⟨issue_sleep_over ready (by rw [if_neg Bool.false_ne_true, Nat.zero_add]), issue_sleep_waits ready (by rw [if_neg Bool.false_ne_true, Nat.zero_add])⟩
  case wakes => rw [exec_sleepWake found asleep, if_pos come]
  case sleeps => rw [exec_sleepWake found asleep, if_neg (Nat.not_le.mpr waits)]
  case kind => exact ⟨by rw [Activity.wakeKind, asleep], by rw [Activity.wakeWords, asleep]⟩

end Sys2Proof.Machine
end

section
/-! SUPPORT. The checks of R199 at the issue of a command, and a command's place in the copy queue or in the held-effects buffer (R20, R23, R212,
R360, R364). -/

namespace Sys2Proof.Machine

/-! ## Checks one after the other (R199) -/

section
variable {s : State} {k : State → Eff}

/-- Checks that all pass leave the effect. -/
theorem checked_of_pass {cs : List Check} (pass : ∀ c ∈ cs, c s = none) : checked cs k s = k s := by
  have none : cs.findSome? (fun c => c s) = none := List.findSome?_eq_none_iff.mpr pass
  simp only [checked, none]

/-- The first check that does not pass decides. -/
theorem checked_of_stop {before after : List Check} {c : Check} {e : Eff} (pass : ∀ b ∈ before, b s = none) (stop : c s = some e) :
    checked (before ++ c :: after) k s = e := by
  have none : before.findSome? (fun b => b s) = none := List.findSome?_eq_none_iff.mpr pass
  simp only [checked, List.findSome?_append, none, List.findSome?_cons, stop, Option.none_or]

end

section
variable {s : State} {f n y tid : Nat} {write : Bool} {r : R}

theorem ckLocal_of_pass (pass : s.checkLocal write y n = none) : ckLocal f write y n s = none := by
  simp [ckLocal, pass]

theorem ckFault_of_good {bad : Bool} (good : bad = false) (code pos tid : Nat) : ckFault bad code pos tid s = none := by
  simp [ckFault, good]

theorem ckFault_of_bad {bad : Bool} (fails : bad = true) (code pos tid : Nat) : ckFault bad code pos tid s = some (.fault code pos tid) := by
  simp [ckFault, fails]

theorem State.BarNamed.ckBar (named : s.BarNamed r) (f : Nat) : ckBar f r s = none := by
  obtain ⟨-, zero | inside⟩ := named
  · simp [Machine.ckBar, zero]
  · simp [Machine.ckBar, ckLocal_of_pass inside]

theorem State.BarNamed.ckBarAlign (named : s.BarNamed r) (tid : Nat) : ckBarAlign r tid s = none :=
  ckFault_of_good (by simp [named.1]) ..

/-- The descriptor of a tensor has been read, and is valid. -/
structure State.Describes (s : State) (tid : Nat) (d : Desc) : Prop where
  named : tid ≠ 0
  found : s.findDesc tid = some (some d)

section
variable {d : Desc} (describes : s.Describes tid d)
include describes

theorem State.Describes.ckDesc : ckDesc tid s = none := by
  simp [Machine.ckDesc, describes.named, describes.found]

theorem State.Describes.descOf : s.descOf tid = some d := by
  simp [State.descOf, describes.found]

theorem State.Describes.ckWith (g : Desc → Check) : ckWith tid g s = g d s := by
  simp only [Machine.ckWith, describes.descOf]

end

/-- Tensor id 0, or an invalid descriptor (R199, step 2). -/
theorem ckDesc_of_invalid (invalid : tid = 0 ∨ s.findDesc tid = some none) : ckDesc tid s = some (.fault 1 0 tid) := by
  by_cases zero : tid = 0
  · simp [ckDesc, zero]
  · simp [ckDesc, zero, invalid.resolve_left zero]

/-- A descriptor that has not been read. -/
theorem ckDesc_of_unread (named : tid ≠ 0) (unread : s.findDesc tid = none) :
    ckDesc tid s = some (.hold { s with me := { s.me with descWait := some tid } }) := by
  simp [ckDesc, named, unread, State.modMe]

end

/-! ## Entering the queue (R20, R23, R364) -/

section
variable {s : State} {c : Cmd} {claims : List Claim}

theorem State.noneLeaving_iff (s : State) : s.NoneLeaving ↔ s.me.helds.any (fun h => h.released) = false := by
  simp [State.NoneLeaving]

/-- A command that finds room enters the queue; a write command or a fence, when nothing is leaving the held-effects buffer. -/
theorem accept_of_room (room : s.CopyRoom c.u claims.length) (leaves : c.kind.isWrite = true ∨ c.kind = .fence → s.NoneLeaving)
    (after : State → State) : accept c claims after s = .done (after (s.enqueue c claims)) := by
  obtain ⟨queue, score⟩ := room
  have free : ((c.kind.isWrite || decide (c.kind = .fence)) && s.me.helds.any (fun h => h.released)) = false := by
    rw [Bool.and_eq_false_imp]
    intro ordered
    exact s.noneLeaving_iff.mp (leaves (by simpa using ordered))
  have scored : (!c.u && decide (s.scoreUsed s.me.agent + claims.length > scoreSize s.me.agent.kind)) = false := by
    rcases score with unordered | room
    · simp [unordered]
    · simp [Nat.not_lt.mpr room]
  simp only [accept, queue, free, scored, Bool.false_eq_true, if_false]

/-- A write command waits while effects of its activity are leaving the held-effects buffer (R364). -/
theorem accept_of_leaving (write : c.kind.isWrite = true) (leaving : ¬ s.NoneLeaving) (after : State → State) :
    accept c claims after s = .hold s := by
  have busy : s.me.helds.any (fun h => h.released) = true := by simpa [s.noneLeaving_iff] using leaving
  simp only [accept, write, busy, Bool.true_or, Bool.and_self, if_true, ite_self]

section
variable (room : s.CopyRoom c.u claims.length)
include room

/-- A write command that names a barrier takes no journal entry (R212). -/
theorem acceptWrite_of_bar (bar : c.bar ≠ 0) (free : s.NoneLeaving) : acceptWrite c claims s = .done (s.enqueue c claims) := by
  rw [acceptWrite, if_pos bar, accept_of_room room (fun _ => free), id]

/-- A write command without a barrier takes the lowest free journal entry (R212). -/
theorem acceptWrite_of_entry {e : Nat} (bar : c.bar = 0) (entry : s.core.freeEntry = some e) (free : s.NoneLeaving) :
    acceptWrite c claims s = .done ((s.enqueue { c with journal := some e } claims).modCore (fun k =>
      { k with journal := AMap.put k.journal e ⟨c.id, c.owner, c.pc, 0, 0⟩ })) := by
  rw [acceptWrite, if_neg (not_not.mpr bar), entry]
  exact accept_of_room (c := { c with journal := some e }) room (fun _ => free) _

end

/-- A write command waits while there is no journal entry for it, or effects are leaving (R212, R364). -/
theorem acceptWrite_of_wait (write : c.kind.isWrite = true) (waits : (c.bar = 0 ∧ s.core.freeEntry = none) ∨ ¬ s.NoneLeaving) :
    acceptWrite c claims s = .hold s := by
  by_cases bar : c.bar = 0
  · cases entry : s.core.freeEntry with
    | none => rw [acceptWrite, if_neg (not_not.mpr bar), entry]
    | some e =>
      have leaving : ¬ s.NoneLeaving := waits.resolve_left (by simp [entry])
      rw [acceptWrite, if_neg (not_not.mpr bar), entry]
      exact accept_of_leaving (c := { c with journal := some e }) write leaving _
  · have leaving : ¬ s.NoneLeaving := waits.resolve_left (fun h => bar h.1)
    rw [acceptWrite, if_pos bar, accept_of_leaving write leaving]

end

/-- A write command that its effect accepts is posted (R212). -/
theorem State.Posts.of_accept {i : Instr} {s : State} {eff : State → Eff} {c : Cmd} {claims : List Claim} (ready : Ready i s)
    (write : c.kind.isWrite = true) (room : (s.prepare i).CopyRoom c.u claims.length) (accepts : eff (s.prepare i) = acceptWrite c claims (s.prepare i)) :
    (s.prepare i).Posts i c claims (s.prepare i) (issue i s eff) := by
  refine ⟨fun free => ⟨fun bar => ?_, fun e bar entry => ?_⟩, fun bar none => ?_, fun leaving => ?_⟩
  · exact issue_issued ready (accepts.trans (acceptWrite_of_bar room bar free))
  · exact issue_issued ready (accepts.trans (acceptWrite_of_entry room bar entry free))
  · exact issue_hold ready (accepts.trans (acceptWrite_of_wait write (.inl ⟨bar, none⟩)))
  · exact issue_hold ready (accepts.trans (acceptWrite_of_wait write (.inr leaving)))

/-! ## Loads and their promises (R213-R215) -/

/-- A state in which the promise of a load is recorded, under `.pm`. -/
def State.promised (c : Cmd) (pr : Nat) (s : State) : State :=
  { s with me := { s.me with promises := s.me.promises ++ (if c.r.pm ∧ pr ≠ 0 then [(⟨c.id, c.bar, c.phase, pr⟩ : Promise)] else []) } }

theorem State.setPromise_eq (i : Instr) (c : Cmd) (pr : Nat) (s : State) : s.setPromise i c pr =
    (s.promised c pr).withPend (newWrite .engine (s.cycle + 1) i.srcs ⟨.g, c.r.d.toNat⟩ ((BitVec.ofNat 64 pr).setWidth 1024)) := by
  unfold State.setPromise State.resultAt State.promised
  rw [State.pendWrite_eq]
  by_cases recorded : c.r.pm = true ∧ pr ≠ 0
  · simp only [recorded.1, recorded.2, decide_true, Bool.and_self, if_true, ne_eq, not_false_eq_true, and_self]
    rfl
  · have unrecorded : (c.r.pm && decide (pr ≠ 0)) = false := by
      rw [Bool.and_eq_false_imp]
      intro pm
      simpa [pm] using recorded
    simp only [unrecorded, recorded, Bool.false_eq_true, if_false, List.append_nil]

theorem State.enqueue_cycle (c : Cmd) (claims : List Claim) (s : State) : (s.enqueue c claims).cycle = s.cycle := by
  unfold State.enqueue
  dsimp only
  split <;> rfl

/-- A load that its effect places has issued (R214, R215). -/
theorem issue_loaded {i : Instr} {s : State} {eff : State → Eff} {c : Cmd} {y : Nat} (ready : Ready i s) (load : c.kind.isLoad = true)
    (room : (s.prepare i).CopyRoom c.u 1) (places : eff (s.prepare i) = placeLoad i c y (s.prepare i)) :
    issue i s eff = .next ((s.prepare i).loaded i c y) := by
  obtain ⟨reads, -, -, -⟩ := CmdKind.of_isLoad load
  have noFence : c.kind ≠ .fence := by intro fence; simp [fence, CmdKind.isLoad] at load
  have done := accept_of_room (c := { c with due := (s.prepare i).firstDue c }) (claims := [⟨c.id, y, c.len, true⟩]) room
    (fun ordered => by simp [reads, noFence] at ordered)
    (State.setPromise i { c with due := (s.prepare i).firstDue c } ((s.prepare i).promise { c with due := (s.prepare i).firstDue c } c.r.d))
  rw [State.setPromise_eq, State.enqueue_cycle] at done
  exact issue_withPend ready (places.trans done)

/-- Recording the translations that a cache holds changes nothing else of a command. -/
theorem Core.translateHits_eq (k : Core) (asid : Nat) (c : Cmd) : ∃ m, (k.translateHits asid c).2 = { c with xlat := m } := by
  have fold : ∀ (ps : List Nat) (k : Core) (d : Cmd), (∃ m, d = { c with xlat := m }) →
      ∃ m, (ps.foldl (fun (x : Core × Cmd) p => match x.1.tlbFind x.2.vd asid (p * pageBytes) with
        | some y => (x.1.tlbTouch y, { x.2 with xlat := AMap.put x.2.xlat p (some (y.apply (p * pageBytes), y.writable)) })
        | none => x) (k, d)).2 = { c with xlat := m } := by
    intro ps
    induction ps with
    | nil => exact fun _ _ same => same
    | cons p ps ih =>
      rintro k _ ⟨m, rfl⟩
      rw [List.foldl_cons]
      dsimp only
      split
      · exact ih _ _ ⟨_, rfl⟩
      · exact ih _ _ ⟨_, rfl⟩
  exact fold (pagesOf c.spans) k c ⟨c.xlat, rfl⟩

end Sys2Proof.Machine
end

section
/-! SUPPORT. The tile and linear copies at their issue (R201-R204, R214), and the statement about them (O32). -/

namespace Sys2Proof.Machine

/-! ## The checks of a tile or linear copy (R199, R202) -/

section
variable {s : State}

/-- The conditions on the length of a linear copy pass (R202). -/
theorem State.LinearRange.ckLinear {write : Bool} {y off n : Nat} (range : s.LinearRange write y off n) (tid : Nat) :
    ∀ c ∈ ckLinear y off n tid, c s = none := by
  obtain ⟨-, positive, bounded, whole, aligned, offset⟩ := range
  simp only [Machine.ckLinear, List.forall_mem_cons, List.not_mem_nil, false_imp_iff, implies_true, and_true]
  exact ⟨ckFault_of_good (by simp; omega) .., ckFault_of_good (by simp [whole, aligned, offset, bounded]) ..⟩

/-- A block-scaled format has no update; every other has each (R201). -/
theorem undefinedUpdate_eq_false {op fmt : Nat} (defined : op ≠ 0 → isBlock fmt = false) : (decide (op ≠ 0) && !redOk op fmt) = false := by
  by_cases none : op = 0
  · simp [none]
  · simp [none, redOk, defined none]

end

/-! ## A write command's entry in the held-effects buffer (R359, R360) -/

/-- The copy of the bytes that a held write command takes with it. -/
def State.payload (src n : Nat) (s : State) : LMem :=
  ⟨Memory.writeN [] src (s.readLocal src n), (wordsOf src n).filter (fun w => (s.poisonAt (8 * w) 8).isSome), true, []⟩

/-- The state with a write command in the held-effects buffer. -/
def State.withHeld (c : Cmd) (src n size : Nat) (s : State) : State :=
  { s with me := { s.me with
      helds := s.me.helds ++ [(⟨some { c with held := true, payload := some (s.payload src n) }, none, size, false⟩ : Held)] } }

section
variable {s : State} {c : Cmd} {src n : Nat}

/-- The payload reads as the bytes did. -/
theorem State.payload_read {k : Nat} {b : Byte} (byte : (s.readLocal src n)[k]? = some b) :
    (s.payload src n).bytes.read (src + k) = b := by
  obtain ⟨at_, byte⟩ := List.getElem?_eq_some_iff.mp byte
  exact (Memory.read_writeN_inside _ _ _ _ at_).trans byte

/-- A write command of a speculative activity for which the buffer has room is held. -/
theorem placeWrite_of_speculative (speculative : s.me.speculative = true) (small : heldEntry (n + 4 * c.idx.length) ≤ 8192)
    (room : s.heldUsed s.me.agent + heldEntry (n + 4 * c.idx.length) ≤ 16384) (quiet : c.u = true ∨ s.me.rangeBusy s.nextCmd false src n = false) :
    placeWrite c src n s = .done (s.withHeld c src n (heldEntry (n + 4 * c.idx.length))) := by
  have free : (!c.u && s.me.rangeBusy s.nextCmd false src n) = false := by
    rcases quiet with unordered | idle
    · simp [unordered]
    · simp [idle]
  simp only [placeWrite, speculative, if_true, holdWrite, Nat.not_lt.mpr small, Nat.not_lt.mpr room, free, if_false, Bool.false_eq_true]
  rfl

/-- A write command of an activity that is not speculative, with a range or without one. -/
theorem placeWrite_of_committed (committed : s.me.speculative = false) (some_ : n ≠ 0) :
    placeWrite c src n s = acceptWrite c [⟨c.id, src, n, false⟩] s := by
  simp [placeWrite, committed, some_]

theorem placeWrite_of_empty (committed : s.me.speculative = false) : placeWrite c src 0 s = acceptWrite c [] s := by
  simp [placeWrite, committed]

end

/-! ## The promise (R214) -/

section
variable {s : State} {c : Cmd} {d : BitVec 6}

/-- A page's translation is kept, and the page lies in device memory. -/
def Cmd.hitsPage (h : Cmd) (g : Nat) : Prop := ∃ pa w, AMap.find h.xlat g = some (some (pa, w)) ∧ paKind pa = .device

/-- No promise without a register for it, of a deferred load, or where a page misses (R214). -/
theorem State.promise_eq_zero (none : d = 0 ∨ c.sem = 3 ∨ ∃ g ∈ pagesOf c.spans, ¬ (s.core.translateHits (s.asidOf c) c).2.hitsPage g) :
    s.promise c d = 0 := by
  unfold State.promise
  dsimp only
  rw [if_pos]
  rcases none with zero | deferred | ⟨g, page, miss⟩
  · simp [zero]
  · simp [deferred]
  · simp only [Bool.or_eq_true, Bool.not_eq_true', List.all_eq_false]
    refine .inl (.inl ⟨g, page, fun ok => miss ?_⟩)
    split at ok
    · next pa w found => exact ⟨pa, w, found, by simpa using ok⟩
    · cases ok

/-- The level latency is that to the first line of a command's first unit (R213). -/
theorem State.firstLatency_eq (a : Agent) (h : Cmd) : s.firstLatency a h =
    ((h.target.bind (fun x => (s.linesOf x h.xlat false ((h.unitSrc 0).map (fun z => z.2))).head?)).map (fun k =>
      levelLatency a ⟨.spindle, s.homeSlice k⟩)).getD 0 := by
  unfold State.firstLatency State.sliceAgent
  cases h.target with
  | none => rfl
  | some x =>
    dsimp only [Option.bind_some]
    split
    · next line => simp [line]
    · next line => simp [line]

/-- The promise when every page hits (R214). -/
theorem State.promise_of_hits (named : d ≠ 0) (undeferred : c.sem ≠ 3)
    (hits : ∀ g ∈ pagesOf c.spans, (s.core.translateHits (s.asidOf c) c).2.hitsPage g) :
    s.promise c d = s.cycle + 16 * (s.core.copyq.filter (fun e => !e.started && e.kind ≠ .fence)).length +
      2 * s.firstLatency s.me.agent (s.core.translateHits (s.asidOf c) c).2 + (c.len + 63) / 64 + 320 := by
  unfold State.promise
  dsimp only
  rw [if_neg]
  simp only [named, undeferred, decide_false, Bool.or_false, Bool.not_eq_true', Bool.not_eq_false, List.all_eq_true]
  intro g page
  obtain ⟨pa, w, found, device⟩ := hits g page
  simp [found, device]

end

/-! ## What a tile or linear copy does (R201, R202, R204) -/

/-- The command of a copy of a tensor's tile or range. -/
def State.copyCmd (k : CmdKind) (r : R) (d : Desc) (n : Nat) (p : State) : Cmd :=
  { p.newCmd k r with
    tid := p.tidB r
    desc := some d
    len := n }

section
variable {r : R} {s : State} {d : Desc}

/-- A `cpyst` whose checks pass places its command (R199, R201). -/
theorem exec_cpyst_places {y : Nat} (describes : (s.prepare (.cpyst r)).Describes ((s.prepare (.cpyst r)).tidB r) d)
    (address : ((s.prepare (.cpyst r)).me.g r.a.toNat).toNat = y) (inside : (s.prepare (.cpyst r)).checkLocal false y d.ll = none)
    (within : d.outside ((s.prepare (.cpyst r)).me.g r.c.toNat).toNat ((s.prepare (.cpyst r)).me.g r.e.toNat).toNat = false)
    (writable : d.ro = false) (defined : r.redOp ≠ 0 → isBlock d.fmt = false) (bar : (s.prepare (.cpyst r)).BarNamed r) :
    ∃ eff, exec (.cpyst r) s = issue (.cpyst r) s eff ∧
      eff (s.prepare (.cpyst r)) = placeWrite ((s.prepare (.cpyst r)).copyCmd .cpyst r d d.ll) y d.ll (s.prepare (.cpyst r)) := by
  subst address
  have arm : exec (.cpyst r) s = execCpyst r s := rfl
  rw [arm]
  refine ⟨_, rfl, ?_⟩
  dsimp only
  rw [checked_of_pass, describes.descOf]
  · rfl
  · simp only [List.forall_mem_cons, List.not_mem_nil, false_imp_iff, implies_true, and_true]
    exact ⟨bar.ckBar _, describes.ckDesc, (describes.ckWith _).trans (ckLocal_of_pass inside), bar.ckBarAlign _,
      (describes.ckWith _).trans (ckFault_of_good within ..), (describes.ckWith _).trans (ckFault_of_good writable ..),
      (describes.ckWith _).trans (ckFault_of_good (undefinedUpdate_eq_false defined) ..)⟩

end

/-! ## The statement -/

/-- Settles O32: each copy's checks pass, and what is left is a load's place in the queue, a write command's posting, or its entry in the
held-effects buffer. -/
theorem copyIssue : Obligations.CopyIssue := by
  unfold Obligations.CopyIssue
  refine ⟨?cpy, ?cpyl, ?cpyst, ?cpylSt, ?pfx, ?tflush, ?held, ?promise⟩
  case cpy =>
    intro r s d ready p tid y c named found inside within bar room
    have describes : p.Describes (p.tidB r) d := ⟨named, found⟩
    have arm : exec (.cpy r) s = execCpy r s := rfl
    rw [arm, execCpy]
    refine issue_loaded ready rfl room ?_
    dsimp only
    rw [checked_of_pass, describes.descOf]
    · rfl
    · simp only [List.forall_mem_cons, List.not_mem_nil, false_imp_iff, implies_true, and_true]
      exact ⟨bar.ckBar _, describes.ckDesc, (describes.ckWith _).trans (ckLocal_of_pass inside), bar.ckBarAlign _,
        (describes.ckWith _).trans (ckFault_of_good within ..)⟩
  case cpyl =>
    intro r s d ready p tid y n c named found range bar room
    have describes : p.Describes (p.tidB r) d := ⟨named, found⟩
    have arm : exec (.cpyl r) s = execCpyl r s := rfl
    rw [arm, execCpyl]
    refine issue_loaded ready rfl room ?_
    dsimp only
    rw [checked_of_pass, describes.descOf]
    · rfl
    · simp only [List.forall_mem_append, List.forall_mem_cons, List.not_mem_nil, false_imp_iff, implies_true, and_true]
      exact ⟨⟨ckLocal_of_pass range.1, bar.ckBar _, describes.ckDesc, bar.ckBarAlign _⟩, range.ckLinear _⟩
  case cpyst =>
    intro r s d ready committed p tid y c named found inside within writable defined some_ bar room
    obtain ⟨eff, issues, places⟩ := exec_cpyst_places ⟨named, found⟩ rfl inside within writable defined bar
    rw [issues]
    exact .of_accept ready rfl room (places.trans (placeWrite_of_committed (by simpa using committed) some_))
  case cpylSt =>
    intro r s d ready committed p tid y n c named found range writable bar room
    have describes : p.Describes (p.tidB r) d := ⟨named, found⟩
    have arm : exec (.cpylSt r) s = execCpylSt r s := rfl
    rw [arm, execCpylSt]
    refine .of_accept ready rfl room ?_
    dsimp only
    rw [checked_of_pass, describes.descOf]
    · exact placeWrite_of_committed (by simpa using committed) range.2.1.ne'
    · simp only [List.forall_mem_append, List.forall_mem_cons, List.not_mem_nil, false_imp_iff, implies_true, and_true]
      exact ⟨⟨⟨ckLocal_of_pass range.1, bar.ckBar _, describes.ckDesc, bar.ckBarAlign _⟩, range.ckLinear _⟩,
        (describes.ckWith _).trans (ckFault_of_good writable ..)⟩
  case pfx =>
    intro r s d ready p tid named found within room
    have describes : p.Describes (p.tidB r) d := ⟨named, found⟩
    have arm : exec (.pfx r) s = execPfx r s := rfl
    rw [arm, execPfx]
    refine issue_issued ready ?_
    dsimp only
    rw [checked_of_pass, describes.descOf]
    · exact accept_of_room room (by simp [State.newCmd, CmdKind.isWrite]) id
    · simp only [List.forall_mem_cons, List.not_mem_nil, false_imp_iff, implies_true, and_true]
      exact ⟨describes.ckDesc, (describes.ckWith _).trans (ckFault_of_good within ..)⟩
  case tflush =>
    intro r s d ready committed p tid named found bar room
    have describes : p.Describes (p.tidB r) d := ⟨named, found⟩
    have arm : exec (.tflush r) s = execTflush r s := rfl
    rw [arm, execTflush]
    refine .of_accept ready rfl room ?_
    dsimp only
    rw [checked_of_pass, describes.descOf]
    · exact placeWrite_of_empty (by simpa using committed)
    · simp only [List.forall_mem_cons, List.not_mem_nil, false_imp_iff, implies_true, and_true]
      exact ⟨bar.ckBar _, describes.ckDesc, bar.ckBarAlign _⟩
  case held =>
    intro r s d ready speculative p tid y size named found inside within writable defined bar small room quiet
    obtain ⟨eff, issues, places⟩ := exec_cpyst_places ⟨named, found⟩ rfl inside within writable defined bar
    refine ⟨p.copyCmd .cpyst r d d.ll, p.payload y d.ll, ?_, rfl, rfl, rfl, rfl, rfl, rfl, fun k b _ byte => State.payload_read byte⟩
    rw [issues]
    exact issue_issued ready (places.trans (placeWrite_of_speculative (by simpa using speculative) small room quiet))
  case promise =>
    intro s c d h hit first
    refine ⟨State.promise_eq_zero, fun named undeferred hits => ?_⟩
    obtain ⟨m, same⟩ := Core.translateHits_eq s.core (s.asidOf c) c
    have target : h.target = c.target := (congrArg Cmd.target same :)
    have unitSrc : h.unitSrc 0 = c.unitSrc 0 := (congrArg (·.unitSrc 0) same :)
    rw [State.promise_of_hits named undeferred hits, State.firstLatency_eq, target, unitSrc]

end Sys2Proof.Machine
end

section
/-! SUPPORT. `gath`, `scat` and `red`: the index list, the two steps of R205, and the statement about them (O33). -/

namespace Sys2Proof.Machine

/-! ## The index list (R205, R206) -/

/-- The first bad index is the first of a bad row. -/
theorem State.badIndex_indexList (p : State) (r : R) (d : Desc) :
    badIndex d.nr (p.indexList (p.me.g r.c.toNat).toNat (p.me.g r.e.toNat).toNat) = p.badRow r d := by
  have positions : ∀ (f : Nat → Int) (n : Nat), ((List.range n).map f).zipIdx = (List.range n).map (fun i => (f i, i)) :=
    fun f n => List.ext_getElem (by simp) (by simp)
  unfold badIndex State.indexList State.badRow
  rw [positions, List.find?_map, Option.map_map]
  exact congrFun Option.map_id _

/-- A bad row is one of the list. -/
theorem State.badRow_lt {p : State} {r : R} {d : Desc} {k : Nat} (bad : p.badRow r d = some k) : k < (p.me.g r.e.toNat).toNat :=
  List.mem_range.mp (List.mem_of_find?_eq_some bad)

/-! ## The activity while its list is read, and after (R23, R205) -/

/-- The activity with no list being read. -/
def State.unlisted (p : State) : State := { p with me := { p.me with listRead := none } }

/-- Entering the queue leaves the list of the activity. -/
theorem State.unlisted_enqueue (p : State) (c : Cmd) (claims : List Claim) : p.unlisted.enqueue c claims = (p.enqueue c claims).unlisted := by
  unfold State.enqueue
  dsimp only
  rw [apply_ite State.unlisted]
  rfl

/-- An instruction that issues has no list being read. -/
theorem issue_unlisted {i : Instr} {s t : State} {eff : State → Eff} (ready : Ready i s) (done : eff (s.prepare i) = .done t.unlisted) :
    issue i s eff = .next (t.issued i []) := (issue_issued ready done).trans rfl

/-- A list has no part in whether the activity is speculative. -/
@[simp] theorem State.unlisted_speculative (p : State) : p.unlisted.me.speculative = p.me.speculative := rfl

/-- A list takes no room in the held-effects buffer. -/
theorem State.unlisted_heldUsed (p : State) (a : Agent) : p.unlisted.heldUsed a = p.heldUsed a := by
  unfold State.heldUsed State.residents State.allActs State.unlisted
  by_cases absent : p.me.life = .absent
  · simp [absent]
  · by_cases here : p.me.agent = a
    · simp [absent, here, Activity.heldBytes]
    · simp [absent, here]

/-! ## The steps of R205 -/

section
variable {k : CmdKind} {f : Nat} {r : R} {d : Desc} {p : State} {defined : Desc → Bool} {place : Cmd → Desc → State → Eff}

/-- The list as it is kept by an activity that waits: its place, and the scoreboard entries that go with it. -/
def State.rowList (r : R) (p : State) : Nat × Nat × Nat :=
  ((p.me.g r.c.toNat).toNat, 4 * (p.me.g r.e.toNat).toNat, if r.unordered then 0 else 2)

/-- What follows once the list has been read. -/
def State.placeRows (k : CmdKind) (r : R) (d : Desc) (place : Cmd → Desc → State → Eff) (p : State) : Eff :=
  keepList (p.rowList r) (place (p.rowCmd k r d) d p.unlisted)

/-- The cycle from which the list has been read (R205). -/
def State.listDue (r : R) (p : State) : Nat := p.me.firstTry.getD p.cycle + (4 * (p.me.g r.e.toNat).toNat + 63) / 64 + 2

/-- With the operands in order, the list is read, its indices are looked at, and the command is placed. -/
theorem effRows_of_pass (pass : p.RowsPass k r d) (good : defined d = true) (writable : k = .gath ∨ d.ro = false) :
    effRows k f r defined place p = if p.cycle < p.listDue r then .hold (p.listing r)
      else (p.badRow r d).elim (p.placeRows k r d place) (fun j => if r.zfill then p.placeRows k r d place else .fault 3 j (p.tidB r)) := by
  obtain ⟨named, found, some_, few, list, aligned, plain, -, rows, data, bar, board⟩ := pass
  have describes : p.Describes (p.tidB r) d := ⟨named, found⟩
  have count : (decide ((p.me.g r.e.toNat).toNat = 0) || decide ((p.me.g r.e.toNat).toNat > 1024)) = false := by simp; omega
  have format : (isBlock d.fmt || decide (d.rb > 2048)) = false := by simp [plain, rows]
  have reads : (!r.unordered && (p.me.rangeBusy p.nextCmd false (p.me.g r.c.toNat).toNat (4 * (p.me.g r.e.toNat).toNat) ||
      (p.me.listRead.isNone && decide (p.scoreUsed p.me.agent + 2 > scoreSize p.me.agent.kind)))) = false := by
    rcases board with unordered | ⟨quiet, reading | room⟩
    · simp [unordered]
    · simp [quiet, Option.isNone_eq_false_iff.mpr (Option.isSome_iff_ne_none.mpr reading)]
    · simp [quiet, Nat.not_lt.mpr room]
  have unordered : (p.newCmd k r).u = r.unordered := rfl
  unfold effRows
  dsimp only
  rw [checked_of_pass, unordered, if_neg (by simpa using reads)]
  · by_cases early : p.cycle < p.listDue r
    · rw [if_pos early, if_pos (by exact early)]
      rfl
    · rw [if_neg early, if_neg (by exact early), describes.descOf]
      dsimp only
      rw [State.badIndex_indexList]
      cases p.badRow r d with
      | none => rfl
      | some j => rfl
  · simp only [List.forall_mem_cons, List.not_mem_nil, false_imp_iff, implies_true, and_true]
    refine ⟨ckLocal_of_pass list, bar.ckBar _, describes.ckDesc, (describes.ckWith _).trans ?_, bar.ckBarAlign _, ckFault_of_good count ..,
      ckFault_of_good (by simp [aligned]) .., (describes.ckWith _).trans (ckFault_of_good format ..),
      (describes.ckWith _).trans (ckFault_of_good (by simp [good]) ..), (describes.ckWith _).trans (ckFault_of_good ?_ ..)⟩
    · rw [if_neg (by simp [plain, rows, few, some_.ne'])]
      exact ckLocal_of_pass data
    · rcases writable with gather | writable
      · simp [gather]
      · simp [writable]

/-- Until the list has been read, the activity waits with it (R205). -/
theorem effRows_of_early (pass : p.RowsPass k r d) (good : defined d = true) (writable : k = .gath ∨ d.ro = false)
    (early : p.cycle < p.listDue r) : effRows k f r defined place p = .hold (p.listing r) := by
  rw [effRows_of_pass pass good writable, if_pos early]

/-- A list whose indices are good, or that is filled with zeros, is followed by its command (R205, R206). -/
theorem effRows_of_read (pass : p.RowsPass k r d) (good : defined d = true) (writable : k = .gath ∨ d.ro = false)
    (read : p.listDue r ≤ p.cycle) (inside : r.zfill = true ∨ p.badRow r d = none) :
    effRows k f r defined place p = p.placeRows k r d place := by
  rw [effRows_of_pass pass good writable, if_neg (Nat.not_lt.mpr read)]
  rcases inside with filled | none
  · cases p.badRow r d with
    | none => rfl
    | some j => exact if_pos filled
  · rw [none, Option.elim_none]

/-- A position in a list fits its field of XINFO: a list has 1024 indices at most. -/
theorem State.RowsPass.badRow_mod {j : Nat} (pass : p.RowsPass k r d) (bad : p.badRow r d = some j) : j % 2 ^ 16 = j := by
  obtain ⟨-, -, -, few, -⟩ := pass
  have inList := State.badRow_lt bad
  omega

/-- A bad index takes RANGE with its position (R206). -/
theorem effRows_of_bad {j : Nat} (pass : p.RowsPass k r d) (good : defined d = true) (writable : k = .gath ∨ d.ro = false)
    (read : p.listDue r ≤ p.cycle) (unfilled : r.zfill = false) (bad : p.badRow r d = some j) :
    effRows k f r defined place p = .trap 0x0C (BitVec.ofNat 64 (3 + j * 2 ^ 16 + (p.me.srcB r).toNat % 2 ^ 16 * 2 ^ 32)) := by
  rw [effRows_of_pass pass good writable, if_neg (Nat.not_lt.mpr read), bad, Option.elim_some, if_neg (by simp [unfilled]), Eff.fault, faultInfo,
    pass.badRow_mod bad, State.tidB, Nat.mod_mod]

end

/-! ## The statement -/

section
variable {k : CmdKind} {r : R} {d : Desc} {s : State} {i : Instr}

/-- A gather that finds room enters the queue, and its activity has no list being read. -/
theorem State.placeRows_gath {p : State} (room : p.unlisted.CopyRoom r.unordered 1) : p.placeRows .gath r d (fun c _ s =>
      accept { c with due := s.firstDue c } [⟨c.id, c.opA.toNat, c.len, true⟩] id s) =
    .done (p.enqueue { p.rowCmd .gath r d with due := p.firstDue (p.rowCmd .gath r d) }
      [⟨p.nextCmd, (p.me.g r.a.toNat).toNat, (p.me.g r.e.toNat).toNat * d.rbp, true⟩]).unlisted := by
  have accepted := accept_of_room (s := p.unlisted) (c := { p.rowCmd .gath r d with due := p.firstDue (p.rowCmd .gath r d) })
    (claims := [⟨p.nextCmd, (p.me.g r.a.toNat).toNat, (p.me.g r.e.toNat).toNat * d.rbp, true⟩]) room
    (by simp [State.rowCmd, State.newCmd, CmdKind.isWrite]) id
  rw [id, State.unlisted_enqueue] at accepted
  exact congrArg (keepList (p.rowList r)) accepted

/-- The rows' bytes, which a write command of rows takes its range for, are some. -/
theorem Desc.rows_ne_zero {n : Nat} (some_ : 0 < n) (row : 0 < d.rb) : n * d.rbp ≠ 0 := by
  have padded : 0 < d.rbp := by unfold Desc.rbp; omega
  exact (Nat.mul_pos some_ padded).ne'

/-- A scatter or a reduction whose effect places it is posted, and waits with its list (R205, R212, R364). -/
theorem State.Posts.of_placeRows {p : State} {eff : State → Eff} {claims : List Claim} {place : Cmd → Desc → State → Eff} (ready : Ready i s)
    (prepared : s.prepare i = p) (write : k.isWrite = true) (room : p.unlisted.CopyRoom r.unordered claims.length)
    (places : eff p = p.placeRows k r d place)
    (accepts : place (p.rowCmd k r d) d p.unlisted = acceptWrite (p.rowCmd k r d) claims p.unlisted) :
    p.Posts i (p.rowCmd k r d) claims (p.listing r) (issue i s eff) := by
  have issued : ∀ {t : State}, acceptWrite (p.rowCmd k r d) claims p.unlisted = .done t.unlisted → issue i s eff = .next (t.issued i []) :=
    fun done => issue_unlisted ready (by rw [prepared, places, State.placeRows, accepts, done]; rfl)
  have held : acceptWrite (p.rowCmd k r d) claims p.unlisted = .hold p.unlisted → issue i s eff = .next (p.listing r).holdIssue :=
    fun hold => issue_hold ready (by rw [prepared, places, State.placeRows, accepts, hold]; rfl)
  refine ⟨fun free => ⟨fun bar => ?_, fun e bar entry => ?_⟩, fun bar none => ?_, fun leaving => ?_⟩
  · have enters := acceptWrite_of_bar (s := p.unlisted) room bar free
    exact issued (enters.trans (by rw [State.unlisted_enqueue]))
  · have enters := acceptWrite_of_entry (s := p.unlisted) room bar entry free
    rw [State.unlisted_enqueue] at enters
    exact issued enters
  · exact held (acceptWrite_of_wait write (.inl ⟨bar, none⟩))
  · exact held (acceptWrite_of_wait write (.inr leaving))

end

/-- `scat` and `red` place their rows with the bytes of their range, once the list has been read (R201, R205). -/
theorem exec_writeRows {x : (R → Instr) × CmdKind} (row : x ∈ [(Instr.scat, CmdKind.scat), (.red, .red)]) {r : R} {s : State} {d : Desc}
    (pass : (s.prepare (x.1 r)).RowsPass x.2 r d) (writable : d.ro = false) (updates : x.2 = .red → r.redOp ≠ 0)
    (read : (s.prepare (x.1 r)).listDue r ≤ (s.prepare (x.1 r)).cycle) (inside : r.zfill = true ∨ (s.prepare (x.1 r)).badRow r d = none) :
    x.2.isWrite = true ∧ ∃ eff, exec (x.1 r) s = issue (x.1 r) s eff ∧ eff (s.prepare (x.1 r)) =
      (s.prepare (x.1 r)).placeRows x.2 r d (fun c _ s => placeWrite c c.opA.toNat c.len s) := by
  obtain ⟨-, -, -, -, -, -, plain, -⟩ := id pass
  simp only [List.mem_cons, List.not_mem_nil, or_false] at row
  rcases row with rfl | rfl
  · have arm : exec (.scat r) s = execScat r s := rfl
    rw [arm, execScat]
    exact ⟨rfl, _, rfl, effRows_of_read pass rfl (.inr writable) read inside⟩
  · have arm : exec (.red r) s = execRed r s := rfl
    have defined : redOk r.redOp d.fmt = true := by simp [redOk, plain, updates rfl]
    rw [arm, execRed]
    exact ⟨rfl, _, rfl, effRows_of_read pass defined (.inr writable) read inside⟩

/-- Settles O33: the checks of R205 pass, the list is read, and then `gath` enters the queue, and `scat` and `red` are posted or held. -/
theorem rowCopies : Obligations.RowCopies := by
  unfold Obligations.RowCopies
  refine ⟨?gath, ?posts, ?held⟩
  case gath =>
    intro r s d ready p n pass room
    have arm : exec (.gath r) s = execGath r s := rfl
    rw [arm, execGath]
    refine ⟨fun early => ?_, fun read => ⟨fun inside => ?_, fun k unfilled bad => ?_⟩⟩
    · exact issue_hold ready (effRows_of_early pass rfl (.inl rfl) early)
    · exact issue_unlisted ready ((effRows_of_read pass rfl (.inl rfl) read inside).trans (State.placeRows_gath room))
    · exact issue_trap ready (effRows_of_bad pass rfl (.inl rfl) read unfilled bad)
  case posts =>
    intro x row r s d ready committed p n pass writable updates room read inside
    obtain ⟨-, -, some_, -, -, -, -, whole, -⟩ := id pass
    obtain ⟨write, eff, issues, places⟩ := exec_writeRows row pass writable updates read inside
    rw [issues]
    exact .of_placeRows ready rfl write room places
      (placeWrite_of_committed (s := p.unlisted) (by simpa [p] using committed) (Desc.rows_ne_zero some_ whole))
  case held =>
    intro x row r s d ready speculative p n size pass writable updates read inside small room quiet
    obtain ⟨-, eff, issues, places⟩ := exec_writeRows row pass writable updates read inside
    have list : heldEntry (n * d.rbp + 4 * (p.rowCmd x.2 r d).idx.length) = size := by simp [State.rowCmd, heldEntry, size, n]
    have held := placeWrite_of_speculative (s := p.unlisted) (c := p.rowCmd x.2 r d) (src := (p.me.g r.a.toNat).toNat) (n := n * d.rbp)
      (by simpa [p] using speculative) (list ▸ small) (by rw [list, State.unlisted_heldUsed]; exact room) quiet
    rw [list] at held
    refine ⟨p.unlisted.payload (p.me.g r.a.toNat).toNat (n * d.rbp), ?_⟩
    rw [issues]
    exact issue_unlisted ready (places.trans (congrArg (keepList (p.rowList r)) held))

end Sys2Proof.Machine
end

section
/-! SUPPORT. The copy faults at the issue of tile copies and matrix instructions (R199, R211, R255), and the statement about them (O34). -/

namespace Sys2Proof.Machine

/-- XINFO of a copy fault without a position. -/
theorem faultInfo_no_position (code : Nat) {tid : Nat} (small : tid < 2 ^ 16) : faultInfo code 0 tid = BitVec.ofNat 64 (code + tid * 2 ^ 32) := by
  simp only [faultInfo, Nat.zero_mod, Nat.zero_mul, Nat.add_zero, Nat.mod_eq_of_lt small]

/-- Tensor ids have 16 bits. -/
theorem State.tidB_lt (s : State) (r : R) : s.tidB r < 2 ^ 16 := Nat.mod_lt _ (by decide)

/-! ## The tile copies (R199, R201) -/

section
variable {p : State} {r : R} {d : Desc} {f : Nat} {write : Bool}

/-- The checks of a tile copy before those of its tile and of its writing, in the order of R199. -/
def State.tileChecks (f : Nat) (r : R) (write : Bool) (p : State) : List Check :=
  [ckBar f r, ckDesc (p.tidB r), ckWith (p.tidB r) (fun d => ckLocal f write (p.me.g r.a.toNat).toNat d.ll), ckBarAlign r (p.tidB r)]

/-- The tile lies in the tensor, if only in part (R199). -/
def State.ckTile (r : R) (p : State) : Check :=
  ckWith (p.tidB r) (fun d => ckFault (d.outside (p.me.g r.c.toNat).toNat (p.me.g r.e.toNat).toNat) 2 0 (p.tidB r))

theorem State.Describes.tileChecks (describes : p.Describes (p.tidB r) d) (bar : p.BarNamed r)
    (inside : p.checkLocal write (p.me.g r.a.toNat).toNat d.ll = none) : ∀ b ∈ p.tileChecks f r write, b p = none := by
  simp only [State.tileChecks, List.forall_mem_cons, List.not_mem_nil, false_imp_iff, implies_true, and_true]
  exact ⟨bar.ckBar _, describes.ckDesc, (describes.ckWith _).trans (ckLocal_of_pass inside), bar.ckBarAlign _⟩

/-- A tile copy goes through its checks; of a write, READONLY comes after TILE. -/
theorem exec_tileCopy {x : (R → Instr) × Bool} (tile : x ∈ [(Instr.cpy, true), (.cpyst, false)]) (r : R) (s : State) :
    ∃ eff f rest k, exec (x.1 r) s = issue (x.1 r) s eff ∧
      eff (s.prepare (x.1 r)) = checked ((s.prepare (x.1 r)).tileChecks f r x.2 ++ (s.prepare (x.1 r)).ckTile r :: rest) k (s.prepare (x.1 r)) ∧
      (x.2 = false → ∃ more, rest = ckWith ((s.prepare (x.1 r)).tidB r) (fun d => ckFault d.ro 8 0 ((s.prepare (x.1 r)).tidB r)) :: more) := by
  simp only [List.mem_cons, List.not_mem_nil, or_false] at tile
  rcases tile with rfl | rfl
  · have arm : exec (.cpy r) s = execCpy r s := rfl
    rw [arm]
    exact ⟨_, 0, [], _, rfl, rfl, nofun⟩
  · have arm : exec (.cpyst r) s = execCpyst r s := rfl
    rw [arm]
    exact ⟨_, 1, _, _, rfl, rfl, fun _ => ⟨_, rfl⟩⟩

/-- A tensor that is not there ends the checks, as does a descriptor that has not been read (R199, step 2). -/
theorem checked_tile_of_desc {e : Eff} {rest : List Check} {k : State → Eff} (bar : p.BarNamed r) (stops : ckDesc (p.tidB r) p = some e) :
    checked (p.tileChecks f r write ++ rest) k p = e := by
  refine checked_of_stop (before := [ckBar f r]) ?_ stops
  simpa using bar.ckBar f

end

/-! ## The matrix instructions (R255, R261) -/

/-- The shape that a TS value gives. -/
theorem Shape.of_ne_zero {w : Word} (given : w ≠ 0) : Shape.of w = some ⟨w.toNat / 2 ^ 16 % 256, w.toNat / 2 ^ 8 % 256, w.toNat % 16⟩ := if_neg given

/-- Operands without a shape, or that make no pair, are refused (R261). -/
theorem mmaBad_of_unpaired {koff : Nat} {bound : Option AccView} {ta tb : Word}
    (unpaired : ta = 0 ∨ tb = 0 ∨ mmaPair (ta.toNat % 16) (tb.toNat % 16) = none) : mmaBad koff bound (Shape.of ta) (Shape.of tb) = true := by
  by_cases noA : ta = 0
  · simp [mmaBad, Shape.of, noA]
  · by_cases noB : tb = 0
    · simp [mmaBad, Shape.of, noB]
    · have noPair := (unpaired.resolve_left noA).resolve_left noB
      simp only [mmaBad, Shape.of_ne_zero noA, Shape.of_ne_zero noB, noPair]

/-! ## The statement -/

/-- Settles O34: each fault is the first check that does not pass. -/
theorem copyFaultTraps : Obligations.CopyFaultTraps := by
  unfold Obligations.CopyFaultTraps
  refine ⟨?tiles, ?tld, ?tmov, ?tst, ?mma⟩
  case tiles =>
    intro x tile r s ready p tid info bar
    obtain ⟨eff, f, rest, k, issues, checks, readOnly⟩ := exec_tileCopy tile r s
    have traps (code : Nat) (fault : eff p = .fault code 0 (p.tidB r)) : issue (x.1 r) s eff = .next (s.takeTrap 0x0C (info code) false) := by
      rw [Eff.fault, faultInfo_no_position code (p.tidB_lt r)] at fault
      exact issue_trap ready fault
    rw [issues]
    refine ⟨fun invalid => ?_, fun named unread => ?_, fun d named found inside => ?_⟩
    · exact traps 1 (checks.trans (checked_tile_of_desc bar (ckDesc_of_invalid invalid)))
    · exact issue_hold ready (checks.trans (checked_tile_of_desc bar (ckDesc_of_unread named unread)))
    · have describes : p.Describes (p.tidB r) d := ⟨named, found⟩
      have before := describes.tileChecks (f := f) bar inside
      refine ⟨fun outside => ?_, fun within write ro => ?_⟩
      · exact traps 2 (checks.trans (checked_of_stop before ((describes.ckWith _).trans (ckFault_of_bad outside ..))))
      · obtain ⟨more, rfl⟩ := readOnly write
        have tilePasses : p.ckTile r p = none := (describes.ckWith _).trans (ckFault_of_good within ..)
        rw [List.append_cons] at checks
        exact traps 8 (checks.trans (checked_of_stop (List.forall_mem_append.mpr ⟨before, by simpa using tilePasses⟩)
          ((describes.ckWith _).trans (ckFault_of_bad ro ..))))
  case tld =>
    intro r s ready p shapeless aligned bar
    have arm : exec (.tld r) s = execTld r s := rfl
    have none : Shape.of (p.newMat .tld r).td = none := congrArg Shape.of shapeless
    rw [arm, execTld]
    refine issue_trap ready ?_
    dsimp only
    rw [none]
    refine checked_of_stop (before := [_, _, _, _]) ?_ (ckFault_of_bad rfl ..)
    simp only [List.forall_mem_cons, List.not_mem_nil, false_imp_iff, implies_true, and_true]
    exact ⟨rfl, bar.ckBar _, ckFault_of_good (decide_eq_false (not_not.mpr aligned)) .., bar.ckBarAlign _⟩
  case tmov =>
    intro r s ready shapeless
    have arm : exec (.tmov r) s = execTmov r s := rfl
    rw [arm, execTmov]
    exact issue_trap ready (checked_of_stop (before := []) (by simp) (ckFault_of_bad (decide_eq_true shapeless) ..))
  case tst =>
    intro r s h ready p y shape inside unaligned
    have arm : exec (.tst r) s = execTst r s := rfl
    have some_ : Shape.of (p.newMat .tst r).tb = some h := shape
    rw [arm, execTst]
    refine issue_trap ready ?_
    dsimp only
    rw [some_]
    exact checked_of_stop (before := [_]) (List.forall_mem_singleton.mpr (ckLocal_of_pass inside)) (ckFault_of_bad (decide_eq_true unaligned) ..)
  case mma =>
    intro r s ready local_ p bar unpaired
    have arm : exec (.mma r) s = execMma r s := rfl
    have sourceB : (p.newMat .mma r).tb = p.me.tsv r.b.toNat := by simp [State.newMat, local_]
    rw [arm, execMma]
    refine issue_trap ready ?_
    dsimp only
    rw [sourceB]
    refine checked_of_stop (before := [_, _, _, _]) ?_ (ckFault_of_bad (mmaBad_of_unpaired unpaired) ..)
    simp only [List.forall_mem_cons, List.not_mem_nil, false_imp_iff, implies_true, and_true, local_]
    exact ⟨rfl, bar.ckBar _, ckFault_of_good rfl .., bar.ckBarAlign _⟩

end Sys2Proof.Machine
end

section
/-! SUPPORT. `codeld`, push windows, program requests and fences at their issue (R207-R210, R223), and the statement about them (O35). -/

namespace Sys2Proof.Machine

/-! ## The translations of an image (R194, R207) -/

/-- Steps that change nothing but a command's translations, one after the other, change nothing else of it. -/
theorem foldl_bind_xlat {f : Nat → State × Cmd → Option (State × Cmd)} {c : Cmd}
    (step : ∀ page x y, f page x = some y → ∃ m, y.2 = { x.2 with xlat := m }) :
    ∀ (ps : List Nat) (o : Option (State × Cmd)), (∀ x, o = some x → ∃ m, x.2 = { c with xlat := m }) →
      ∀ x, ps.foldl (fun o page => o.bind (f page)) o = some x → ∃ m, x.2 = { c with xlat := m } := by
  intro ps
  induction ps with
  | nil => exact fun _ same => same
  | cons page ps ih =>
    refine fun o same => ih _ (fun y done => ?_)
    obtain ⟨x, found, done⟩ := Option.bind_eq_some_iff.mp done
    obtain ⟨m, cmd⟩ := same x found
    obtain ⟨m', cmd'⟩ := step page x y done
    exact ⟨m', by rw [cmd', cmd]⟩

/-- The translation of every page, by the cache or by a walk, changes nothing else of its command. -/
theorem State.translateAll_cmd {s t : State} {c e : Cmd} (done : s.translateAll c = some (t, e)) : ∃ m, e = { c with xlat := m } := by
  unfold State.translateAll at done
  refine foldl_bind_xlat (fun page x y done => ?_) _ _ (fun x same => ⟨c.xlat, by rw [← Option.some.inj same]⟩) _ done
  dsimp only at done
  split at done
  · obtain rfl := Option.some.inj done
    exact ⟨_, rfl⟩
  · split at done
    · obtain rfl := Option.some.inj done
      exact ⟨_, rfl⟩
    · cases done

/-! ## The statement -/

/-- Settles O35: the checks of each instruction pass, and its command enters the queue, or its window is registered. -/
theorem windowsAndFences : Obligations.WindowsAndFences := by
  unfold Obligations.WindowsAndFences
  refine ⟨?codeld, ?pwin, ?cpyProg, ?pwret, ?fence⟩
  case codeld =>
    intro r s t c ready committed p va w aligned some_ small quiet translated room q
    have notSpeculative : p.me.speculative = false := by simpa [p] using committed
    have arm : exec (.codeld r) s = execCodeld r s := rfl
    obtain ⟨m, same⟩ := State.translateAll_cmd translated
    have kind : c.kind = .codeld := congrArg Cmd.kind same
    have unordered : c.u = r.unordered := congrArg Cmd.u same
    rw [arm, execCodeld]
    refine issue_issued ready ?_
    dsimp only
    rw [checked_of_pass, translated]
    · refine (accept_of_room (claims := []) (unordered ▸ room) (by simp [kind, CmdKind.isWrite]) _).trans ?_
      simp only [Bool.and_eq_true, decide_eq_true_eq]
      rfl
    · simp only [List.forall_mem_cons, List.not_mem_nil, false_imp_iff, implies_true, and_true]
      refine ⟨ckFault_of_good (decide_eq_false (not_not.mpr aligned)) .., ckFault_of_good ?_ .., if_neg (by rw [notSpeculative]; decide), if_neg ?_,
        if_neg (by rw [translated]; exact Bool.false_ne_true)⟩
      · simpa using ⟨some_, small⟩
      · exact (Bool.not_eq_true _).mpr (List.any_eq_false.mpr (fun g page => (Bool.not_eq_true _).mpr (quiet g page)))
  case pwin =>
    intro r s ready committed p w base n inside aligned whole small few idle apart
    have notSpeculative : p.me.speculative = false := by simpa [p] using committed
    have arm : exec (.pwin r) s = execPwin r s := rfl
    rw [arm, execPwin]
    refine issue_issued ready ?_
    dsimp only
    rw [checked_of_pass]
    · rfl
    · simp only [List.forall_mem_cons, List.not_mem_nil, false_imp_iff, implies_true, and_true]
      refine ⟨ckLocal_of_pass inside, ckFault_of_good (by simpa using ⟨⟨aligned, whole⟩, small⟩) .., ckFault_of_good ?_ .., ckFault_of_good idle ..,
        ckFault_of_good (by simpa using few) .., if_neg (by rw [notSpeculative]; decide)⟩
      simpa using apart
  case cpyProg =>
    intro r s x ready committed p w few found free unasked bar room q
    have notSpeculative : p.me.speculative = false := by simpa [p] using committed
    have arm : exec (.cpyProg r) s = execCpyProg r s := rfl
    rw [arm, execCpyProg]
    refine issue_issued ready ?_
    dsimp only
    rw [checked_of_pass]
    · exact accept_of_room (claims := []) room (by simp [State.newCmd, CmdKind.isWrite]) _
    · simp only [List.forall_mem_cons, List.not_mem_nil, false_imp_iff, implies_true, and_true]
      refine ⟨bar.ckBar _, bar.ckBarAlign _, ckFault_of_good ?_ .., if_neg (by rw [notSpeculative]; decide)⟩
      rw [found]
      simpa [free, unasked] using few
  case pwret =>
    intro r s ready committed p few busy room
    have notSpeculative : p.me.speculative = false := by simpa [p] using committed
    have arm : exec (.pwret r) s = execPwret r s := rfl
    rw [arm, execPwret]
    refine issue_issued ready ?_
    dsimp only
    rw [checked_of_pass]
    · exact accept_of_room (claims := []) room (by simp [State.newCmd, CmdKind.isWrite]) _
    · simp only [List.forall_mem_cons, List.not_mem_nil, false_imp_iff, implies_true, and_true]
      refine ⟨ckFault_of_good ?_ .., if_neg (by rw [notSpeculative]; decide)⟩
      simpa using ⟨few, busy⟩
  case fence =>
    intro r s ready committed p room free
    have arm : exec (.fence r) s = execFence r s := rfl
    rw [arm, execFence]
    refine issue_issued ready ?_
    dsimp only
    have waits : ¬(p.me.speculative && decide (r.sem ≠ 1)) = true := by
      rcases committed with committed | acquire
      · simp [p, committed]
      · simp [acquire]
    rw [if_neg waits]
    exact accept_of_room (claims := []) room (fun _ => free) _

end Sys2Proof.Machine
end

section
/-! SUPPORT. The read of a descriptor, a missed promise, and an update on its way (R193, R215, R287), and the statement about them (O37). -/

namespace Sys2Proof.Machine

/-! ## What the machine's own accesses to address lines leave unchanged (R453) -/

/-- A state with the activity in focus and its core as another has them. -/
structure State.KeepsFocus (s t : State) : Prop where
  me : t.me = s.me
  core : t.core = s.core

theorem State.KeepsFocus.trans {s t u : State} (h : s.KeepsFocus t) (k : t.KeepsFocus u) : s.KeepsFocus u :=
  ⟨k.me.trans h.me, k.core.trans h.core⟩

theorem Recorded.keepsFocus {s t : State} (recorded : Recorded s t) : s.KeepsFocus t := ⟨recorded.me, recorded.core⟩

theorem State.fetchLine_keepsFocus (vd : Nat) (k : LineKey) (s : State) : s.KeepsFocus (s.fetchLine vd k) := by
  have counted : Recorded s (s.countLines [k]) := Recorded.countAt ..
  exact (counted.trans (.ite (.refl _) (.fill ..))).keepsFocus

theorem State.charge_keepsFocus (vd : Nat) (port : Option Agent) (needs : List (Arbiter × Nat)) (s : State) :
    s.KeepsFocus (s.charge vd port needs) := by
  unfold State.charge
  split
  · exact ⟨rfl, rfl⟩
  · exact ⟨rfl, rfl⟩

theorem State.keepAddrs_keepsFocus (vd : Nat) (pas : List Nat) (s : State) : s.KeepsFocus (s.keepAddrs vd pas) := by
  have lines : ∀ (ks : List LineKey) (s : State), s.KeepsFocus (ks.foldl (fun s k => s.keepLine vd k) s) := by
    intro ks
    induction ks with
    | nil => exact fun s => ⟨rfl, rfl⟩
    | cons k ks ih => exact fun s => ((s.charge_keepsFocus ..).trans (State.fetchLine_keepsFocus ..)).trans (ih _)
  exact lines _ s

/-! ## The descriptor that has been read (R193) -/

/-- What the table of a VD has of a tensor: none where its descriptor is not valid, or cannot be read. -/
def State.tableDesc (vd tid : Nat) (s : State) : Option Desc :=
  if !s.inTable vd tid then none
  else match s.loadPhys vd (s.tableAddr vd tid) 64 with
    | .ok w => Desc.parse (toBytes 64 w)
    | .error _ => none

/-- Reading a descriptor leaves it on the core, after those that are there. -/
theorem State.readDesc_compute {vd jid tid : Nat} {s : State} (compute : s.core.agent.kind = .compute) :
    (s.readDesc vd jid tid).me = s.me ∧
      (s.readDesc vd jid tid).core = { s.core with descs := s.core.descs ++ [⟨vd, jid, tid, s.tableAddr vd tid, s.tableDesc vd tid, []⟩] } := by
  have kept : s.KeepsFocus (if s.inTable vd tid then s.keepAddrs vd [s.tableAddr vd tid] else s) := by
    split
    · exact State.keepAddrs_keepsFocus ..
    · exact ⟨rfl, rfl⟩
  unfold State.readDesc
  refine ⟨kept.me, ?_⟩
  dsimp only [State.modCore]
  rw [kept.core]
  have stays : ¬(decide (s.core.agent.kind = .spindle) && decide (s.core.descs.length ≥ 64)) = true := by simp [compute]
  rw [if_neg stays]
  rfl

/-- A descriptor that has just been read is found, none having been there before it. -/
theorem State.findDesc_of_read {tid : Nat} {s t : State} {e : DescEntry} (unread : s.findDesc tid = none) (me : t.me.job.vd = s.me.job.vd)
    (job : t.me.descJob = s.me.descJob) (descs : t.core.descs = s.core.descs ++ [e]) (vd : e.vd = s.me.job.vd) (jid : e.jid = s.me.descJob)
    (named : e.tid = tid) : t.findDesc tid = some e.desc := by
  unfold State.findDesc at unread ⊢
  rw [Option.map_eq_none_iff] at unread
  rw [descs, me, job, List.find?_append, unread]
  simp [vd, jid, named]

/-! ## The statement -/

/-- Settles O37: each step finds its activity, its promise or its message, and its time has come. -/
theorem descriptorsAndPromises : Obligations.DescriptorsAndPromises := by
  unfold Obligations.DescriptorsAndPromises
  refine ⟨?read, ?missed, ?update⟩
  case read =>
    intro s tid onCore waits compute unread pa quiet arrived
    have arm : exec (.descriptorRead s.me.uid) s = execDescriptorRead s.me.uid s := rfl
    have early : ¬(decide (s.cycle + 1 < s.me.firstTry.getD s.cycle + 6 +
        2 * levelLatency s.me.agent (s.sliceAgent (addrKey s.me.job.vd (s.tableAddr s.me.job.vd tid)))) ||
          s.addrHeld s.me.job.vd [s.tableAddr s.me.job.vd tid]) = true :=
      (Bool.not_eq_true _).mpr (Bool.or_eq_false_iff.mpr ⟨decide_eq_false (Nat.not_lt.mpr arrived), quiet⟩)
    have missing : ¬(s.findDesc tid).isSome = true := by rw [unread]; exact Bool.false_ne_true
    obtain ⟨me, core⟩ := State.readDesc_compute (vd := s.me.job.vd) (jid := s.me.descJob) (tid := tid) (s := s) (onCore ▸ compute)
    rw [arm, execDescriptorRead, State.act?_me]
    dsimp only
    rw [waits]
    dsimp only
    rw [State.focus_me onCore, if_neg early, if_neg missing]
    refine ⟨_, rfl, rfl, ?_⟩
    have found := State.findDesc_of_read
      (t := (s.readDesc s.me.job.vd s.me.descJob tid).modMe (fun a => { a with descWait := none })) unread
      (by rw [State.modMe, me]) (by rw [State.modMe, me]; rfl) (congrArg Core.descs core) rfl rfl rfl
    rw [found]
    dsimp only [State.tableDesc]
    by_cases beyond : (s.vd s.me.job.vd).vdasid.toNat / 2 ^ 32 % 2 ^ 17 ≤ tid
    · rw [if_pos beyond, if_pos (by simpa [State.inTable] using beyond)]
    · rw [if_neg beyond, if_neg (by simpa [State.inTable] using beyond)]
      rfl
  case missed =>
    intro s p exists_ found due
    have arm : exec (.missedPromise p.cmd) s = execMissedPromise p.cmd s := rfl
    have mine : s.me.promises.any (fun q => q.cmd = p.cmd && q.cycle ≤ s.cycle) = true :=
      List.any_eq_true.mpr ⟨p, List.mem_of_find?_eq_some found, by simpa using due⟩
    have first : s.allActs.find? (fun a => a.promises.any (fun q => q.cmd = p.cmd && q.cycle ≤ s.cycle)) = some s.me := by
      simp only [State.allActs, List.filter_cons, exists_, ne_eq, not_false_eq_true, decide_true, if_true, List.find?_cons, mine]
    rw [arm, execMissedPromise, first]
    dsimp only
    rw [State.modAct_me, State.modMe, found]
  case update =>
    intro s m uid bar bytes arrivals code found kind due here
    have arm : exec (.returnUpdate m.id) s = execReturnUpdate m.id s := rfl
    have late : ¬(decide (s.cycle + 1 < m.due) || s.saved.any (fun z => z.act.uid = uid)) = true := by
      simpa [Nat.not_lt.mpr due] using here
    rw [arm, execReturnUpdate, found]
    dsimp only
    rw [kind]
    dsimp only
    rw [if_neg late]

end Sys2Proof.Machine
end

section
/-! SUPPORT. The steps of spindle programs and of streams (R209, R280, R281, R286, R288), and the statement about them (O39). -/

namespace Sys2Proof.Machine

/-- A descriptor or an image that a spindle holds is not read again (R279). -/
theorem State.progRead_cached (s : State) (vd va n : Nat) (bs : List Byte) : s.progRead vd va n (some bs) = .ok (bs, true) := rfl

theorem State.countLines_core (ks : List LineKey) (s : State) : (s.countLines ks).core = s.core :=
  (Recorded.countAt (ks.map (fun k => (s.homeSlice k, k))) s).core

section
variable {s : State} {c : Cmd} {a : Activity} (has : s.HasCmd c) (started : c.started = true) (requester : s.streamEnd = some (some a))
include has started requester

/-- A push whose turn has come lands in the requester's window, and is counted on its barrier (R286, R288). -/
theorem State.HasCmd.pushLanded (kind : c.kind = .spush ∨ c.kind = .sfmt)
    (first : ∀ d ∈ s.core.copyq, d.id < c.id → d.kind ≠ .spush ∧ d.kind ≠ .sfmt)
    (trips : ∀ u ∈ (if c.kind = .sfmt then [0] else c.todo), s.tripDone c u = true)
    (lines : c.kind = .spush → ∀ u ∈ c.todo, s.unitReady c u = true ∧ s.unitAt c u s.linkWaits = false)
    (due : s.pushDue c a ≤ s.cycle) (apart : a.listMeets c.base c.len = false) :
    exec (.pushLanded c.id) s = .next ((((((s.countLines ((List.range c.units).flatMap (s.unitLines c))).landCells a.uid (s.pushCells c).1).modCore
      (fun k => { k with pushFree := s.cycle - levelLatency s.core.agent a.agent })).barNote a.uid c.opB.toNat c.len 0
        (if c.err ≠ 0 then c.err else (s.pushCells c).2)).dropCmd c)) := by
  have arm : exec (.pushLanded c.id) s = execPushLanded c.id s := rfl
  have mine : (c.kind = .spush || c.kind = .sfmt) = true := by simpa using kind
  have ahead : s.core.copyq.any (fun d => d.id < c.id && (d.kind = .spush || d.kind = .sfmt)) = false := by
    simpa [List.any_eq_false] using first
  have drawn : c.trips.all (s.tripDone c) = true := by
    rcases kind with spush | sfmt
    · simpa [Cmd.trips, spush] using trips
    · simpa [Cmd.trips, sfmt] using trips
  have served : (c.kind = .spush && !c.todo.all (fun u => s.unitReady c u && !s.unitAt c u s.linkWaits)) = false := by
    rw [Bool.and_eq_false_imp]
    intro spush
    simpa using lines (by simpa using spush)
  rw [arm, execPushLanded, has.onCmd]
  dsimp only
  rw [if_neg (by rw [mine, started, ahead]; decide), requester]
  dsimp only
  rw [if_neg ((Bool.not_eq_true _).mpr served), if_neg (by rw [drawn]; decide), if_neg (Nat.not_lt.mpr due),
    if_neg ((Bool.not_eq_true _).mpr apart)]
  simp only [State.landCells, State.modAct_core, State.modAct_cycle, State.countLines_cycle, State.countLines_core]

/-- An `sfill` whose bytes have come lands whole (R286). -/
theorem State.HasCmd.landingUnit_sfill (copy : s.loc? c.id = none) (kind : c.kind = .sfill)
    (due : c.issued + 5 + 2 * levelLatency s.core.agent a.agent + (c.len + 63) / 64 ≤ s.cycle) (trip : s.tripDone c 0 = true) :
    exec (.landingUnit c.id 0) s = .next (s.landFill c a) := by
  have arm : exec (.landingUnit c.id 0) s = execLandingUnit c.id 0 s := rfl
  have nothing : s.landLoc c.id = s := by simp only [State.landLoc, copy]
  rw [arm, execLandingUnit, nothing, has.onCmd, if_pos kind, State.streamUnit, if_neg (by simp [started]), requester]
  dsimp only
  rw [if_pos kind, if_neg (by simp [trip, Nat.not_lt.mpr due])]

/-- A unit of `swb` whose lines are at hand is performed, with those that are served together with it (R286). -/
theorem State.HasCmd.storePerformed_swb {u : Nat} (kind : c.kind = .swb) (left : u ∈ c.todo)
    (ready : ∀ v ∈ c.batch u, s.unitReady c v = true ∧ s.unitAt c v s.linkWaits = false ∧ s.tripDone c v = true) :
    exec (.storePerformed c.id u) s = .next (s.performBack c u a (fun _ => false)) := by
  have arm : exec (.storePerformed c.id u) s = execStorePerformed c.id u s := rfl
  have all : (c.batch u).all (fun v => s.unitReady c v && !s.unitAt c v s.linkWaits && s.tripDone c v) = true := by
    simpa [and_assoc] using ready
  rw [arm, execStorePerformed, has.onCmd, if_pos kind, State.streamUnit, if_neg (by simp [started]), requester]
  dsimp only
  rw [if_neg (by simp [kind]), if_pos (by simp [left, all])]

end

/-! ## The statement -/

/-- Settles O39: each step finds its command, its request or its program ready, and its time has come. -/
theorem streamSteps : Obligations.StreamSteps := by
  unfold Obligations.StreamSteps
  refine ⟨?request, ?start, ?push, ?fill, ?back, ?ended⟩
  case request =>
    intro s c has kind turn sp
    have arm : exec (.programRequestQueued c.id) s = execProgramRequestQueued c.id s := rfl
    have owner : s.act? c.owner = some s.me := has.owner ▸ s.act?_me
    rw [arm, execProgramRequestQueued, has.onCmd]
    dsimp only
    rw [if_neg (by simp [kind, turn]), owner]
    rfl
  case start =>
    intro s n slot q req saved bs image ag f c head owner card code due
    have arm : exec (.spindleProgramStart n) s = execSpindleProgramStart n s := rfl
    have late : ¬ s.cycle + 1 < q.issued + 4 + levelLatency (if req.agent.kind = .compute then req.agent else ag) ag + 0 := Nat.not_lt.mpr due
    rw [arm, execSpindleProgramStart]
    dsimp only
    rw [head]
    dsimp only
    rw [owner]
    dsimp only
    rw [card, State.progRead_cached]
    dsimp only [Option.isNone]
    refine ⟨fun passes free here pages => ?_, fun fails => ?_⟩
    · rw [passes, code, State.progRead_cached, free]
      simp only [Bool.not_true, Bool.false_eq_true, if_false, if_true, Bool.false_and]
      have room : ¬(false || decide (s.pagesUsed ag + c.footprint > 64)) = true := by simpa using pages
      rw [if_neg late, here, if_neg room]
      rfl
    · rw [fails]
      simp only [Bool.not_false, Bool.false_eq_true, if_false, if_true, Bool.false_and]
      rw [if_neg late]
      rfl
  case push =>
    exact fun s c a has kind started first requester trips lines due apart =>
      has.pushLanded started requester kind first trips lines due apart
  case fill =>
    exact fun s c a has copy kind started requester due trip => has.landingUnit_sfill started requester copy kind due trip
  case back =>
    exact fun s c a u has kind started requester left ready => has.storePerformed_swb started requester kind left ready
  case ended =>
    intro s uid a p found prog spindle ending idle good
    have arm : exec (.spindleProgramEnd uid) s = execSpindleProgramEnd uid s := rfl
    rw [arm, execSpindleProgramEnd, found]
    dsimp only
    rw [prog]
    dsimp only
    rw [if_neg (by simp [spindle, ending, idle]), good]

end Sys2Proof.Machine
end

section
/-! SUPPORT. A flush that names tensor 0, whose report brings a line of the error ring into the cache (R204, R430; O60). -/

namespace Sys2Proof.Machine

/-- A flush of tensor 0, which no instruction issues (R199), whose barrier is about to take POISON. -/
def flushOfZero : Cmd :=
  { State.reset.newCmd .tflush ⟨0, false, none, 0, 0, 0, 0, 0, 0, false, 0, 0⟩ with
    owner := 0, bar := 16, err := errPoison, started := true, todo := [0] }

/-- The flush in the queue of a core whose activity is in focus; error records are enabled, and their ring is empty. -/
def stateOfFlush : State :=
  { State.reset with
    me := { Activity.absent with life := .live }
    core := { Core.fresh ⟨.compute, 0⟩ with copyq := [flushOfZero] }
    svc := { Svc.reset with errEn := true, keys := [(0, ⟨1, 2⟩)] } }

/-- A step leaves an address line of its VD in the cache: tensor 0 is that of address lines (R453). -/
def caches0 (o : Host.Outcome State Fault Refusal) : Bool :=
  match o with
  | .next t => t.cache.lines.any (fun (l : Line) => l.key.vd = 0 && l.key.tid = 0)
  | _ => false

/-- The flush is done, and the record of its POISON has brought the ring's line into the cache. -/
theorem flushOfZero_caches : caches0 (exec (.tflushDone flushOfZero.id) stateOfFlush) = true := by decide +kernel

/-- Refutes O60, by its clause on `tflush`, which speaks of every command of that kind: an error of the flush is reported at its barrier,
and the line of that record (R430) may have the flush's own VD, and its tensor where that is 0. No instruction issues such a flush (R199). -/
theorem not_copiesCollectivesAndLinksComplete : ¬ Obligations.CopiesCollectivesAndLinksComplete := by
  unfold Obligations.CopiesCollectivesAndLinksComplete
  rintro ⟨-, -, -, -, -, -, -, flushed, -⟩
  have has : stateOfFlush.HasCmd flushOfZero := ⟨rfl, rfl, by decide +kernel⟩
  obtain ⟨t, next, gone⟩ := flushed stateOfFlush flushOfZero has rfl rfl (by decide) (by decide +kernel) (fun l inCache => nomatch inCache)
  have cached := flushOfZero_caches
  rw [next] at cached
  obtain ⟨l, inCache, hit⟩ := List.any_eq_true.mp cached
  have tensor0 : l.key.vd = 0 ∧ l.key.tid = 0 := by simpa using hit
  exact gone l inCache tensor0

end Sys2Proof.Machine
end

section
/-! SUPPORT. The entries of an accumulator and a K-step (R252, R262, R73-R76), and the statement about it (O29). -/

namespace Sys2Proof.Machine

/-- Values that are 0 are left out of a sparse map, and read as 0. -/
theorem getD_find_filterMap (f : Nat → BitVec 40) (l : List Nat) (k : Nat) :
    (AMap.find (l.filterMap (fun k => if f k = 0 then none else some (k, f k))) k).getD 0 = if k ∈ l then f k else 0 := by
  induction l with
  | nil => rfl
  | cons x l ih =>
    by_cases zero : f x = 0
    · simp only [List.filterMap_cons, zero, if_true, ih]
      by_cases same : k = x
      · simp [same, zero]
      · simp [same]
    · simp only [List.filterMap_cons, zero, if_false, AMap.find]
      by_cases same : x = k
      · simp [same]
      · rw [if_neg same, ih]
        simp [Ne.symm same]

theorem getD_find_accEntries (f : Nat → BitVec 40) {k : Nat} (within : k < 2048) : ((accEntries f).find k).getD 0 = f k := by
  rw [accEntries, getD_find_filterMap, if_pos (List.mem_range.mpr within)]

/-- An entry after a K-step (R262). -/
theorem Acc.entry_kstep (c : Acc) (o : MmaOps) (step : Nat) {k : Nat} (within : k < 2048) :
    (c.kstep o step).entry k = o.entry c.view step (k / 64) (k % 64) (c.entry k) := by
  rw [Acc.entry, Acc.kstep, getD_find_accEntries _ within]

theorem MmaOps.intSum_eq_sum (o : MmaOps) (step i j : Nat) : o.intSum step i j =
    ((List.range o.ka).map (fun n => sextNat 8 (o.a.code o.ha i (step * o.ka + n)) *
      sextNat 8 (o.b.code o.hb j (16 * o.koff + step * o.ka + n)))).sum :=
  (List.sum_eq_foldl ..).symm

/-- Settles O29: entry `64 * i + j` is that of row `i` and column `j`, and its new value is the model's by its view. -/
theorem accumulatorStep : Obligations.AccumulatorStep := by
  intro c o step i j row column
  have entry := c.entry_kstep o step (show 64 * i + j < 2048 by omega)
  rw [(by omega : (64 * i + j) / 64 = i), (by omega : (64 * i + j) % 64 = j)] at entry
  refine ⟨by rw [Acc.kstep], by rw [Acc.kstep], fun fp => ?_, fun int => ?_⟩
  · rw [entry, fp]
    rfl
  · rw [entry, int, ← MmaOps.intSum_eq_sum]
    rfl

end Sys2Proof.Machine
end

section
/-! SUPPORT. Bytes written to an empty memory, tiles in the layout of R251, and the statement about that layout (O30). -/

namespace Sys2Proof.Machine

/-! ## Bytes written to an empty memory -/

theorem Memory.read_nil (k : Nat) : Memory.read [] k = 0 := rfl

/-- Bytes written from address 0 on, and 0 beyond them. -/
theorem Memory.read_ofList (bs : List Byte) (k : Nat) : (Memory.writeN [] 0 bs).read k = bs.getD k 0 := by
  by_cases within : k < bs.length
  · have inside := Memory.read_writeN_inside bs [] 0 k within
    rw [Nat.zero_add] at inside
    rw [inside, List.getD_eq_getElem]
  · rw [Memory.read_writeN_outside _ _ _ _ (by omega), Memory.read_nil, List.getD_eq_default _ _ (by omega)]

theorem Memory.readN_eq_map (m : Memory) (a n : Nat) : m.readN a n = (List.range n).map (fun i => m.read (a + i)) := by
  induction n generalizing a with
  | zero => rfl
  | succ n ih =>
    rw [Memory.readN, ih, List.range_succ_eq_map, List.map_cons, List.map_map]
    refine congrArg (m.read a :: ·) (List.map_congr_left fun i _ => ?_)
    rw [Function.comp_apply, Nat.add_assoc, Nat.add_comm 1]

/-- A copy of the first bytes of a memory. -/
theorem Memory.read_ofList_readN (m : Memory) (n k : Nat) : (Memory.writeN [] 0 (m.readN 0 n)).read k = if k < n then m.read k else 0 := by
  rw [Memory.read_ofList, Memory.readN_eq_map]
  split
  · next within => rw [List.getD_eq_getElem _ _ (by simpa using within)]; simp
  · next beyond => rw [List.getD_eq_default _ _ (by simpa using beyond)]

/-! ## The layout (R251) -/

theorem Tile.layout_length (t : Tile) (h : Shape) : (t.layout h).length = h.ll := by
  unfold Tile.layout Shape.ll
  split
  · simp [Memory.readN_length]; omega
  · simp [Memory.readN_length]

/-- What is read back: payload, scales and band scale of the shape. -/
theorem Tile.parse_layout (t : Tile) (h : Shape) (bad : Bool) : Tile.parse h (t.layout h) bad =
    { payload := Memory.writeN [] 0 (t.payload.readN 0 h.payload)
      scales := Memory.writeN [] 0 (if isBlock h.fmt then t.scales.readN 0 h.sc else [])
      band := if isBlock h.fmt then t.band else 0
      poison := bad } := by
  have payload : ∀ rest, (t.payload.readN 0 h.payload ++ rest).take h.payload = t.payload.readN 0 h.payload :=
    fun _ => List.take_left' (Memory.readN_length ..)
  have beyond : ∀ rest, (t.payload.readN 0 h.payload ++ rest).drop h.payload = rest := fun _ => List.drop_left' (Memory.readN_length ..)
  unfold Tile.parse Tile.layout
  rw [← List.drop_drop, payload, beyond]
  by_cases block : isBlock h.fmt = true
  · have band : ofBytes (toBytes 2 t.band.toNat) = t.band.toNat := ofBytes_toBytes _ _ (by have := t.band.isLt; omega)
    simp only [block, if_true]
    rw [List.append_assoc, List.take_left' (Memory.readN_length ..), List.drop_left' (Memory.readN_length ..),
      List.take_left' (toBytes_length ..), band, BitVec.ofNat_toNat, BitVec.setWidth_eq]
  · simp [block]

/-- Settles O30: the layout's parts are what they were made of. -/
theorem tileLayout : Obligations.TileLayout := by
  intro h t bad
  rw [Tile.parse_layout]
  refine ⟨t.layout_length h, fun k within => ?_, fun k beyond => ?_, fun block => ⟨if_pos block, fun k within => ?_⟩⟩
  · rw [Memory.read_ofList_readN, if_pos within]
  · rw [Memory.read_ofList_readN, if_neg (by omega)]
  · rw [if_pos block, Memory.read_ofList_readN, if_pos within]

end Sys2Proof.Machine
end

section
/-! SUPPORT. Matrix commands entering their queue (R20, R23, R255, R256), and the statement about their issue (O28). -/

namespace Sys2Proof.Machine

/-! ## Entering the matrix queue (R20, R23) -/

/-- A read of no bytes waits for nothing (R361). -/
theorem State.readTaint_zero (y : Nat) (s : State) : s.readTaint y 0 = some s := by simp [State.readTaint]

/-- A command that finds room enters the queue, once its read of the partner's state may be made (R361). -/
theorem acceptMat_of_room {c : MatCmd} {write : Bool} {p q : State} (room : p.MatRoom)
    (reads : if write = true then q = p else p.readTaint c.y c.len = some q) (after : State → State) :
    acceptMat c write after p = .done (after (q.queued c write)) := by
  obtain ⟨queue, score⟩ := room
  have free : ¬ p.core.matq.length ≥ matQueueSize := Nat.not_le.mpr queue
  have scored : (decide (c.len ≠ 0) && decide (p.scoreUsed p.me.agent + 1 > scoreSize p.me.agent.kind)) = false := by
    simp [Nat.not_lt.mpr score]
  have read : (if decide (c.len ≠ 0) && !write then p.readTaint c.y c.len else some p) = some q := by
    by_cases empty : c.len = 0
    · rw [empty, State.readTaint_zero] at reads
      cases write <;> simp_all
    · cases write <;> simp_all
  simp only [acceptMat, free, scored, read, Bool.false_eq_true, if_false]
  by_cases empty : c.len = 0
  · simp only [empty, if_true, State.queued, List.append_nil]
    rfl
  · simp only [empty, if_false, State.queued]
    rfl

/-- A command without a local range. -/
theorem acceptMat_newMat {k : MatKind} {r : R} {p : State} (room : p.MatRoom) (after : State → State) :
    acceptMat (p.newMat k r) false after p = .done (after (p.queued (p.newMat k r) false)) :=
  acceptMat_of_room (write := false) room (c := p.newMat k r) (p.readTaint_zero 0) after

/-- A command that is accepted as it is has issued. -/
theorem issue_queued {i : Instr} {c : MatCmd} {write : Bool} {s q : State} {eff : State → Eff} (after : State → State) (ready : Ready i s)
    (room : (s.prepare i).MatRoom) (reads : if write = true then q = s.prepare i else (s.prepare i).readTaint c.y c.len = some q)
    (accepts : eff (s.prepare i) = acceptMat c write after (s.prepare i)) :
    issue i s eff = .next ((after (q.queued c write)).issued i []) :=
  issue_issued ready (accepts.trans (acceptMat_of_room room reads after))

/-! ## The checks (R255) -/

theorem checked_nil (k : State → Eff) (p : State) : checked [] k p = k p := rfl

/-- A check that passes leaves the others. -/
theorem checked_cons {c : Check} {cs : List Check} {k : State → Eff} {p : State} (pass : c p = none) : checked (c :: cs) k p = checked cs k p := by
  simp only [checked, List.findSome?_cons, pass]

section
variable {p : State} {r : R} {y f : Nat} {h : Shape}

theorem ckShape_of_pass {write : Bool} (pass : p.checkLocal write y h.ll = none) : ckShape f write y (some h) p = none :=
  ckLocal_of_pass pass

theorem ckFault_of_not {bad : Prop} [Decidable bad] (good : ¬ bad) (code pos tid : Nat) : ckFault bad code pos tid p = none :=
  ckFault_of_good (decide_eq_false good) ..

/-- The draws of `.rs` at issue (R70). -/
theorem State.drawAhead_eq (rs : Bool) (n : Nat) (q : State) :
    q.drawAhead rs n = { q with me := { q.me with seed := (drawsOf rs q.me.seed n).1 } } := by
  unfold State.drawAhead drawsOf
  cases rs <;> rfl

/-- The operands of `tcvt` agree (R260). -/
theorem tcvtBad_of_good {a d : Shape} {b : Word} (rows : a.rows = d.rows) (elems : a.elems = d.elems)
    (overflow : r.ovfM = 2 → isInt d.fmt = false ∧ d.fmt ≠ 7) (band : isBlock d.fmt = true ∨ (r.b = 0 ∧ b = 0)) :
    tcvtBad r b (some a) (some d) = false := by
  have ovf : (decide (r.ovfM = 2) && (isInt d.fmt || decide (d.fmt = 7))) = false := by
    rw [Bool.and_eq_false_imp]
    intro two
    obtain ⟨int, fp4⟩ := overflow (of_decide_eq_true two)
    simp [int, fp4]
  have operand : (!isBlock d.fmt && (decide (r.b ≠ 0) || decide (b ≠ 0))) = false := by
    rcases band with block | ⟨reg, lit⟩
    · simp [block]
    · simp [reg, lit]
  simp only [tcvtBad, rows, elems, ovf, operand, ne_eq, not_true_eq_false, decide_false, Bool.or_self]

/-- The operands of `mma` agree (R261). -/
theorem mmaBad_of_good {a b : Shape} {ka : Nat} {view : AccView} {bound : Option AccView} (rowsA : a.rows = 32) (rowsB : b.rows = 64)
    (pair : mmaPair a.fmt b.fmt = some (ka, view)) (fits : 16 * r.koff + a.rby / 32 * ka ≤ b.elems)
    (agrees : bound = none ∨ bound = some view) : mmaBad r.koff bound (some a) (some b) = false := by
  have views : (bound.isSome && decide (bound ≠ some view)) = false := by
    rcases agrees with rfl | rfl <;> simp
  simp only [mmaBad, pair, rowsA, rowsB, views, Nat.not_lt.mpr fits, ne_eq, not_true_eq_false, decide_false, Bool.or_self]

/-- The checks of `mma` in their order (R255). -/
theorem checked_mma {first : Check} {misplaced bad : Bool} (range : first p = none) (bar : p.BarNamed r) (aligned : misplaced = false)
    (good : bad = false) (k : State → Eff) :
    checked [first, ckBar 0 r, ckFault misplaced 5 0 0, ckBarAlign r 0, ckFault bad 4 0 0] k p = k p := by
  rw [checked_cons range, checked_cons (bar.ckBar 0), checked_cons (ckFault_of_good aligned ..), checked_cons (bar.ckBarAlign 0),
    checked_cons (ckFault_of_good good ..), checked_nil]

end

/-- Registers that an outstanding command will write: none for g0 (R43, R87). -/
theorem State.claimReg_g (n : Nat) (s : State) : s.claimReg ⟨.g, n⟩ =
    { s with me := { s.me with claimed := s.me.claimed ++ if n = 0 then [] else [⟨.g, n⟩] } } := by
  by_cases zero : n = 0
  · simp [State.claimReg, Reg.binds, zero]
  · simp [State.claimReg, Reg.binds, zero, State.modMe]

/-! ## The statement -/

/-- Settles O28: each effect passes its checks, and comes to `acceptMat`. -/
theorem matrixIssue : Obligations.MatrixIssue := by
  refine ⟨?tld, ?tst, ?plain, ?tmov, ?tcvt, ?mma, ?accrd, ?accst⟩
  case tld =>
    intro r s q h ready p y shape range aligned bar room reads
    have arm : exec (.tld r) s = execTld r s := rfl
    rw [arm, execTld]
    refine issue_queued id ready room reads ?_
    dsimp only [State.newMat]
    rw [shape]
    rw [checked_cons (ckShape_of_pass range), checked_cons (bar.ckBar 0), checked_cons (ckFault_of_not (not_not.mpr aligned) ..),
      checked_cons (bar.ckBarAlign 0), Option.isNone_some, checked_cons (ckFault_of_good rfl ..), checked_nil]
    rfl
  case tst =>
    intro r s h ready p y shape range aligned room
    have arm : exec (.tst r) s = execTst r s := rfl
    rw [arm, execTst]
    refine issue_queued id ready room rfl ?_
    dsimp only [State.newMat]
    simp only [reduceCtorEq, decide_false, Bool.false_and, Bool.false_eq_true, if_false]
    rw [shape, checked_cons (ckShape_of_pass range), checked_cons (ckFault_of_not (not_not.mpr aligned) ..), Option.isNone_some,
      checked_cons (ckFault_of_good rfl ..), checked_nil]
    rfl
  case plain =>
    intro c mem r s ready p room
    fin_cases mem
    all_goals exact issue_issued ready (acceptMat_newMat room id)
  case tmov =>
    intro r s ready p shape room q
    have arm : exec (.tmov r) s = execTmov r s := rfl
    rw [arm, execTmov]
    exact issue_issued ready ((checked_cons (ckFault_of_not shape ..)).trans (acceptMat_newMat room _))
  case tcvt =>
    intro r s a d ready p source dest rows elems overflow band room q
    have arm : exec (.tcvt r) s = execTcvt r s := rfl
    have shapeA : Shape.of (p.newMat .tcvt r).ta = some a := source
    have shapeD : Shape.of (p.newMat .tcvt r).td = some d := dest
    have good : tcvtBad r (p.newMat .tcvt r).opB (some a) (some d) = false := tcvtBad_of_good rows elems overflow band
    rw [arm, execTcvt]
    refine (issue_issued (t := (p.queued (p.newMat .tcvt r) false).drawAhead (r.rmM = 4) (a.rows * a.elems)) ready ?_).trans ?_
    · dsimp only
      rw [shapeA, shapeD]
      exact (checked_cons (ckFault_of_good good ..)).trans (acceptMat_newMat room _)
    · rw [State.drawAhead_eq]
      rfl
  case mma =>
    intro r s q a b ka view ready p y shapeA shapeB rowsA rowsB pair fits agrees bar room loc reg
    have arm : exec (.mma r) s = execMma r s := rfl
    have source : Shape.of (p.newMat .mma r).ta = some a := shapeA
    have operand : Shape.of (p.newMat .mma r).tb = some b := by simpa [State.newMat] using shapeB
    have good : mmaBad r.koff (p.viewAhead r.d.toNat) (some a) (some b) = false := mmaBad_of_good rowsA rowsB pair fits agrees
    rw [arm, execMma]
    cases lb : r.lb with
    | true =>
      obtain ⟨range, aligned, reads⟩ := loc lb
      refine issue_queued id ready room reads ?_
      dsimp only
      rw [source, operand]
      exact checked_mma (ckShape_of_pass range) bar (Bool.and_eq_false_imp.mpr fun _ => decide_eq_false (not_not.mpr aligned)) good _
    | false =>
      obtain rfl := reg lb
      refine issue_queued id ready room (State.readTaint_zero ..) ?_
      dsimp only
      rw [source, operand]
      exact checked_mma rfl bar rfl good _
  case accrd =>
    intro r s ready p room q
    have arm : exec (.accrd r) s = execAccrd r s := rfl
    rw [arm, execAccrd]
    refine (issue_issued ready (acceptMat_newMat room _)).trans ?_
    rw [State.claimReg_v, State.claimReg_g]
  case accst =>
    intro r s ready p y row stride range aligned even wide room q
    have arm : exec (.accst r) s = execAccst r s := rfl
    have aligns : ((decide (y % 32 ≠ 0) || decide (stride % 32 ≠ 0)) || decide (stride < row)) = false := by
      simp [aligned, even, wide]
    rw [arm, execAccst]
    refine (issue_queued (c := { p.newMat .accst r with y := y, len := 31 * stride + row }) (write := true) (State.drawAhead (r.rmM = 4) 2048)
      ready room rfl ?_).trans ?_
    · exact (checked_cons (ckLocal_of_pass range)).trans (checked_cons (ckFault_of_good aligns ..))
    · rw [State.drawAhead_eq]
      rfl

end Sys2Proof.Machine
end

section
/-! SUPPORT. A command of the matrix queue whose activity is in focus: what getting ready, starting and completing leave (R249-R274). -/

namespace Sys2Proof.Machine

/-! ## A command in focus -/

/-- A command whose activity is in focus is acted on as the state stands. -/
theorem State.HasMat.onMat {s : State} {c : MatCmd} (has : s.HasMat c) (f : MatCmd → State → State) : s.onMat c.id f = f c s := by
  obtain ⟨owner, onCore, found⟩ := has
  simp only [State.onMat, found, ← owner, State.focus_me onCore, State.focusCore, if_true]

/-! ## The tiles and the bank that a command needs (R249, R269, R361) -/

/-- The state in which the order of use of the activity's tiles, or the verdicts that it waits for, have changed. -/
def State.noted (order taints : List Nat) (s : State) : State := { s with me := { s.me with torder := order, taints := taints } }

/-- The handle of the partner in an established meeting (R322). -/
def Activity.partnerUid (a : Activity) : Option Nat := a.party.bind (fun p => if p.phase = .met then p.partner else none)

theorem State.partner_eq (s : State) : s.partner = s.me.partnerUid.bind s.act? := by
  unfold State.partner Activity.partnerUid
  cases s.me.party with
  | none => rfl
  | some p =>
    dsimp only [Option.bind_some]
    split
    · cases p.partner <;> rfl
    · rfl

/-- A partner is another activity, or has had the same noted. -/
theorem State.partner_noted (order taints : List Nat) (s : State) : (s.noted order taints).partner = s.partner ∨
    (s.partner = some s.me ∧ (s.noted order taints).partner = some (s.noted order taints).me) := by
  rw [State.partner_eq, State.partner_eq, show (s.noted order taints).me.partnerUid = s.me.partnerUid from rfl]
  cases s.me.partnerUid with
  | none => exact .inl rfl
  | some u =>
    by_cases self : s.me.uid = u
    · exact .inr ⟨if_pos self, if_pos self⟩
    · exact .inl ((if_neg self).trans (if_neg self).symm)

theorem State.readPartner_isSome (s : State) :
    s.readPartner.isSome = s.partner.all (fun p => !p.speculative || (s.me.region.open_ && !s.me.region.pin)) := by
  unfold State.readPartner
  cases s.partner with
  | none => rfl
  | some p =>
    rw [Option.all_some]
    dsimp only
    split
    · next free => rw [free]; rfl
    · next waits =>
      rw [(Bool.not_eq_true _).mp waits, Bool.false_or]
      split
      · next opened => exact opened.symm
      · next closed => exact ((Bool.not_eq_true _).mp closed).symm

section
variable (order taints : List Nat) (s : State) (y n : Nat)

theorem State.readLocal_noted : (s.noted order taints).readLocal y n = s.readLocal y n := by
  unfold State.readLocal
  rcases s.partner_noted order taints with same | ⟨own, noted⟩
  · rw [same]; rfl
  · rw [own, noted]; rfl

theorem State.poisonAt_noted : (s.noted order taints).poisonAt y n = s.poisonAt y n := by
  unfold State.poisonAt
  rcases s.partner_noted order taints with same | ⟨own, noted⟩
  · rw [same]; rfl
  · rw [own, noted]; rfl

theorem State.readTaint_noted_isSome : ((s.noted order s.me.taints).readTaint y n).isSome = (s.readTaint y n).isSome := by
  have partner : (s.noted order s.me.taints).readPartner.isSome = s.readPartner.isSome := by
    rw [State.readPartner_isSome, State.readPartner_isSome]
    rcases s.partner_noted order s.me.taints with same | ⟨own, noted⟩
    · rw [same]; rfl
    · rw [own, noted]; rfl
  show (if _ then (s.noted order s.me.taints).readPartner else _).isSome = (if _ then s.readPartner else _).isSome
  rw [apply_ite Option.isSome, apply_ite Option.isSome, partner]
  rfl

end

/-- The bytes that a command needs in local memory are there to read. -/
theorem State.matTaint_noted {order : List Nat} {s : State} {c : MatCmd} (may : (s.matTaint c).isSome = true) :
    ∃ taints, (s.noted order s.me.taints).matTaint c = some (s.noted order taints) := by
  unfold State.matTaint at may ⊢
  split
  · next reads =>
    rw [if_pos reads, ← State.readTaint_noted_isSome order] at may
    obtain ⟨q, read⟩ := Option.isSome_iff_exists.mp may
    obtain ⟨taints, rfl⟩ := State.readTaint_eq read
    exact ⟨taints, read⟩
  · exact ⟨s.me.taints, rfl⟩

theorem foldl_needTile {write : Bool} {l : List Nat} (order : List Nat) {s : State} (there : ∀ n ∈ l, (s.me.tiles.find n).isSome = true) :
    ∃ later, l.foldl (fun (s : Option State) n => s.bind (State.needTile n write)) (some (s.noted order s.me.taints)) =
      some (s.noted later s.me.taints) := by
  induction l generalizing order with
  | nil => exact ⟨order, rfl⟩
  | cons n l ih =>
    obtain ⟨first, rest⟩ := List.forall_mem_cons.mp there
    have touched : State.needTile n write (s.noted order s.me.taints) = some (s.noted (order.filter (· ≠ n) ++ [n]) s.me.taints) := if_pos first
    rw [List.foldl_cons, Option.bind_some, touched]
    exact ih _ rest

/-- Tiles that stand in physical registers are ready for use. -/
theorem State.TilesAt.needTiles {s : State} {c : MatCmd} (tiles : s.TilesAt c) : ∃ order, s.needTiles c = some (s.noted order s.me.taints) := by
  obtain ⟨reads, writes⟩ := List.forall_mem_append.mp tiles
  obtain ⟨order, read⟩ := foldl_needTile (write := false) s.me.torder reads
  obtain ⟨later, written⟩ := foldl_needTile (write := true) order writes
  have start : s.noted s.me.torder s.me.taints = s := rfl
  rw [start] at read
  unfold State.needTiles
  dsimp only
  rw [read]
  split
  · exact ⟨order, rfl⟩
  · exact ⟨later, written⟩

theorem State.keepBlocks_nil (port : Agent × Bool) (vd : Nat) (s : State) : s.keepBlocks (some port) vd [] = s := by
  show s.charge vd (some port.1) [] = s
  simp [State.charge]

/-- Without spilled accumulators there is nothing to refill. -/
theorem State.refillAccs_of_unspilled {s : State} (unspilled : s.me.aspilled = []) : s.refillAccs = s := by
  unfold State.refillAccs
  dsimp only
  rw [unspilled, List.flatMap_nil, State.keepBlocks_nil]
  show { s with me := { s.me with aspilled := [] } } = s
  rw [← unspilled]

/-- An activity whose accumulators stand in its bank has the bank it needs. -/
theorem State.needBank_of_bound {s : State} (bound : s.me.accs ≠ []) (unspilled : s.me.aspilled = []) : s.needBank = some s := by
  rw [State.needBank, if_pos bound, State.refillAccs_of_unspilled unspilled]

theorem AMap.ne_nil_of_find {α : Type} {m : AMap α} {n : Nat} {x : α} (found : m.find n = some x) : m ≠ [] := by
  rintro rfl
  cases found

/-- A running command finds its tiles, its bank and its local operand. -/
theorem State.ready_of_tilesAt {s : State} {c : MatCmd} (tiles : s.TilesAt c) (may : (s.matTaint c).isSome = true) :
    ∃ order taints, (s.needTiles c).bind (State.matTaint c) = some (s.noted order taints) := by
  obtain ⟨order, touched⟩ := tiles.needTiles
  obtain ⟨taints, read⟩ := State.matTaint_noted (order := order) may
  exact ⟨order, taints, by rw [touched, Option.bind_some, read]⟩

/-! ## Ending a command (R274) -/

section
variable (c : MatCmd) (s : State)

/-- Of the activity in focus, ending a command changes its scoreboard entries and the cycle of its last command, if anything. -/
theorem State.endMat_me : ∃ claims done, (s.endMat c).me = { s.me with claims := claims, matDone := done } := by
  unfold State.endMat State.modAct
  split
  · exact ⟨_, _, rfl⟩
  · exact ⟨s.me.claims, s.me.matDone, rfl⟩

@[simp] theorem State.endMat_me_tiles : (s.endMat c).me.tiles = s.me.tiles := by obtain ⟨_, _, me⟩ := s.endMat_me c; rw [me]
@[simp] theorem State.endMat_me_tspilled : (s.endMat c).me.tspilled = s.me.tspilled := by obtain ⟨_, _, me⟩ := s.endMat_me c; rw [me]
@[simp] theorem State.endMat_me_accs : (s.endMat c).me.accs = s.me.accs := by obtain ⟨_, _, me⟩ := s.endMat_me c; rw [me]
@[simp] theorem State.endMat_me_lm : (s.endMat c).me.lm = s.me.lm := by obtain ⟨_, _, me⟩ := s.endMat_me c; rw [me]
@[simp] theorem State.endMat_me_pend : (s.endMat c).me.pend = s.me.pend := by obtain ⟨_, _, me⟩ := s.endMat_me c; rw [me]
@[simp] theorem State.endMat_me_tile (n : Nat) : (s.endMat c).me.tile n = s.me.tile n := by rw [Activity.tile, State.endMat_me_tiles, Activity.tile]
@[simp] theorem State.endMat_cycle : (s.endMat c).cycle = s.cycle := State.modAct_cycle ..

theorem State.endMat_matq : (s.endMat c).core.matq = s.core.matq.filter (fun d => d.id ≠ c.id) := by
  rw [State.endMat, State.modAct_core]
  rfl

end

theorem State.setTile_me_tile (n : Nat) (t : Tile) (s : State) : (s.setTile n t).me.tile n = t := by
  unfold Activity.tile State.setTile
  show (AMap.find (s.me.tiles.put n t) n).getD Tile.zero = t
  rw [AMap.find_put_same]
  rfl

end Sys2Proof.Machine
end

section
/-! SUPPORT. The units at work on a command: starts, the effects of the tile port, `accrd` and K-steps (R256-R266). -/

namespace Sys2Proof.Machine

/-! ## Starts (R256, R263) -/

section
variable {s t : State} {c : MatCmd}

theorem State.tryStart_of_ready (free : s.core.unitFree c = true) (oldest : s.olderReady c = false) (stays : c.owner ∉ s.disp.evicting)
    (ready : s.readyMat c = some t) : s.tryStart c = if t.spillBusy then t else t.beginMat c := by
  simp only [State.tryStart, State.whenReady, free, oldest, stays, ready, Bool.not_true, Bool.or_self, decide_false, Bool.false_eq_true, if_false]

section
variable (has : s.HasMat c) (free : s.core.unitFree c = true) (oldest : s.olderReady c = false) (stays : c.owner ∉ s.disp.evicting)
  (ready : s.readyMat c = some t)
include has free oldest stays ready

theorem State.HasMat.mmaStart (mma : c.kind = .mma) : exec (.mmaStart c.id) s = .next (if t.spillBusy then t else t.beginMat c) := by
  have arm : exec (.mmaStart c.id) s = execMmaStart c.id s := rfl
  rw [arm, execMmaStart, has.onMat, if_pos mma, State.tryStart_of_ready free oldest stays ready]

theorem State.HasMat.tilePort_starts (mma : c.kind ≠ .mma) (accrd : c.kind ≠ .accrd) (waits : c.started = none) :
    exec (.tilePortComplete c.id) s = .next (if t.spillBusy then t else t.beginMat c) := by
  have arm : exec (.tilePortComplete c.id) s = execTilePortComplete c.id s := rfl
  rw [arm, execTilePortComplete, has.onMat, waits]
  cases kind : c.kind
  case mma => exact absurd kind mma
  case accrd => exact absurd kind accrd
  all_goals rw [State.tryStart_of_ready free oldest stays ready]

end

/-- A command of the queue replaced by another of its number is there. -/
theorem State.putMat_mem {d : MatCmd} (queued : ∃ e ∈ t.core.matq, e.id = d.id) : d ∈ (t.putMat d).core.matq := by
  obtain ⟨e, mem, same⟩ := queued
  exact List.mem_map.mpr ⟨e, mem, if_pos same⟩

theorem State.beginStep_core (c : MatCmd) (s : State) :
    (s.beginStep c).core = (s.putMat (if c.r.lb then { c with latch := s.latch c.y c.len } else c)).core := by
  unfold State.beginStep
  dsimp only
  split <;> rfl

/-- A K-step that begins leaves the accumulators. -/
theorem State.beginStep_me_accs (c : MatCmd) (s : State) : (s.beginStep c).me.accs = s.me.accs := by
  unfold State.beginStep
  dsimp only
  split <;> rfl

/-- A command that has started stands in the queue as started. -/
theorem State.beginMat_started (queued : ∃ d ∈ t.core.matq, d.id = c.id) :
    ∃ d ∈ (t.beginMat c).core.matq, d.id = c.id ∧ d.started = some (t.cycle + 1) := by
  have put : ∀ (u : State) (d : MatCmd), u.core = t.core → d.id = c.id → d.started = some (t.cycle + 1) →
      ∃ e ∈ (u.putMat d).core.matq, e.id = c.id ∧ e.started = some (t.cycle + 1) := fun u d core id started =>
    ⟨d, State.putMat_mem (by rw [core, id]; exact queued), id, started⟩
  unfold State.beginMat
  dsimp only
  split
  · rw [State.beginStep_core]
    have core : ∀ view, (if (t.me.accs.find c.r.d.toNat).isSome then t
        else t.modMe (fun a => { a with accs := a.accs.put c.r.d.toNat ⟨[], view, 0, false⟩ })).core = t.core := fun view => by
      split <;> rfl
    split
    · exact put _ _ (core _) rfl rfl
    · exact put _ _ (core _) rfl rfl
  · exact put _ _ rfl rfl rfl
  · exact put _ _ rfl rfl rfl

/-- `azero` binds its accumulator to zeros (R252, R266). -/
theorem State.beginMat_azero (azero : c.kind = .azero) :
    (t.beginMat c).me.accs.find c.r.d.toNat = some ⟨[], if c.r.lb then .int else .fp, 0, false⟩ := by
  unfold State.beginMat
  dsimp only
  rw [azero]
  exact AMap.find_put_same ..

end

/-! ## The tile port completes a command (R257-R260, R265, R266) -/

/-- A command of the tile port whose time is over has its effect, and ends. -/
theorem State.HasMat.completes {s : State} {c : MatCmd} {b : Nat} (has : s.HasMat c) (started : c.started = some b)
    (due : b + c.portTime ≤ s.cycle + 1) (tiles : s.TilesAt c) (quiet : s.spillBusy = false) (mma : c.kind ≠ .mma)
    (bank : c.kind = .accst → s.needBank = some s) (may : (s.matTaint c).isSome = true) :
    ∃ order taints, exec (.tilePortComplete c.id) s = .next (((s.noted order taints).portEffect c).endMat c) := by
  have arm : exec (.tilePortComplete c.id) s = execTilePortComplete c.id s := rfl
  obtain ⟨order, taints, ready⟩ := State.ready_of_tilesAt tiles may
  have banked : (if c.kind = .accst then s.needBank else some s) = some s := by
    split
    · next accst => exact bank accst
    · rfl
  have still : (s.noted order taints).spillBusy = false := quiet
  have ended : ¬(decide (s.cycle + 1 < b + c.portTime) || s.spillBusy) = true := by simp [Nat.not_lt.mpr due, quiet]
  refine ⟨order, taints, ?_⟩
  rw [arm, execTilePortComplete, has.onMat, started]
  cases kind : c.kind
  case mma => exact absurd kind mma
  all_goals
    rw [kind] at banked
    dsimp only
    rw [if_neg ended, banked, Option.bind_some, ready]
    simp only [still, Bool.false_eq_true, if_false]

section
variable {s : State} {c : MatCmd}

theorem State.portEffect_tld {h : Shape} (tld : c.kind = .tld) (shape : Shape.of c.td = some h) (good : s.poisonAt c.y c.len = none) :
    s.portEffect c = s.setTile c.r.d.toNat (Tile.parse h (s.readLocal c.y c.len) false) := by
  simp only [State.portEffect, tld, shape, good, Option.isSome_none, Bool.false_eq_true, if_false]

theorem State.portEffect_tst {h : Shape} (tst : c.kind = .tst) (shape : Shape.of c.tb = some h) (good : (s.me.tile c.r.b.toNat).poison = false) :
    s.portEffect c = s.writeLocal c.y ((s.me.tile c.r.b.toNat).layout h) := by
  simp only [State.portEffect, State.writePoison, tst, shape, good, Bool.false_eq_true, if_false]

theorem State.portEffect_tmov_tile (tmov : c.kind = .tmov) : (s.portEffect c).me.tile c.r.d.toNat = s.me.tile c.r.a.toNat := by
  simp only [State.portEffect, tmov]
  split
  · next same => rw [same]
  · exact State.setTile_me_tile ..

theorem State.portEffect_tzero (tzero : c.kind = .tzero) : s.portEffect c = s.setTile c.r.d.toNat Tile.zero := by
  simp only [State.portEffect, tzero]

theorem State.portEffect_tcvt {a d : Shape} (tcvt : c.kind = .tcvt) (source : Shape.of c.ta = some a) (dest : Shape.of c.td = some d) :
    s.portEffect c = s.setTile c.r.d.toNat (tcvtTile c a d (s.me.tile c.r.a.toNat)) := by
  simp only [State.portEffect, tcvt, source, dest]

theorem State.portEffect_tfree (tfree : c.kind = .tfree) : s.portEffect c = s.modMe (fun a => a.dropTile c.r.a.toNat) := by
  simp only [State.portEffect, tfree]

theorem State.portEffect_afree (afree : c.kind = .afree) : s.portEffect c =
    s.modMe (fun a => { a with accs := a.accs.del c.r.d.toNat, aspilled := a.aspilled.del c.r.d.toNat }) := by
  simp only [State.portEffect, afree]

/-- Rows written one after the other. -/
theorem foldl_writePoison_false (place : Nat → Nat) (row : Nat → List Byte) (l : List Nat) (s : State) :
    l.foldl (fun (s : State) i => s.writePoison (place i) (row i) false) s =
      { s with me := { s.me with lm := l.foldl (fun (m : LMem) i => m.write (place i) (row i)) s.me.lm } } := by
  induction l generalizing s with
  | nil => rfl
  | cons i l ih => exact ih _

/-- The draws that `accst` makes of its own (R70). -/
def MatCmd.rowDraws (c : MatCmd) : List Nat := if c.r.rmM = 4 then (srDraws c.seed 2048).2 else []

/-- The rows of an accumulator in local memory (R265). -/
def MatCmd.rowsWritten (c : MatCmd) (acc : Acc) (m : LMem) : LMem :=
  (List.range 32).foldl (fun (m : LMem) i => m.write (c.y + i * c.stride) (accstRow c acc c.rowDraws i)) m

theorem State.portEffect_accst {acc : Acc} (accst : c.kind = .accst) (found : s.me.accs.find c.r.c.toNat = some acc) (good : acc.poison = false) :
    s.portEffect c = { s with me := { s.me with
      lm := c.rowsWritten acc s.me.lm
      accs := if c.r.clr then s.me.accs.del c.r.c.toNat else s.me.accs
      aspilled := if c.r.clr then s.me.aspilled.del c.r.c.toNat else s.me.aspilled } } := by
  simp only [State.portEffect, accst, found, Option.getD_some, good, Bool.false_eq_true, if_false, foldl_writePoison_false]
  split <;> rfl

end

/-! ## `accrd` (R264) -/

section
variable {s : State} {c : MatCmd}

/-- A good accumulator is read, and its results are on their way. -/
theorem State.accRead_me_pend {acc : Acc} (found : s.me.accs.find c.r.a.toNat = some acc) (good : acc.poison = false) (fresh : c.stale = false) :
    (s.accRead c).me.pend = s.me.pend ++
      newWrite .engine (s.cycle + 5) [] ⟨.v, c.r.d.toNat⟩ (packElems 32 ((List.range 32).map (fun j =>
        accrdElem c.r acc (64 * (c.opB.toNat % 32) + 32 * (c.opB.toNat / 32 % 2) + j)))) ++
      newWrite .engine (s.cycle + 5) [] ⟨.g, c.r.e.toNat⟩ (BitVec.ofNat 1024 acc.steps) := by
  simp only [State.accRead, found, Option.getD_some, good, fresh, Bool.false_eq_true, if_false, State.pendWrite_me_pend, State.pendWrite_cycle,
    State.modMe_cycle, State.modMe_me, State.endMat_cycle, State.endMat_me_pend]
  rfl

theorem State.needTiles_accrd (accrd : c.kind = .accrd) : s.needTiles c = some s := by
  simp [State.needTiles, MatCmd.tileReads, MatCmd.tileWrites, accrd]

theorem State.readyMat_accrd (accrd : c.kind = .accrd) (waits : c.started = none) (later : c.issued < s.cycle) (quiet : s.spillBusy = false)
    (ordered : s.core.matOrdered c = true) (noBar : c.r.bar = 0) (range : s.me.matRange c = true) (bank : s.needBank = some s) :
    s.readyMat c = some s := by
  have barrier : s.me.matBarrier c s.cycle = true := by simp [Activity.matBarrier, noBar]
  have taint : s.matTaint c = some s := by simp [State.matTaint, accrd]
  have time : ¬ s.cycle < c.issued + 1 := by omega
  simp only [State.readyMat, waits, time, quiet, ordered, barrier, range, State.needTiles_accrd accrd, Option.bind_some, taint, Option.isSome_none,
    decide_false, Bool.not_true, Bool.or_self, Bool.false_eq_true, if_false]
  rw [accrd]
  exact bank

end

theorem State.HasMat.tilePort_accrd {s : State} {c : MatCmd} (has : s.HasMat c) (accrd : c.kind = .accrd) (waits : c.started = none)
    (free : s.core.unitFree c = true) (oldest : s.olderReady c = false)
    (applied : ∀ e ∈ s.core.matq, ¬(e.owner = c.owner ∧ e.acc = c.acc ∧ e.stepDue s.cycle = true)) (ready : s.readyMat c = some s)
    (quiet : s.spillBusy = false) : exec (.tilePortComplete c.id) s = .next (s.accRead c) := by
  have arm : exec (.tilePortComplete c.id) s = execTilePortComplete c.id s := rfl
  have settled : s.core.matq.any (fun e => e.owner = c.owner && e.acc = c.acc && e.stepDue s.cycle) = false := by
    simpa [List.any_eq_false, and_assoc] using applied
  rw [arm, execTilePortComplete, has.onMat, waits, accrd]
  simp only [free, oldest, settled, State.whenReady, ready, quiet, Bool.not_true, Bool.or_self, Bool.false_eq_true, if_false]

/-! ## K-steps (R262, R263) -/

section
variable {s : State} {c : MatCmd} {o : MmaOps} {acc : Acc} (operands : s.mmaOps c = some o) (found : s.me.accs.find c.r.d.toNat = some acc)
  (good : c.bad = false) (goodA : o.a.poison = false) (goodB : o.b.poison = false) (goodAcc : acc.poison = false)
include operands found good goodA goodB goodAcc

/-- A K-step that is not the last. -/
theorem State.applyStep_more (more : c.step + 1 < c.steps) : s.applyStep c =
    (s.modMe (fun a => { a with accs := a.accs.put c.r.d.toNat (acc.kstep o c.step) })).beginStep { c with step := c.step + 1, bad := false } := by
  have steps : ({ c with step := c.step + 1, bad := false } : MatCmd).steps = c.steps := rfl
  simp only [State.applyStep, operands, found, good, goodA, goodB, goodAcc, Bool.or_self, steps, more, if_true, Nat.add_sub_cancel]

/-- The last K-step ends the command. -/
theorem State.applyStep_last (last : c.steps ≤ c.step + 1) : s.applyStep c =
    (s.modMe (fun a => { a with accs := a.accs.put c.r.d.toNat (acc.kstep o c.step) })).endMat { c with step := c.step + 1, bad := false } := by
  have steps : ({ c with step := c.step + 1, bad := false } : MatCmd).steps = c.steps := rfl
  have clean : { acc.kstep o c.step with poison := false } = acc.kstep o c.step := by rw [Acc.kstep, goodAcc]
  simp only [State.applyStep, operands, found, good, goodA, goodB, goodAcc, Bool.or_self, steps, Nat.not_lt.mpr last, if_false, Bool.false_eq_true,
    Nat.add_sub_cancel, clean]

/-- A K-step enters its accumulator, and the last one takes the command off the queue. -/
theorem State.applyStep_spec : (s.applyStep c).me.accs.find c.r.d.toNat = some (acc.kstep o c.step) ∧
    (c.steps ≤ c.step + 1 → ∀ d ∈ (s.applyStep c).core.matq, d.id ≠ c.id) := by
  by_cases last : c.steps ≤ c.step + 1
  · rw [State.applyStep_last operands found good goodA goodB goodAcc last, State.endMat_me_accs, State.endMat_matq]
    exact ⟨AMap.find_put_same .., fun _ d mem => by simpa using (List.mem_filter.mp mem).2⟩
  · rw [State.applyStep_more operands found good goodA goodB goodAcc (by omega), State.beginStep_me_accs]
    exact ⟨AMap.find_put_same .., fun h => absurd h last⟩

end

theorem State.HasMat.kstepEnd {s : State} {c : MatCmd} (has : s.HasMat c) (due : c.stepDue s.cycle = true) (tiles : s.TilesAt c)
    (quiet : s.spillBusy = false) (bank : s.needBank = some s) (may : (s.matTaint c).isSome = true) :
    ∃ order taints, exec (.kstepEnd c.id) s = .next ((s.noted order taints).applyStep c) := by
  have arm : exec (.kstepEnd c.id) s = execKstepEnd c.id s := rfl
  obtain ⟨order, taints, ready⟩ := State.ready_of_tilesAt tiles may
  have still : (s.noted order taints).spillBusy = false := quiet
  refine ⟨order, taints, ?_⟩
  rw [arm, execKstepEnd, has.onMat]
  simp only [due, quiet, bank, Option.bind_some, ready, still, Bool.not_true, Bool.or_self, Bool.false_eq_true, if_false]

end Sys2Proof.Machine
end

section
/-! SUPPORT. The tile that `tcvt` writes (R250, R251, R260): its elements or its blocks, read back one by one. -/

namespace Sys2Proof.Machine

/-! ## Valid shapes (R250) -/

/-- What a valid shape register that is not 0 holds. -/
theorem Shape.of_valid {v : Word} {h : Shape} (valid : tsValid v = true) (shape : Shape.of v = some h) :
    (h.rby = 32 ∨ h.rby = 64) ∧ h.fmt ≤ 9 := by
  unfold Shape.of at shape
  split at shape
  · cases shape
  · next nonzero =>
    cases shape
    simp only [tsValid, nonzero, decide_false, Bool.false_or, Bool.and_eq_true, Bool.or_eq_true, decide_eq_true_eq] at valid
    exact ⟨valid.1.2, valid.2⟩

/-- A row of elements that are no blocks fills its bytes. -/
theorem Shape.row_elements {h : Shape} (rby : h.rby = 32 ∨ h.rby = 64) (fmt : h.fmt ≤ 9) (elements : isBlock h.fmt = false) :
    fmtBits h.fmt = 8 * (fmtBits h.fmt / 8) ∧ fmtBits h.fmt / 8 * h.elems = h.rby := by
  obtain ⟨rows, bytes, f⟩ := h
  dsimp only [Shape.elems] at *
  interval_cases f <;> simp [isBlock] at elements
  all_goals rcases rby with rfl | rfl <;> exact ⟨rfl, rfl⟩

/-- A row of blocks fills its bytes (R65). -/
theorem Shape.row_blocks {h : Shape} (rby : h.rby = 32 ∨ h.rby = 64) (block : isBlock h.fmt = true) :
    blockBytes h.fmt * (h.elems / 8) = h.rby ∧ 8 * (h.elems / 8) = h.elems := by
  obtain ⟨rows, bytes, f⟩ := h
  have range : 5 ≤ f ∧ f ≤ 7 := by simpa [isBlock] using block
  obtain ⟨low, high⟩ := range
  dsimp only [Shape.elems] at *
  interval_cases f
  all_goals rcases rby with rfl | rfl <;> exact ⟨rfl, rfl⟩

/-! ## Rows of entries of one length -/

/-- An entry of a row, where all entries have one length. -/
theorem getD_rows {α : Type} {m : Nat} {g : Nat → Nat → List α} (length : ∀ i e, (g i e).length = m) {rows columns i e k : Nat}
    (row : i < rows) (column : e < columns) (entry : k < m) (x : α) :
    ((List.range rows).flatMap fun i => (List.range columns).flatMap (g i)).getD (m * (columns * i + e) + k) x = (g i e).getD k x := by
  have place : m * (columns * i + e) + k = m * columns * i + (m * e + k) := by rw [mul_add, mul_assoc, add_assoc]
  have inside : m * e + k < m * columns := by
    calc m * e + k < m * e + m := by omega
      _ = m * (e + 1) := (Nat.mul_succ ..).symm
      _ ≤ m * columns := Nat.mul_le_mul_left m column
  rw [place, getD_flatMap_range (fun i => length_flatMap_range (length i) columns) row inside, getD_flatMap_range (length i) column entry]

/-- Bytes read back where they were written from an empty memory on. -/
theorem Memory.readN_rows {m : Nat} {g : Nat → Nat → List Byte} (length : ∀ i e, (g i e).length = m) {rows columns i e : Nat} (row : i < rows)
    (column : e < columns) :
    (Memory.writeN [] 0 ((List.range rows).flatMap fun i => (List.range columns).flatMap (g i))).readN (m * (columns * i + e)) m = g i e := by
  rw [Memory.readN_eq_map]
  refine List.ext_getElem (by simp [length]) fun k below within => ?_
  rw [List.getElem_map, List.getElem_range, Memory.read_ofList, getD_rows length row column (by simpa [length] using within),
    List.getD_eq_getElem _ _ within]

/-- The bytes of a number spell what fits them (R3). -/
theorem ofBytes_toBytes_mod (n v : Nat) : ofBytes (toBytes n v) = v % 256 ^ n := by
  induction n generalizing v with
  | zero => simp [toBytes, ofBytes, Nat.mod_one]
  | succ n ih => rw [toBytes, ofBytes, ih, BitVec.toNat_ofNat, pow_succ' 256 n, Nat.mod_mul]

/-! ## Elements (R260) -/

/-- The draw of an element of a converted tile (R70). -/
def MatCmd.draw (c : MatCmd) (a : Shape) (k : Nat) : Nat := if c.r.rmM = 4 then ((srDraws c.seed (a.rows * a.elems)).2).getD k 0 else 0

/-- The code of a converted element (R63, R66, R68). -/
def tcvtCode (c : MatCmd) (a d : Shape) (t : Tile) (i e : Nat) : Nat :=
  if isInt d.fmt then truncInt (fmtBits d.fmt) (toIntSat (fmtBits d.fmt) (RMode.of c.r.rmM) (c.draw a (i * d.elems + e)) (t.val a i e))
  else (floatFmt d.fmt).round (RMode.of c.r.rmM) c.r.ovfM (c.draw a (i * d.elems + e)) (t.val a i e)

theorem tcvtTile_of_elements (c : MatCmd) (a : Shape) {d : Shape} (t : Tile) (elements : isBlock d.fmt = false) : tcvtTile c a d t =
    { payload := Memory.writeN [] 0 ((List.range d.rows).flatMap fun i => (List.range d.elems).flatMap fun e =>
        toBytes (fmtBits d.fmt / 8) (tcvtCode c a d t i e))
      scales := [], band := 0, poison := t.poison } := by
  have draw : ∀ k, (if c.r.rmM = 4 then (srDraws c.seed (a.rows * a.elems)).2 else []).getD k 0 = c.draw a k := fun k => by
    rw [MatCmd.draw, apply_ite (fun l : List Nat => l.getD k 0)]
    rfl
  simp only [tcvtTile, elements, Bool.false_and, Bool.false_eq_true, if_false, draw]
  rfl

/-- The place of an entry in a tile (R251). -/
theorem tile_place {m columns rby : Nat} (width : m * columns = rby) (i e : Nat) : i * rby + m * e = m * (columns * i + e) := by
  rw [← width]
  ring

/-- The code of an element of whole bytes, in a tile whose payload lists the elements. -/
theorem Tile.code_of_elements {t : Tile} {h : Shape} {g : Nat → Nat → Nat} {i e : Nat} (bits : fmtBits h.fmt = 8 * (fmtBits h.fmt / 8))
    (width : fmtBits h.fmt / 8 * h.elems = h.rby) (row : i < h.rows) (column : e < h.elems)
    (payload : t.payload = Memory.writeN [] 0 ((List.range h.rows).flatMap fun i => (List.range h.elems).flatMap fun e =>
      toBytes (fmtBits h.fmt / 8) (g i e))) : t.code h i e = g i e % 2 ^ fmtBits h.fmt := by
  have whole : ¬ fmtBits h.fmt = 4 := by omega
  have place : i * h.rby + e * fmtBits h.fmt / 8 = fmtBits h.fmt / 8 * (h.elems * i + e) := by
    rw [← tile_place width, bits, mul_left_comm e, Nat.mul_div_cancel_left _ (by omega), Nat.mul_div_cancel_left _ (by omega), mul_comm e]
  have base : (256 : Nat) = 2 ^ 8 := rfl
  unfold Tile.code
  dsimp only
  rw [if_neg whole, place, payload, Memory.readN_rows (fun _ _ => toBytes_length ..) row column, ofBytes_toBytes_mod, base, ← pow_mul, ← bits]

/-! ## Blocks (R65, R72, R260) -/

/-- A block of a converted tile: its scale and its codes. -/
def tcvtBlock (c : MatCmd) (a d : Shape) (t : Tile) (i k : Nat) : Nat × List Nat :=
  requantise (floatFmt d.fmt) (blockTop d.fmt) (if c.r.rmM = 4 then .rs else .rne)
    (if c.r.rmM = 4 then (((srDraws c.seed (a.rows * a.elems)).2).drop (i * d.elems + 8 * k)).take 8 else [])
    (fBf16.decode (c.opB.toNat % 2 ^ 16)) ((List.range 8).map (fun n => t.val a i (8 * k + n)))

theorem tcvtBlock_length (c : MatCmd) (a d : Shape) (t : Tile) (i k : Nat) : (tcvtBlock c a d t i k).2.length = 8 := by
  rw [tcvtBlock, requantise_length, List.length_map, List.length_range]

theorem tcvtTile_of_blocks (c : MatCmd) (a : Shape) {d : Shape} (t : Tile) (block : isBlock d.fmt = true) : tcvtTile c a d t =
    { payload := Memory.writeN [] 0 ((List.range d.rows).flatMap fun i => (List.range (d.elems / 8)).flatMap fun k =>
        packBlock d.fmt (tcvtBlock c a d t i k).2)
      scales := Memory.writeN [] 0 ((List.range d.rows).flatMap fun i => (List.range (d.elems / 8)).flatMap fun k =>
        [BitVec.ofNat 8 (tcvtBlock c a d t i k).1])
      band := c.opB.setWidth 16, poison := t.poison } := by
  have mode : (if true && decide (c.r.rmM ≠ 4) then RMode.rne else RMode.of c.r.rmM) = if c.r.rmM = 4 then .rs else .rne := by
    by_cases rs : c.r.rmM = 4
    · simp [rs, RMode.of]
    · simp [rs]
  have draws : ∀ n, ((if c.r.rmM = 4 then (srDraws c.seed (a.rows * a.elems)).2 else []).drop n).take 8 =
      if c.r.rmM = 4 then ((srDraws c.seed (a.rows * a.elems)).2.drop n).take 8 else [] := fun n => by
    split <;> simp
  have band : BitVec.ofNat 16 (c.opB.toNat % 2 ^ 16) = c.opB.setWidth 16 := by
    apply BitVec.eq_of_toNat_eq
    simp
  have singles : ∀ (f : Nat → Byte) (n : Nat), (List.range n).map f = (List.range n).flatMap fun k => [f k] := fun _ _ => List.map_eq_flatMap
  simp only [tcvtTile, block, mode, draws, band, if_true, List.flatMap_assoc, List.flatMap_map, List.map_flatMap, List.map_map, singles]
  rfl

/-- The scale of a block, in a tile whose scale store lists the scales. -/
theorem Tile.scale_of_blocks {t : Tile} {h : Shape} {g : Nat → Nat → Nat} {i k : Nat} (width : blockBytes h.fmt * (h.elems / 8) = h.rby)
    (row : i < h.rows) (column : k < h.elems / 8)
    (scales : t.scales = Memory.writeN [] 0 ((List.range h.rows).flatMap fun i => (List.range (h.elems / 8)).flatMap fun k =>
      [BitVec.ofNat 8 (g i k)])) : t.scale h i k = g i k % 256 := by
  have pos : 0 < blockBytes h.fmt := by unfold blockBytes; split <;> omega
  have place : i * h.rby / blockBytes h.fmt + k = 1 * (h.elems / 8 * i + k) + 0 := by
    rw [← width, mul_left_comm, Nat.mul_div_cancel_left _ pos, mul_comm i, one_mul, add_zero]
  rw [Tile.scale, scales, place, Memory.read_ofList, getD_rows (g := fun i k => [BitVec.ofNat 8 (g i k)]) (fun _ _ => rfl) row column Nat.zero_lt_one,
    List.getD_cons_zero, BitVec.toNat_ofNat]

/-- The code of an element of a block, in a tile whose payload lists the blocks. -/
theorem Tile.code_of_blocks {t : Tile} {h : Shape} {g : Nat → Nat → List Nat} (block : isBlock h.fmt = true) (eight : ∀ i k, (g i k).length = 8)
    {i k n : Nat} (width : blockBytes h.fmt * (h.elems / 8) = h.rby) (row : i < h.rows) (column : k < h.elems / 8) (entry : n < 8)
    (payload : t.payload = Memory.writeN [] 0 ((List.range h.rows).flatMap fun i => (List.range (h.elems / 8)).flatMap fun k =>
      packBlock h.fmt (g i k))) : t.code h i (8 * k + n) = (g i k).getD n 0 % 2 ^ fmtBits h.fmt := by
  have read : ∀ b, b < blockBytes h.fmt → t.payload.read (i * h.rby + (blockBytes h.fmt * k + b)) = (packBlock h.fmt (g i k)).getD b 0 :=
    fun b within => by
      rw [← add_assoc, tile_place width, payload, Memory.read_ofList, getD_rows (fun i k => packBlock_length h.fmt (eight i k)) row column within]
  by_cases fp4 : h.fmt = 7
  · have bits : fmtBits h.fmt = 4 := by rw [fp4]; rfl
    have bytes : blockBytes h.fmt = 4 := by rw [fp4]; rfl
    rw [bytes] at read
    have nibble := packBlock_nibble (g i k) entry
    rw [← fp4, ← read (n / 2) (by omega)] at nibble
    unfold Tile.code
    dsimp only
    rw [if_pos bits, (by omega : (8 * k + n) / 2 = 4 * k + n / 2), (by omega : (8 * k + n) % 2 = n % 2), bits, ← BitVec.toNat_ofNat, ← nibble,
      BitVec.extractLsb'_toNat, Nat.shiftRight_eq_div_pow, pow_mul]
    rfl
  · have bytes : blockBytes h.fmt = 8 := if_neg fp4
    have bits : fmtBits h.fmt = 8 := by
      have range : 5 ≤ h.fmt ∧ h.fmt ≤ 7 := by simpa [isBlock] using block
      rcases (by omega : h.fmt = 5 ∨ h.fmt = 6) with five | six
      · rw [five]; rfl
      · rw [six]; rfl
    rw [bytes] at read
    unfold Tile.code
    dsimp only
    rw [if_neg (by omega), bits, Nat.mul_div_cancel _ (by omega)]
    show ofBytes [t.payload.read (i * h.rby + (8 * k + n))] = _
    rw [read n entry, packBlock_getD_of_ne fp4 (by rw [eight]; exact entry), ofBytes, ofBytes, BitVec.toNat_ofNat]
    rfl

/-- What `tcvt` writes is what R260 says. -/
theorem MatCmd.converted_tcvtTile (c : MatCmd) (a : Shape) {d : Shape} (t : Tile) (valid : tsValid c.td = true) (shape : Shape.of c.td = some d) :
    c.Converted a d t (tcvtTile c a d t) := by
  obtain ⟨rby, fmt⟩ := Shape.of_valid valid shape
  cases block : isBlock d.fmt with
  | false =>
    obtain ⟨bits, width⟩ := Shape.row_elements rby fmt block
    rw [tcvtTile_of_elements c a t block]
    refine ⟨rfl, fun _ i e row column => ?_, fun h => absurd (block.symm.trans h) Bool.false_ne_true⟩
    rw [Tile.code_of_elements bits width row column rfl, tcvtCode, truncInt_eq_toNat]
    rfl
  | true =>
    obtain ⟨width, whole⟩ := Shape.row_blocks rby block
    rw [tcvtTile_of_blocks c a t block]
    refine ⟨rfl, fun h => absurd (block.symm.trans h) Bool.false_ne_true.symm, fun _ => ⟨rfl, fun i k row column => ?_⟩⟩
    have inside : k < d.elems / 8 := by omega
    rw [← blockTop_eq]
    exact ⟨Tile.scale_of_blocks (g := fun i k => (tcvtBlock c a d t i k).1) width row inside rfl, fun n entry =>
      Tile.code_of_blocks block (tcvtBlock_length c a d t) width row inside entry rfl⟩

end Sys2Proof.Machine
end

section
/-! SUPPORT. The statement about the matrix units at work (R256-R268; O31). -/

namespace Sys2Proof.Machine

/-- Only `tld` and `mma` read local memory (R256). -/
theorem State.matTaint_isSome {s : State} {c : MatCmd} (tld : c.kind ≠ .tld) (mma : c.kind ≠ .mma) : (s.matTaint c).isSome = true := by
  simp [State.matTaint, tld, mma]

/-- A command of the tile port that reads nothing in local memory has its effect, and ends. -/
theorem State.HasMat.completes_as {s : State} {c : MatCmd} {b : Nat} {k : MatKind} (has : s.HasMat c) (started : c.started = some b)
    (due : b + c.portTime ≤ s.cycle + 1) (tiles : s.TilesAt c) (quiet : s.spillBusy = false) (kind : c.kind = k)
    (other : k ∉ [MatKind.mma, .tld, .accst]) :
    ∃ order taints, exec (.tilePortComplete c.id) s = .next (((s.noted order taints).portEffect c).endMat c) := by
  have apart : k ≠ .mma ∧ k ≠ .tld ∧ k ≠ .accst := by simpa using other
  obtain ⟨mma, tld, accst⟩ := apart
  subst kind
  exact has.completes started due tiles quiet mma (fun h => absurd h accst) (State.matTaint_isSome tld mma)

/-- Settles O31: each step finds its command ready, and comes to the command's effect. -/
theorem matrixUnits : Obligations.MatrixUnits := by
  refine ⟨?mmaStart, ?portStart, ?begun, ?azero, ?port, ?accrd, ?kstep⟩
  case mmaStart => exact fun s t c has mma free oldest stays ready => has.mmaStart free oldest stays ready mma
  case portStart => exact fun s t c has mma accrd waits free oldest stays ready => has.tilePort_starts free oldest stays ready mma accrd waits
  case begun => exact fun t c queued => State.beginMat_started queued
  case azero => exact fun t c azero => ⟨_, State.beginMat_azero azero, rfl, rfl, rfl, fun k => rfl⟩
  case port =>
    intro s c b has started due tiles quiet
    refine ⟨?tld, ?tst, ?tmov, ?tzero, ?tcvt, ?tfree, ?afree, ?accst⟩
    case tld =>
      intro tld h shape good may
      have reads : (s.matTaint c).isSome = true := by simpa [State.matTaint, tld] using may
      obtain ⟨order, taints, next⟩ := has.completes started due tiles quiet (by simp [tld]) (by simp [tld]) reads
      refine ⟨_, next, ?_⟩
      rw [State.portEffect_tld tld shape (by rw [State.poisonAt_noted, good]), State.readLocal_noted, State.endMat_me_tile, State.setTile_me_tile]
    case tst =>
      intro tst h shape good
      obtain ⟨order, taints, next⟩ := has.completes_as started due tiles quiet tst (by decide)
      refine ⟨_, next, ?_⟩
      rw [State.portEffect_tst (s := s.noted order taints) tst shape good, State.endMat_me_lm]
      rfl
    case tmov =>
      intro tmov
      obtain ⟨order, taints, next⟩ := has.completes_as started due tiles quiet tmov (by decide)
      refine ⟨_, next, ?_⟩
      rw [State.endMat_me_tile, State.portEffect_tmov_tile tmov]
      rfl
    case tzero =>
      intro tzero
      obtain ⟨order, taints, next⟩ := has.completes_as started due tiles quiet tzero (by decide)
      refine ⟨_, next, ?_⟩
      rw [State.endMat_me_tile, State.portEffect_tzero tzero, State.setTile_me_tile]
    case tcvt =>
      intro tcvt a d source dest valid
      obtain ⟨order, taints, next⟩ := has.completes_as started due tiles quiet tcvt (by decide)
      refine ⟨_, next, ?_⟩
      rw [State.endMat_me_tile, State.portEffect_tcvt tcvt source dest, State.setTile_me_tile]
      exact c.converted_tcvtTile a _ valid dest
    case tfree =>
      intro tfree
      obtain ⟨order, taints, next⟩ := has.completes_as started due tiles quiet tfree (by decide)
      refine ⟨_, next, ?_⟩
      rw [State.endMat_me_tiles, State.endMat_me_tspilled, State.portEffect_tfree tfree]
      exact ⟨AMap.find_del_same .., AMap.find_del_same ..⟩
    case afree =>
      intro afree
      obtain ⟨order, taints, next⟩ := has.completes_as started due tiles quiet afree (by decide)
      refine ⟨_, next, ?_⟩
      rw [State.endMat_me_accs, State.portEffect_afree afree]
      exact AMap.find_del_same ..
    case accst =>
      intro accst bound unspilled acc found good
      obtain ⟨order, taints, next⟩ := has.completes started due tiles quiet (by simp [accst]) (fun _ => State.needBank_of_bound bound unspilled)
        (State.matTaint_isSome (by simp [accst]) (by simp [accst]))
      refine ⟨_, next, ?_⟩
      rw [State.endMat_me_accs, State.endMat_me_lm, State.portEffect_accst (s := s.noted order taints) accst found good]
      refine ⟨fun clr => ?_, fun keep => ?_, rfl⟩
      · dsimp only
        rw [if_pos clr]
        exact AMap.find_del_same ..
      · dsimp only
        rw [if_neg (by simp [keep])]
        exact found
  case accrd =>
    intro s c acc has accrd waits later issued free oldest ordered applied noBar range unspilled found good quiet fresh
    have bank := State.needBank_of_bound (AMap.ne_nil_of_find found) unspilled
    have ready := State.readyMat_accrd accrd waits (by omega) quiet ordered noBar range bank
    exact ⟨_, has.tilePort_accrd accrd waits free oldest applied ready quiet, State.accRead_me_pend found good fresh⟩
  case kstep =>
    intro s c o acc has mma due tiles unspilled found operands may good goodA goodB goodAcc quiet
    obtain ⟨order, taints, next⟩ := has.kstepEnd due tiles quiet (State.needBank_of_bound (AMap.ne_nil_of_find found) unspilled) may
    have operandsNoted : (s.noted order taints).mmaOps c = some o := operands
    exact ⟨_, next, State.applyStep_spec operandsNoted found good goodA goodB goodAcc⟩

end Sys2Proof.Machine
end

section
/-! SUPPORT. The stream instructions at their issue (R282-R286), and the statement about them (O38). -/

namespace Sys2Proof.Machine

/-! ## The checks of a stream instruction (R282, R285) -/

section
variable {p : State} {saved : Bool} {a : Activity} {w : Window} {r : R}

/-- The range of the instruction's tile or bytes stands in a window that passes (R284, R285). -/
theorem State.StreamInto.ckWindow {n : Nat} (into : p.StreamInto saved a w r n) (tid : Nat) :
    ckWindow (p.me.g r.d.toNat).toNat n (p.me.srcB r).toNat tid p = none := by
  obtain ⟨window, -, -, -, inside, bar⟩ := into
  have barHeld : (p.me.srcB r).toNat = 0 ∨ ∀ k < 16, ((p.me.srcB r).toNat + k) / 0x800 ∈ a.frames := bar
  simp only [Machine.ckWindow, window]
  exact if_pos (by simpa [inside] using barHeld)

/-- A tile's checks pass when its descriptor has been read and it lies in the tensor, if only in part (R285). -/
theorem State.StreamInto.ckStream_tile {tid i j : Nat} {d : Desc} (into : p.StreamInto saved a w r d.ll) (describes : p.Describes tid d)
    (within : d.outside i j = false) (f : Nat) :
    ∀ c ∈ ckStream f r (p.me.g r.d.toNat).toNat 0 (p.me.srcB r).toNat none 0 (some (tid, i, j)), c p = none := by
  obtain ⟨-, offset, barAligned, named, -, -⟩ := id into
  simp only [ckStream, List.forall_mem_cons, List.not_mem_nil, false_imp_iff, implies_true, and_true, Option.map_some, Option.getD_some,
    Option.isSome_some, if_true, describes.descOf, true_and]
  refine ⟨named.ckBar _, ckFault_of_good ?_ .., ?_, into.ckWindow _, ckFault_of_good rfl .., if_neg ((Bool.not_eq_true _).mpr within)⟩
  · simp [offset, barAligned, named.1]
  · exact if_pos (by simp [describes.found])

/-- `swb` tests READONLY too (R285). -/
theorem State.StreamInto.ckStream_swb {tid i j : Nat} {d : Desc} (into : p.StreamInto saved a w r d.ll) (describes : p.Describes tid d)
    (within : d.outside i j = false) (writable : d.ro = false) :
    ∀ c ∈ ckStream 3 r (p.me.g r.d.toNat).toNat 0 (p.me.srcB r).toNat none 0 (some (tid, i, j)) ++ [ckWith tid (fun d => ckFault d.ro 8 0 tid)],
      c p = none :=
  List.forall_mem_append.mpr ⟨into.ckStream_tile describes within 3,
    List.forall_mem_singleton.mpr ((describes.ckWith _).trans (ckFault_of_good writable ..))⟩

/-- A byte range's checks pass when its local range does, and both its ends are multiples of 32 (R285). -/
theorem State.StreamInto.ckStream_range {write : Bool} {y n : Nat} (into : p.StreamInto saved a w r n) (inside : p.checkLocal write y n = none)
    (aligned : y % 32 = 0) (whole : n % 32 = 0) (long : 32 ≤ n) (short : n ≤ 65536) (f : Nat) :
    ∀ c ∈ ckStream f r (p.me.g r.d.toNat).toNat n (p.me.srcB r).toNat (some write) y none, c p = none := by
  obtain ⟨-, offset, barAligned, named, -, -⟩ := id into
  simp only [ckStream, List.forall_mem_cons, List.not_mem_nil, false_imp_iff, implies_true, and_true, Option.map_none, Option.getD_none,
    Option.isSome_some, Option.isSome_none, Bool.false_eq_true, if_false]
  refine ⟨ckLocal_of_pass inside, named.ckBar _, ckFault_of_good ?_ .., if_pos rfl, into.ckWindow _, ckFault_of_good ?_ ..⟩
  · simp [offset, barAligned, named.1, aligned, whole]
  · simp [Nat.not_lt.mpr long, Nat.not_lt.mpr short]

@[simp] theorem State.streamCmd_kind (k : CmdKind) (r : R) (w : Window) (p : State) : (p.streamCmd k r w).kind = k := rfl

/-- The command's range in the requester's memory begins in the window (R284). -/
theorem State.StreamInto.newStream {n : Nat} (into : p.StreamInto saved a w r n) (k : CmdKind) : p.newStream k r = p.streamCmd k r w := by
  obtain ⟨window, -⟩ := into
  simp only [State.newStream, State.streamCmd, State.windowBase, window, Option.map_some, Option.getD_some]

end

/-! ## What the requester's place decides (R281, R282) -/

section
variable {i : Instr} {s : State} {eff k : State → Eff} {cs : List Check} {a : Activity} {w : Window} {r : R} {n : Nat}
  (ready : Ready i s) (checks : eff (s.prepare i) = checked (cs ++ [ckAway]) k (s.prepare i)) (pass : ∀ c ∈ cs, c (s.prepare i) = none)
include ready checks pass

/-- While the requester is saved, a stream instruction whose operands pass their checks waits, and RUNC does not count. -/
theorem issue_stream_away (into : (s.prepare i).StreamInto true a w r n) :
    issue i s eff = .next { s.prepare i with me := { (s.prepare i).me with quiet := some s.cycle } }.holdIssue := by
  obtain ⟨window, -⟩ := into
  have away : ckAway (s.prepare i) = some (.hold ((s.prepare i).modMe (fun a => { a with quiet := some (s.prepare i).cycle }))) := by
    simp only [ckAway, window]
  rw [issue_hold ready (checks.trans (checked_of_stop pass away))]
  simp [State.modMe]

/-- While it is not, a stream command that finds room enters the queue. -/
theorem issue_stream_queued {c : Cmd} {claims : List Claim} {after : State → State} (into : (s.prepare i).StreamInto false a w r n)
    (accepts : k (s.prepare i) = accept c claims after (s.prepare i)) (room : (s.prepare i).CopyRoom c.u claims.length)
    (leaves : c.kind.isWrite = true ∨ c.kind = .fence → (s.prepare i).NoneLeaving) :
    issue i s eff = .next ((after ((s.prepare i).enqueue c claims)).issued i []) := by
  obtain ⟨window, -⟩ := into
  have here : ckAway (s.prepare i) = none := by simp only [ckAway, window]
  have all : ∀ c ∈ cs ++ [ckAway], c (s.prepare i) = none := List.forall_mem_append.mpr ⟨pass, List.forall_mem_singleton.mpr here⟩
  exact issue_issued ready (checks.trans ((checked_of_pass all).trans (accepts.trans (accept_of_room room leaves after))))

end

/-! ## The statement -/

/-- Settles O38: the checks of each stream instruction pass, and what is left is decided by where the requester is. -/
theorem streams : Obligations.Streams := by
  unfold Obligations.Streams
  refine ⟨?spush, ?sfmt, ?sfill, ?swb, ?awayTile, ?awayRange⟩
  case spush =>
    intro r s a w d ready p tid into named found within room q
    have describes : p.Describes tid d := ⟨named, found⟩
    have arm : exec (.spush r) s = execSpush r s := rfl
    rw [arm, execSpush]
    refine issue_stream_queued (after := State.nameReturn r.bar) ready rfl (into.ckStream_tile describes within 0) into ?_ room
      (by simp [CmdKind.isWrite])
    rw [describes.descOf, into.newStream]
  case sfmt =>
    intro r s a w ready p y n into inside aligned whole long short room q
    have arm : exec (.sfmt r) s = execSfmt r s := rfl
    rw [arm, execSfmt]
    refine issue_stream_queued (after := State.nameReturn r.bar) ready rfl (into.ckStream_range inside aligned whole long short 1) into ?_ room
      (by simp [CmdKind.isWrite])
    dsimp only
    rw [into.newStream]
    rfl
  case sfill =>
    intro r s a w ready p y n into inside aligned whole long short room
    have arm : exec (.sfill r) s = execSfill r s := rfl
    rw [arm, execSfill]
    refine issue_stream_queued (after := id) ready rfl (into.ckStream_range inside aligned whole long short 2) into ?_ room
      (by simp [CmdKind.isWrite])
    dsimp only
    rw [into.newStream]
    rfl
  case swb =>
    intro r s a w d ready p tid into named found writable within room free
    have describes : p.Describes tid d := ⟨named, found⟩
    have arm : exec (.swb r) s = execSwb r s := rfl
    rw [arm, execSwb]
    refine issue_stream_queued (after := id) ready rfl (into.ckStream_swb describes within writable) into ?_ room (fun _ => free)
    rw [describes.descOf, into.newStream]
  case awayTile =>
    intro x tile r s a w d ready p tid into named found writable within
    have describes : p.Describes tid d := ⟨named, found⟩
    simp only [List.mem_cons, List.not_mem_nil, or_false] at tile
    rcases tile with rfl | rfl
    · have arm : exec (.spush r) s = execSpush r s := rfl
      rw [arm, execSpush]
      exact issue_stream_away ready rfl (into.ckStream_tile describes within 0) into
    · have arm : exec (.swb r) s = execSwb r s := rfl
      rw [arm, execSwb]
      exact issue_stream_away ready rfl (into.ckStream_swb describes within (writable rfl)) into
  case awayRange =>
    intro x range r s a w ready p y n into inside aligned whole long short
    simp only [List.mem_cons, List.not_mem_nil, or_false] at range
    rcases range with rfl | rfl
    · have arm : exec (.sfmt r) s = execSfmt r s := rfl
      rw [arm, execSfmt]
      exact issue_stream_away ready rfl (into.ckStream_range inside aligned whole long short 1) into
    · have arm : exec (.sfill r) s = execSfill r s := rfl
      rw [arm, execSfill]
      exact issue_stream_away ready rfl (into.ckStream_range inside aligned whole long short 2) into

end Sys2Proof.Machine
end

section
/-! SUPPORT. The refill of an arbiter's buckets (R399), and the tables of the address and key buckets (R293, R304). -/

namespace Sys2Proof

/-! ## Tables that list no entry at its reset value -/

section
variable {α : Type} [DecidableEq α] (reset : Nat → α) (b : Nat) (e : α) (m : AMap α)

/-- A table that lists the entries that differ from their reset values, with one of them written. -/
def AMap.writeEntry : AMap α := if e = reset b then m.del b else m.put b e

theorem AMap.writeEntry_same : ((m.writeEntry reset b e).find b).getD (reset b) = e := by
  by_cases initial : e = reset b
  · rw [AMap.writeEntry, if_pos initial, AMap.find_del_same, initial, Option.getD_none]
  · rw [AMap.writeEntry, if_neg initial, AMap.find_put_same, Option.getD_some]

theorem AMap.writeEntry_other {c : Nat} (other : c ≠ b) :
    ((m.writeEntry reset b e).find c).getD (reset c) = (m.find c).getD (reset c) := by
  unfold AMap.writeEntry
  split
  · rw [AMap.find_del_other other.symm]
  · rw [AMap.find_put_other e other.symm]

end

end Sys2Proof

namespace Sys2Proof.Machine

@[simp] theorem State.bucket_setBucket_same (b : Nat) (e : Bucket) (s : State) : (s.setBucket b e).bucket b = e :=
  AMap.writeEntry_same (fun b => (⟨false, false, b % 384⟩ : Bucket)) b e s.cache.buckets

theorem State.bucket_setBucket_other {b c : Nat} (other : c ≠ b) (e : Bucket) (s : State) : (s.setBucket b e).bucket c = s.bucket c :=
  AMap.writeEntry_other (fun b => (⟨false, false, b % 384⟩ : Bucket)) b e s.cache.buckets other

@[simp] theorem State.keyEntry_setKeyBucket_same (b : Nat) (e : KeyBucket) (s : State) : (s.setKeyBucket b e).keyEntry b = e :=
  AMap.writeEntry_same (fun b => (⟨false, b % 256⟩ : KeyBucket)) b e s.dirs.buckets

theorem State.keyEntry_setKeyBucket_other {b c : Nat} (other : c ≠ b) (e : KeyBucket) (s : State) :
    (s.setKeyBucket b e).keyEntry c = s.keyEntry c :=
  AMap.writeEntry_other (fun b => (⟨false, b % 256⟩ : KeyBucket)) b e s.dirs.buckets other

/-! ## Refilling (R399) -/

/-- A bucket takes RATE up to its depth. -/
theorem Share.add_tokens (h : Share) (v rate depth : Nat) :
    ((h.add v rate depth).tokens.find v).getD 0 = min ((h.tokens.find v).getD 0 + rate) (depth * 1024) := by
  unfold Share.add
  dsimp only
  split
  · next spills => rw [AMap.find_put_same, Option.getD_some, Nat.min_eq_right spills.le]
  · next fits => rw [AMap.find_put_same, Option.getD_some, Nat.min_eq_left (Nat.not_lt.mp fits)]

/-- The surplus takes what passes the depth of the bucket. -/
theorem Share.add_surplus (h : Share) (v rate depth : Nat) :
    (h.add v rate depth).surplus = h.surplus + ((h.tokens.find v).getD 0 + rate - depth * 1024) := by
  unfold Share.add
  dsimp only
  split
  · rfl
  · next fits => rw [Nat.sub_eq_zero_of_le (Nat.not_lt.mp fits), Nat.add_zero]

/-- Nothing is lost between a bucket and the surplus. -/
theorem Share.add_keeps (h : Share) (v rate depth : Nat) :
    ((h.add v rate depth).tokens.find v).getD 0 + (h.add v rate depth).surplus = (h.tokens.find v).getD 0 + rate + h.surplus := by
  rw [Share.add_tokens, Share.add_surplus]
  omega

section
variable {s : State} {a : Arbiter}

/-- An arbiter that has granted is refilled by itself. -/
theorem exec_tokenRefill_listed {h : Share} (listed : s.arbs.find? (fun x => x.1 = a) = some (a, h)) : exec (.tokenRefill a) s = .next { s with
    arbs := s.arbs.map (fun x => if x.1 = a then (a, s.refillShare (arbClass a) h) else x) } := by
  have arm : exec (.tokenRefill a) s = execTokenRefill a s := rfl
  have share : s.share a = h := by simp only [State.share, listed]
  have some_ : s.arbs.any (fun x => x.1 = a) = true :=
    List.any_eq_true.mpr ⟨_, List.mem_of_find?_eq_some listed, by simp⟩
  rw [arm, execTokenRefill]
  dsimp only
  rw [share, if_pos some_]

/-- One that has granted nothing is refilled with its class. -/
theorem exec_tokenRefill_idle (idle : ∀ x ∈ s.arbs, x.1 ≠ a) : exec (.tokenRefill a) s = .next { s with
    idle := s.idle.put (arbClass a) (s.refillShare (arbClass a) ((s.idle.find (arbClass a)).getD Share.empty)) } := by
  have arm : exec (.tokenRefill a) s = execTokenRefill a s := rfl
  have none : s.arbs.find? (fun x => x.1 = a) = none := List.find?_eq_none.mpr (fun x mem => by simpa using idle x mem)
  have share : s.share a = (s.idle.find (arbClass a)).getD Share.empty := by simp only [State.share, none]
  have unlisted : ¬ s.arbs.any (fun x => x.1 = a) = true := fun some_ => by
    obtain ⟨x, mem, mine⟩ := List.any_eq_true.mp some_
    exact idle x mem (of_decide_eq_true mine)
  rw [arm, execTokenRefill]
  dsimp only
  rw [share, if_neg unlisted]

end

end Sys2Proof.Machine
end

section
/-! SUPPORT. The waiting parties and the forming groups of a key bucket that moves, and the free entries that the oldest of them take (R306, R307). -/

namespace Sys2Proof.Machine

/-! ## Free entries of a directory (R307) -/

/-- Arrivals have taken free entries of their directories: what waits stays in its order, whether it holds an entry aside, and the tables, the move
that waits and the messages are as they were. -/
structure State.Promotes (s t : State) : Prop where
  entries : t.dirs.buckets = s.dirs.buckets
  pending : t.dirs.queued = s.dirs.queued
  msgs : t.msgs = s.msgs
  waiters : t.dirs.waiters.map (fun w => { w with queued := false }) = s.dirs.waiters.map (fun w => { w with queued := false })
  groups : t.dirs.groups.map (fun g => { g with queued := false }) = s.dirs.groups.map (fun g => { g with queued := false })

theorem State.Promotes.refl (s : State) : s.Promotes s := ⟨rfl, rfl, rfl, rfl, rfl⟩

theorem State.Promotes.trans {s t u : State} (first : s.Promotes t) (second : t.Promotes u) : s.Promotes u :=
  ⟨second.entries.trans first.entries, second.pending.trans first.pending, second.msgs.trans first.msgs, second.waiters.trans first.waiters,
    second.groups.trans first.groups⟩

/-- A change of a party changes neither the directories nor the messages. -/
theorem State.Promotes.modParty (uid : Nat) (f : Party → Party) (s : State) : s.Promotes (s.modParty uid f) := by
  unfold State.modParty State.modAny State.modAct
  split
  · split <;> exact ⟨rfl, rfl, rfl, rfl, rfl⟩
  · exact ⟨rfl, rfl, rfl, rfl, rfl⟩

theorem State.Promotes.foldl {α : Type} {f : State → α → State} (step : ∀ s x, State.Promotes s (f s x)) (xs : List α) (s : State) :
    s.Promotes (xs.foldl f s) := by
  induction xs generalizing s with
  | nil => exact .refl s
  | cons x xs ih => exact (step s x).trans (ih _)

/-- A change of some elements that a function does not see. -/
theorem map_map_ite {α β : Type} {f : α → β} {g : α → α} (p : α → Prop) [DecidablePred p] (unseen : ∀ x, f (g x) = f x) (xs : List α) :
    (xs.map (fun x => if p x then g x else x)).map f = xs.map f := by
  rw [List.map_map]
  refine List.map_congr_left (fun x _ => ?_)
  by_cases changed : p x <;> simp [changed, unseen]

theorem State.Promotes.promote (d : Nat) (s : State) : s.Promotes (s.promote d) := by
  unfold State.promote
  split
  · split
    · exact .refl s
    · next n _ =>
      refine .trans ?_ (.foldl (fun s (w : Waiter) => .modParty w.uid _ s) ..)
      exact ⟨rfl, rfl, rfl, map_map_ite (fun w : Waiter => w.num = n) (g := fun w => { w with queued := false }) (fun _ => rfl) _,
        map_map_ite (fun x : Group => x.id = n) (g := fun x => { x with queued := false }) (fun _ => rfl) _⟩
  · exact .refl s

theorem State.Promotes.promoteAll (d fuel : Nat) (s : State) : s.Promotes (State.promoteAll d fuel s) := by
  induction fuel generalizing s with
  | zero => exact .refl s
  | succ fuel ih => exact (State.Promotes.promote d s).trans (ih _)

/-- Nothing waits for an entry of a directory. -/
def State.NoneQueued (s : State) : Prop := (∀ w ∈ s.dirs.waiters, w.queued = false) ∧ ∀ g ∈ s.dirs.groups, g.queued = false

theorem State.NoneQueued.promote {s : State} (entered : s.NoneQueued) (d : Nat) : s.promote d = s := by
  obtain ⟨waiters, groups⟩ := entered
  have noWaiter : s.dirs.waiters.filter (fun w => w.queued && !w.gone && s.waiterDir w = d) = [] :=
    List.filter_eq_nil_iff.mpr (fun w mem => by simp [waiters w mem])
  have noGroup : s.dirs.groups.filter (fun g => g.queued && g.complete.isNone && s.groupDir g = d) = [] :=
    List.filter_eq_nil_iff.mpr (fun g mem => by simp [groups g mem])
  have oldest : s.oldestQueued d = none := by
    rw [State.oldestQueued, noWaiter, noGroup]
    rfl
  rw [State.promote, oldest]
  exact ite_self s

theorem State.NoneQueued.promoteAll {s : State} (entered : s.NoneQueued) (d fuel : Nat) : State.promoteAll d fuel s = s := by
  induction fuel with
  | zero => rfl
  | succ fuel ih => rw [State.promoteAll, entered.promote, ih]

/-! ## A key bucket at its new directory (R306) -/

section
variable (b d : Nat) (s : State)

/-- The waiting parties and the forming groups, those of a key bucket behind the others, and the bucket's entry with its new directory. -/
def State.rehomed : State :=
  State.setKeyBucket b ⟨false, d⟩ { s with dirs := { s.dirs with
    waiters := s.dirs.waiters.filter (fun w => !decide (keyBucket w.key w.keysp w.vd = b)) ++
      s.dirs.waiters.filter (fun w => decide (keyBucket w.key w.keysp w.vd = b))
    groups := s.dirs.groups.filter (fun g => !decide (keyBucket g.key g.keysp g.vd = b)) ++
      s.dirs.groups.filter (fun g => decide (keyBucket g.key g.keysp g.vd = b)) } }

/-- The state in which the free entries of the old and of the new directory are taken. -/
def State.resettled : State :=
  let n := (s.rehomed b d).dirs.waiters.length + (s.rehomed b d).dirs.groups.length
  State.promoteAll d n (State.promoteAll (s.keyEntry b).dir n (s.rehomed b d))

theorem State.rehomed_promotes_resettled : (s.rehomed b d).Promotes (s.resettled b d) :=
  (State.Promotes.promoteAll ..).trans (.promoteAll ..)

theorem State.resettled_of_noneQueued {b d : Nat} {s : State} (entered : (s.rehomed b d).NoneQueued) : s.resettled b d = s.rehomed b d := by
  rw [State.resettled, entered.promoteAll, entered.promoteAll]

/-- With no move waiting behind it, a move ends there. -/
theorem State.finishKeyMove_of_last {b d : Nat} {s : State} (last : s.dirs.queued = none) :
    s.finishKeyMove b d = { s.resettled b d with dirs := { (s.resettled b d).dirs with move := none, queued := none } } := by
  have pending : (s.resettled b d).dirs.queued = none := (s.rehomed_promotes_resettled b d).pending.trans last
  unfold State.finishKeyMove
  dsimp only
  split
  · next v waits => cases pending.symm.trans waits
  · rfl

end

end Sys2Proof.Machine
end

section
/-! SUPPORT. Writes of RBCTL and KBCTL, the moves of buckets and the rebalancers (R294-R296, R305, R306), and the statement about them (O49). -/

namespace Sys2Proof.Machine

/-! ## GO in RBCTL and in KBCTL (R294, R305) -/

section
variable {s : State} {value : Word}

theorem State.writeRbctl_of_moving (go : value.getLsbD 63 = true) (moving : s.cache.move ≠ none) : s.writeRbctl value =
    { s with cache := { s.cache with rbctl := keepBits value (bitsMask 49 28 + 1), queued := some value } } := by
  obtain ⟨m, moving⟩ := Option.ne_none_iff_exists'.mp moving
  simp only [State.writeRbctl, go, moving, Bool.not_true, Bool.false_eq_true, if_false]

theorem State.writeRbctl_of_still (go : value.getLsbD 63 = true) (still : s.cache.move = none) : s.writeRbctl value =
    State.beginMove (moveOf value) { s with cache := { s.cache with rbctl := keepBits value (bitsMask 49 28 + 1) } } := by
  simp only [State.writeRbctl, go, still, Bool.not_true, Bool.false_eq_true, if_false]

theorem State.beginMove_of_sliceOk {m : Move} (ok : s.sliceOk m.target = true) : s.beginMove m =
    let u := s.setBucket m.bucket { s.bucket m.bucket with hold := true }
    { u with cache := { u.cache with move := some m } } := by
  simp only [State.beginMove, ok, Bool.not_true, Bool.false_eq_true, if_false]

theorem State.writeKbctl_of_moving (go : value.getLsbD 63 = true) (moving : s.dirs.move ≠ none) : s.writeKbctl value =
    { s with dirs := { s.dirs with kbctl := keepBits value (bitsMask 47 28 + 1), queued := some value } } := by
  obtain ⟨m, moving⟩ := Option.ne_none_iff_exists'.mp moving
  simp only [State.writeKbctl, go, moving, Bool.not_true, Bool.false_eq_true, if_false]

theorem State.writeKbctl_of_still (go : value.getLsbD 63 = true) (still : s.dirs.move = none) : s.writeKbctl value =
    State.beginKeyMove (keyMoveOf value).1 (keyMoveOf value).2 { s with dirs := { s.dirs with kbctl := keepBits value (bitsMask 47 28 + 1) } } := by
  simp only [State.writeKbctl, go, still, Bool.not_true, Bool.false_eq_true, if_false]

theorem exec_rbctlGo (turn : s.HostTurn (.reg .rbctl value)) : exec (.rbctlGo value) s = .next (s.counted.writeRbctl value) :=
  congrArg Host.Outcome.next (State.posted_of_hostTurn (State.writeRbctl value) turn)

theorem exec_kbctlGo (turn : s.HostTurn (.reg .kbctl value)) : exec (.kbctlGo value) s = .next (s.counted.writeKbctl value) :=
  congrArg Host.Outcome.next (State.posted_of_hostTurn (State.writeKbctl value) turn)

end

/-! ## Moves in progress (R295, R306) -/

section
variable {s : State}

theorem exec_bucketMove {m : Move} (moving : s.cache.move = some m) :
    exec .bucketMove s = .next (if s.moveWaits m.bucket = true then s else s.finishMove m) := by
  have arm : exec .bucketMove s = execBucketMove s := rfl
  rw [arm, execBucketMove, moving]

theorem exec_keyBucketMove {b d mark : Nat} (moving : s.dirs.move = some (b, d, mark)) :
    exec .keyBucketMove s = .next (if s.keyMoveWaits b mark = true then s else s.finishKeyMove b d) := by
  have arm : exec .keyBucketMove s = execKeyBucketMove s := rfl
  rw [arm, execKeyBucketMove, moving]

/-- With no move waiting behind it, a move ends with the lines written back and the entry changed. -/
theorem State.finishMove_of_last (m : Move) (last : s.cache.queued = none) : s.finishMove m =
    let t := (s.flushLines (fun (l : Line) => l.key.bucket = m.bucket)).setBucket m.bucket ⟨false, m.repl, m.target⟩
    { t with cache := { t.cache with move := none, queued := none } } := by
  have pending : ((s.flushLines (fun (l : Line) => l.key.bucket = m.bucket)).setBucket m.bucket ⟨false, m.repl, m.target⟩).cache.queued =
    none := last
  simp only [State.finishMove, pending]

/-! ## The end of an interval (R294, R305) -/

/-- The counts start again, and the rebalancer begins a move if it is enabled and no move is in progress. -/
theorem exec_rebalancer (interval : s.cycle % 65536 = 0) : exec .rebalancer s = .next
    (let t : State := { s with cache := { s.cache with hits := [], bucketHits := [] } }
    (((if s.cache.rbctl.getLsbD 0 && s.cache.move.isNone then s.rebalance else none).map (fun m => t.beginMove m)).getD t)) := by
  have arm : exec .rebalancer s = execRebalancer s := rfl
  rw [arm, execRebalancer, if_neg (not_not.mpr interval)]
  dsimp only
  split
  · next chosen => rw [chosen]; rfl
  · next chosen => rw [chosen]; rfl

theorem exec_keyRebalancer (interval : s.cycle % 65536 = 0) : exec .keyRebalancer s = .next
    (let t : State := { s with dirs := { s.dirs with hits := [], bucketHits := [] } }
    (((if s.dirs.kbctl.getLsbD 0 && s.dirs.move.isNone then s.rebalanceKeys else none).map (fun m => t.beginKeyMove m.1 m.2)).getD t)) := by
  have arm : exec .keyRebalancer s = execKeyRebalancer s := rfl
  rw [arm, execKeyRebalancer, if_neg (not_not.mpr interval)]
  dsimp only
  split
  · next chosen => rw [chosen]; rfl
  · next chosen => rw [chosen]; rfl

/-- A rebalancer that is disabled, or that finds a move in progress, chooses none. -/
theorem ite_enabled_eq_none {α β : Type} {enabled : Bool} {move : Option β} {choice : Option α} (off : enabled = false ∨ move ≠ none) :
    (if enabled && move.isNone then choice else none) = none := by
  refine if_neg (fun on => ?_)
  simp only [Bool.and_eq_true, Option.isNone_iff_eq_none] at on
  obtain ⟨enabled, still⟩ := on
  exact off.elim (by simp [enabled]) (· still)

end

/-! ## The statement -/

/-- Settles O49: refills by the sums of a bucket and its surplus, moves by the entry that they write, and the order of what waits by the
promotions that follow a move. -/
theorem sharesAndMoves : Obligations.SharesAndMoves := by
  unfold Obligations.SharesAndMoves
  refine ⟨?add, ?depth, ?listed, ?idle, ?rbctl, ?move, ?entry, ?kbctl, ?keyWaits, ?waits, ?keyMove, ?interval⟩
  case add => exact fun h v rate depth => ⟨h.add_tokens v rate depth, h.add_keeps v rate depth⟩
  case depth => exact fun s c h => Nat.min_le_right ..
  case listed => exact fun s a h => exec_tokenRefill_listed
  case idle => exact fun s a => exec_tokenRefill_idle
  case rbctl =>
    intro s value turn go t
    rw [exec_rbctlGo turn]
    refine ⟨fun moving => congrArg _ (State.writeRbctl_of_moving (s := s.counted) go moving), fun still ok => congrArg _ ?_⟩
    exact (State.writeRbctl_of_still (s := s.counted) go still).trans (State.beginMove_of_sliceOk (s := t) (m := moveOf value) ok)
  case move =>
    intro s m moving free last t
    rw [exec_bucketMove moving, if_neg (by simp [free]), State.finishMove_of_last m last]
  case entry => exact fun s b c e => ⟨s.bucket_setBucket_same b e, fun other => s.bucket_setBucket_other other e⟩
  case kbctl =>
    intro s value turn go t
    rw [exec_kbctlGo turn]
    exact ⟨fun moving => congrArg _ (State.writeKbctl_of_moving (s := s.counted) go moving),
      fun still => congrArg _ (State.writeKbctl_of_still (s := s.counted) go still)⟩
  case keyWaits =>
    intro s b d mark moving waits
    rw [exec_keyBucketMove moving, if_pos waits]
  case waits =>
    intro s m moving waits
    rw [exec_bucketMove moving, if_pos waits]
  case keyMove =>
    intro s b d mark moving free last mine ours ws gs
    obtain ⟨entries, -, msgs, waiters, groups⟩ := s.rehomed_promotes_resettled b d
    have next : exec .keyBucketMove s = .next { s.resettled b d with dirs := { (s.resettled b d).dirs with move := none, queued := none } } := by
      rw [exec_keyBucketMove moving, if_neg (by simp [free]), State.finishKeyMove_of_last last]
    have entry (c : Nat) : (s.resettled b d).keyEntry c = (s.rehomed b d).keyEntry c := by simp only [State.keyEntry, entries]
    refine ⟨_, next, rfl, rfl, (entry b).trans (State.keyEntry_setKeyBucket_same ..), fun c other => ?_, msgs, waiters, groups,
      fun noWaiter noGroup => ?_⟩
    · exact (entry c).trans (State.keyEntry_setKeyBucket_other other _ _)
    · have same : s.resettled b d = s.rehomed b d := State.resettled_of_noneQueued ⟨noWaiter, noGroup⟩
      rw [same]
      exact ⟨rfl, rfl, rfl, rfl⟩
  case interval =>
    intro s interval
    rw [exec_rebalancer interval, exec_keyRebalancer interval]
    refine ⟨fun off => ?_, fun m on still chosen => ?_, fun off => ?_, fun b d on still chosen => ?_⟩
    · rw [ite_enabled_eq_none off]
      rfl
    · rw [if_pos (by simp [on, still]), chosen]
      rfl
    · rw [ite_enabled_eq_none off]
      rfl
    · rw [if_pos (by simp [on, still]), chosen]
      rfl

end Sys2Proof.Machine
end

section
/-! SUPPORT. The meeting instructions at their issue (R311, R312, R322-R328), and the statement about them (O40). -/

namespace Sys2Proof.Machine

/-! ## Pinning and claims (R87, R159) -/

/-- An open region of an activity without forecast tags is pinned (R159). -/
theorem State.pinRegion_of_committed {p : State} (committed : p.me.speculative = false) : p.pinRegion = { p with me := p.me.pinned } := by
  rw [State.pinRegion, Activity.pinned, committed, Bool.not_false, Bool.and_true]
  by_cases opened : p.me.region.open_ = true
  · have pinned : (p.me.region.pin || p.me.region.open_) = true := by rw [opened, Bool.or_true]
    rw [if_pos opened, pinned]
    rfl
  · have kept : (p.me.region.pin || p.me.region.open_) = p.me.region.pin := by rw [(Bool.not_eq_true _).mp opened, Bool.or_false]
    rw [if_neg opened, kept]

theorem State.claimReg_g_eq (n : Nat) (p : State) : p.claimReg ⟨.g, n⟩ = { p with me := { p.me with claimed := p.me.claimed ++ claimOf n } } :=
  State.claimReg_g n p

/-- A ready instruction whose effect is a copy fault takes its trap (R199). -/
theorem issue_fault {i : Instr} {s : State} {code : Nat} {eff : State → Eff} (ready : Ready i s) (fault : eff (s.prepare i) = .fault code) :
    issue i s eff = .next (s.takeTrap 0x0C (faultInfo code 0 0) false) := issue_trap ready fault

/-! ## `meet` (R312) -/

section
variable {r : R} {p : State} (noParty : p.me.party = none) (noColl : p.me.coll = none) (committed : p.me.speculative = false)
  (noPend : p.me.pend = []) (noClaim : p.me.claimed = []) (written : p.writesOut = false) (idle : p.vecBusy = false)
include noParty noColl committed noPend noClaim written idle

/-- `meet` with no result, write or forecast tag outstanding, and in no meeting or collective: the steps of R312 from step 4 on. -/
theorem effMeet_of_settled :
    let a := p.me
    let lb := (a.g r.c.toNat).toNat % 2 ^ 24
    let ln := (a.g r.c.toNat).toNat / 2 ^ 32 % 32
    let key := a.g r.a.toNat
    let t := (a.srcB r).toNat % 2 ^ 32
    effMeet r p =
      if a.boundMask ≠ 0 || p.engineOut then .trap 7 p.travelInfo
      else match a.badLuggage lb ln with
      | some y => .trap 6 (localInfo y 0)
      | none =>
        if 16 < ln then .done ({ p with me := a.pinned }.withPend
          (newWrite .engine (p.cycle + 1) (Instr.meet r).srcs ⟨.g, r.d.toNat⟩ ((meetWord stRefused 0 0 false).setWidth 1024)))
        else if p.portFull then .hold p
        else .done { p with
          msgs := p.msgs ++ [⟨p.nextMsg, .meet a.uid a.agent, p.cycle + 2 + dirLatency a.agent (p.dirOf key a.job.keysp a.job.vd)⟩]
          nextMsg := p.nextMsg + 1
          me := { a.pinned with
            claimed := a.pinned.claimed ++ claimOf r.d.toNat
            party := some (Party.arrive key (if t = 0 then none else some (p.cycle + t)) r.d.toNat (lb / 0x800) ln)
            block := .meet } } := by
  simp only [effMeet, noParty, noColl, committed, noPend, noClaim, written, idle, Option.isSome_none, Bool.or_self, Bool.false_eq_true,
    if_false, ne_eq, not_true_eq_false, decide_false, State.pinRegion_of_committed committed, State.claimReg_g_eq, State.resultAt,
    State.pendWrite_eq]
  rfl

end

/-! ## Inside a meeting (R323-R326) -/

/-- A party of no meeting reads no partner's register: code 10 (R323). -/
theorem effPartnerRead_of_noParty {x : Reg} {deliver : Vec → State → State} {p : State} (noParty : p.me.party = none) :
    effPartnerRead x deliver p = .fault 0xA := by
  simp only [effPartnerRead, State.inMeeting, noParty, Bool.not_false, if_true]

section
variable {x : Reg} {deliver : Vec → State → State} {p : State} {b : Activity} (met : p.inMeeting = true) (partner : p.partner = some b)
  (home : b.badHome [x] = none)
include met partner home

/-- A partner's register that is spilled is refilled first (R323). -/
theorem effPartnerRead_of_spilled (spilled : x ∈ b.regs.spilled) : effPartnerRead x deliver p = .hold (p.refillOf b.uid x) := by
  simp only [effPartnerRead, met, partner, home, spilled, Bool.not_true, Bool.false_eq_true, if_false, if_true]

theorem effPartnerRead_of_unspilled {q : State} (unspilled : x ∉ b.regs.spilled) (reads : p.readPartner = some q) :
    effPartnerRead x deliver p = .done (deliver (b.raw x) q) := by
  simp only [effPartnerRead, met, partner, home, unspilled, reads, Bool.not_true, Bool.false_eq_true, if_false]

end

theorem State.readPartner_cycle {p q : State} (reads : p.readPartner = some q) : q.cycle = p.cycle := by
  unfold State.readPartner at reads
  split at reads
  · cases reads; rfl
  · split at reads
    · cases reads; rfl
    · split at reads
      · cases reads; rfl
      · cases reads

/-- The read of a partner's register has its value on its way four cycles after its issue (R323). -/
theorem issue_partnerRead {i : Instr} {s q : State} {x y : Reg} {b : Activity} (ready : Ready i s) (met : (s.prepare i).inMeeting = true)
    (partner : (s.prepare i).partner = some b) (home : b.badHome [x] = none) (unspilled : x ∉ b.regs.spilled)
    (reads : (s.prepare i).readPartner = some q) :
    issue i s (effPartnerRead x (fun v t => t.pendWrite .engine (t.cycle + 4) [] y v)) =
      .next (q.issued i (newWrite .engine (s.cycle + 4) [] y (b.raw x))) := by
  refine issue_withPend ready ((effPartnerRead_of_unspilled met partner home unspilled reads).trans ?_)
  rw [State.pendWrite_eq, State.readPartner_cycle reads, State.prepare_cycle]

/-- A change of another activity leaves the one in focus. -/
theorem State.modAct_me_other {uid : Nat} {p : State} (other : p.me.uid ≠ uid) (f : Activity → Activity) : (p.modAct uid f).me = p.me := by
  rw [State.modAct, if_neg other]

section
variable {i : Instr} {p : State} {b : Activity} {y z : Party} (party : p.me.party = some y) (met : p.inMeeting = true)
  (settled : p.syncReady y = true) (partner : p.partner = some b) (joined : b.party = some z) (stays : z.parting = none)
include party met settled partner joined stays

/-- `msync` with a partner that waits in one, and can issue in this cycle (R324). -/
theorem effMsync_of_waiting (other : b.uid ≠ p.me.uid) (waits : z.inSync.isSome = true) (issues : p.mayIssue b = true) :
    effMsync i p = .done ((p.finishSync b.uid).modMe (fun a => { a with party := some { y with syncs := y.syncs + 1, inSync := none } })) := by
  have own : (p.finishSync b.uid).me.party = some y := by rw [State.finishSync, State.modAct_me_other other.symm, party]
  simp only [effMsync, party, met, settled, partner, joined, stays, waits, issues, Bool.not_true, Bool.false_eq_true, if_false,
    Option.isSome_none, Bool.and_self, if_true, State.modMe, own, Option.map_some]

/-- `msync` whose partner does not wait in one, or cannot issue in this cycle, waits (R324). -/
theorem effMsync_of_early (early : z.inSync = none ∨ p.mayIssue b = false) :
    effMsync i p = .hold (p.modMe (fun a => { a with party := some { y with inSync := some (i.bytes, i.stl) } })) := by
  have unready : (z.inSync.isSome && p.mayIssue b) = false := by
    rcases early with none | held
    · rw [none]; rfl
    · rw [held, Bool.and_false]
  simp only [effMsync, party, met, settled, partner, joined, stays, unready, Bool.not_true, Bool.false_eq_true, if_false,
    Option.isSome_none]

end

/-! ## `mswap` (R326) -/

/-- The local memories of two parties once n pages, from the pages f and g on, have been exchanged (R326). -/
def swapPages (f g n : Nat) (m : LMem × LMem) : LMem × LMem :=
  (List.range n).foldl (fun (xy : LMem × LMem) k => swapPage xy.1 (f + k) xy.2 (g + k)) m

/-- Both parties' ranges are free for `mswap`: no earlier access to them, and no forecast tag, is outstanding (R326). -/
structure State.SwapFree (a w n : Nat) (y : Party) (b : Activity) (p : State) : Prop where
  committed : p.me.speculative = false
  partnerCommitted : b.speculative = false
  own : p.me.rangeBusy p.nextCmd true a n = false
  ownWindow : p.me.rangeBusy p.nextCmd true w n = false
  partners : b.rangeBusy p.nextCmd true ((windowFrame b w).getD 0) n = false
  partnersWindow : b.rangeBusy p.nextCmd true (0x400000 + (a / 0x800 - y.lf) * 0x800) n = false

/-- `mswap` of pages that it may exchange, and to which nothing else has access (R326). -/
theorem exec_mswap_of_free {r : R} {s p : State} {b : Activity} {y : Party} {a w n : Nat} (ready : Ready (.mswap r) s)
    (prepared : s.prepare (.mswap r) = p) (first : (p.me.g r.a.toNat).toNat = a) (second : (p.me.srcB r).toNat = w)
    (count : (p.me.g r.c.toNat).toNat = n) (party : p.me.party = some y) (met : p.inMeeting = true) (partner : p.partner = some b)
    (aligned : a % 0x800 = 0 ∧ w % 0x800 = 0) (some_ : n ≠ 0) (few : n ≤ 16) (inside : p.badSwap y a w n = none)
    (free : p.SwapFree a w (n * 0x800) y b) :
    let m := swapPages (a / 0x800) ((windowFrame b w).getD 0 / 0x800) n (p.me.lm, b.lm)
    exec (.mswap r) s = .next (({ p with me := { p.me.pinned with lm := m.1 } }.modAct b.uid (fun c => { c with lm := m.2 })).issued (.mswap r) []) := by
  obtain ⟨committed, partnerCommitted, own, ownWindow, partners, partnersWindow⟩ := free
  have arm : exec (.mswap r) s = execMswap r s := rfl
  rw [arm, execMswap]
  refine issue_issued ready ?_
  rw [prepared]
  simp only [first, second, count, party, met, partner, aligned, some_, Nat.not_lt.mpr few, inside, committed, partnerCommitted, own, ownWindow,
    partners, partnersWindow, State.pinRegion_of_committed committed, Bool.not_true, Bool.false_eq_true, ne_eq, not_true_eq_false, decide_false,
    Bool.or_self, if_false]
  rfl

/-! ## `part` (R327) -/

theorem State.modParty_of_found {uid : Nat} {t : State} {b : Activity} (found : t.act? uid = some b) (f : Party → Party) :
    t.modParty uid f = t.modAct uid (fun a => { a with party := a.party.map f }) := by
  rw [State.modParty, State.modAny, found, Option.isSome_some, if_pos rfl]

/-- `part` ends the `msync` in which the partner waits where the partner could issue it now, and else has it tried again (R327). -/
theorem State.endSync_of_found {uid : Nat} {t : State} {b : Activity} (found : t.act? uid = some b) : t.endSync uid =
    if t.mayIssue b then t.finishSync uid else t.modAct uid (fun a => { a with party := a.party.map (fun x => { x with inSync := none }) }) := by
  rw [State.endSync, found, ← State.modParty_of_found found]

/-- A party that has passed step 2 of `part` (R327). -/
def State.atBarrier (r : R) (y : Party) (p : State) : State :=
  { p with me := { p.me.pinned with
    claimed := p.me.claimed ++ claimOf r.d.toNat
    party := some { y with
      parting := some ((r.m.extractLsb' 0 2).toNat, (p.me.g r.a.toNat).toNat % 2 ^ 12, r.d.toNat)
      partAt := p.cycle } } }

/-- `part` of a party with nothing outstanding, and nothing bound that would have to travel: it waits for its partner, and ends the `msync` in
which that waits (R327). -/
theorem exec_part_of_settled {r : R} {s p : State} {y : Party} (ready : Ready (.part r) s) (prepared : s.prepare (.part r) = p)
    (party : p.me.party = some y) (met : p.inMeeting = true) (committed : p.me.speculative = false) (noPend : p.me.pend = [])
    (noClaim : p.me.claimed = []) (written : p.writesOut = false) (quiet : p.cmdsOut = false) (idle : p.vecBusy = false)
    (light : p.me.boundMask = 0 ∨ ((r.m.extractLsb' 0 2).toNat ≠ 2 ∧ ((r.m.extractLsb' 0 2).toNat ≠ 0 ∨ y.away = false))) :
    exec (.part r) s = .next ((y.partner.elim (p.atBarrier r y) (fun q => (p.atBarrier r y).endSync q)).issued (.part r) []) := by
  have stays : ((y.away && decide ((r.m.extractLsb' 0 2).toNat = 0) || decide ((r.m.extractLsb' 0 2).toNat = 2)) &&
      decide (p.me.boundMask ≠ 0)) = false := by
    rcases light with unbound | ⟨notTo, notHome | home⟩
    · rw [decide_eq_false (not_not.mpr unbound), Bool.and_false]
    · rw [decide_eq_false notHome, decide_eq_false notTo, Bool.and_false]; rfl
    · rw [home, decide_eq_false notTo]; rfl
  have waits : (p.me.speculative || p.cmdsOut || p.writesOut || p.vecBusy || decide (p.me.pend ≠ []) || decide (p.me.claimed ≠ [])) = false := by
    rw [committed, quiet, written, idle, noPend, noClaim]; rfl
  have arm : exec (.part r) s = execPart r s := rfl
  rw [arm, execPart]
  refine issue_issued ready ?_
  rw [prepared]
  simp only [party, met, waits, stays, Bool.not_true, Bool.false_eq_true, if_false, State.pinRegion_of_committed committed, State.claimReg_g_eq]
  change Eff.done (match y.partner with
    | some q => (p.atBarrier r y).endSync q
    | none => p.atBarrier r y) = _
  cases y.partner <;> rfl

/-! ## `mcancel` and `ccancel` (R328, R340) -/

theorem effCancel_of_room {r : R} {coll : Bool} {p : State} (apart : coll = true ∨ (p.me.party = none ∧ p.me.coll = none))
    (committed : p.me.speculative = false) (room : p.portFull = false) : effCancel r coll p = .done { p with
      msgs := p.msgs ++ [(⟨p.nextMsg, .cancel p.me.uid r.d.toNat p.me.job.vd p.me.job.keysp (p.me.g r.a.toNat) coll p.me.agent,
        p.cycle + 2 + dirLatency p.me.agent (p.dirOf (p.me.g r.a.toNat) p.me.job.keysp p.me.job.vd)⟩ : Msg)]
      nextMsg := p.nextMsg + 1
      me := { (if coll then p.me else p.me.pinned) with claimed := p.me.claimed ++ claimOf r.d.toNat } } := by
  have free : (!coll && (p.me.party.isSome || p.me.coll.isSome)) = false := by
    rcases apart with rfl | ⟨noParty, noColl⟩
    · rfl
    · rw [noParty, noColl]; exact Bool.and_false _
  simp only [effCancel, free, committed, room, Bool.or_self, Bool.false_eq_true, if_false, State.pinRegion_of_committed committed,
    State.claimReg_g_eq]
  cases coll <;> rfl

/-! ## The statement -/

/-- Settles O40, instruction by instruction: each effect passes its checks, and comes to what the lemmas above say. -/
theorem meetingInstructions : Obligations.MeetingInstructions := by
  unfold Obligations.MeetingInstructions
  refine ⟨?meet, ?mget, ?msync, ?mcpy, ?mswap, ?part, ?cancel, ?outside⟩
  case meet =>
    intro r s ready p m lb ln key t noParty noColl committed noPend noClaim written idle
    have effect := effMeet_of_settled (r := r) noParty noColl committed noPend noClaim written idle
    have arm : exec (.meet r) s = issue (.meet r) s (effMeet r) := rfl
    rw [arm]
    have light (unbound : m.boundMask = 0) (still : p.engineOut = false) : ¬ (decide (p.me.boundMask ≠ 0) || p.engineOut) = true := by
      rw [still, decide_eq_false (not_not.mpr unbound)]
      exact Bool.false_ne_true
    refine ⟨fun bound => issue_trap ready (effect.trans (if_pos (by simpa using bound))), fun unbound still good few room => ?_,
      fun unbound still good many => ?_⟩
    · refine issue_issued ready (effect.trans ?_)
      rw [if_neg (light unbound still), good]
      dsimp only
      rw [if_neg (Nat.not_lt.mpr few), if_neg (by rw [room]; exact Bool.false_ne_true), State.prepare_cycle]
      rfl
    · refine issue_withPend ready (effect.trans ?_)
      rw [if_neg (light unbound still), good]
      dsimp only
      rw [if_pos many, State.prepare_cycle]
      rfl
  case mget =>
    intro x mem r s q b ready p met partner home
    have arm : exec (x.1 r) s = issue (x.1 r) s (effPartnerRead ⟨x.2, r.a.toNat⟩ (fun v t =>
        t.pendWrite .engine (t.cycle + 4) [] ⟨x.2, r.d.toNat⟩ v)) := by
      rcases List.mem_pair.mp mem with rfl | rfl <;> rfl
    rw [arm]
    exact ⟨fun spilled => issue_hold ready (effPartnerRead_of_spilled met partner home spilled),
      fun unspilled reads => issue_partnerRead ready met partner home unspilled reads⟩
  case msync =>
    intro r s b y z ready p party met settled partner joined stays other
    exact ⟨fun waits issues => issue_issued ready (effMsync_of_waiting party met settled partner joined stays other waits issues),
      fun early => issue_hold ready (effMsync_of_early party met settled partner joined stays early)⟩
  case mcpy =>
    intro r s q ready p y w n met toRange fromRange toAligned fromAligned whole some_ small room score reads
    have arm : exec (.mcpy r) s = execMcpy r s := rfl
    rw [arm, execMcpy]
    refine issue_issued ready ?_
    dsimp only
    rw [checked_of_pass, room, if_neg Bool.false_ne_true, if_neg (Nat.not_lt.mpr score), reads]
    · rfl
    · simp only [List.forall_mem_cons, List.not_mem_nil, false_imp_iff, implies_true, and_true]
      exact ⟨if_pos met, ckFault_of_good (by simpa using ⟨⟨toAligned, fromAligned⟩, whole⟩) .., ckFault_of_good (by simpa using ⟨some_, small⟩) ..,
        ckLocal_of_pass toRange, ckLocal_of_pass fromRange⟩
  case mswap =>
    intro r s b y ready p a w n base mine m party met partner other aligned₁ aligned₂ some_ few inside committed₁ committed₂ own₁ own₂ partners₁ partners₂
    exact exec_mswap_of_free ready rfl rfl rfl rfl party met partner ⟨aligned₁, aligned₂⟩ some_ few inside
      ⟨committed₁, committed₂, own₁, own₂, partners₁, partners₂⟩
  case part =>
    intro r s y ready p mode party met committed noPend noClaim written quiet idle light
    rw [← State.prepare_cycle (.part r) s]
    intro t
    have effect : exec (.part r) s = .next ((y.partner.elim t (fun q => t.endSync q)).issued (.part r) []) :=
      exec_part_of_settled ready rfl party met committed noPend noClaim written quiet idle light
    refine ⟨fun alone => ?_, fun q b partner found => ⟨fun issues => ?_, fun held => ?_⟩⟩
    · rw [effect, alone, Option.elim_none]
    · rw [effect, partner, Option.elim_some, State.endSync_of_found found, if_pos issues]
    · rw [effect, partner, Option.elim_some, State.endSync_of_found found, if_neg (by rw [held]; exact Bool.false_ne_true)]
  case cancel =>
    intro x mem r s ready p key apart committed room
    have arm : exec (x.1 r) s = issue (x.1 r) s (effCancel r x.2) := by
      rcases List.mem_pair.mp mem with rfl | rfl <;> rfl
    rw [arm]
    refine issue_issued ready ((effCancel_of_room apart committed room).trans ?_)
    rw [State.prepare_cycle]
  case outside =>
    have alone (i : Instr) {s : State} (noParty : s.me.party = none) : (s.prepare i).me.party = none := (State.prepare_me_party i s).trans noParty
    simp only [List.forall_mem_cons, List.not_mem_nil, false_imp_iff, implies_true, and_true]
    refine ⟨?mget, ?mgetv, ?msync, ?mswap, ?part⟩
    case mget => exact fun r s ready noParty => issue_fault ready (effPartnerRead_of_noParty (alone _ noParty))
    case mgetv => exact fun r s ready noParty => issue_fault ready (effPartnerRead_of_noParty (alone _ noParty))
    case msync => exact fun r s ready noParty => issue_fault ready (by simp only [effMsync, alone _ noParty])
    case mswap =>
      intro r s ready noParty
      have arm : exec (.mswap r) s = execMswap r s := rfl
      rw [arm, execMswap]
      exact issue_fault ready (by simp only [alone _ noParty])
    case part =>
      intro r s ready noParty
      have arm : exec (.part r) s = execPart r s := rfl
      rw [arm, execPart]
      exact issue_fault ready (by simp only [alone _ noParty])

end Sys2Proof.Machine
end

section
/-! SUPPORT. A party that waits at a directory and does not exist, and what becomes of its match (R302, R313; O41). -/

namespace Sys2Proof.Machine

/-- An activity at home on compute core 0 that is a party under key 0, without luggage. -/
def partyUnderZero (uid slot : Nat) (phase : PartyPhase) : Activity :=
  { Activity.absent with
    uid := uid
    life := .live
    slot := slot
    party := some { Party.arrive 0 none 0 0 0 with phase := phase } }

/-- The arrival of party 1 has reached the directory of key 0, where party 2 waits, which has a handle and is absent. -/
def arrivalAtAbsent : State :=
  { State.reset with
    me := partyUnderZero 1 0 .arriving
    acts := [{ partyUnderZero 2 1 .parked with life := .absent }]
    msgs := [⟨0, .meet 1 (coreAgent 0), 0⟩]
    dirs := { State.reset.dirs with waiters := [⟨0, 2, 0, 0, 0, none, false, false⟩] } }

/-- The partner that a party has after a step. -/
def partnerAfter (uid : Nat) (o : Host.Outcome State Fault Refusal) : Option Nat :=
  match o with
  | .next t => ((t.act? uid).bind Activity.party).bind Party.partner
  | _ => none

/-- Only activities that exist are made known to each other (`State.pair`): party 2 is matched without a partner. -/
theorem arrivalAtAbsent_unpaired : partnerAfter 2 (exec (.directoryArrival 0) arrivalAtAbsent) = none := by decide +kernel

/-- Refutes O41, by its clause on a match at the waiting party's core, which speaks of every activity with the handle of the party that waits, and
not only of one that exists: an absent one is given no partner. (No run is shown to reach this state: a kill takes its party out of the directory.) -/
theorem not_meetingSteps : ¬ Obligations.MeetingSteps := by
  unfold Obligations.MeetingSteps
  rintro ⟨arrival, -⟩
  obtain ⟨-, matched, -⟩ := arrival arrivalAtAbsent ⟨0, .meet 1 (coreAgent 0), 0⟩ 1 0 (coreAgent 0) _ _ rfl rfl rfl rfl (by decide +kernel) rfl
  obtain ⟨placed, -⟩ := matched ⟨0, 2, 0, 0, 0, none, false, false⟩ _ _ (by decide +kernel) rfl rfl rfl (by decide) rfl rfl rfl
    (by decide +kernel) rfl
  obtain ⟨r, b, c, next, found, -, ⟨y, party, -, -, -, -, partner, -⟩, -⟩ := placed (by decide +kernel) (by decide +kernel)
  have unpaired := arrivalAtAbsent_unpaired
  rw [next, partnerAfter, found, Option.bind_some, party, Option.bind_some, partner] at unpaired
  cases unpaired

end Sys2Proof.Machine
end

section
/-! SUPPORT. The image that the boot ROM runs and the fused security version (R445): what it is for an effect, an outcome or a wait to leave both as
they are. -/

namespace Sys2Proof.Machine

/-- What R445 speaks of: the image that the boot ROM runs, and the fused security version. -/
def Svc.rom (v : Svc) : Boot × Nat := (v.boot, v.fusedVersion)

theorem Svc.rom_inj {v w : Svc} : v.rom = w.rom ↔ v.boot = w.boot ∧ v.fusedVersion = w.fusedVersion := Prod.mk_inj

/-- A state that an effect makes of `s` has the image and the fused version of `s`. -/
def Eff.KeepsRom (s : State) : Eff → Prop
  | .done t => t.svc.rom = s.svc.rom
  | .jump t _ => t.svc.rom = s.svc.rom
  | .hold t => t.svc.rom = s.svc.rom
  | .trap _ _ => True
  | .poison _ _ => True

@[simp] theorem Eff.keepsRom_done (s t : State) : Eff.KeepsRom s (.done t) ↔ t.svc.rom = s.svc.rom := Iff.rfl
@[simp] theorem Eff.keepsRom_jump (s t : State) (p : Int) : Eff.KeepsRom s (.jump t p) ↔ t.svc.rom = s.svc.rom := Iff.rfl
@[simp] theorem Eff.keepsRom_hold (s t : State) : Eff.KeepsRom s (.hold t) ↔ t.svc.rom = s.svc.rom := Iff.rfl
@[simp] theorem Eff.keepsRom_trap (s : State) (c : Nat) (x : Word) : Eff.KeepsRom s (.trap c x) := trivial
@[simp] theorem Eff.keepsRom_poison (s : State) (x y : Nat) : Eff.KeepsRom s (.poison x y) := trivial

/-- A next state has the image and the fused version of `s`. -/
def KeepsRom (s : State) (o : Host.Outcome State Fault Refusal) : Prop := ∀ t, o = .next t → t.svc.rom = s.svc.rom

@[simp] theorem keepsRom_next (s t : State) : KeepsRom s (.next t) ↔ t.svc.rom = s.svc.rom :=
  ⟨fun h => h t rfl, fun h u e => by cases e; exact h⟩

@[simp] theorem foldl_rom {α : Type} {f : State → α → State} (h : ∀ s x, (f s x).svc.rom = s.svc.rom) (l : List α) (s : State) :
    (l.foldl f s).svc.rom = s.svc.rom := by
  induction l generalizing s with
  | nil => rfl
  | cons x l ih => exact (ih _).trans (h s x)

@[simp] theorem ite_rom (c : Prop) [Decidable c] (s t : State) : (if c then s else t).svc.rom = if c then s.svc.rom else t.svc.rom :=
  apply_ite (fun s : State => s.svc.rom) c s t

@[simp] theorem ite_keepsRom (c : Prop) [Decidable c] (s : State) (e e' : Eff) :
    Eff.KeepsRom s (if c then e else e') ↔ if c then Eff.KeepsRom s e else Eff.KeepsRom s e' := by split <;> rfl

/-- What may have to wait has, where it does not, the image and the fused version of `s`. -/
def WhenRom (s : State) (o : Option State) : Prop := ∀ t, o = some t → t.svc.rom = s.svc.rom

@[simp] theorem whenRom_none (s : State) : WhenRom s none := by simp [WhenRom]
@[simp] theorem whenRom_some (s t : State) : WhenRom s (some t) ↔ t.svc.rom = s.svc.rom :=
  ⟨fun h => h t rfl, fun h u e => by cases e; exact h⟩
@[simp] theorem ite_whenRom (c : Prop) [Decidable c] (s : State) (e e' : Option State) :
    WhenRom s (if c then e else e') ↔ if c then WhenRom s e else WhenRom s e' := by split <;> rfl
theorem WhenRom.map {s : State} {o : Option State} {f : State → State} (h : WhenRom s o) (hf : ∀ t, (f t).svc.rom = t.svc.rom) :
    WhenRom s (o.map f) := by
  cases o with
  | none => exact whenRom_none s
  | some t => exact (whenRom_some _ _).2 ((hf t).trans (h t rfl))
theorem WhenRom.bind {s : State} {o : Option State} {f : State → Option State} (h : WhenRom s o) (hf : ∀ t, WhenRom t (f t)) :
    WhenRom s (o.bind f) := by
  cases o with
  | none => exact whenRom_none s
  | some t => exact fun u e => (hf t u e).trans (h t rfl)
theorem WhenRom.foldl {α : Type} {s : State} {f : α → State → Option State} (hf : ∀ x t, WhenRom t (f x t)) (l : List α) {o : Option State}
    (h : WhenRom s o) : WhenRom s (l.foldl (fun o x => o.bind (f x)) o) := by
  induction l generalizing o with
  | nil => exact h
  | cons x l ih => exact ih (h.bind (hf x))

end Sys2Proof.Machine
end

section
/-! SUPPORT. The image that runs and the fused security version stay as they are: the operations of
Sys2Proof/Machine/Base.lean. -/

namespace Sys2Proof.Machine

@[simp] theorem State.focusCore_rom (a : Agent) (s : State) : (State.focusCore a s).svc.rom = s.svc.rom := by
  simp [State.focusCore]

@[simp] theorem State.focus_rom (uid : Nat) (s : State) : (State.focus uid s).svc.rom = s.svc.rom := by
  unfold State.focus
  repeat' split
  all_goals simp

@[simp] theorem State.modCore_rom (f : Core → Core) (s : State) : (State.modCore f s).svc.rom = s.svc.rom := by
  simp [State.modCore]

@[simp] theorem State.modMe_rom (f : Activity → Activity) (s : State) : (State.modMe f s).svc.rom = s.svc.rom := by
  simp [State.modMe]

@[simp] theorem State.modAct_rom (uid : Nat) (f : Activity → Activity) (s : State) : (State.modAct uid f s).svc.rom = s.svc.rom := by
  simp [State.modAct]

@[simp] theorem State.modCoreOf_rom (a : Agent) (f : Core → Core) (s : State) : (State.modCoreOf a f s).svc.rom = s.svc.rom := by
  simp [State.modCoreOf]

@[simp] theorem State.makeRoom_rom (ag : Agent) (v : Bool) (need self : Nat) (keep : List Reg) (fuel : Nat) (s : State) :
    (State.makeRoom ag v need self keep fuel s).svc.rom = s.svc.rom := by rw [(Moved.makeRoom ag v need self keep fuel s).rest]

@[simp] theorem State.writeReg_rom (x : Reg) (val : Vec) (keep : List Reg) (s : State) : (State.writeReg x val keep s).svc.rom = s.svc.rom := by
  simp [State.writeReg]

@[simp] theorem State.refill_rom (x : Reg) (keep : List Reg) (s : State) : (State.refill x keep s).svc.rom = s.svc.rom := by
  simp [State.refill]

@[simp] theorem State.refillAll_rom (xs : List Reg) (s : State) : (State.refillAll xs s).svc.rom = s.svc.rom := by
  simp [State.refillAll]

@[simp] theorem State.pendWrite_rom (kind : PendKind) (due : Nat) (keep : List Reg) (x : Reg) (val : Vec) (s : State) :
    (State.pendWrite kind due keep x val s).svc.rom = s.svc.rom := by
  simp [State.pendWrite]

@[simp] theorem State.commitWhere_rom (p : Pend → Bool) (s : State) : (State.commitWhere p s).svc.rom = s.svc.rom := by
  simp [State.commitWhere]

@[simp] theorem State.flushPending_rom (s : State) : (State.flushPending s).svc.rom = s.svc.rom := by
  simp [State.flushPending]

@[simp] theorem State.writeLocal_rom (y : Nat) (bs : List Byte) (s : State) : (State.writeLocal y bs s).svc.rom = s.svc.rom := by
  simp [State.writeLocal]

@[simp] theorem State.readPartner_whenRom (s : State) : WhenRom s (State.readPartner s) := by
  unfold State.readPartner
  split <;> simp

@[simp] theorem State.readTaint_whenRom (y n : Nat) (s : State) : WhenRom s (State.readTaint y n s) := by
  simp [State.readTaint]

@[simp] theorem State.claim_rom (cs : List Claim) (s : State) : (State.claim cs s).svc.rom = s.svc.rom := by
  simp [State.claim]

@[simp] theorem State.barUpdate_rom (uid y bytes arrivals code : Nat) (s : State) :
    (State.barUpdate uid y bytes arrivals code s).svc.rom = s.svc.rom := by
  simp [State.barUpdate]

@[simp] theorem Eff.fault_keepsRom (s : State) (code pos tid : Nat) : Eff.KeepsRom s (.fault code pos tid) := trivial

end Sys2Proof.Machine
end

section
/-! SUPPORT. The image that runs and the fused security version stay as they are: the operations of
Sys2Proof/Machine/Mem.lean. -/

namespace Sys2Proof.Machine

@[simp] theorem State.storeCells_rom (vd : Nat) (k : LineKey) (sect : Nat) (part : Part) (cs : List Host.Cell) (s : State) :
    (s.storeCells vd k sect part cs).svc.rom = s.svc.rom := by rw [State.storeCells_svc]

@[simp] theorem State.cleanLines_rom (p : Line → Bool) (s : State) : (State.cleanLines p s).svc.rom = s.svc.rom := by
  simp [State.cleanLines]

@[simp] theorem State.flushLines_rom (p : Line → Bool) (s : State) : (State.flushLines p s).svc.rom = s.svc.rom := by
  simp [State.flushLines]

@[simp] theorem State.evictLine_rom (l : Line) (s : State) : (State.evictLine l s).svc.rom = s.svc.rom := by
  simp [State.evictLine]

@[simp] theorem State.fillLine_rom (vd : Nat) (key : LineKey) (slice : Nat) (replica : Bool) (f : FillSet) (s : State) :
    (State.fillLine vd key slice replica f s).svc.rom = s.svc.rom := by
  unfold State.fillLine
  repeat' split
  all_goals simp

@[simp] theorem State.countAt_rom (ks : List (Nat × LineKey)) (s : State) : (State.countAt ks s).svc.rom = s.svc.rom := by
  simp [State.countAt]

@[simp] theorem State.countLines_rom (ks : List LineKey) (s : State) : (State.countLines ks s).svc.rom = s.svc.rom := by
  simp [State.countLines]

@[simp] theorem State.bringLine_rom (vd : Nat) (k : LineKey) (s : State) : (State.bringLine vd k s).svc.rom = s.svc.rom := by
  simp [State.bringLine]

@[simp] theorem State.charge_rom (vd : Nat) (port : Option Agent) (needs : List (Arbiter × Nat)) (s : State) :
    (State.charge vd port needs s).svc.rom = s.svc.rom := by
  simp [State.charge]

end Sys2Proof.Machine
end

section
/-! SUPPORT. The image that runs and the fused security version stay as they are: the operations of
Sys2Proof/Machine/Ops.lean. -/

namespace Sys2Proof.Machine

@[simp] theorem Svc.raise_rom (n : Nat) (v : Svc) : (v.raise n).rom = v.rom := rfl
@[simp] theorem Svc.limit_rom (l : Limiter) (v : Svc) : (v.limit l).rom = v.rom := rfl

@[simp] theorem State.countEvent_rom (kind agent cls : Nat) (s : State) : (s.countEvent kind agent cls).svc.rom = s.svc.rom := rfl

@[simp] theorem State.ringWrite_rom (kind agent cls : Nat) (vd : Option Nat) (cyc at_ info count : Nat) (s : State) :
    (s.ringWrite kind agent cls vd cyc at_ info count).svc.rom = s.svc.rom := by
  unfold State.ringWrite
  dsimp only
  split; · rfl
  split; · rfl
  cases vd <;> exact (State.storeCells_rom ..).trans
    ((foldl_rom (fun s q => State.countEvent_rom _ _ _ s) _ _).trans (State.bringLine_rom ..))

@[simp] theorem State.report_rom (kind agent cls : Nat) (vd : Option Nat) (at_ info : Nat) (s : State) :
    (s.report kind agent cls vd at_ info).svc.rom = s.svc.rom := by
  simp [State.report]

@[simp] theorem State.fill_rom (vd : Nat) (key : LineKey) (slice : Nat) (replica : Bool) (f : FillSet) (s : State) :
    (State.fill vd key slice replica f s).svc.rom = s.svc.rom := by
  simp [State.fill]

@[simp] theorem State.fetchLine_rom (vd : Nat) (k : LineKey) (s : State) : (State.fetchLine vd k s).svc.rom = s.svc.rom := by
  simp [State.fetchLine]

@[simp] theorem State.keepLine_rom (vd : Nat) (k : LineKey) (s : State) : (State.keepLine vd k s).svc.rom = s.svc.rom := by
  simp [State.keepLine]

@[simp] theorem State.keepAddrs_rom (vd : Nat) (pas : List Nat) (s : State) : (State.keepAddrs vd pas s).svc.rom = s.svc.rom := by
  simp [State.keepAddrs]

@[simp] theorem State.noteWalk_rom (vd asid va : Nat) (s : State) : (State.noteWalk vd asid va s).svc.rom = s.svc.rom := by
  unfold State.noteWalk
  split <;> simp

@[simp] theorem State.keepWalk_rom (vd asid va : Nat) (s : State) : (State.keepWalk vd asid va s).svc.rom = s.svc.rom := by
  simp [State.keepWalk]

@[simp] theorem State.fetchWalk_rom (vd asid va : Nat) (s : State) : (State.fetchWalk vd asid va s).svc.rom = s.svc.rom := by
  simp [State.fetchWalk]

@[simp] theorem State.keepVirt_rom (vd asid va n : Nat) (s : State) : (State.keepVirt vd asid va n s).svc.rom = s.svc.rom := by
  simp [State.keepVirt]

@[simp] theorem State.writeVirt_rom (vd asid va : Nat) (bs : List Byte) (s : State) : (State.writeVirt vd asid va bs s).1.svc.rom = s.svc.rom := by
  simp [State.writeVirt]

@[simp] theorem State.reportMe_rom (cls where_ info : Nat) (s : State) : (State.reportMe cls where_ info s).svc.rom = s.svc.rom := by
  simp [State.reportMe]

@[simp] theorem State.correct_rom (y n : Nat) (s : State) : (State.correct y n s).svc.rom = s.svc.rom := by
  unfold State.correct
  repeat' split
  all_goals simp

@[simp] theorem State.barNote_rom (uid y n arrivals code : Nat) (s : State) : (s.barNote uid y n arrivals code).svc.rom = s.svc.rom := by
  unfold State.barNote
  split
  · dsimp only
    split <;> simp
  · simp

@[simp] theorem State.holdIssue_rom (s : State) : (State.holdIssue s).svc.rom = s.svc.rom := by
  simp [State.holdIssue]

@[simp] theorem State.resetRun_rom (i : Instr) (s : State) : (State.resetRun i s).svc.rom = s.svc.rom := by
  simp [State.resetRun]

@[simp] theorem State.complete_rom (i : Instr) (s : State) : (State.complete i s).svc.rom = s.svc.rom := by
  simp [State.complete]

@[simp] theorem State.transfer_rom (i : Instr) (t : Int) (s : State) : (State.transfer i t s).svc.rom = s.svc.rom := by
  simp [State.transfer]

@[simp] theorem State.condemn_rom (stat : Nat) (s : State) : (State.condemn stat s).svc.rom = s.svc.rom := by
  simp [State.condemn]

@[simp] theorem State.awaitEntry_rom (cause : Nat) (info : Word) (async : Bool) (s : State) :
    (State.awaitEntry cause info async s).svc.rom = s.svc.rom := by
  simp [State.awaitEntry]

@[simp] theorem State.takeTrap_rom (cause : Nat) (info : Word) (async : Bool) (s : State) :
    (State.takeTrap cause info async s).svc.rom = s.svc.rom := by
  unfold State.takeTrap
  repeat' split
  all_goals simp

@[simp] theorem State.returnTrap_keepsRom (i : Instr) (s : State) : Eff.KeepsRom s (State.returnTrap i s) := by
  unfold State.returnTrap
  repeat' split
  all_goals simp

@[simp] theorem State.dropCmd_rom (c : Cmd) (s : State) : (State.dropCmd c s).svc.rom = s.svc.rom := by
  simp [State.dropCmd]

@[simp] theorem State.cancelLoad_rom (c : Cmd) (s : State) : (State.cancelLoad c s).svc.rom = s.svc.rom := by
  simp [State.cancelLoad]

@[simp] theorem State.cancelLoads_rom (mark : Nat) (s : State) : (State.cancelLoads mark s).svc.rom = s.svc.rom := by
  simp [State.cancelLoads]

@[simp] theorem State.dropMats_rom (mark : Nat) (s : State) : (State.dropMats mark s).svc.rom = s.svc.rom := by
  simp [State.dropMats]

@[simp] theorem State.staleResults_rom (s : State) : (State.staleResults s).svc.rom = s.svc.rom := by
  simp [State.staleResults]

@[simp] theorem State.restoreSnapshot_rom (s : State) : (State.restoreSnapshot s).svc.rom = s.svc.rom := by
  simp [State.restoreSnapshot]

@[simp] theorem State.rewind_rom (s : State) : (State.rewind s).svc.rom = s.svc.rom := by
  simp [State.rewind]

@[simp] theorem State.endTest_rom (v : Nat) (s : State) : (State.endTest v s).svc.rom = s.svc.rom := by
  simp [State.endTest]

@[simp] theorem State.squashMe_rom (v : Nat) (s : State) : (State.squashMe v s).svc.rom = s.svc.rom := by
  simp [State.squashMe]

@[simp] theorem State.squashTainted_rom (ag : Agent) (v fuel : Nat) (nums : List Nat) (s : State) :
    (State.squashTainted ag v fuel nums s).svc.rom = s.svc.rom := by
  induction fuel generalizing nums s with
  | zero => rfl
  | succ fuel ih =>
    unfold State.squashTainted
    split
    · rfl
    · simp [ih]

@[simp] theorem State.dropTags_rom (v : Nat) (s : State) : (State.dropTags v s).svc.rom = s.svc.rom := by
  simp [State.dropTags]

@[simp] theorem State.dropSpec_rom (s : State) : (State.dropSpec s).svc.rom = s.svc.rom := by
  simp [State.dropSpec]

@[simp] theorem State.restartRegion_rom (s : State) : (State.restartRegion s).svc.rom = s.svc.rom := by
  simp [State.restartRegion]

@[simp] theorem State.takePoison_rom (src addr : Nat) (s : State) : (State.takePoison src addr s).svc.rom = s.svc.rom := by
  simp [State.takePoison]

@[simp] theorem State.readRegs_rom (rs : List Reg) (s : State) : (State.readRegs rs s).svc.rom = s.svc.rom := by
  simp [State.readRegs]

@[simp] theorem State.prepare_rom (i : Instr) (s : State) : (State.prepare i s).svc.rom = s.svc.rom := by
  simp [State.prepare]

/-- An encoded instruction keeps the image and the fused version when its own effect does. -/
theorem issue_keepsRom {i : Instr} {s : State} {eff : State → Eff} (h : ∀ p, Eff.KeepsRom p (eff p)) : KeepsRom s (issue i s eff) := by
  have own := h (s.prepare i)
  rw [issue, keepsRom_next]
  split
  next => simp
  next => simp
  next => simp
  next => simp
  next =>
    split
    next => simp
    next =>
      split
      next e => simpa [e] using own
      next e => simpa [e] using own
      next => simp
      next e => simpa [e] using own
      next => simp

@[simp] theorem State.resultG_rom (i : Instr) (d : BitVec 6) (v : Word) (s : State) : (State.resultG i d v s).svc.rom = s.svc.rom := by
  simp [State.resultG]

@[simp] theorem State.resultV_rom (i : Instr) (d : BitVec 6) (v : Vec) (s : State) : (State.resultV i d v s).svc.rom = s.svc.rom := by
  simp [State.resultV]

@[simp] theorem State.resultK_rom (i : Instr) (d : BitVec 6) (v : Mask) (s : State) : (State.resultK i d v s).svc.rom = s.svc.rom := by
  simp [State.resultK]

@[simp] theorem State.resultAt_rom (kind : PendKind) (due : Nat) (keep : List Reg) (d : Nat) (v : Word) (s : State) :
    (State.resultAt kind due keep d v s).svc.rom = s.svc.rom := by
  simp [State.resultAt]

@[simp] theorem State.claimReg_rom (x : Reg) (s : State) : (State.claimReg x s).svc.rom = s.svc.rom := by
  simp [State.claimReg]

@[simp] theorem State.deliver_rom (d : Nat) (v : Word) (s : State) : (State.deliver d v s).svc.rom = s.svc.rom := by
  simp [State.deliver]

@[simp] theorem State.pinRegion_rom (s : State) : (State.pinRegion s).svc.rom = s.svc.rom := by
  simp [State.pinRegion]

end Sys2Proof.Machine
end

section
/-! SUPPORT. The image that runs and the fused security version stay as they are: the operations of
Sys2Proof/Machine/Barrier.lean. -/

namespace Sys2Proof.Machine

/-- A check of a barrier's address that fails is a trap. -/
theorem State.barCheck_keepsRom {f y : Nat} {s t : State} {e : Eff} (h : s.barCheck f y = some e) : Eff.KeepsRom t e := by
  unfold State.barCheck at h
  repeat' split at h
  all_goals cases h
  all_goals simp

@[simp] theorem State.barResult_rom (i : Instr) (d : BitVec 6) (v : Nat) (s : State) : (State.barResult i d v s).svc.rom = s.svc.rom := by
  simp [State.barResult]

/-- A barrier that is written, with a result. -/
theorem barWrite_keepsRom (f : Activity → Activity) (i : Instr) (d : BitVec 6) (v : Nat) (s : State) :
    Eff.KeepsRom s (.done ((s.modMe f).barResult i d v)) := (State.barResult_rom ..).trans (State.modMe_rom f s)

@[simp] theorem execBarInit_keepsRom (r : R) (s : State) : KeepsRom s (execBarInit r s) :=
  issue_keepsRom (fun p => by
    dsimp only
    split
    next c => exact State.barCheck_keepsRom c
    split; · exact Eff.fault_keepsRom ..
    split; · exact rfl
    exact barWrite_keepsRom ..)

@[simp] theorem execBarExp_keepsRom (r : R) (s : State) : KeepsRom s (execBarExp r s) :=
  issue_keepsRom (fun p => by
    dsimp only
    split
    next c => exact State.barCheck_keepsRom c
    exact barWrite_keepsRom ..)

@[simp] theorem execBarArr_keepsRom (r : R) (s : State) : KeepsRom s (execBarArr r s) :=
  issue_keepsRom (fun p => by
    dsimp only
    split
    next c => exact State.barCheck_keepsRom c
    · simp)

@[simp] theorem execBarInval_keepsRom (r : R) (s : State) : KeepsRom s (execBarInval r s) :=
  issue_keepsRom (fun p => by
    dsimp only
    split
    next c => exact State.barCheck_keepsRom c
    · simp)

@[simp] theorem State.armMonitor_rom (y token dst : Nat) (s : State) : (State.armMonitor y token dst s).svc.rom = s.svc.rom := by
  simp [State.armMonitor]

@[simp] theorem execBarWait_keepsRom (r : R) (s : State) : KeepsRom s (execBarWait r s) :=
  issue_keepsRom (fun p => by
    dsimp only
    split
    next c => exact State.barCheck_keepsRom c
    · simp)

@[simp] theorem execBarTest_keepsRom (r : R) (s : State) : KeepsRom s (execBarTest r s) :=
  issue_keepsRom (fun p => by
    dsimp only
    split
    next c => exact State.barCheck_keepsRom c
    · simp)

@[simp] theorem effSleep_keepsRom (wake : Nat) (s : State) : Eff.KeepsRom s (effSleep wake s) := by
  simp [effSleep]

@[simp] theorem execSleep_keepsRom (r : R) (s : State) : KeepsRom s (execSleep r s) :=
  issue_keepsRom (fun p => by simp)

@[simp] theorem execSleepu_keepsRom (r : R) (s : State) : KeepsRom s (execSleepu r s) :=
  issue_keepsRom (fun p => by simp)

@[simp] theorem execMonitorGrant_keepsRom (ag : Agent) (s : State) : KeepsRom s (execMonitorGrant ag s) := by
  unfold execMonitorGrant
  rw [keepsRom_next]
  dsimp only
  repeat' split
  all_goals simp

@[simp] theorem execBarWaitWake_keepsRom (uid : Nat) (s : State) : KeepsRom s (execBarWaitWake uid s) := by
  unfold execBarWaitWake
  split <;> simp

@[simp] theorem execSleepWake_keepsRom (uid : Nat) (s : State) : KeepsRom s (execSleepWake uid s) := by
  unfold execSleepWake
  split <;> simp

end Sys2Proof.Machine
end

section
/-! SUPPORT. The image that runs and the fused security version stay as they are: the operations of
Sys2Proof/Machine/Control.lean. -/

namespace Sys2Proof.Machine

@[simp] theorem effTransfer_keepsRom {f : State → State} (h : ∀ s, (f s).svc.rom = s.svc.rom) (t : Int) (s : State) :
    Eff.KeepsRom s (effTransfer t f s) := by
  unfold effTransfer
  split <;> simp [h]

@[simp] theorem effBranch_keepsRom (c : Bool) (t : Int) (s : State) : Eff.KeepsRom s (effBranch c t s) := by
  simp [effBranch]

@[simp] theorem execBr_keepsRom (stl : BitVec 3) (off : BitVec 20) (s : State) : KeepsRom s (execBr stl off s) :=
  issue_keepsRom (fun p => by simp)

@[simp] theorem execCall_keepsRom (stl : BitVec 3) (off : BitVec 20) (s : State) : KeepsRom s (execCall stl off s) :=
  issue_keepsRom (fun p => by simp)

@[simp] theorem execBnz_keepsRom (stl : BitVec 3) (a : BitVec 6) (off : BitVec 14) (s : State) : KeepsRom s (execBnz stl a off s) :=
  issue_keepsRom (fun p => by simp)

@[simp] theorem execBz_keepsRom (stl : BitVec 3) (a : BitVec 6) (off : BitVec 14) (s : State) : KeepsRom s (execBz stl a off s) :=
  issue_keepsRom (fun p => by simp)

@[simp] theorem execLoop_keepsRom (stl : BitVec 3) (a : BitVec 6) (off : BitVec 14) (s : State) : KeepsRom s (execLoop stl a off s) :=
  issue_keepsRom (fun p => by simp)

@[simp] theorem execJmp_keepsRom (r : R) (s : State) : KeepsRom s (execJmp r s) :=
  issue_keepsRom (fun p => by simp)

@[simp] theorem execJcall_keepsRom (r : R) (s : State) : KeepsRom s (execJcall r s) :=
  issue_keepsRom (fun p => by simp)

@[simp] theorem execBeq_keepsRom (r : R) (s : State) : KeepsRom s (execBeq r s) :=
  issue_keepsRom (fun p => by simp)

@[simp] theorem execBne_keepsRom (r : R) (s : State) : KeepsRom s (execBne r s) :=
  issue_keepsRom (fun p => by simp)

@[simp] theorem execBlt_keepsRom (r : R) (s : State) : KeepsRom s (execBlt r s) :=
  issue_keepsRom (fun p => by simp)

@[simp] theorem execBltu_keepsRom (r : R) (s : State) : KeepsRom s (execBltu r s) :=
  issue_keepsRom (fun p => by simp)

@[simp] theorem execEnd_keepsRom (r : R) (s : State) : KeepsRom s (execEnd r s) :=
  issue_keepsRom (fun p => by simp)

@[simp] theorem execNop_keepsRom (r : R) (s : State) : KeepsRom s (execNop r s) :=
  issue_keepsRom (fun p => by simp)

end Sys2Proof.Machine
end

section
/-! SUPPORT. The image that runs and the fused security version stay as they are: the operations of
Sys2Proof/Machine/Local.lean. -/

namespace Sys2Proof.Machine

@[simp] theorem effLoad_keepsRom (i : Instr) (r : R) (f : Nat) (ext : Nat → Word) (s : State) : Eff.KeepsRom s (effLoad i r f ext s) := by
  unfold effLoad
  dsimp only
  split; · simp
  split; · simp
  split; · simp
  next h => split <;> simp [State.readTaint_whenRom _ _ s _ h]

@[simp] theorem effStore_keepsRom (r : R) (f : Nat) (s : State) : Eff.KeepsRom s (effStore r f s) := by
  unfold effStore
  dsimp only
  split <;> simp

@[simp] theorem execLb_keepsRom (r : R) (s : State) : KeepsRom s (execLb r s) :=
  issue_keepsRom (fun p => by simp)

@[simp] theorem execLh_keepsRom (r : R) (s : State) : KeepsRom s (execLh r s) :=
  issue_keepsRom (fun p => by simp)

@[simp] theorem execLw_keepsRom (r : R) (s : State) : KeepsRom s (execLw r s) :=
  issue_keepsRom (fun p => by simp)

@[simp] theorem execLd_keepsRom (r : R) (s : State) : KeepsRom s (execLd r s) :=
  issue_keepsRom (fun p => by simp)

@[simp] theorem execLbu_keepsRom (r : R) (s : State) : KeepsRom s (execLbu r s) :=
  issue_keepsRom (fun p => by simp)

@[simp] theorem execLhu_keepsRom (r : R) (s : State) : KeepsRom s (execLhu r s) :=
  issue_keepsRom (fun p => by simp)

@[simp] theorem execLwu_keepsRom (r : R) (s : State) : KeepsRom s (execLwu r s) :=
  issue_keepsRom (fun p => by simp)

@[simp] theorem execSb_keepsRom (r : R) (s : State) : KeepsRom s (execSb r s) :=
  issue_keepsRom (fun p => by simp)

@[simp] theorem execSh_keepsRom (r : R) (s : State) : KeepsRom s (execSh r s) :=
  issue_keepsRom (fun p => by simp)

@[simp] theorem execSw_keepsRom (r : R) (s : State) : KeepsRom s (execSw r s) :=
  issue_keepsRom (fun p => by simp)

@[simp] theorem execSd_keepsRom (r : R) (s : State) : KeepsRom s (execSd r s) :=
  issue_keepsRom (fun p => by simp)

end Sys2Proof.Machine
end

section
/-! SUPPORT. The image that runs and the fused security version stay as they are: the operations of
Sys2Proof/Machine/Tensor.lean. -/

namespace Sys2Proof.Machine

@[simp] theorem State.poisonLoc_rom (vd : Nat) (l : Loc) (s : State) : (State.poisonLoc vd l s).svc.rom = s.svc.rom := by
  unfold State.poisonLoc
  split <;> simp

end Sys2Proof.Machine
end

section
/-! SUPPORT. The image that runs and the fused security version stay as they are: the operations of
Sys2Proof/Machine/Copy.lean. -/

namespace Sys2Proof.Machine

theorem foldl_bind_rom {α β : Type} {s : State} {f : α → State × β → Option (State × β)}
    (hf : ∀ x q r, f x q = some r → r.1.svc.rom = q.1.svc.rom) (l : List α) {o : Option (State × β)}
    (h : ∀ q, o = some q → q.1.svc.rom = s.svc.rom) {r : State × β} (e : l.foldl (fun o x => o.bind (f x)) o = some r) :
    r.1.svc.rom = s.svc.rom := by
  induction l generalizing o with
  | nil => exact h r e
  | cons x l ih =>
    refine ih (fun q eq => ?_) e
    obtain ⟨p, rfl, eq⟩ := Option.bind_eq_some_iff.1 eq
    exact (hf x p q eq).trans (h p rfl)

theorem State.translateAll_rom {c : Cmd} {s : State} {r : State × Cmd} (h : s.translateAll c = some r) : r.1.svc.rom = s.svc.rom := by
  refine foldl_bind_rom (fun p (t, c) q e => ?_) _ (fun q e => ?_) h
  rotate_left
  · dsimp only at e
    split at e
    · cases e; simp
    · split at e <;> cases e
      simp
  · cases e; rfl

/-- A check that ends the issue keeps the image and the fused version. -/
def CheckedRom (s : State) (o : Option Eff) : Prop := ∀ e, o = some e → Eff.KeepsRom s e

@[simp] theorem checkedRom_none (s : State) : CheckedRom s none := by simp [CheckedRom]
@[simp] theorem checkedRom_some (s : State) (e : Eff) : CheckedRom s (some e) ↔ Eff.KeepsRom s e := by simp [CheckedRom]
@[simp] theorem ite_checkedRom (c : Prop) [Decidable c] (s : State) (o o' : Option Eff) :
    CheckedRom s (if c then o else o') ↔ if c then CheckedRom s o else CheckedRom s o' := by split <;> rfl
@[simp] theorem map_checkedRom {α : Type} {f : α → Eff} {s : State} (h : ∀ x, Eff.KeepsRom s (f x)) (o : Option α) :
    CheckedRom s (o.map f) := by
  cases o <;> simp [h]

@[simp] theorem checked_keepsRom {cs : List Check} {k : State → Eff} {s : State} (hc : ∀ c ∈ cs, CheckedRom s (c s))
    (h : Eff.KeepsRom s (k s)) : Eff.KeepsRom s (checked cs k s) := by
  unfold checked
  split
  next e he =>
    obtain ⟨c, member, result⟩ := List.exists_of_findSome?_eq_some he
    exact hc c member e result
  · exact h

@[simp] theorem ckFault_rom (s t : State) (bad : Bool) (code pos tid : Nat) : CheckedRom s (ckFault bad code pos tid t) := by simp [ckFault]
@[simp] theorem ckLocal_rom (s t : State) (f : Nat) (write : Bool) (y n : Nat) : CheckedRom s (ckLocal f write y n t) := by simp [ckLocal]
@[simp] theorem ckBar_rom (s t : State) (f : Nat) (r : R) : CheckedRom s (ckBar f r t) := by simp [ckBar]
@[simp] theorem ckBarAlign_rom (s t : State) (r : R) (tid : Nat) : CheckedRom s (ckBarAlign r tid t) := by simp [ckBarAlign]
@[simp] theorem ckDesc_rom (s : State) (tid : Nat) : CheckedRom s (ckDesc tid s) := by
  unfold ckDesc
  split; · simp
  split <;> simp
@[simp] theorem ckWith_rom {f : Desc → Check} {s : State} (h : ∀ d, CheckedRom s (f d s)) (tid : Nat) : CheckedRom s (ckWith tid f s) := by
  unfold ckWith
  split <;> simp [h]
@[simp] theorem ckLinear_rom (s t : State) (y off n tid : Nat) : ∀ c ∈ ckLinear y off n tid, CheckedRom s (c t) := by simp [ckLinear]

@[simp] theorem State.readDesc_rom (vd jid tid : Nat) (s : State) : (State.readDesc vd jid tid s).svc.rom = s.svc.rom := by
  simp [State.readDesc]

@[simp] theorem State.enqueue_rom (c : Cmd) (claims : List Claim) (s : State) : (State.enqueue c claims s).svc.rom = s.svc.rom := by
  simp [State.enqueue]

@[simp] theorem accept_keepsRom {f : State → State} (h : ∀ s, (f s).svc.rom = s.svc.rom) (c : Cmd) (claims : List Claim) (s : State) :
    Eff.KeepsRom s (accept c claims f s) := by
  simp [accept, h]

@[simp] theorem acceptWrite_keepsRom (c : Cmd) (claims : List Claim) (s : State) : Eff.KeepsRom s (acceptWrite c claims s) := by
  unfold acceptWrite
  split
  · exact accept_keepsRom (fun _ => by simp) _ _ _
  · split
    · simp
    · exact accept_keepsRom (fun _ => by simp) _ _ _

@[simp] theorem State.awaitHeld_keepsRom (size : Nat) (s : State) : Eff.KeepsRom s (State.awaitHeld size s) := by
  simp [State.awaitHeld]

@[simp] theorem holdWrite_keepsRom (c : Cmd) (src n : Nat) (s : State) : Eff.KeepsRom s (holdWrite c src n s) := by
  simp [holdWrite]

@[simp] theorem placeWrite_keepsRom (c : Cmd) (src n : Nat) (s : State) : Eff.KeepsRom s (placeWrite c src n s) := by
  simp [placeWrite]

@[simp] theorem State.setPromise_rom (i : Instr) (c : Cmd) (pr : Nat) (s : State) : (State.setPromise i c pr s).svc.rom = s.svc.rom := by
  simp [State.setPromise]

@[simp] theorem placeLoad_keepsRom (i : Instr) (c : Cmd) (y : Nat) (s : State) : Eff.KeepsRom s (placeLoad i c y s) := by
  simp [placeLoad]

@[simp] theorem execCpy_keepsRom (r : R) (s : State) : KeepsRom s (execCpy r s) :=
  issue_keepsRom (fun p => checked_keepsRom (by simp) (by dsimp only; split <;> simp))

@[simp] theorem execCpyst_keepsRom (r : R) (s : State) : KeepsRom s (execCpyst r s) :=
  issue_keepsRom (fun p => checked_keepsRom (by simp) (by dsimp only; split <;> simp))

@[simp] theorem execCpyl_keepsRom (r : R) (s : State) : KeepsRom s (execCpyl r s) :=
  issue_keepsRom (fun p => checked_keepsRom (by simp [ckLinear]) (by dsimp only; split <;> simp))

@[simp] theorem execCpylSt_keepsRom (r : R) (s : State) : KeepsRom s (execCpylSt r s) :=
  issue_keepsRom (fun p => checked_keepsRom (by simp [ckLinear]) (by dsimp only; split <;> simp))

@[simp] theorem execPfx_keepsRom (r : R) (s : State) : KeepsRom s (execPfx r s) :=
  issue_keepsRom (fun p => by simp)

@[simp] theorem execTflush_keepsRom (r : R) (s : State) : KeepsRom s (execTflush r s) :=
  issue_keepsRom (fun p => by simp)

@[simp] theorem keepList_keepsRom (l : Nat × Nat × Nat) (s : State) (e : Eff) : Eff.KeepsRom s (keepList l e) ↔ Eff.KeepsRom s e := by
  cases e <;> simp [keepList]

theorem Eff.KeepsRom.after {s t : State} {e : Eff} (h : Eff.KeepsRom t e) (ht : t.svc.rom = s.svc.rom) : Eff.KeepsRom s e := by
  cases e with
  | done u => exact Eq.trans h ht
  | jump u p => exact Eq.trans h ht
  | hold u => exact Eq.trans h ht
  | trap c x => trivial
  | poison x y => trivial

theorem Eff.KeepsRom.ite {c : Prop} [Decidable c] {s : State} {e e' : Eff} (h : Eff.KeepsRom s e) (h' : Eff.KeepsRom s e') :
    Eff.KeepsRom s (if c then e else e') := by
  split
  · exact h
  · exact h'

@[simp] theorem effRows_keepsRom {place : Cmd → Desc → State → Eff} (h : ∀ c d s, Eff.KeepsRom s (place c d s)) (k : CmdKind) (f : Nat) (r : R)
    (defined : Desc → Bool) (s : State) : Eff.KeepsRom s (effRows k f r defined place s) := by
  have placed (c : Cmd) (d : Desc) : Eff.KeepsRom s (place c d (s.modMe (fun a => { a with listRead := none }))) :=
    (h ..).after (by simp)
  unfold effRows
  refine checked_keepsRom ?_ (.ite (by simp) (.ite (by simp) ?_))
  · simp only [List.forall_mem_cons, List.not_mem_nil, false_imp_iff, implies_true, and_true]
    refine ⟨?_, ?_, ?_, ckWith_rom (fun d => ?_) _, ?_⟩
    case refine_4 => split <;> simp
    all_goals simp
  · split
    · simp
    next d _ =>
      extract_lets idx c go
      have gone : Eff.KeepsRom s go := by simp [go, placed]
      clear_value go
      split
      · exact .ite gone (by simp)
      · exact gone

@[simp] theorem execGath_keepsRom (r : R) (s : State) : KeepsRom s (execGath r s) :=
  issue_keepsRom (fun p => by simp)

@[simp] theorem execScat_keepsRom (r : R) (s : State) : KeepsRom s (execScat r s) :=
  issue_keepsRom (fun p => by simp)

@[simp] theorem execRed_keepsRom (r : R) (s : State) : KeepsRom s (execRed r s) :=
  issue_keepsRom (fun p => by simp)

@[simp] theorem execCodeld_keepsRom (r : R) (s : State) : KeepsRom s (execCodeld r s) :=
  issue_keepsRom (fun p => checked_keepsRom (by simp) (by
    dsimp only
    split
    · simp
    next e =>
      exact (accept_keepsRom (fun _ => by simp) _ _ _).after (State.translateAll_rom e)))

@[simp] theorem execPwin_keepsRom (r : R) (s : State) : KeepsRom s (execPwin r s) :=
  issue_keepsRom (fun p => by simp)

@[simp] theorem execPwret_keepsRom (r : R) (s : State) : KeepsRom s (execPwret r s) :=
  issue_keepsRom (fun p => by simp)

@[simp] theorem execCpyProg_keepsRom (r : R) (s : State) : KeepsRom s (execCpyProg r s) :=
  issue_keepsRom (fun p => checked_keepsRom (by simp) (accept_keepsRom (fun _ => by simp) _ _ _))

@[simp] theorem execFence_keepsRom (r : R) (s : State) : KeepsRom s (execFence r s) :=
  issue_keepsRom (fun p => by simp)

end Sys2Proof.Machine
end

section
/-! SUPPORT. The image that runs and the fused security version stay as they are: the operations of
Sys2Proof/Machine/Arbiters.lean. -/

namespace Sys2Proof.Machine

@[simp] theorem State.setShare_rom (a : Arbiter) (h : Share) (s : State) : (State.setShare a h s).svc.rom = s.svc.rom := by
  simp [State.setShare]

@[simp] theorem State.endTransits_rom (s : State) : (State.endTransits s).svc.rom = s.svc.rom := by
  simp [State.endTransits]

@[simp] theorem State.grant_rom (a : Arbiter) (r : Request) (b : Bool) (s : State) : (s.grant a r b).svc.rom = s.svc.rom := by
  obtain ⟨_, _, h⟩ := grant_frame a r b s
  rw [h]

@[simp] theorem State.grants_rom (rs : List Request) (s : State) : (s.grants rs).svc.rom = s.svc.rom := by
  obtain ⟨_, _, h⟩ := grants_frame rs s
  rw [h]

@[simp] theorem State.drawIssue_rom (a : Activity) (s : State) : (State.drawIssue a s).svc.rom = s.svc.rom := by
  simp [State.drawIssue]

end Sys2Proof.Machine
end

section
/-! SUPPORT. The image that runs and the fused security version stay as they are: the operations of
Sys2Proof/Machine/CopyQueue.lean. -/

namespace Sys2Proof.Machine

/-- A step of a command keeps the image and the fused version when what it does to the command does. -/
@[simp] theorem State.onCmd_rom {f : Cmd → State → State} (h : ∀ c s, (f c s).svc.rom = s.svc.rom) (id : Nat) (s : State) :
    (s.onCmd id f).svc.rom = s.svc.rom := by
  unfold State.onCmd
  split
  · rfl
  · simp [h]

@[simp] theorem State.putCmd_rom (c : Cmd) (s : State) : (State.putCmd c s).svc.rom = s.svc.rom := by
  simp [State.putCmd]

@[simp] theorem State.send_rom (k : MsgKind) (due : Nat) (s : State) : (State.send k due s).svc.rom = s.svc.rom := by
  simp [State.send]

@[simp] theorem State.writeThrough_rom (s : State) : (State.writeThrough s).svc.rom = s.svc.rom := by
  simp [State.writeThrough]

@[simp] theorem State.returnWindow_rom (w : Nat) (s : State) : (State.returnWindow w s).svc.rom = s.svc.rom := by
  unfold State.returnWindow
  repeat' split
  all_goals simp

@[simp] theorem execCopyStart_keepsRom (cmd : Nat) (s : State) : KeepsRom s (execCopyStart cmd s) :=
  (keepsRom_next _ _).2 (State.onCmd_rom (fun c s => by
    dsimp only
    split
    · rfl
    · split <;> simp) cmd s)

@[simp] theorem State.fillReplica_rom (vd : Nat) (k : LineKey) (slice : Nat) (s : State) :
    (State.fillReplica vd k slice s).svc.rom = s.svc.rom := by
  unfold State.fillReplica
  repeat' split
  all_goals simp

@[simp] theorem execLineFill_keepsRom (cmd unit : Nat) (replica : Bool) (s : State) : KeepsRom s (execLineFill cmd unit replica s) :=
  (keepsRom_next _ _).2 (State.onCmd_rom (fun c s => by
    dsimp only
    split; · rfl
    split
    · simp
    split; · rfl
    refine (State.putCmd_rom ..).trans (foldl_rom (fun s k => ?_) _ s)
    split <;> simp) cmd s)

@[simp] theorem execPageWalk_keepsRom (cmd : Nat) (s : State) : KeepsRom s (execPageWalk cmd s) :=
  (keepsRom_next _ _).2 (State.onCmd_rom (fun c s => by
    dsimp only
    split; · rfl
    split; · simp
    split; · rfl
    split <;> simp) cmd s)

@[simp] theorem execDescriptorRead_keepsRom (uid : Nat) (s : State) : KeepsRom s (execDescriptorRead uid s) := by
  unfold execDescriptorRead
  repeat' split
  all_goals simp

@[simp] theorem State.asModule_rom (m : BitVec 9) (s : State) : (s.asModule m).svc.rom = s.svc.rom := rfl

@[simp] theorem State.countServed_rom (c : Cmd) (ks : List LineKey) (s : State) : (State.countServed c ks s).svc.rom = s.svc.rom := by
  simp [State.countServed]

@[simp] theorem State.landCells_rom (uid : Nat) (cells : List (Nat × Option Byte)) (s : State) :
    (State.landCells uid cells s).svc.rom = s.svc.rom := by
  simp [State.landCells]

@[simp] theorem State.landWhole_rom (c : Cmd) (cells : List (Nat × Option Byte)) (s : State) :
    (State.landWhole c cells s).1.svc.rom = s.svc.rom := by
  unfold State.landWhole
  split <;> simp

@[simp] theorem State.acquire_rom (c : Cmd) (xs : List (Nat × Src)) (s : State) : (State.acquire c xs s).svc.rom = s.svc.rom := by
  unfold State.acquire
  repeat' split
  all_goals simp

@[simp] theorem State.landBeat_rom (cmd u : Nat) (s : State) : (s.landBeat cmd u).svc.rom = s.svc.rom :=
  State.onCmd_rom (fun c s => by
    dsimp only
    split
    · rfl
    · simp) cmd s

@[simp] theorem State.landUnit_rom (c : Cmd) (u : Nat) (refuse : Nat → Bool) (s : State) : (State.landUnit c u refuse s).svc.rom = s.svc.rom := by
  unfold State.landUnit
  split <;> simp

@[simp] theorem State.landBatch_rom (c : Cmd) (u : Nat) (refuse : Nat → Bool) (s : State) : (State.landBatch c u refuse s).svc.rom = s.svc.rom := by
  simp [State.landBatch]

@[simp] theorem State.writeOut_rom (vd : Nat) (xs : List OutByte) (s : State) : (s.writeOut vd xs).svc.rom = s.svc.rom :=
  foldl_rom (fun s k => by dsimp only; split <;> simp) _ s

@[simp] theorem State.redOut_rom (c : Cmd) (t : Target) (n fuel : Nat) (out : List (Except Nat (Src × OutByte))) (e : Nat) (s : State) :
    (s.redOut c t n fuel out e).1.svc.rom = s.svc.rom := by
  fun_induction State.redOut <;> simp_all

@[simp] theorem State.performUnit_rom (c : Cmd) (u : Nat) (refuse : Nat → Bool) (s : State) :
    (State.performUnit c u refuse s).1.svc.rom = s.svc.rom := by
  unfold State.performUnit
  repeat' split
  all_goals simp

@[simp] theorem State.endWrite_rom (c : Cmd) (s : State) : (State.endWrite c s).svc.rom = s.svc.rom := by
  simp [State.endWrite]

@[simp] theorem State.noteRelease_rom (c : Cmd) (u : Nat) (s : State) : (State.noteRelease c u s).svc.rom = s.svc.rom := by
  unfold State.noteRelease
  split <;> simp

/-- The same for a fold that carries a value beside the state. -/
theorem foldl_fst_rom {α β : Type} {f : State × β → α → State × β} (h : ∀ p x, (f p x).1.svc.rom = p.1.svc.rom) (l : List α) (p : State × β) :
    (l.foldl f p).1.svc.rom = p.1.svc.rom := by
  induction l generalizing p with
  | nil => rfl
  | cons x l ih => exact (ih _).trans (h p x)

@[simp] theorem State.performUnits_rom (c : Cmd) (us : List Nat) (refuse : Nat → Bool) (s : State) :
    (s.performUnits c us refuse).1.svc.rom = s.svc.rom := foldl_fst_rom (fun p u => by simp) us _

@[simp] theorem State.performNext_rom (c : Cmd) (u : Nat) (refuse : Nat → Bool) (s : State) :
    (State.performNext c u refuse s).svc.rom = s.svc.rom := by
  simp [State.performNext]

@[simp] theorem execJournalAck_keepsRom (agent : Agent) (entry : Nat) (s : State) : KeepsRom s (execJournalAck agent entry s) := by
  unfold execJournalAck
  repeat' split
  all_goals simp

@[simp] theorem execMissedPromise_keepsRom (cmd : Nat) (s : State) : KeepsRom s (execMissedPromise cmd s) := by
  unfold execMissedPromise
  split <;> simp

end Sys2Proof.Machine
end

section
/-! SUPPORT. The image that runs and the fused security version stay as they are: the operations of
Sys2Proof/Machine/Vector.lean. -/

namespace Sys2Proof.Machine

@[simp] theorem State.draw_rom (rs : Bool) (n : Nat) (s : State) : (State.draw rs n s).1.svc.rom = s.svc.rom := by
  unfold State.draw
  split <;> simp

@[simp] theorem effElems_keepsRom (i : Instr) (r : R) (rs : Bool) (op : Activity → Nat → Nat → Nat) (s : State) :
    Eff.KeepsRom s (effElems i r rs op s) := by
  simp [effElems]

@[simp] theorem effArith_keepsRom (i : Instr) (r : R) (op : ElemOp) (s : State) : Eff.KeepsRom s (effArith i r op s) := by
  simp [effArith]

@[simp] theorem effPlain_keepsRom (i : Instr) (r : R) (op : ElemOp) (s : State) : Eff.KeepsRom s (effPlain i r op s) := by
  simp [effPlain]

@[simp] theorem effCompare_keepsRom (i : Instr) (r : R) (cond : Nat → Nat → Bool) (s : State) : Eff.KeepsRom s (effCompare i r cond s) := by
  simp [effCompare]

@[simp] theorem effMask_keepsRom (i : Instr) (r : R) (f : Mask → Mask → Mask) (s : State) : Eff.KeepsRom s (effMask i r f s) := by
  simp [effMask]

@[simp] theorem effReduce_keepsRom (i : Instr) (r : R) (rs : Bool) (ident : Nat) (op : ElemOp) (s : State) :
    Eff.KeepsRom s (effReduce i r rs ident op s) := by
  simp [effReduce]

@[simp] theorem execVadd_keepsRom (r : R) (s : State) : KeepsRom s (execVadd r s) :=
  issue_keepsRom (fun p => by simp)

@[simp] theorem execVsub_keepsRom (r : R) (s : State) : KeepsRom s (execVsub r s) :=
  issue_keepsRom (fun p => by simp)

@[simp] theorem execVmul_keepsRom (r : R) (s : State) : KeepsRom s (execVmul r s) :=
  issue_keepsRom (fun p => by simp)

@[simp] theorem execVfma_keepsRom (r : R) (s : State) : KeepsRom s (execVfma r s) :=
  issue_keepsRom (fun p => by simp)

@[simp] theorem execVfms_keepsRom (r : R) (s : State) : KeepsRom s (execVfms r s) :=
  issue_keepsRom (fun p => by simp)

@[simp] theorem execVfnma_keepsRom (r : R) (s : State) : KeepsRom s (execVfnma r s) :=
  issue_keepsRom (fun p => by simp)

@[simp] theorem execVmin_keepsRom (r : R) (s : State) : KeepsRom s (execVmin r s) :=
  issue_keepsRom (fun p => by simp)

@[simp] theorem execVmax_keepsRom (r : R) (s : State) : KeepsRom s (execVmax r s) :=
  issue_keepsRom (fun p => by simp)

@[simp] theorem execVminu_keepsRom (r : R) (s : State) : KeepsRom s (execVminu r s) :=
  issue_keepsRom (fun p => by simp)

@[simp] theorem execVmaxu_keepsRom (r : R) (s : State) : KeepsRom s (execVmaxu r s) :=
  issue_keepsRom (fun p => by simp)

@[simp] theorem execVabs_keepsRom (r : R) (s : State) : KeepsRom s (execVabs r s) :=
  issue_keepsRom (fun p => by simp)

@[simp] theorem execVneg_keepsRom (r : R) (s : State) : KeepsRom s (execVneg r s) :=
  issue_keepsRom (fun p => by simp)

@[simp] theorem execVand_keepsRom (r : R) (s : State) : KeepsRom s (execVand r s) :=
  issue_keepsRom (fun p => by simp)

@[simp] theorem execVor_keepsRom (r : R) (s : State) : KeepsRom s (execVor r s) :=
  issue_keepsRom (fun p => by simp)

@[simp] theorem execVxor_keepsRom (r : R) (s : State) : KeepsRom s (execVxor r s) :=
  issue_keepsRom (fun p => by simp)

@[simp] theorem execVandn_keepsRom (r : R) (s : State) : KeepsRom s (execVandn r s) :=
  issue_keepsRom (fun p => by simp)

@[simp] theorem execVshl_keepsRom (r : R) (s : State) : KeepsRom s (execVshl r s) :=
  issue_keepsRom (fun p => by simp)

@[simp] theorem execVshr_keepsRom (r : R) (s : State) : KeepsRom s (execVshr r s) :=
  issue_keepsRom (fun p => by simp)

@[simp] theorem execVsar_keepsRom (r : R) (s : State) : KeepsRom s (execVsar r s) :=
  issue_keepsRom (fun p => by simp)

@[simp] theorem execVsel_keepsRom (r : R) (s : State) : KeepsRom s (execVsel r s) :=
  issue_keepsRom (fun p => by simp)

@[simp] theorem execVceq_keepsRom (r : R) (s : State) : KeepsRom s (execVceq r s) :=
  issue_keepsRom (fun p => by simp)

@[simp] theorem execVclt_keepsRom (r : R) (s : State) : KeepsRom s (execVclt r s) :=
  issue_keepsRom (fun p => by simp)

@[simp] theorem execVcle_keepsRom (r : R) (s : State) : KeepsRom s (execVcle r s) :=
  issue_keepsRom (fun p => by simp)

@[simp] theorem execVcun_keepsRom (r : R) (s : State) : KeepsRom s (execVcun r s) :=
  issue_keepsRom (fun p => by simp)

@[simp] theorem execVcltu_keepsRom (r : R) (s : State) : KeepsRom s (execVcltu r s) :=
  issue_keepsRom (fun p => by simp)

@[simp] theorem execKand_keepsRom (r : R) (s : State) : KeepsRom s (execKand r s) :=
  issue_keepsRom (fun p => by simp)

@[simp] theorem execKor_keepsRom (r : R) (s : State) : KeepsRom s (execKor r s) :=
  issue_keepsRom (fun p => by simp)

@[simp] theorem execKxor_keepsRom (r : R) (s : State) : KeepsRom s (execKxor r s) :=
  issue_keepsRom (fun p => by simp)

@[simp] theorem execKandn_keepsRom (r : R) (s : State) : KeepsRom s (execKandn r s) :=
  issue_keepsRom (fun p => by simp)

@[simp] theorem execKpopc_keepsRom (r : R) (s : State) : KeepsRom s (execKpopc r s) :=
  issue_keepsRom (fun p => by simp)

@[simp] theorem execKfirst_keepsRom (r : R) (s : State) : KeepsRom s (execKfirst r s) :=
  issue_keepsRom (fun p => by simp)

@[simp] theorem execKset_keepsRom (r : R) (s : State) : KeepsRom s (execKset r s) :=
  issue_keepsRom (fun p => by simp)

@[simp] theorem execKget_keepsRom (r : R) (s : State) : KeepsRom s (execKget r s) :=
  issue_keepsRom (fun p => by simp)

@[simp] theorem execVbcast_keepsRom (r : R) (s : State) : KeepsRom s (execVbcast r s) :=
  issue_keepsRom (fun p => by simp)

@[simp] theorem execVext_keepsRom (r : R) (s : State) : KeepsRom s (execVext r s) :=
  issue_keepsRom (fun p => by simp)

@[simp] theorem execVins_keepsRom (r : R) (s : State) : KeepsRom s (execVins r s) :=
  issue_keepsRom (fun p => by simp)

@[simp] theorem execVidx_keepsRom (r : R) (s : State) : KeepsRom s (execVidx r s) :=
  issue_keepsRom (fun p => by simp)

@[simp] theorem execVperm_keepsRom (r : R) (s : State) : KeepsRom s (execVperm r s) :=
  issue_keepsRom (fun p => by simp)

@[simp] theorem execVrot_keepsRom (r : R) (s : State) : KeepsRom s (execVrot r s) :=
  issue_keepsRom (fun p => by simp)

@[simp] theorem execVcmpr_keepsRom (r : R) (s : State) : KeepsRom s (execVcmpr r s) :=
  issue_keepsRom (fun p => by simp)

@[simp] theorem execVrsum_keepsRom (r : R) (s : State) : KeepsRom s (execVrsum r s) :=
  issue_keepsRom (fun p => by simp)

@[simp] theorem execVrmax_keepsRom (r : R) (s : State) : KeepsRom s (execVrmax r s) :=
  issue_keepsRom (fun p => by simp)

@[simp] theorem execVrmin_keepsRom (r : R) (s : State) : KeepsRom s (execVrmin r s) :=
  issue_keepsRom (fun p => by simp)

@[simp] theorem execVrcp_keepsRom (r : R) (s : State) : KeepsRom s (execVrcp r s) :=
  issue_keepsRom (fun p => by simp)

@[simp] theorem execVrsqrt_keepsRom (r : R) (s : State) : KeepsRom s (execVrsqrt r s) :=
  issue_keepsRom (fun p => by simp)

@[simp] theorem execVexp2_keepsRom (r : R) (s : State) : KeepsRom s (execVexp2 r s) :=
  issue_keepsRom (fun p => by simp)

@[simp] theorem execVlog2_keepsRom (r : R) (s : State) : KeepsRom s (execVlog2 r s) :=
  issue_keepsRom (fun p => by simp)

@[simp] theorem execVsqrt_keepsRom (r : R) (s : State) : KeepsRom s (execVsqrt r s) :=
  issue_keepsRom (fun p => by simp)

@[simp] theorem effVcvt_keepsRom (r : R) (s : State) : Eff.KeepsRom s (effVcvt r s) := by
  simp [effVcvt]

@[simp] theorem execVcvt_keepsRom (r : R) (s : State) : KeepsRom s (execVcvt r s) :=
  issue_keepsRom (fun p => by simp)

@[simp] theorem effVqnt_keepsRom (r : R) (s : State) : Eff.KeepsRom s (effVqnt r s) := by
  simp [effVqnt]

@[simp] theorem execVqnt_keepsRom (r : R) (s : State) : KeepsRom s (execVqnt r s) :=
  issue_keepsRom (fun p => by simp)

@[simp] theorem effVdqnt_keepsRom (r : R) (s : State) : Eff.KeepsRom s (effVdqnt r s) := by
  simp [effVdqnt]

@[simp] theorem execVdqnt_keepsRom (r : R) (s : State) : KeepsRom s (execVdqnt r s) :=
  issue_keepsRom (fun p => by simp)

end Sys2Proof.Machine
end

section
/-! SUPPORT. The image that runs and the fused security version stay as they are: the operations of
Sys2Proof/Machine/Matrix.lean. -/

namespace Sys2Proof.Machine

@[simp] theorem State.storeRun_rom (vd pa n : Nat) (bs : List Byte) (s : State) : (State.storeRun vd pa n bs s).svc.rom = s.svc.rom := by
  fun_induction State.storeRun <;> simp_all

@[simp] theorem State.keepBlocks_rom (port : Option (Agent × Bool)) (vd : Nat) (blocks : List Nat) (s : State) :
    (State.keepBlocks port vd blocks s).svc.rom = s.svc.rom := by
  unfold State.keepBlocks
  split <;> simp

@[simp] theorem State.poolWrite_rom (port : Option (Agent × Bool)) (vd : Nat) (blocks : List Nat) (bs : List Byte) (s : State) :
    (State.poolWrite port vd blocks bs s).svc.rom = s.svc.rom := by
  fun_induction State.poolWrite <;> simp_all

@[simp] theorem State.spillRoom_whenRom (uid : Nat) (s : State) : WhenRom s (State.spillRoom uid s) := by
  unfold State.spillRoom
  split <;> simp

@[simp] theorem State.writeDirectory_rom (uid : Nat) (s : State) : (State.writeDirectory uid s).svc.rom = s.svc.rom := by
  unfold State.writeDirectory
  split <;> simp

@[simp] theorem State.spillAccs_whenRom (uid : Nat) (s : State) : WhenRom s (s.spillAccs uid) :=
  WhenRom.map (State.spillRoom_whenRom uid s) (fun t => by dsimp only; split <;> simp)

@[simp] theorem State.refillAccs_rom (s : State) : (State.refillAccs s).svc.rom = s.svc.rom := by
  simp [State.refillAccs]

@[simp] theorem State.needBank_whenRom (s : State) : WhenRom s s.needBank := by
  unfold State.needBank
  split; · simp
  dsimp only
  split; · simp
  split
  · simp
  · exact (State.spillAccs_whenRom _ s).map State.refillAccs_rom

@[simp] theorem State.spillTile_whenRom (uid n : Nat) (s : State) : WhenRom s (s.spillTile uid n) :=
  WhenRom.map (State.spillRoom_whenRom uid s) (fun t => by dsimp only; split <;> simp)

@[simp] theorem State.tileRoom_whenRom (s : State) : WhenRom s s.tileRoom := by
  unfold State.tileRoom
  dsimp only
  split; · simp
  split <;> simp

@[simp] theorem State.needTile_whenRom (n : Nat) (write : Bool) (s : State) : WhenRom s (s.needTile n write) := by
  unfold State.needTile
  split; · simp
  split
  · exact (State.tileRoom_whenRom s).map (fun t => by simp)
  split
  · exact (State.tileRoom_whenRom s).map (fun t => by simp)
  · simp

@[simp] theorem State.needTiles_whenRom (c : MatCmd) (s : State) : WhenRom s (s.needTiles c) := by
  have reads := WhenRom.foldl (State.needTile_whenRom · false) c.tileReads ((whenRom_some s s).2 rfl)
  unfold State.needTiles
  dsimp only
  split
  · exact reads
  · exact WhenRom.foldl (State.needTile_whenRom · true) _ reads

@[simp] theorem ckShape_rom (s t : State) (f : Nat) (write : Bool) (y : Nat) (h : Option Shape) : CheckedRom s (ckShape f write y h t) := by
  cases h <;> simp [ckShape]

@[simp] theorem acceptMat_keepsRom {f : State → State} (h : ∀ s, (f s).svc.rom = s.svc.rom) (c : MatCmd) (write : Bool) (s : State) :
    Eff.KeepsRom s (acceptMat c write f s) := by
  have taint : WhenRom s (if c.len ≠ 0 && !write then s.readTaint c.y c.len else some s) := by simp
  unfold acceptMat
  split; · simp
  split; · simp
  split
  · simp
  next t e => simp [h, taint t e]

@[simp] theorem execTld_keepsRom (r : R) (s : State) : KeepsRom s (execTld r s) :=
  issue_keepsRom (fun p => by simp)

@[simp] theorem execTst_keepsRom (r : R) (s : State) : KeepsRom s (execTst r s) :=
  issue_keepsRom (fun p => by simp)

@[simp] theorem execTzero_keepsRom (r : R) (s : State) : KeepsRom s (execTzero r s) :=
  issue_keepsRom (fun p => by simp)

@[simp] theorem execTmov_keepsRom (r : R) (s : State) : KeepsRom s (execTmov r s) :=
  issue_keepsRom (fun p => checked_keepsRom (by simp) (acceptMat_keepsRom (fun _ => by simp) ..))

@[simp] theorem State.drawAhead_rom (rs : Bool) (n : Nat) (s : State) : (State.drawAhead rs n s).svc.rom = s.svc.rom := by
  simp [State.drawAhead]

@[simp] theorem execTcvt_keepsRom (r : R) (s : State) : KeepsRom s (execTcvt r s) :=
  issue_keepsRom (fun p => by simp)

@[simp] theorem execTfree_keepsRom (r : R) (s : State) : KeepsRom s (execTfree r s) :=
  issue_keepsRom (fun p => by simp)

@[simp] theorem execMma_keepsRom (r : R) (s : State) : KeepsRom s (execMma r s) :=
  issue_keepsRom (fun p => checked_keepsRom (by simp; split <;> simp) (by simp))

@[simp] theorem execAccrd_keepsRom (r : R) (s : State) : KeepsRom s (execAccrd r s) :=
  issue_keepsRom (fun p => by simp)

@[simp] theorem execAccst_keepsRom (r : R) (s : State) : KeepsRom s (execAccst r s) :=
  issue_keepsRom (fun p => by simp)

@[simp] theorem execAzero_keepsRom (r : R) (s : State) : KeepsRom s (execAzero r s) :=
  issue_keepsRom (fun p => by simp)

@[simp] theorem execAfree_keepsRom (r : R) (s : State) : KeepsRom s (execAfree r s) :=
  issue_keepsRom (fun p => by simp)

@[simp] theorem State.putMat_rom (c : MatCmd) (s : State) : (State.putMat c s).svc.rom = s.svc.rom := by
  simp [State.putMat]

@[simp] theorem State.endMat_rom (c : MatCmd) (s : State) : (State.endMat c s).svc.rom = s.svc.rom := by
  simp [State.endMat]

@[simp] theorem State.beginStep_rom (c : MatCmd) (s : State) : (State.beginStep c s).svc.rom = s.svc.rom := by
  simp [State.beginStep]

@[simp] theorem State.matTaint_whenRom (c : MatCmd) (s : State) : WhenRom s (State.matTaint c s) := by
  simp [State.matTaint]

@[simp] theorem State.readyMat_whenRom (c : MatCmd) (s : State) : WhenRom s (s.readyMat c) := by
  have ready := (State.needTiles_whenRom c s).bind (State.matTaint_whenRom c)
  unfold State.readyMat
  split
  · simp
  · dsimp only
    have banked := ready.bind State.needBank_whenRom
    cases c.kind <;> assumption

@[simp] theorem State.beginMat_rom (c : MatCmd) (s : State) : (s.beginMat c).svc.rom = s.svc.rom := by
  unfold State.beginMat
  dsimp only
  split <;> simp

@[simp] theorem State.startMat_whenRom (c : MatCmd) (s : State) : WhenRom s (s.startMat c) :=
  (State.readyMat_whenRom c s).map (State.beginMat_rom c)

@[simp] theorem State.whenReady_rom {f : State → State} (h : ∀ s, (f s).svc.rom = s.svc.rom) (c : MatCmd) (s : State) :
    (s.whenReady c f).svc.rom = s.svc.rom := by
  unfold State.whenReady
  split
  · rfl
  next t e => simp [h, State.readyMat_whenRom c s t e]

@[simp] theorem State.tryStart_rom (c : MatCmd) (s : State) : (State.tryStart c s).svc.rom = s.svc.rom := by
  simp [State.tryStart]

@[simp] theorem State.onMat_rom {f : MatCmd → State → State} (h : ∀ c s, (f c s).svc.rom = s.svc.rom) (id : Nat) (s : State) :
    (s.onMat id f).svc.rom = s.svc.rom := by
  unfold State.onMat
  split
  · rfl
  · simp [h]

@[simp] theorem execMmaStart_keepsRom (cmd : Nat) (s : State) : KeepsRom s (execMmaStart cmd s) := by
  simp [execMmaStart]

@[simp] theorem State.applyStep_rom (c : MatCmd) (s : State) : (State.applyStep c s).svc.rom = s.svc.rom := by
  unfold State.applyStep
  split <;> simp

@[simp] theorem execKstepEnd_keepsRom (cmd : Nat) (s : State) : KeepsRom s (execKstepEnd cmd s) :=
  (keepsRom_next _ _).2 (State.onMat_rom (fun c s => by
    have ready := ((State.needBank_whenRom s).bind (State.needTiles_whenRom c)).bind (State.matTaint_whenRom c)
    split; · rfl
    split
    · rfl
    next t e => simp [ready t e]) cmd s)

@[simp] theorem State.writePoison_rom (y : Nat) (bs : List Byte) (bad : Bool) (s : State) : (State.writePoison y bs bad s).svc.rom = s.svc.rom := by
  simp [State.writePoison]

@[simp] theorem State.setTile_rom (n : Nat) (t : Tile) (s : State) : (State.setTile n t s).svc.rom = s.svc.rom := by
  simp [State.setTile]

@[simp] theorem State.accRead_rom (c : MatCmd) (s : State) : (State.accRead c s).svc.rom = s.svc.rom := by
  simp [State.accRead]

@[simp] theorem State.portEffect_rom (c : MatCmd) (s : State) : (State.portEffect c s).svc.rom = s.svc.rom := by
  unfold State.portEffect
  repeat' split
  all_goals simp

@[simp] theorem execTilePortComplete_keepsRom (cmd : Nat) (s : State) : KeepsRom s (execTilePortComplete cmd s) :=
  (keepsRom_next _ _).2 (State.onMat_rom (fun c s => by
    split
    · rfl
    · simp
    · simp
    · split; · rfl
      split
      · rfl
      next t e =>
        have ready : t.svc.rom = s.svc.rom := by
          refine ((WhenRom.bind ?_ (State.needTiles_whenRom c)).bind (State.matTaint_whenRom c)) t e
          simp
        simp [ready]) cmd s)

end Sys2Proof.Machine
end

section
/-! SUPPORT. The image that runs and the fused security version stay as they are: the operations of
Sys2Proof/Machine/Scalar.lean. -/

namespace Sys2Proof.Machine

@[simp] theorem effBinary_keepsRom (i : Instr) (r : R) (f : Word → Word → Word) (s : State) : Eff.KeepsRom s (effBinary i r f s) := by
  simp [effBinary]

@[simp] theorem effUnary_keepsRom (i : Instr) (r : R) (f : Word → Word) (s : State) : Eff.KeepsRom s (effUnary i r f s) := by
  simp [effUnary]

@[simp] theorem effImm_keepsRom (i : Instr) (d a : BitVec 6) (imm : BitVec 8) (f : Word → Word → Word) (s : State) :
    Eff.KeepsRom s (effImm i d a imm f s) := by
  simp [effImm]

@[simp] theorem effDivide_keepsRom (r : R) (f : Word → Word → Word) (s : State) : Eff.KeepsRom s (effDivide r f s) := by
  simp [effDivide]

@[simp] theorem execAdd_keepsRom (r : R) (s : State) : KeepsRom s (execAdd r s) :=
  issue_keepsRom (fun p => by simp)

@[simp] theorem execSub_keepsRom (r : R) (s : State) : KeepsRom s (execSub r s) :=
  issue_keepsRom (fun p => by simp)

@[simp] theorem execAdds_keepsRom (r : R) (s : State) : KeepsRom s (execAdds r s) :=
  issue_keepsRom (fun p => by simp)

@[simp] theorem execSubs_keepsRom (r : R) (s : State) : KeepsRom s (execSubs r s) :=
  issue_keepsRom (fun p => by simp)

@[simp] theorem execAnd_keepsRom (r : R) (s : State) : KeepsRom s (execAnd r s) :=
  issue_keepsRom (fun p => by simp)

@[simp] theorem execOr_keepsRom (r : R) (s : State) : KeepsRom s (execOr r s) :=
  issue_keepsRom (fun p => by simp)

@[simp] theorem execXor_keepsRom (r : R) (s : State) : KeepsRom s (execXor r s) :=
  issue_keepsRom (fun p => by simp)

@[simp] theorem execAndn_keepsRom (r : R) (s : State) : KeepsRom s (execAndn r s) :=
  issue_keepsRom (fun p => by simp)

@[simp] theorem execShl_keepsRom (r : R) (s : State) : KeepsRom s (execShl r s) :=
  issue_keepsRom (fun p => by simp)

@[simp] theorem execShr_keepsRom (r : R) (s : State) : KeepsRom s (execShr r s) :=
  issue_keepsRom (fun p => by simp)

@[simp] theorem execSar_keepsRom (r : R) (s : State) : KeepsRom s (execSar r s) :=
  issue_keepsRom (fun p => by simp)

@[simp] theorem execRor_keepsRom (r : R) (s : State) : KeepsRom s (execRor r s) :=
  issue_keepsRom (fun p => by simp)

@[simp] theorem execMul_keepsRom (r : R) (s : State) : KeepsRom s (execMul r s) :=
  issue_keepsRom (fun p => by simp)

@[simp] theorem execMulh_keepsRom (r : R) (s : State) : KeepsRom s (execMulh r s) :=
  issue_keepsRom (fun p => by simp)

@[simp] theorem execMulhu_keepsRom (r : R) (s : State) : KeepsRom s (execMulhu r s) :=
  issue_keepsRom (fun p => by simp)

@[simp] theorem execCeq_keepsRom (r : R) (s : State) : KeepsRom s (execCeq r s) :=
  issue_keepsRom (fun p => by simp)

@[simp] theorem execCne_keepsRom (r : R) (s : State) : KeepsRom s (execCne r s) :=
  issue_keepsRom (fun p => by simp)

@[simp] theorem execClt_keepsRom (r : R) (s : State) : KeepsRom s (execClt r s) :=
  issue_keepsRom (fun p => by simp)

@[simp] theorem execCltu_keepsRom (r : R) (s : State) : KeepsRom s (execCltu r s) :=
  issue_keepsRom (fun p => by simp)

@[simp] theorem execMin_keepsRom (r : R) (s : State) : KeepsRom s (execMin r s) :=
  issue_keepsRom (fun p => by simp)

@[simp] theorem execMax_keepsRom (r : R) (s : State) : KeepsRom s (execMax r s) :=
  issue_keepsRom (fun p => by simp)

@[simp] theorem execMinu_keepsRom (r : R) (s : State) : KeepsRom s (execMinu r s) :=
  issue_keepsRom (fun p => by simp)

@[simp] theorem execMaxu_keepsRom (r : R) (s : State) : KeepsRom s (execMaxu r s) :=
  issue_keepsRom (fun p => by simp)

@[simp] theorem execAdx2_keepsRom (r : R) (s : State) : KeepsRom s (execAdx2 r s) :=
  issue_keepsRom (fun p => by simp)

@[simp] theorem execAdx4_keepsRom (r : R) (s : State) : KeepsRom s (execAdx4 r s) :=
  issue_keepsRom (fun p => by simp)

@[simp] theorem execAdx8_keepsRom (r : R) (s : State) : KeepsRom s (execAdx8 r s) :=
  issue_keepsRom (fun p => by simp)

@[simp] theorem execAdx16_keepsRom (r : R) (s : State) : KeepsRom s (execAdx16 r s) :=
  issue_keepsRom (fun p => by simp)

@[simp] theorem execDiv_keepsRom (r : R) (s : State) : KeepsRom s (execDiv r s) :=
  issue_keepsRom (fun p => by simp)

@[simp] theorem execDivu_keepsRom (r : R) (s : State) : KeepsRom s (execDivu r s) :=
  issue_keepsRom (fun p => by simp)

@[simp] theorem execRem_keepsRom (r : R) (s : State) : KeepsRom s (execRem r s) :=
  issue_keepsRom (fun p => by simp)

@[simp] theorem execRemu_keepsRom (r : R) (s : State) : KeepsRom s (execRemu r s) :=
  issue_keepsRom (fun p => by simp)

@[simp] theorem execBfxu_keepsRom (r : R) (s : State) : KeepsRom s (execBfxu r s) :=
  issue_keepsRom (fun p => by simp)

@[simp] theorem execBfxs_keepsRom (r : R) (s : State) : KeepsRom s (execBfxs r s) :=
  issue_keepsRom (fun p => by simp)

@[simp] theorem execClz_keepsRom (r : R) (s : State) : KeepsRom s (execClz r s) :=
  issue_keepsRom (fun p => by simp)

@[simp] theorem execCtz_keepsRom (r : R) (s : State) : KeepsRom s (execCtz r s) :=
  issue_keepsRom (fun p => by simp)

@[simp] theorem execPopc_keepsRom (r : R) (s : State) : KeepsRom s (execPopc r s) :=
  issue_keepsRom (fun p => by simp)

@[simp] theorem execBswap_keepsRom (r : R) (s : State) : KeepsRom s (execBswap r s) :=
  issue_keepsRom (fun p => by simp)

@[simp] theorem execAddi_keepsRom (stl : BitVec 3) (d a : BitVec 6) (imm : BitVec 8) (s : State) : KeepsRom s (execAddi stl d a imm s) :=
  issue_keepsRom (fun p => by simp)

@[simp] theorem execAndi_keepsRom (stl : BitVec 3) (d a : BitVec 6) (imm : BitVec 8) (s : State) : KeepsRom s (execAndi stl d a imm s) :=
  issue_keepsRom (fun p => by simp)

@[simp] theorem execOri_keepsRom (stl : BitVec 3) (d a : BitVec 6) (imm : BitVec 8) (s : State) : KeepsRom s (execOri stl d a imm s) :=
  issue_keepsRom (fun p => by simp)

@[simp] theorem execXori_keepsRom (stl : BitVec 3) (d a : BitVec 6) (imm : BitVec 8) (s : State) : KeepsRom s (execXori stl d a imm s) :=
  issue_keepsRom (fun p => by simp)

@[simp] theorem execShli_keepsRom (stl : BitVec 3) (d a : BitVec 6) (imm : BitVec 8) (s : State) : KeepsRom s (execShli stl d a imm s) :=
  issue_keepsRom (fun p => by simp)

@[simp] theorem execShri_keepsRom (stl : BitVec 3) (d a : BitVec 6) (imm : BitVec 8) (s : State) : KeepsRom s (execShri stl d a imm s) :=
  issue_keepsRom (fun p => by simp)

@[simp] theorem execSari_keepsRom (stl : BitVec 3) (d a : BitVec 6) (imm : BitVec 8) (s : State) : KeepsRom s (execSari stl d a imm s) :=
  issue_keepsRom (fun p => by simp)

@[simp] theorem execCeqi_keepsRom (stl : BitVec 3) (d a : BitVec 6) (imm : BitVec 8) (s : State) : KeepsRom s (execCeqi stl d a imm s) :=
  issue_keepsRom (fun p => by simp)

@[simp] theorem execClti_keepsRom (stl : BitVec 3) (d a : BitVec 6) (imm : BitVec 8) (s : State) : KeepsRom s (execClti stl d a imm s) :=
  issue_keepsRom (fun p => by simp)

@[simp] theorem execCltui_keepsRom (stl : BitVec 3) (d a : BitVec 6) (imm : BitVec 8) (s : State) : KeepsRom s (execCltui stl d a imm s) :=
  issue_keepsRom (fun p => by simp)

@[simp] theorem execBfi_keepsRom (r : R) (s : State) : KeepsRom s (execBfi r s) :=
  issue_keepsRom (fun p => by simp)

@[simp] theorem execSel_keepsRom (r : R) (s : State) : KeepsRom s (execSel r s) :=
  issue_keepsRom (fun p => by simp)

end Sys2Proof.Machine
end

section
/-! SUPPORT. The image that runs and the fused security version stay as they are: the operations of
Sys2Proof/Machine/Start.lean. -/

namespace Sys2Proof.Machine

@[simp] theorem State.place_rom (a : Activity) (regs : List (Nat × Word)) (s : State) : (State.place a regs s).svc.rom = s.svc.rom := by
  simp [State.place]

@[simp] theorem State.vacate_rom (s : State) : (State.vacate s).svc.rom = s.svc.rom := by
  simp [State.vacate]

end Sys2Proof.Machine
end

section
/-! SUPPORT. The image that runs and the fused security version stay as they are: the operations of
Sys2Proof/Machine/System.lean. -/

namespace Sys2Proof.Machine

@[simp] theorem execMfs_keepsRom (r : R) (s : State) : KeepsRom s (execMfs r s) :=
  issue_keepsRom (fun p => by simp)

@[simp] theorem execMts_keepsRom (r : R) (s : State) : KeepsRom s (execMts r s) :=
  issue_keepsRom (fun p => by simp)

@[simp] theorem execXret_keepsRom (r : R) (s : State) : KeepsRom s (execXret r s) :=
  issue_keepsRom (fun p => by simp)

@[simp] theorem execYield_keepsRom (r : R) (s : State) : KeepsRom s (execYield r s) :=
  issue_keepsRom (fun p => by simp)

@[simp] theorem effFree_keepsRom (x : Reg) (s : State) : Eff.KeepsRom s (effFree x s) := by
  simp [effFree]

@[simp] theorem execFreeG_keepsRom (r : R) (s : State) : KeepsRom s (execFreeG r s) :=
  issue_keepsRom (fun p => by simp)

@[simp] theorem execFreeV_keepsRom (r : R) (s : State) : KeepsRom s (execFreeV r s) :=
  issue_keepsRom (fun p => by simp)

@[simp] theorem execFreeK_keepsRom (r : R) (s : State) : KeepsRom s (execFreeK r s) :=
  issue_keepsRom (fun p => by simp)

@[simp] theorem effRegion_keepsRom (i : Instr) (r : R) (s : State) : Eff.KeepsRom s (effRegion i r s) := by
  unfold effRegion
  dsimp only
  split <;>
  · split; · simp
    split; · simp
    split <;> simp

@[simp] theorem execRegion_keepsRom (r : R) (s : State) : KeepsRom s (execRegion r s) :=
  issue_keepsRom (fun p => by simp)

@[simp] theorem execRend_keepsRom (r : R) (s : State) : KeepsRom s (execRend r s) :=
  issue_keepsRom (fun p => by simp)

end Sys2Proof.Machine
end

section
/-! SUPPORT. The image that runs and the fused security version stay as they are: the operations of
Sys2Proof/Machine/Stream.lean. -/

namespace Sys2Proof.Machine

@[simp] theorem ckDescRead_rom (s : State) (tid : Nat) : CheckedRom s (ckDescRead tid s) := by simp [ckDescRead]
@[simp] theorem ckWindow_rom (s t : State) (off n bar tid : Nat) : CheckedRom s (ckWindow off n bar tid t) := by
  unfold ckWindow
  split <;> simp
@[simp] theorem ckAway_rom (s : State) : CheckedRom s (ckAway s) := by
  unfold ckAway
  split <;> simp
theorem ckStream_checkedRom (s : State) (f : Nat) (r : R) (off n rbar : Nat) (write : Option Bool) (a : Nat) (tile : Option (Nat × Nat × Nat)) :
    ∀ c ∈ ckStream f r off n rbar write a tile, CheckedRom s (c s) := by
  have inTile (t i j : Nat) : CheckedRom s (match s.descOf t with
      | none => some (.fault 1 0 t)
      | some d => if d.outside i j then some (.fault 2 0 t) else none) := by split <;> simp
  rcases tile with _ | ⟨t, i, j⟩ <;> cases write <;> simp [ckStream]
  · exact inTile t i j
  · exact inTile t i j

@[simp] theorem State.nameReturn_rom (bar : Nat) (s : State) : (s.nameReturn bar).svc.rom = s.svc.rom := rfl

@[simp] theorem execSpush_keepsRom (r : R) (s : State) : KeepsRom s (execSpush r s) :=
  issue_keepsRom (fun p => checked_keepsRom (List.forall_mem_append.2 ⟨ckStream_checkedRom _ _ _ _ _ _ _ _ _, by simp⟩) (by
    dsimp only
    split
    · simp
    · exact accept_keepsRom (fun _ => by simp) _ _ _))

@[simp] theorem execSfmt_keepsRom (r : R) (s : State) : KeepsRom s (execSfmt r s) :=
  issue_keepsRom (fun p => checked_keepsRom (List.forall_mem_append.2 ⟨ckStream_checkedRom _ _ _ _ _ _ _ _ _, by simp⟩)
    (accept_keepsRom (fun _ => by simp) _ _ _))

@[simp] theorem execSfill_keepsRom (r : R) (s : State) : KeepsRom s (execSfill r s) :=
  issue_keepsRom (fun p => checked_keepsRom (List.forall_mem_append.2 ⟨ckStream_checkedRom _ _ _ _ _ _ _ _ _, by simp⟩)
    (accept_keepsRom (fun _ => by simp) _ _ _))

@[simp] theorem execSwb_keepsRom (r : R) (s : State) : KeepsRom s (execSwb r s) :=
  issue_keepsRom (fun p => checked_keepsRom (List.forall_mem_append.2 ⟨ckStream_checkedRom _ _ _ _ _ _ _ _ _, by simp⟩) (by
    dsimp only
    split
    · simp
    · exact accept_keepsRom (fun _ => by simp) _ _ _))

@[simp] theorem execPushLanded_keepsRom (cmd : Nat) (s : State) : KeepsRom s (execPushLanded cmd s) :=
  (keepsRom_next _ _).2 (State.onCmd_rom (fun c s => by
    dsimp only
    split; · rfl
    split <;> simp) cmd s)

@[simp] theorem State.landFill_rom (c : Cmd) (a : Activity) (s : State) : (State.landFill c a s).svc.rom = s.svc.rom := by
  simp [State.landFill]

@[simp] theorem State.performBack_rom (c : Cmd) (u : Nat) (a : Activity) (refuse : Nat → Bool) (s : State) :
    (State.performBack c u a refuse s).svc.rom = s.svc.rom := by
  simp [State.performBack]

@[simp] theorem State.streamUnit_rom (unit : Nat) (c : Cmd) (s : State) : (State.streamUnit unit c s).svc.rom = s.svc.rom := by
  unfold State.streamUnit
  repeat' split
  all_goals simp

@[simp] theorem execTflushDone_keepsRom (cmd : Nat) (s : State) : KeepsRom s (execTflushDone cmd s) := by
  simp [execTflushDone]

@[simp] theorem State.endCodeld_rom (c : Cmd) (refuse : Nat → Bool) (s : State) : (s.endCodeld c refuse).svc.rom = s.svc.rom := by
  unfold State.endCodeld
  dsimp only
  split <;> simp

@[simp] theorem execCodeldDone_keepsRom (cmd : Nat) (s : State) : KeepsRom s (execCodeldDone cmd s) := by
  simp [execCodeldDone]

@[simp] theorem State.timeout_rom (cmd : Nat) (p : State → Nat → Bool) (s : State) : (s.timeout cmd p).svc.rom = s.svc.rom :=
  State.onCmd_rom (fun c s => by
    split; · rfl
    split; · rfl
    split; · simp
    split; · simp
    split; · simp
    split; · simp
    split
    · split <;> simp
    · simp) cmd s

@[simp] theorem execCxlTimeout_keepsRom (cmd : Nat) (s : State) : KeepsRom s (execCxlTimeout cmd s) := by
  simp [execCxlTimeout]

@[simp] theorem execLinkDownTimeout_keepsRom (cmd : Nat) (s : State) : KeepsRom s (execLinkDownTimeout cmd s) := by
  simp [execLinkDownTimeout]

@[simp] theorem State.addPart_rom (vd fmt member cmd unit pa : Nat) (cells : List Host.Cell) (s : State) :
    (State.addPart vd fmt member cmd unit pa cells s).svc.rom = s.svc.rom := by
  simp [State.addPart]

@[simp] theorem State.contribute_rom (c : Cmd) (u : Nat) (s : State) : (State.contribute c u s).svc.rom = s.svc.rom := by
  simp [State.contribute]

@[simp] theorem execStorePerformed_keepsRom (cmd unit : Nat) (s : State) : KeepsRom s (execStorePerformed cmd unit s) := by
  simp [execStorePerformed]

@[simp] theorem execProgramRequestQueued_keepsRom (cmd : Nat) (s : State) : KeepsRom s (execProgramRequestQueued cmd s) := by
  simp [execProgramRequestQueued]

@[simp] theorem State.modAny_rom (uid : Nat) (f : Activity → Activity) (s : State) : (State.modAny uid f s).svc.rom = s.svc.rom := by
  simp [State.modAny]

@[simp] theorem State.refuseProgram_rom (q : ProgReq) (code : Nat) (s : State) : (State.refuseProgram q code s).svc.rom = s.svc.rom := by
  simp [State.refuseProgram]

@[simp] theorem State.startProgram_rom (q : ProgReq) (c : Card) (image : List Byte) (slot : Nat) (s : State) :
    (State.startProgram q c image slot s).svc.rom = s.svc.rom := by
  simp [State.startProgram]

theorem wait_rom {c : Prop} [Decidable c] {s t : State} (h : t.svc.rom = s.svc.rom) : (if c then s else t).svc.rom = s.svc.rom := by
  split
  · rfl
  · exact h

@[simp] theorem execSpindleProgramStart_keepsRom (spindle : Nat) (s : State) : KeepsRom s (execSpindleProgramStart spindle s) := by
  unfold execSpindleProgramStart
  dsimp only
  rw [keepsRom_next]
  split; · rfl
  split; · simp
  split; · rfl
  split
  · split <;> simp
  split
  · split <;> simp
  split; · rfl
  split
  · split <;> simp
  refine wait_rom ?_
  split; · rfl
  refine wait_rom ?_
  simp

@[simp] theorem State.freeRefused_rom (uid : Nat) (s : State) : (State.freeRefused uid s).svc.rom = s.svc.rom := by
  simp [State.freeRefused]

@[simp] theorem State.leaveWindow_rom (p : ProgCtx) (s : State) : (State.leaveWindow p s).svc.rom = s.svc.rom := by
  unfold State.leaveWindow
  split <;> simp

@[simp] theorem execSpindleProgramEnd_keepsRom (uid : Nat) (s : State) : KeepsRom s (execSpindleProgramEnd uid s) := by
  unfold execSpindleProgramEnd
  repeat' split
  all_goals simp

@[simp] theorem execReturnUpdate_keepsRom (msg : Nat) (s : State) : KeepsRom s (execReturnUpdate msg s) := by
  unfold execReturnUpdate
  repeat' split
  all_goals simp

end Sys2Proof.Machine
end

section
/-! SUPPORT. The image that runs and the fused security version stay as they are: the operations of
Sys2Proof/Machine/Place.lean. -/

namespace Sys2Proof.Machine

@[simp] theorem State.ensureSeg_rom (vd jid pages n : Nat) (s : State) : (State.ensureSeg vd jid pages n s).svc.rom = s.svc.rom := by
  simp [State.ensureSeg]

@[simp] theorem State.sweepCode_rom (n : Nat) (s : State) : (State.sweepCode n s).svc.rom = s.svc.rom := by
  simp [State.sweepCode]

@[simp] theorem State.condemnAct_rom (uid stat : Nat) (s : State) : (State.condemnAct uid stat s).svc.rom = s.svc.rom := by
  simp [State.condemnAct]

@[simp] theorem State.loadImage_rom (ag : Agent) (j : Job) (n : Nat) (s : State) : (s.loadImage ag j n).svc.rom = s.svc.rom := by
  unfold State.loadImage
  dsimp only
  split <;> simp

@[simp] theorem State.finishLoad_rom (agent : Agent) (vd jid : Nat) (s : State) : (State.finishLoad agent vd jid s).svc.rom = s.svc.rom := by
  unfold State.finishLoad
  repeat' split
  all_goals simp

@[simp] theorem execCodeLoad_keepsRom (ag : Agent) (job : Nat) (s : State) : KeepsRom s (execCodeLoad ag job s) := by
  unfold execCodeLoad
  rw [keepsRom_next]
  dsimp only
  split <;> simp

@[simp] theorem State.carry_rom (dest : Agent) (reserve : LMem) (s : State) : (State.carry dest reserve s).svc.rom = s.svc.rom := by
  simp [State.carry]

@[simp] theorem State.takeGen_rom (n slot : Nat) (s : State) : (State.takeGen n slot s).1.svc.rom = s.svc.rom := by
  simp [State.takeGen]

end Sys2Proof.Machine
end

section
/-! SUPPORT. The image that runs and the fused security version stay as they are: the operations of
Sys2Proof/Machine/Meeting.lean. -/

namespace Sys2Proof.Machine

@[simp] theorem State.modParty_rom (uid : Nat) (f : Party → Party) (s : State) : (State.modParty uid f s).svc.rom = s.svc.rom := by
  simp [State.modParty]

@[simp] theorem State.promote_rom (d : Nat) (s : State) : (State.promote d s).svc.rom = s.svc.rom := by
  unfold State.promote
  repeat' split
  all_goals simp

@[simp] theorem State.dropWaiter_rom (uid : Nat) (s : State) : (State.dropWaiter uid s).svc.rom = s.svc.rom := by
  unfold State.dropWaiter
  split <;> simp

@[simp] theorem State.dirBusy_rom (d : Nat) (s : State) : (State.dirBusy d s).svc.rom = s.svc.rom := by
  simp [State.dirBusy]

@[simp] theorem State.countArrival_rom (d b : Nat) (s : State) : (State.countArrival d b s).svc.rom = s.svc.rom := by
  simp [State.countArrival]

@[simp] theorem State.dropMsg_rom (id : Nat) (s : State) : (State.dropMsg id s).svc.rom = s.svc.rom := by
  simp [State.dropMsg]

@[simp] theorem State.sendStatus_rom (uid status : Nat) (s : State) : (State.sendStatus uid status s).svc.rom = s.svc.rom := by
  unfold State.sendStatus
  split <;> simp

@[simp] theorem effMeet_keepsRom (r : R) (s : State) : Eff.KeepsRom s (effMeet r s) := by
  unfold effMeet
  dsimp only
  split; · simp
  split; · simp
  split; · simp
  split <;> simp

@[simp] theorem execMeet_keepsRom (r : R) (s : State) : KeepsRom s (execMeet r s) :=
  issue_keepsRom (fun p => by simp)

@[simp] theorem State.reserve_rom (uid n side : Nat) (s : State) : (State.reserve uid n side s).svc.rom = s.svc.rom := by
  unfold State.reserve
  repeat' split
  all_goals simp

@[simp] theorem State.stay_rom (uid n side : Nat) (moved : Bool) (s : State) : (State.stay uid n side moved s).svc.rom = s.svc.rom := by
  unfold State.stay
  split <;> simp

@[simp] theorem State.pair_rom (p q : Nat) (s : State) : (State.pair p q s).svc.rom = s.svc.rom := by
  unfold State.pair
  split <;> simp

@[simp] theorem State.placeMeeting_rom (p q : Nat) (exclude : List Nat) (restored : Bool) (s : State) :
    (s.placeMeeting p q exclude restored).svc.rom = s.svc.rom := by
  unfold State.placeMeeting
  split
  · dsimp only
    split; · simp
    split; · simp
    split <;> simp
  · rfl

@[simp] theorem State.park_rom (a : Activity) (p : Party) (s : State) : (State.park a p s).svc.rom = s.svc.rom := by
  simp [State.park]

@[simp] theorem State.matchParties_rom (p q : Nat) (s : State) : (State.matchParties p q s).svc.rom = s.svc.rom := by
  unfold State.matchParties
  split <;> simp

@[simp] theorem execDirectoryArrival_keepsRom (msg : Nat) (s : State) : KeepsRom s (execDirectoryArrival msg s) := by
  unfold execDirectoryArrival
  repeat' split
  all_goals simp

@[simp] theorem execMeetDeadline_keepsRom (uid : Nat) (s : State) : KeepsRom s (execMeetDeadline uid s) := by
  unfold execMeetDeadline
  repeat' split
  all_goals simp

@[simp] theorem State.cancelCount_rom (uid dst n d : Nat) (sender : Agent) (s : State) :
    (State.cancelCount uid dst n d sender s).svc.rom = s.svc.rom := by
  unfold State.cancelCount
  split <;> simp

@[simp] theorem execDirectoryCancel_keepsRom (msg : Nat) (s : State) : KeepsRom s (execDirectoryCancel msg s) := by
  unfold execDirectoryCancel
  repeat' split
  all_goals simp

@[simp] theorem State.endMeet_rom (status : Nat) (s : State) : (State.endMeet status s).svc.rom = s.svc.rom := by
  unfold State.endMeet
  split <;> simp

@[simp] theorem State.tryMet_rom (uid : Nat) (s : State) : (s.tryMet uid).svc.rom = s.svc.rom := by
  unfold State.tryMet
  dsimp only
  split; · rfl
  split; · rfl
  simp only [ite_rom]
  rw [foldl_rom]
  · simp
  intro s x
  split <;> simp

@[simp] theorem State.returnHome_rom (s : State) : (State.returnHome s).svc.rom = s.svc.rom := by
  unfold State.returnHome
  split <;> simp

@[simp] theorem State.setOut_rom (p : Party) (s : State) : (State.setOut p s).svc.rom = s.svc.rom := by
  simp [State.setOut]

@[simp] theorem State.sendHome_rom (status : Nat) (s : State) : (State.sendHome status s).svc.rom = s.svc.rom := by
  unfold State.sendHome
  split <;> simp

@[simp] theorem execDecisionArrives_keepsRom (uid : Nat) (s : State) : KeepsRom s (execDecisionArrives uid s) := by
  unfold execDecisionArrives
  repeat' split
  all_goals simp

@[simp] theorem State.board_rom (n : Nat) (s : State) : (State.board n s).svc.rom = s.svc.rom := by
  simp [State.board]

@[simp] theorem State.settle_rom (n slot : Nat) (fresh : Bool) (s : State) : (State.settle n slot fresh s).svc.rom = s.svc.rom := by
  simp [State.settle]

@[simp] theorem State.arriveTo_rom (n slot dst : Nat) (s : State) : (State.arriveTo n slot dst s).svc.rom = s.svc.rom := by
  simp [State.arriveTo]

@[simp] theorem State.landLeaving_rom (p : Party) (s : State) : (State.landLeaving p s).svc.rom = s.svc.rom := by
  unfold State.landLeaving
  repeat' split
  all_goals simp

@[simp] theorem execShuttleLanded_keepsRom (uid : Nat) (s : State) : KeepsRom s (execShuttleLanded uid s) := by
  unfold execShuttleLanded
  repeat' split
  all_goals simp

@[simp] theorem State.refillOf_rom (uid : Nat) (x : Reg) (s : State) : (State.refillOf uid x s).svc.rom = s.svc.rom := by
  simp [State.refillOf]

@[simp] theorem effPartnerRead_keepsRom {f : Vec → State → State} (h : ∀ v s, (f v s).svc.rom = s.svc.rom) (x : Reg) (s : State) :
    Eff.KeepsRom s (effPartnerRead x f s) := by
  unfold effPartnerRead
  split; · simp
  split; · simp [h]
  split; · simp
  split; · simp
  split
  · simp
  next t e => simp [h, State.readPartner_whenRom s t e]

@[simp] theorem execMget_keepsRom (r : R) (s : State) : KeepsRom s (execMget r s) :=
  issue_keepsRom (fun p => by simp)

@[simp] theorem execMgetv_keepsRom (r : R) (s : State) : KeepsRom s (execMgetv r s) :=
  issue_keepsRom (fun p => by simp)

@[simp] theorem State.finishSync_rom (uid : Nat) (s : State) : (State.finishSync uid s).svc.rom = s.svc.rom := by
  simp [State.finishSync]

@[simp] theorem State.endSync_rom (uid : Nat) (s : State) : (State.endSync uid s).svc.rom = s.svc.rom := by
  unfold State.endSync
  split <;> simp

@[simp] theorem effMsync_keepsRom (i : Instr) (s : State) : Eff.KeepsRom s (effMsync i s) := by
  unfold effMsync
  repeat' split
  all_goals simp

@[simp] theorem execMsync_keepsRom (r : R) (s : State) : KeepsRom s (execMsync r s) :=
  issue_keepsRom (fun p => by simp)

@[simp] theorem execMcpy_keepsRom (r : R) (s : State) : KeepsRom s (execMcpy r s) :=
  issue_keepsRom (fun p => checked_keepsRom (by simp) (by
    dsimp only
    split; · simp
    split; · simp
    split
    · simp
    next t e => simp [State.readTaint_whenRom _ _ p t e]))

@[simp] theorem State.copyLocal_rom (src dst n : Nat) (s : State) : (State.copyLocal src dst n s).svc.rom = s.svc.rom := by
  simp [State.copyLocal]

@[simp] theorem execMswap_keepsRom (r : R) (s : State) : KeepsRom s (execMswap r s) :=
  issue_keepsRom (fun p => by
    dsimp only
    split; · simp
    split; · simp
    split; · simp
    split; · simp
    split; · simp
    split; · simp
    split <;> simp)

@[simp] theorem execPart_keepsRom (r : R) (s : State) : KeepsRom s (execPart r s) :=
  issue_keepsRom (fun p => by
    dsimp only
    split; · simp
    split; · simp
    split; · simp
    split; · simp
    split <;> simp)

@[simp] theorem State.leave_rom (s : State) : (State.leave s).svc.rom = s.svc.rom := by
  unfold State.leave
  repeat' split
  all_goals simp

@[simp] theorem execPartBarrier_keepsRom (uid : Nat) (s : State) : KeepsRom s (execPartBarrier uid s) := by
  unfold execPartBarrier
  rw [keepsRom_next]
  split; · rfl
  split; · rfl
  dsimp only
  split; · rfl
  split <;> simp

@[simp] theorem effCancel_keepsRom (r : R) (isColl : Bool) (s : State) : Eff.KeepsRom s (effCancel r isColl s) := by
  simp [effCancel]

@[simp] theorem execMcancel_keepsRom (r : R) (s : State) : KeepsRom s (execMcancel r s) :=
  issue_keepsRom (fun p => by simp)

end Sys2Proof.Machine
end

section
/-! SUPPORT. The image that runs and the fused security version stay as they are: the operations of
Sys2Proof/Machine/Coll.lean. -/

namespace Sys2Proof.Machine

@[simp] theorem placeColl_keepsRom (r : R) (d : GroupDesc) (o : CollOp) (s : State) : Eff.KeepsRom s (placeColl r d o s) := by
  simp [placeColl]

@[simp] theorem execColl_keepsRom (r : R) (s : State) : KeepsRom s (execColl r s) :=
  issue_keepsRom (fun p => by simp)

@[simp] theorem execCcancel_keepsRom (r : R) (s : State) : KeepsRom s (execCcancel r s) :=
  issue_keepsRom (fun p => by simp)

@[simp] theorem State.modColl_rom (uid : Nat) (f : CollRank → CollRank) (s : State) : (State.modColl uid f s).svc.rom = s.svc.rom := by
  simp [State.modColl]

@[simp] theorem State.collStatus_rom (uid status arrived at_ : Nat) (s : State) :
    (State.collStatus uid status arrived at_ s).svc.rom = s.svc.rom := by
  simp [State.collStatus]

@[simp] theorem State.putGroup_rom (g : Group) (s : State) : (State.putGroup g s).svc.rom = s.svc.rom := by
  simp [State.putGroup]

@[simp] theorem State.dropGroup_rom (g : Group) (s : State) : (State.dropGroup g s).svc.rom = s.svc.rom := by
  simp [State.dropGroup]

@[simp] theorem State.joinGroup_rom (g : Group) (a : Activity) (c : CollRank) (s : State) : (State.joinGroup g a c s).svc.rom = s.svc.rom := by
  simp [State.joinGroup]

@[simp] theorem State.openGroup_rom (a : Activity) (c : CollRank) (s : State) : (State.openGroup a c s).svc.rom = s.svc.rom := by
  simp [State.openGroup]

@[simp] theorem State.dissolve_rom (g : Group) (ms : List Member) (status : Nat) (s : State) :
    (State.dissolve g ms status s).svc.rom = s.svc.rom := by
  simp [State.dissolve]

@[simp] theorem execCollArrival_keepsRom (msg : Nat) (s : State) : KeepsRom s (execCollArrival msg s) := by
  unfold execCollArrival
  repeat' split
  all_goals simp

@[simp] theorem execCollDeadline_keepsRom (group : Nat) (s : State) : KeepsRom s (execCollDeadline group s) := by
  unfold execCollDeadline
  repeat' split
  all_goals simp

@[simp] theorem execCollCancel_keepsRom (msg : Nat) (s : State) : KeepsRom s (execCollCancel msg s) := by
  unfold execCollCancel
  repeat' split
  all_goals simp

@[simp] theorem State.sendLuggage_rom (g : Group) (c : CollRank) (s : State) : (State.sendLuggage g c s).svc.rom = s.svc.rom := by
  simp [State.sendLuggage]

@[simp] theorem State.leftSource_rom (c : CollRank) (s : State) : (State.leftSource c s).svc.rom = s.svc.rom := by
  simp [State.leftSource]

@[simp] theorem execCollGo_keepsRom (uid : Nat) (s : State) : KeepsRom s (execCollGo uid s) := by
  unfold execCollGo
  repeat' split
  all_goals simp

@[simp] theorem State.leaveGroup_rom (gid uid : Nat) (s : State) : (State.leaveGroup gid uid s).svc.rom = s.svc.rom := by
  simp [State.leaveGroup]

@[simp] theorem State.endColl_rom (c : CollRank) (status arrived : Nat) (s : State) : (State.endColl c status arrived s).svc.rom = s.svc.rom := by
  simp [State.endColl]

@[simp] theorem execCollResultsLanded_keepsRom (uid : Nat) (s : State) : KeepsRom s (execCollResultsLanded uid s) := by
  unfold execCollResultsLanded
  repeat' split
  all_goals simp

@[simp] theorem execGroupDissolvedStatus_keepsRom (uid : Nat) (s : State) : KeepsRom s (execGroupDissolvedStatus uid s) := by
  unfold execGroupDissolvedStatus
  repeat' split
  all_goals simp

@[simp] theorem State.abandonColl_rom (uid status : Nat) (spare : Bool) (s : State) :
    (State.abandonColl uid status spare s).svc.rom = s.svc.rom := by
  unfold State.abandonColl
  repeat' split
  all_goals simp

end Sys2Proof.Machine
end

section
/-! SUPPORT. The image that runs and the fused security version stay as they are: the operations of
Sys2Proof/Machine/VecMem.lean. -/

namespace Sys2Proof.Machine

@[simp] theorem State.correctElems_rom (bytes : Nat) (es : List (Nat × Nat)) (s : State) : (State.correctElems bytes es s).svc.rom = s.svc.rom := by
  simp [State.correctElems]

@[simp] theorem State.vecStore_rom (c : VecCmd) (s : State) : (s.vecStore c).svc.rom = s.svc.rom :=
  foldl_rom (fun s e => by simp) c.elems s

@[simp] theorem effVecMem_keepsRom (r : R) (load contiguous : Bool) (addr : Activity → Nat → Int) (s : State) :
    Eff.KeepsRom s (effVecMem r load contiguous addr s) := by
  unfold effVecMem
  dsimp only
  split; · simp
  split; · simp
  split; · simp
  split; · simp
  next t e =>
    have taint : t.svc.rom = s.svc.rom := by
      split at e
      · exact State.readTaint_whenRom _ _ s t e
      · cases e; rfl
    split
    · split <;> simp [taint]
    · split
      · split <;> simp [taint]
      · simp [taint]

@[simp] theorem execVld_keepsRom (r : R) (s : State) : KeepsRom s (execVld r s) :=
  issue_keepsRom (fun p => by simp)

@[simp] theorem execVst_keepsRom (r : R) (s : State) : KeepsRom s (execVst r s) :=
  issue_keepsRom (fun p => by simp)

@[simp] theorem execVlds_keepsRom (r : R) (s : State) : KeepsRom s (execVlds r s) :=
  issue_keepsRom (fun p => by simp)

@[simp] theorem execVsts_keepsRom (r : R) (s : State) : KeepsRom s (execVsts r s) :=
  issue_keepsRom (fun p => by simp)

@[simp] theorem execVldx_keepsRom (r : R) (s : State) : KeepsRom s (execVldx r s) :=
  issue_keepsRom (fun p => by simp)

@[simp] theorem execVstx_keepsRom (r : R) (s : State) : KeepsRom s (execVstx r s) :=
  issue_keepsRom (fun p => by simp)

@[simp] theorem State.deliverV_rom (d : Nat) (v : Vec) (s : State) : (State.deliverV d v s).svc.rom = s.svc.rom := by
  simp [State.deliverV]

@[simp] theorem State.dropVec_rom (id : Nat) (s : State) : (State.dropVec id s).svc.rom = s.svc.rom := by
  simp [State.dropVec]

@[simp] theorem execVectorAccessDone_keepsRom (cmd : Nat) (s : State) : KeepsRom s (execVectorAccessDone cmd s) := by
  unfold execVectorAccessDone
  dsimp only
  rw [keepsRom_next]
  split; · rfl
  split; · rfl
  split
  · split; · rfl
    split; · simp
    split
    · split; · rfl
      next t e =>
      have taint : t.svc.rom = s.svc.rom := by simpa using State.readTaint_whenRom _ _ _ t e
      split <;> simp [taint]
    · simp
  · simp

end Sys2Proof.Machine
end

section
/-! SUPPORT. The image that runs and the fused security version stay as they are: the operations of
Sys2Proof/Machine/Life.lean. -/

namespace Sys2Proof.Machine

@[simp] theorem State.commitDue_rom (uid : Nat) (kinds : List PendKind) (s : State) : (State.commitDue uid kinds s).svc.rom = s.svc.rom := by
  unfold State.commitDue
  split <;> simp

@[simp] theorem execRegisterWriteback_keepsRom (uid : Nat) (s : State) : KeepsRom s (execRegisterWriteback uid s) := by
  simp [execRegisterWriteback]

@[simp] theorem execLoadResult_keepsRom (uid : Nat) (s : State) : KeepsRom s (execLoadResult uid s) := by
  simp [execLoadResult]

@[simp] theorem execDivideResult_keepsRom (uid : Nat) (s : State) : KeepsRom s (execDivideResult uid s) := by
  simp [execDivideResult]

@[simp] theorem State.modJob_rom (vd jid : Nat) (f : Job → Job) (s : State) : (State.modJob vd jid f s).svc.rom = s.svc.rom := by
  simp [State.modJob]

@[simp] theorem State.sendRetired_rom (a : Activity) (stat refused : Nat) (s : State) :
    (State.sendRetired a stat refused s).svc.rom = s.svc.rom := by
  unfold State.sendRetired
  split <;> simp

@[simp] theorem State.retireMe_rom (stat : Nat) (s : State) : (s.retireMe stat).svc.rom = s.svc.rom := by
  unfold State.retireMe
  dsimp only
  split <;> simp

@[simp] theorem execRetirement_keepsRom (uid : Nat) (s : State) : KeepsRom s (execRetirement uid s) := by
  unfold execRetirement
  repeat' split
  all_goals simp

@[simp] theorem State.quitMeeting_rom (status : Nat) (s : State) : (s.quitMeeting status).svc.rom = s.svc.rom := by
  unfold State.quitMeeting
  split; · rfl
  dsimp only
  split; · simp
  split; · simp
  split
  · split <;> simp
  · simp

@[simp] theorem State.killCommands_rom (s : State) : s.killCommands.svc.rom = s.svc.rom := by
  refine foldl_rom (fun s c => ?_) _ s
  split
  · split <;> simp
  · dsimp only
    split <;> simp

@[simp] theorem State.killMe_rom (stat party coll : Nat) (spare : Bool) (s : State) : (s.killMe stat party coll spare).svc.rom = s.svc.rom := by
  unfold State.killMe
  dsimp only
  split <;> simp

@[simp] theorem execKill_keepsRom (uid : Nat) (s : State) : KeepsRom s (execKill uid s) := by
  unfold execKill
  split <;> simp

@[simp] theorem execFirstOverrun_keepsRom (uid : Nat) (s : State) : KeepsRom s (execFirstOverrun uid s) := by
  unfold execFirstOverrun
  repeat' split
  all_goals simp

@[simp] theorem execRunBudgetTrap_keepsRom (uid : Nat) (s : State) : KeepsRom s (execRunBudgetTrap uid s) := by
  unfold execRunBudgetTrap
  split <;> simp

@[simp] theorem execMissedPromiseTrap_keepsRom (uid : Nat) (s : State) : KeepsRom s (execMissedPromiseTrap uid s) := by
  unfold execMissedPromiseTrap
  repeat' split
  all_goals simp

@[simp] theorem execRefusedStoreTrap_keepsRom (uid : Nat) (s : State) : KeepsRom s (execRefusedStoreTrap uid s) := by
  unfold execRefusedStoreTrap
  split <;> simp

@[simp] theorem asyncTrap_keepsRom (cause uid : Nat) (s : State) : KeepsRom s (asyncTrap cause uid s) := by
  unfold asyncTrap
  repeat' split
  all_goals simp

@[simp] theorem State.resumeTrap_keepsRom (uid : Nat) (s : State) : KeepsRom s (State.resumeTrap uid s) := by
  unfold State.resumeTrap
  split; · simp
  split; · simp
  dsimp only
  split; · simp
  split
  · exact fun t e => (asyncTrap_keepsRom _ uid _ t e).trans (State.focus_rom uid s)
  · simp

end Sys2Proof.Machine
end

section
/-! SUPPORT. The image that runs and the fused security version stay as they are: the operations of
Sys2Proof/Machine/Forecast.lean. -/

namespace Sys2Proof.Machine

@[simp] theorem castComplete_keepsRom (i : Instr) (r : R) (f : FDesc) (ahead : Nat) (b : Bar) (s : State) :
    Eff.KeepsRom s (castComplete i r f ahead b s) := by
  simp [castComplete]

@[simp] theorem castPending_keepsRom (i : Instr) (r : R) (f : FDesc) (s : State) : Eff.KeepsRom s (castPending i r f s) := by
  simp [castPending]

@[simp] theorem effFcast_keepsRom (r : R) (s : State) : Eff.KeepsRom s (effFcast r s) := by
  simp [effFcast]

@[simp] theorem execFcast_keepsRom (r : R) (s : State) : KeepsRom s (execFcast r s) :=
  issue_keepsRom (fun p => by simp)

@[simp] theorem execFwait_keepsRom (r : R) (s : State) : KeepsRom s (execFwait r s) :=
  issue_keepsRom (fun p => by simp)

@[simp] theorem execFstat_keepsRom (r : R) (s : State) : KeepsRom s (execFstat r s) :=
  issue_keepsRom (fun p => by simp)

@[simp] theorem State.landLoc_rom (id : Nat) (s : State) : (s.landLoc id).svc.rom = s.svc.rom := by
  unfold State.landLoc
  split; · rfl
  dsimp only
  split; · rfl
  next c _ _ =>
  split
  · simp
  · rfl
  next t _ e =>
    have taint : t.svc.rom = s.svc.rom := by
      split at e
      · simpa using State.readTaint_whenRom _ _ _ t e
      · cases e; simp
    split; · rfl
    split <;> simp [taint]

@[simp] theorem execLandingUnit_keepsRom (cmd unit : Nat) (s : State) : KeepsRom s (execLandingUnit cmd unit s) := by
  simp [execLandingUnit]

@[simp] theorem State.leaveHeld_rom (uid : Nat) (s : State) : (s.leaveHeld uid).svc.rom = s.svc.rom := by
  unfold State.leaveHeld
  split
  · split; · rfl
    dsimp only
    split
    · simp only [ite_rom]
      split; · rfl
      split; · simp
      split <;> simp
    · simp
    · simp
  · rfl

@[simp] theorem State.finishRend_rom (s : State) : (State.finishRend s).svc.rom = s.svc.rom := by
  unfold State.finishRend
  split <;> simp

@[simp] theorem State.commitSpec_rom (s : State) : (State.commitSpec s).svc.rom = s.svc.rom := by
  simp [State.commitSpec]

@[simp] theorem State.passTag_rom (t : Tag) (s : State) : (s.passTag t).svc.rom = s.svc.rom := by
  unfold State.passTag
  dsimp only
  simp
  split <;> simp

@[simp] theorem State.failTag_rom (elast : Bool) (v : Nat) (s : State) : (State.failTag elast v s).svc.rom = s.svc.rom := by
  simp [State.failTag]

@[simp] theorem execVerdict_keepsRom (uid tag : Nat) (s : State) : KeepsRom s (execVerdict uid tag s) := by
  unfold execVerdict
  repeat' split
  all_goals simp

@[simp] theorem execHeldBufferSpace_keepsRom (uid : Nat) (s : State) : KeepsRom s (execHeldBufferSpace uid s) := by
  unfold execHeldBufferSpace
  repeat' split
  all_goals simp

end Sys2Proof.Machine
end

section
/-! SUPPORT. The image that runs and the fused security version stay as they are: the operations of
Sys2Proof/Machine/Jobs.lean. -/

namespace Sys2Proof.Machine

@[simp] theorem State.unitBusy_rom (die : Nat) (s : State) : (State.unitBusy die s).svc.rom = s.svc.rom := by
  simp [State.unitBusy]

@[simp] theorem State.putStatus_rom (vd jid byte : Nat) (s : State) : (State.putStatus vd jid byte s).svc.rom = s.svc.rom := by
  simp [State.putStatus]

@[simp] theorem State.flushVd_rom (vd : Nat) (s : State) : (State.flushVd vd s).svc.rom = s.svc.rom := by
  simp [State.flushVd]

@[simp] theorem State.completeJob_rom (vd jid : Nat) (s : State) : (State.completeJob vd jid s).svc.rom = s.svc.rom := by
  unfold State.completeJob
  split <;> simp

@[simp] theorem State.acceptJob_rom (vd : Nat) (c : Card) (s : State) : (State.acceptJob vd c s).1.svc.rom = s.svc.rom := by
  simp [State.acceptJob]

@[simp] theorem execJobpost_keepsRom (r : R) (s : State) : KeepsRom s (execJobpost r s) :=
  issue_keepsRom (fun p => by simp)

@[simp] theorem State.postResult_rom (uid d : Nat) (w : Word) (s : State) : (State.postResult uid d w s).svc.rom = s.svc.rom := by
  unfold State.postResult
  split <;> simp

@[simp] theorem execJobpostRequest_keepsRom (msg : Nat) (s : State) : KeepsRom s (execJobpostRequest msg s) := by
  unfold execJobpostRequest
  rw [keepsRom_next]
  split; · rfl
  split
  · dsimp only
    split; · rfl
    split <;> simp
  · rfl

@[simp] theorem execJobwait_keepsRom (r : R) (s : State) : KeepsRom s (execJobwait r s) :=
  issue_keepsRom (fun p => by simp)

@[simp] theorem execJobwaitWake_keepsRom (uid : Nat) (s : State) : KeepsRom s (execJobwaitWake uid s) := by
  unfold execJobwaitWake
  split <;> simp

@[simp] theorem State.modVd_rom (v : Nat) (f : Vd → Vd) (s : State) : (State.modVd v f s).svc.rom = s.svc.rom := by
  simp [State.modVd]

@[simp] theorem State.keepInbound_rom (i : Inbound) (s : State) : (s.keepInbound i).svc.rom = s.svc.rom := rfl

@[simp] theorem State.receive_rom {f : State → State} (h : ∀ s, (f s).svc.rom = s.svc.rom) (i : Inbound) (s : State) :
    (s.receive i f).svc.rom = s.svc.rom := by
  simp [State.receive, h]

@[simp] theorem State.posted_rom {f : State → State} (h : ∀ s, (f s).svc.rom = s.svc.rom) (i : Inbound) (s : State) :
    (s.posted i f).svc.rom = s.svc.rom := by
  unfold State.posted
  split
  · exact State.receive_rom h i _
  · rfl

@[simp] theorem execJobQueueEntry_keepsRom (vd q : Nat) (s : State) : KeepsRom s (execJobQueueEntry vd q s) := by
  unfold execJobQueueEntry
  dsimp only
  rw [keepsRom_next]
  split <;>
  · split
    · rfl
    · split <;> simp

@[simp] theorem execArgtDescriptorRead_keepsRom (job : Nat) (s : State) : KeepsRom s (execArgtDescriptorRead job s) := by
  unfold execArgtDescriptorRead
  rw [keepsRom_next]
  split; · rfl
  dsimp only
  split; · rfl
  split <;> simp

@[simp] theorem execJobReady_keepsRom (job : Nat) (s : State) : KeepsRom s (execJobReady job s) := by
  unfold execJobReady
  split <;> simp

@[simp] theorem execDealChunk_keepsRom (die : Nat) (s : State) : KeepsRom s (execDealChunk die s) := by
  unfold execDealChunk
  repeat' split
  all_goals simp

@[simp] theorem execActivityStart_keepsRom (agent : Agent) (s : State) : KeepsRom s (execActivityStart agent s) := by
  unfold execActivityStart
  dsimp only
  rw [keepsRom_next]
  split; · rfl
  split; · rfl
  split
  · split; · rfl
    split <;>
    · split; · rfl
      split; · rfl
      split
      · rfl
      · simp
  · rfl

@[simp] theorem execFirstIssue_keepsRom (uid : Nat) (s : State) : KeepsRom s (execFirstIssue uid s) := by
  unfold execFirstIssue
  rw [keepsRom_next]
  split; · rfl
  split; · rfl
  dsimp only
  split; · rfl
  split; · rfl
  split <;> simp

@[simp] theorem State.takeRetired_rom (msg : Nat) (s : State) : (State.takeRetired msg s).svc.rom = s.svc.rom := by
  unfold State.takeRetired
  repeat' split
  all_goals simp

@[simp] theorem State.noteCompletion_rom (j : Job) (s : State) : (State.noteCompletion j s).svc.rom = s.svc.rom := by
  simp [State.noteCompletion]

@[simp] theorem execJobCompletion_keepsRom (job : Nat) (s : State) : KeepsRom s (execJobCompletion job s) := by
  unfold execJobCompletion
  rw [keepsRom_next]
  split; · rfl
  dsimp only
  split <;> simp

end Sys2Proof.Machine
end

section
/-! SUPPORT. The image that runs and the fused security version stay as they are: the operations of
Sys2Proof/Machine/Evict.lean. -/

namespace Sys2Proof.Machine

@[simp] theorem State.withdraw_rom (n : Nat) (s : State) : (State.withdraw n s).svc.rom = s.svc.rom := by
  simp [State.withdraw]

@[simp] theorem State.writeCoresel_rom (core : Nat) (value : Word) (s : State) : (State.writeCoresel core value s).svc.rom = s.svc.rom := by
  simp [State.writeCoresel]

@[simp] theorem execCoreselWrite_keepsRom (core : Nat) (value : Word) (s : State) : KeepsRom s (execCoreselWrite core value s) := by
  simp [execCoreselWrite]

@[simp] theorem execSwitchEnd_keepsRom (core : Nat) (s : State) : KeepsRom s (execSwitchEnd core s) := by
  simp [execSwitchEnd]

@[simp] theorem State.finishBlock_rom (s : State) : (State.finishBlock s).svc.rom = s.svc.rom := by
  unfold State.finishBlock
  split <;> simp

@[simp] theorem State.squashSilent_rom (s : State) : (State.squashSilent s).svc.rom = s.svc.rom := by
  simp [State.squashSilent]

@[simp] theorem State.gatherTiles_rom (s : State) : (State.gatherTiles s).svc.rom = s.svc.rom := by
  simp [State.gatherTiles]

@[simp] theorem State.dropGone_rom (s : State) : (State.dropGone s).svc.rom = s.svc.rom := by
  simp [State.dropGone]

@[simp] theorem State.endFences_rom (s : State) : (State.endFences s).svc.rom = s.svc.rom := by
  simp [State.endFences]

@[simp] theorem State.saveMe_rom (s : State) : (State.saveMe s).svc.rom = s.svc.rom := by
  simp [State.saveMe]

@[simp] theorem execEviction_keepsRom (uid : Nat) (s : State) : KeepsRom s (execEviction uid s) := by
  unfold execEviction
  split <;> simp

@[simp] theorem State.without_rom (s : State) (uid : Nat) : (State.without s uid).svc.rom = s.svc.rom := by
  simp [State.without]

@[simp] theorem execVictimChoice_keepsRom (die : Nat) (s : State) : KeepsRom s (execVictimChoice die s) := by
  unfold execVictimChoice
  repeat' split
  all_goals simp

@[simp] theorem State.holdDesc_rom (tid : Nat) (s : State) : (State.holdDesc tid s).svc.rom = s.svc.rom := by
  simp [State.holdDesc]

@[simp] theorem State.reissue_rom (s : State) (c : Cmd) : (s.reissue c).svc.rom = s.svc.rom := by
  unfold State.reissue
  dsimp only
  split <;> simp

@[simp] theorem State.reissueMat_rom (s : State) (c : MatCmd) : (State.reissueMat s c).svc.rom = s.svc.rom := by
  simp [State.reissueMat]

@[simp] theorem State.reissueAll_rom (cs : List Cmd) (ms : List MatCmd) (s : State) : (s.reissueAll cs ms).svc.rom = s.svc.rom :=
  foldl_rom (fun s x => by split <;> simp) _ s

@[simp] theorem State.rebindTiles_whenRom (tiles : AMap Tile) (accs : AMap Acc) (s : State) : WhenRom s (s.rebindTiles tiles accs) := by
  have bound := WhenRom.foldl (s := s) (f := fun (x : Nat × Tile) (s : State) => s.tileRoom.map (fun s => s.modMe (fun a =>
    let b := a.touchTile x.1
    { b with tiles := b.tiles.put x.1 x.2 }))) (fun x t => (State.tileRoom_whenRom t).map (fun u => by simp)) tiles ((whenRom_some s s).2 rfl)
  unfold State.rebindTiles
  dsimp only
  split
  · exact bound
  · exact bound.bind (fun t => (State.needBank_whenRom t).map (fun u => by simp))

@[simp] theorem State.reblock_rom (n : Nat) (at_ : Option Nat) (s : State) : (State.reblock n at_ s).svc.rom = s.svc.rom := by
  unfold State.reblock
  repeat' split
  all_goals simp

@[simp] theorem State.loseSaved_rom (z : Saved) (s : State) : (s.loseSaved z).svc.rom = s.svc.rom := by
  unfold State.loseSaved
  dsimp only
  split <;> simp

@[simp] theorem State.restoreOn_whenRom (z : Saved) (n : Nat) (s : State) : WhenRom s (s.restoreOn z n) := by
  intro u e
  obtain ⟨slot, -, e⟩ := Option.bind_eq_some_iff.1 e
  dsimp only at e
  obtain ⟨t, bound, rfl⟩ := Option.map_eq_some_iff.1 e
  have kept := State.rebindTiles_whenRom _ _ _ _ bound
  rw [foldl_rom (fun s x => State.writeReg_rom ..)] at kept
  have gens : (if n = z.act.home then (s, z.act.gen) else s.takeGen n slot).1.svc.rom = s.svc.rom := by split <;> simp
  simp [kept, gens]

theorem State.restoreOn_getD_rom (z : Saved) (n : Nat) (s : State) : ((s.restoreOn z n).getD s).svc.rom = s.svc.rom := by
  cases e : s.restoreOn z n with
  | none => rfl
  | some t => exact State.restoreOn_whenRom z n s t e

@[simp] theorem execRestore_keepsRom (uid : Nat) (s : State) : KeepsRom s (execRestore uid s) := by
  unfold execRestore
  dsimp only
  rw [keepsRom_next]
  split; · rfl
  split; · rfl
  split; · rfl
  split <;> simp [State.restoreOn_getD_rom]

@[simp] theorem State.pushStarted_rom (a : Activity) (m : Nat) (s : State) : (s.pushStarted a m).svc.rom = s.svc.rom := by
  unfold State.pushStarted
  split; · rfl
  dsimp only
  split
  · split <;> simp
  · rfl

@[simp] theorem execMigration_keepsRom (core : Nat) (s : State) : KeepsRom s (execMigration core s) := by
  unfold execMigration
  repeat' split
  all_goals simp

@[simp] theorem State.discardSaved_rom (z : Saved) (s : State) : (s.discardSaved z).svc.rom = s.svc.rom := by
  unfold State.discardSaved
  dsimp only
  split <;> simp

@[simp] theorem State.endJob_rom (vd jid : Nat) (s : State) : (State.endJob vd jid s).svc.rom = s.svc.rom := by
  simp [State.endJob]

@[simp] theorem State.takeEnd_rom (msg : Nat) (s : State) : (State.takeEnd msg s).svc.rom = s.svc.rom := by
  unfold State.takeEnd
  repeat' split
  all_goals simp

@[simp] theorem State.writeDspcmd_rom (value : Word) (s : State) : (State.writeDspcmd value s).svc.rom = s.svc.rom := by
  simp [State.writeDspcmd]

@[simp] theorem execDspcmdEndJob_keepsRom (value : Word) (s : State) : KeepsRom s (execDspcmdEndJob value s) := by
  simp [execDspcmdEndJob]

end Sys2Proof.Machine
end

section
/-! SUPPORT. The image that runs and the fused security version stay as they are: the operations of
Sys2Proof/Machine/Shares.lean. -/

namespace Sys2Proof.Machine

@[simp] theorem execTokenRefill_keepsRom (arb : Arbiter) (s : State) : KeepsRom s (execTokenRefill arb s) := by
  simp [execTokenRefill]

@[simp] theorem State.writeVdctl_rom (vd : Nat) (value : Word) (s : State) : (State.writeVdctl vd value s).svc.rom = s.svc.rom := by
  simp [State.writeVdctl]

@[simp] theorem execVdEnable_keepsRom (vd : Nat) (value : Word) (s : State) : KeepsRom s (execVdEnable vd value s) := by
  simp [execVdEnable]

@[simp] theorem State.setVdctl_rom (vd : Nat) (value : Word) (s : State) : (State.setVdctl vd value s).svc.rom = s.svc.rom := by
  simp [State.setVdctl]

@[simp] theorem State.setVdctls_rom (s : State) : (State.setVdctls s).svc.rom = s.svc.rom := by
  simp [State.setVdctls]

@[simp] theorem State.writeShr_rom (vd c : Nat) (value : Word) (s : State) : (State.writeShr vd c value s).svc.rom = s.svc.rom := by
  simp [State.writeShr]

@[simp] theorem execShrWrite_keepsRom (vd c : Nat) (value : Word) (s : State) : KeepsRom s (execShrWrite vd c value s) := by
  simp [execShrWrite]

@[simp] theorem State.remaskSets_rom (s : State) : (State.remaskSets s).svc.rom = s.svc.rom := by
  simp [State.remaskSets]

@[simp] theorem State.writeWaymsk_rom (vd slice : Nat) (value : Word) (s : State) : (State.writeWaymsk vd slice value s).svc.rom = s.svc.rom := by
  simp [State.writeWaymsk]

@[simp] theorem execWaymskWrite_keepsRom (vd slice : Nat) (value : Word) (s : State) : KeepsRom s (execWaymskWrite vd slice value s) := by
  simp [execWaymskWrite]

end Sys2Proof.Machine
end

section
/-! SUPPORT. The image that runs and the fused security version stay as they are: the operations of
Sys2Proof/Machine/Links.lean. -/

namespace Sys2Proof.Machine

@[simp] theorem effBaddq_keepsRom (r : R) (s : State) : Eff.KeepsRom s (effBaddq r s) := by
  simp [effBaddq]

@[simp] theorem execBaddq_keepsRom (r : R) (s : State) : KeepsRom s (execBaddq r s) :=
  issue_keepsRom (fun p => by simp)

@[simp] theorem State.setSlots_rom (l : List Nat) (s : State) : (State.setSlots l s).svc.rom = s.svc.rom := by
  simp [State.setSlots]

@[simp] theorem effBqtake_keepsRom (r : R) (s : State) : Eff.KeepsRom s (effBqtake r s) := by
  unfold effBqtake
  split <;> simp

@[simp] theorem execBqtake_keepsRom (r : R) (s : State) : KeepsRom s (execBqtake r s) :=
  issue_keepsRom (fun p => by simp)

@[simp] theorem State.hostWrite_rom (vd va : Nat) (data : List Byte) (relaxed : Bool) (s : State) :
    (s.hostWrite vd va data relaxed).svc.rom = s.svc.rom := by
  unfold State.hostWrite
  split; · rfl
  split <;> simp

@[simp] theorem execHostWrite_keepsRom (vd va : Nat) (data : List Byte) (relaxed : Bool) (s : State) :
    KeepsRom s (execHostWrite vd va data relaxed s) := by
  simp [execHostWrite]

@[simp] theorem State.hostRead_rom (vd va len : Nat) (s : State) : (s.hostRead vd va len).svc.rom = s.svc.rom := by
  unfold State.hostRead
  split; · rfl
  dsimp only
  split
  · exact State.keepVirt_rom ..
  · rfl

@[simp] theorem execHostRead_keepsRom (vd va len : Nat) (s : State) : KeepsRom s (execHostRead vd va len s) := by
  simp [execHostRead]

@[simp] theorem State.answer_rom (code : Nat) (data : List Byte) (s : State) : (State.answer code data s).svc.rom = s.svc.rom := by
  simp [State.answer, Svc.rom_inj]

@[simp] theorem State.chargeLink_rom (link vd n : Nat) (out : Bool) (s : State) : (State.chargeLink link vd n out s).svc.rom = s.svc.rom := by
  simp [State.chargeLink]

@[simp] theorem State.blockRecord_rom (link vd : Nat) (data : List Byte) (s : State) : (s.blockRecord link vd data).svc.rom = s.svc.rom := by
  unfold State.blockRecord
  dsimp only
  split; · simp
  split <;> simp

@[simp] theorem State.peerAccess_rom (link vd va : Nat) (data : List Byte) (write : Bool) (s : State) :
    (s.peerAccess link vd va data write).svc.rom = s.svc.rom := by
  unfold State.peerAccess
  split; · simp
  split; · simp
  split; · simp
  split; · simp
  dsimp only
  split; · simp
  split <;> simp

@[simp] theorem execPeerAccess_keepsRom (link vd va : Nat) (data : List Byte) (write : Bool) (s : State) :
    KeepsRom s (execPeerAccess link vd va data write s) := by
  simp [execPeerAccess]

@[simp] theorem execBlockRecord_keepsRom (link vd : Nat) (data : List Byte) (s : State) : KeepsRom s (execBlockRecord link vd data s) := by
  simp [execBlockRecord]

@[simp] theorem execModidWrite_keepsRom (value : Word) (s : State) : KeepsRom s (execModidWrite value s) := by
  simp [execModidWrite, Svc.rom_inj]

@[simp] theorem execLinkDown_keepsRom (port : Port) (s : State) : KeepsRom s (execLinkDown port s) := by
  cases port <;> simp [execLinkDown, Svc.rom_inj]

@[simp] theorem State.endRound_rom (r : SwRound) (code : Nat) (s : State) : (State.endRound r code s).svc.rom = s.svc.rom := by
  simp [State.endRound]

@[simp] theorem execSwitchReductionResult_keepsRom (round : Nat) (s : State) : KeepsRom s (execSwitchReductionResult round s) := by
  unfold execSwitchReductionResult
  rw [keepsRom_next]
  split; · rfl
  split; · simp
  split; · simp
  refine (State.endRound_rom ..).trans ?_
  refine foldl_fst_rom ?_ _ _
  simp

end Sys2Proof.Machine
end

section
/-! SUPPORT. The image that runs and the fused security version stay as they are: the operations of
Sys2Proof/Machine/Registers.lean. -/

namespace Sys2Proof.Machine

@[simp] theorem State.setBucket_rom (b : Nat) (e : Bucket) (s : State) : (State.setBucket b e s).svc.rom = s.svc.rom := by
  simp [State.setBucket]

@[simp] theorem State.beginMove_rom (m : Move) (s : State) : (State.beginMove m s).svc.rom = s.svc.rom := by
  simp [State.beginMove]

@[simp] theorem State.writeRbctl_rom (value : Word) (s : State) : (s.writeRbctl value).svc.rom = s.svc.rom := by
  unfold State.writeRbctl
  dsimp only
  split; · rfl
  split <;> simp

@[simp] theorem execRbctlGo_keepsRom (value : Word) (s : State) : KeepsRom s (execRbctlGo value s) := by
  simp [execRbctlGo]

@[simp] theorem State.finishMove_rom (m : Move) (s : State) : (s.finishMove m).svc.rom = s.svc.rom := by
  unfold State.finishMove
  dsimp only
  split <;> simp

@[simp] theorem execBucketMove_keepsRom (s : State) : KeepsRom s (execBucketMove s) := by
  unfold execBucketMove
  split <;> simp

@[simp] theorem execRebalancer_keepsRom (s : State) : KeepsRom s (execRebalancer s) := by
  unfold execRebalancer
  rw [keepsRom_next]
  split; · rfl
  dsimp only
  split <;> simp

@[simp] theorem State.setKeyBucket_rom (b : Nat) (e : KeyBucket) (s : State) : (State.setKeyBucket b e s).svc.rom = s.svc.rom := by
  simp [State.setKeyBucket]

@[simp] theorem State.beginKeyMove_rom (b t : Nat) (s : State) : (State.beginKeyMove b t s).svc.rom = s.svc.rom := by
  simp [State.beginKeyMove]

@[simp] theorem State.writeKbctl_rom (value : Word) (s : State) : (s.writeKbctl value).svc.rom = s.svc.rom := by
  unfold State.writeKbctl
  dsimp only
  split; · rfl
  split <;> simp

@[simp] theorem execKbctlGo_keepsRom (value : Word) (s : State) : KeepsRom s (execKbctlGo value s) := by
  simp [execKbctlGo]

@[simp] theorem State.promoteAll_rom (d fuel : Nat) (s : State) : (State.promoteAll d fuel s).svc.rom = s.svc.rom := by
  fun_induction State.promoteAll <;> simp_all

@[simp] theorem State.finishKeyMove_rom (b t : Nat) (s : State) : (s.finishKeyMove b t).svc.rom = s.svc.rom := by
  unfold State.finishKeyMove
  dsimp only
  split <;> simp

@[simp] theorem execKeyBucketMove_keepsRom (s : State) : KeepsRom s (execKeyBucketMove s) := by
  unfold execKeyBucketMove
  split <;> simp

@[simp] theorem execKeyRebalancer_keepsRom (s : State) : KeepsRom s (execKeyRebalancer s) := by
  unfold execKeyRebalancer
  rw [keepsRom_next]
  split; · rfl
  dsimp only
  split <;> simp

@[simp] theorem State.putJqctl_rom (vd q : Nat) (value : Word) (s : State) : (State.putJqctl vd q value s).svc.rom = s.svc.rom := by
  simp [State.putJqctl]

@[simp] theorem execJqEnable_keepsRom (vd q : Nat) (value : Word) (s : State) : KeepsRom s (execJqEnable vd q value s) := by
  simp [execJqEnable]

@[simp] theorem State.putTail_rom (vd q : Nat) (tail : BitVec 16) (s : State) : (State.putTail vd q tail s).svc.rom = s.svc.rom := by
  simp [State.putTail]

@[simp] theorem execJqDoorbell_keepsRom (vd q : Nat) (tail : BitVec 16) (s : State) : KeepsRom s (execJqDoorbell vd q tail s) := by
  simp [execJqDoorbell]

@[simp] theorem State.startGateway_rom (ag : Agent) (slot vd : Nat) (c : Card) (image : List Byte) (s : State) :
    (State.startGateway ag slot vd c image s).svc.rom = s.svc.rom := by
  simp [State.startGateway]

@[simp] theorem State.goGateway_rom (n vd va : Nat) (s : State) : (s.goGateway n vd va).svc.rom = s.svc.rom := by
  unfold State.goGateway
  dsimp only
  split
  · simp
  split <;>
  · split
    · simp
    · split <;> simp

@[simp] theorem State.writeGwctl_rom (n : Nat) (value : Word) (s : State) : (State.writeGwctl n value s).svc.rom = s.svc.rom := by
  simp [State.writeGwctl, Svc.rom_inj]

@[simp] theorem execGatewayStart_keepsRom (n : Nat) (value : Word) (s : State) : KeepsRom s (execGatewayStart n value s) := by
  simp [execGatewayStart]

@[simp] theorem State.writeSvccmd_rom (value : Word) (s : State) : (s.writeSvccmd value).svc.rom = s.svc.rom := by
  unfold State.writeSvccmd
  dsimp only
  split <;> rfl

@[simp] theorem State.beginXlinv_rom (x : XlinvRun) (s : State) : (State.beginXlinv x s).svc.rom = s.svc.rom := by
  simp [State.beginXlinv, Svc.rom_inj]

@[simp] theorem State.writeXlinv_rom (value : Word) (s : State) : (s.writeXlinv value).svc.rom = s.svc.rom := by
  unfold State.writeXlinv
  dsimp only
  split; · rfl
  split; · rfl
  exact State.beginXlinv_rom ..

@[simp] theorem State.modSvc_rom {f : Svc → Svc} {s : State} (h : (f s.svc).rom = s.svc.rom) : (s.modSvc f).svc.rom = s.svc.rom := h

@[simp] theorem State.writeVdReg_rom (vd : Nat) (f : Vd → Vd) (s : State) : (State.writeVdReg vd f s).svc.rom = s.svc.rom := by
  simp [State.writeVdReg]

@[simp] theorem State.whenBooted_rom {f : State → State} (h : ∀ s, (f s).svc.rom = s.svc.rom) (s : State) :
    (s.whenBooted f).svc.rom = s.svc.rom := by
  simp [State.whenBooted, h]

@[simp] theorem State.putReg_rom (reg : HostReg) (value : Word) (s : State) : (State.putReg reg value s).svc.rom = s.svc.rom := by
  unfold State.putReg
  split <;> simp

@[simp] theorem State.bar0Write_rom (vf : Option Nat) (o : Nat) (value : Word) (s : State) :
    (State.bar0Write vf o value s).svc.rom = s.svc.rom := by
  unfold State.bar0Write
  split <;> simp

@[simp] theorem State.bar0Read_rom (vf : Option Nat) (o : Nat) (s : State) : (State.bar0Read vf o s).svc.rom = s.svc.rom := by
  simp [State.bar0Read, Svc.rom_inj]

@[simp] theorem State.regAccess_rom (reg : HostReg) (value : Word) (s : State) : (State.regAccess reg value s).svc.rom = s.svc.rom := by
  unfold State.regAccess
  split <;> simp

@[simp] theorem execRegisterWrite_keepsRom (reg : HostReg) (value : Word) (s : State) : KeepsRom s (execRegisterWrite reg value s) := by
  have modSvc {f : Svc → Svc} (h : ∀ v, (f v).rom = v.rom) : (s.whenBooted (State.modSvc f)).svc.rom = s.svc.rom :=
    State.whenBooted_rom (fun s => h s.svc) s
  unfold execRegisterWrite
  rw [keepsRom_next]
  split
  · simp
  · exact modSvc (fun _ => rfl)
  · split <;> rfl
  · simp
  · exact modSvc (fun _ => rfl)
  · exact modSvc (fun _ => rfl)
  · simp
  · simp

@[simp] theorem State.deliverIn_rom (i : Inbound) (s : State) : (State.deliverIn i s).svc.rom = s.svc.rom := by
  unfold State.deliverIn
  split <;> simp

@[simp] theorem State.retryInbound_rom (s : State) : s.retryInbound.svc.rom = s.svc.rom :=
  foldl_rom (fun s i => State.receive_rom (State.deliverIn_rom i) i s) _ _

end Sys2Proof.Machine
end

section
/-! SUPPORT. The image that runs and the fused security version stay as they are: the operations of
Sys2Proof/Machine/Service.lean. -/

namespace Sys2Proof.Machine

@[simp] theorem State.endCommand_rom (status : Nat) (s : State) : (State.endCommand status s).svc.rom = s.svc.rom := by
  simp [State.endCommand, Svc.rom_inj]

@[simp] theorem State.killAll_rom (uids : List Nat) (s : State) : (State.killAll uids s).svc.rom = s.svc.rom := by
  simp [State.killAll]

@[simp] theorem State.faultAll_rom (ag : Agent) (s : State) : (State.faultAll ag s).svc.rom = s.svc.rom := by
  simp [State.faultAll]

@[simp] theorem execRetireComputeCore_keepsRom (core : Nat) (s : State) : KeepsRom s (execRetireComputeCore core s) := by
  simp [execRetireComputeCore]

@[simp] theorem State.sendOn_rom (n : Nat) (s : State) : (State.sendOn n s).svc.rom = s.svc.rom := by
  simp [State.sendOn]

@[simp] theorem execRetireSpindle_keepsRom (n : Nat) (s : State) : KeepsRom s (execRetireSpindle n s) := by
  unfold execRetireSpindle
  rw [keepsRom_next]
  split; · rfl
  dsimp only
  split; · simp
  split; · simp
  split
  · split <;> simp
  · exact (State.endCommand_rom ..).trans (State.sendOn_rom n s)

@[simp] theorem execRepairDramRow_keepsRom (channel bank row : Nat) (s : State) : KeepsRom s (execRepairDramRow channel bank row s) := by
  simp [execRepairDramRow, Svc.rom_inj]

@[simp] theorem execSpareALane_keepsRom (iface lane : Nat) (s : State) : KeepsRom s (execSpareALane iface lane s) := by
  simp [execSpareALane, Svc.rom_inj]

@[simp] theorem execSetRoute_keepsRom (module link : Nat) (valid : Bool) (s : State) : KeepsRom s (execSetRoute module link valid s) := by
  simp [execSetRoute, Svc.rom_inj]

@[simp] theorem execServiceCommandEnd_keepsRom (s : State) : KeepsRom s (execServiceCommandEnd s) := by
  unfold execServiceCommandEnd
  rw [keepsRom_next]
  split; · rfl
  split; · rfl
  exact State.report_rom ..

@[simp] theorem State.warmBegin_rom (d : Nat) (s : State) : (State.warmBegin d s).svc.rom = s.svc.rom := by
  simp [State.warmBegin, Svc.rom_inj]

@[simp] theorem State.refuseRequests_rom (d : Nat) (s : State) : (State.refuseRequests d s).svc.rom = s.svc.rom := by
  simp [State.refuseRequests]

@[simp] theorem State.warmDrain_rom (d : Nat) (s : State) : (State.warmDrain d s).svc.rom = s.svc.rom := by
  simp [State.warmDrain, Svc.rom_inj]

@[simp] theorem State.warmKeys_rom (d : Nat) (s : State) : (s.warmKeys d).svc.rom = s.svc.rom := by
  unfold State.warmKeys
  split; · rfl
  split
  · simp
  · rfl

@[simp] theorem State.warmSlices_rom (d : Nat) (s : State) : (s.warmSlices d).svc.rom = s.svc.rom := by
  unfold State.warmSlices
  split; · rfl
  split
  · simp
  · rfl

@[simp] theorem State.warmReset_rom (d : Nat) (s : State) : (State.warmReset d s).svc.rom = s.svc.rom := by
  simp [State.warmReset, Svc.rom_inj]

@[simp] theorem execDieWarmReset_keepsRom (die : Nat) (s : State) : KeepsRom s (execDieWarmReset die s) := by
  unfold execDieWarmReset
  repeat' split
  all_goals simp

@[simp] theorem execXlinvGo_keepsRom (value : Word) (s : State) : KeepsRom s (execXlinvGo value s) := by
  simp [execXlinvGo]

@[simp] theorem execXlinvAck_keepsRom (s : State) : KeepsRom s (execXlinvAck s) := by
  unfold execXlinvAck
  rw [keepsRom_next]
  split; · rfl
  next x _ =>
  split; · rfl
  exact State.flushLines_rom (fun l => l.key.vd = x.vd && l.inFrames (s.freedFrames x)) s

@[simp] theorem execErrctlRead_keepsRom (s : State) : KeepsRom s (execErrctlRead s) := by
  simp [execErrctlRead, Svc.rom_inj]

@[simp] theorem execTimingReplay_keepsRom (unit : Latched) (s : State) : KeepsRom s (execTimingReplay unit s) := by
  unfold execTimingReplay
  split <;> simp

@[simp] theorem execFlitReplay_keepsRom (link : Nat) (s : State) : KeepsRom s (execFlitReplay link s) := by
  simp [execFlitReplay]

@[simp] theorem State.trip_rom (s : State) : (State.trip s).svc.rom = s.svc.rom := by
  simp [State.trip, Svc.rom_inj]

@[simp] theorem execTelemetryUpdate_keepsRom (die : Nat) (telem : Word) (power : BitVec 32) (energy : Word) (s : State) :
    KeepsRom s (execTelemetryUpdate die telem power energy s) := by
  simp [execTelemetryUpdate, Svc.rom_inj]

@[simp] theorem execThermtrip_keepsRom (die : Nat) (s : State) : KeepsRom s (execThermtrip die s) := by
  simp [execThermtrip]

@[simp] theorem execSetKey_keepsRom (slot : Nat) (key1 key2 : BitVec 256) (s : State) : KeepsRom s (execSetKey slot key1 key2 s) := by
  simp [execSetKey, Svc.rom_inj]

@[simp] theorem execEraseKey_keepsRom (slot : Nat) (s : State) : KeepsRom s (execEraseKey slot s) := by
  simp [execEraseKey, Svc.rom_inj]

@[simp] theorem execSelectKey_keepsRom (vd slot : Nat) (s : State) : KeepsRom s (execSelectKey vd slot s) := by
  simp [execSelectKey, Svc.rom_inj]

@[simp] theorem execSpdmRequest_keepsRom (request : Spdm) (s : State) : KeepsRom s (execSpdmRequest request s) := by
  simp [execSpdmRequest, Svc.rom_inj]

end Sys2Proof.Machine
end

section
/-! SUPPORT. The image that runs and the fused security version stay as they are: the operations of
Sys2Proof/Machine/Fetch.lean. -/

namespace Sys2Proof.Machine

@[simp] theorem State.take_rom (a : Activity) (s : State) : (State.take a s).svc.rom = s.svc.rom := by
  simp [State.take]

end Sys2Proof.Machine
end

section
/-! SUPPORT. The image that runs and the fused security version stay as they are: the operations of
Sys2Proof/Machine/Turn.lean. -/

namespace Sys2Proof.Machine

@[simp] theorem State.drawSync_rom (s before : State) (a : Activity) : (State.drawSync s before a).svc.rom = s.svc.rom := by
  unfold State.drawSync
  split <;> simp

end Sys2Proof.Machine
end

section
/-! SUPPORT. Cold reset and the raise of the fused security version (R445, R447), every step of the machine, and O58. -/

namespace Sys2Proof.Machine

theorem State.NoRollback.of_rom {s t : State} (h : s.NoRollback) (e : t.svc.rom = s.svc.rom) : t.NoRollback := by
  obtain ⟨boot, fused⟩ := Svc.rom_inj.1 e
  unfold State.NoRollback
  rw [boot, fused]
  exact h

/-- An outcome lets no image run whose security version lies below the fused one, where the state before it lets none. -/
def SafeFrom (s : State) (o : Host.Outcome State Fault Refusal) : Prop := s.NoRollback → ∀ t, o = .next t → t.NoRollback

theorem KeepsRom.safeFrom {s : State} {o : Host.Outcome State Fault Refusal} (h : KeepsRom s o) : SafeFrom s o :=
  fun safe t e => safe.of_rom (h t e)

theorem safeFrom_next {s t : State} (h : s.NoRollback → t.NoRollback) : SafeFrom s (.next t) := fun safe u e => by cases e; exact h safe

theorem Svc.imageOk_version {v : Svc} {i : Image} (h : v.imageOk i = true) : v.fusedVersion ≤ i.securityVersion := by
  simp only [Svc.imageOk, Bool.and_eq_true, decide_eq_true_eq] at h
  exact h.1.1.1.1.1.2

theorem Svc.bootWith_version {v : Svc} {p b i : Image} (h : v.bootWith p b = .running i) : v.fusedVersion ≤ i.securityVersion := by
  unfold Svc.bootWith at h
  split at h
  next ok => cases h; exact Svc.imageOk_version ok
  split at h
  next ok => cases h; exact Svc.imageOk_version ok
  cases h

theorem execColdReset_safeFrom (p b : Image) (s : State) : SafeFrom s (execColdReset p b s) := by
  refine safeFrom_next (fun _ i running => ?_)
  dsimp only at running ⊢
  cases chosen : s.svc.bootWith p b with
  | running j =>
    rw [chosen] at running
    cases running
    exact Svc.bootWith_version chosen
  | _ => rw [chosen] at running; cases running

theorem execRaiseFusedSecurityVersion_safeFrom (version : Nat) (s : State) : SafeFrom s (execRaiseFusedSecurityVersion version s) := by
  refine safeFrom_next (fun safe => ?_)
  split
  next j runs =>
    split
    · exact safe
    next allowed =>
      intro i running
      obtain rfl : j = i := Boot.running.inj (runs.symm.trans running)
      have old : s.svc.fusedVersion ≤ j.securityVersion := safe j runs
      obtain ⟨-, new⟩ : s.inSession = true ∧ version ≤ j.securityVersion := by simpa using allowed
      exact Nat.max_le.2 ⟨old, new⟩
  next => exact safe

theorem exec_safeFrom (i : Instr) (s : State) : SafeFrom s (exec i s) := by
  cases i
  case coldReset p b => exact execColdReset_safeFrom p b s
  case raiseFusedSecurityVersion v => exact execRaiseFusedSecurityVersion_safeFrom v s
  all_goals
    refine KeepsRom.safeFrom ?_
    simp [exec]

/-- Steps of units, each of which leaves the image and the fused version as they are in every state. -/
def KeepRomAll (fs : List Act) : Prop := ∀ f ∈ fs, ∀ s, KeepsRom s (f s)

@[simp] theorem keepRomAll_nil : KeepRomAll [] := fun _ h => nomatch h
@[simp] theorem keepRomAll_cons (f : Act) (fs : List Act) : KeepRomAll (f :: fs) ↔ (∀ s, KeepsRom s (f s)) ∧ KeepRomAll fs := List.forall_mem_cons
@[simp] theorem keepRomAll_append (fs gs : List Act) : KeepRomAll (fs ++ gs) ↔ KeepRomAll fs ∧ KeepRomAll gs := List.forall_mem_append
@[simp] theorem keepRomAll_map {α : Type} (g : α → Act) (l : List α) : KeepRomAll (l.map g) ↔ ∀ x ∈ l, ∀ s, KeepsRom s (g x s) :=
  List.forall_mem_map
@[simp] theorem keepRomAll_flatMap {α : Type} (g : α → List Act) (l : List α) : KeepRomAll (l.flatMap g) ↔ ∀ x ∈ l, KeepRomAll (g x) :=
  List.forall_mem_flatMap
@[simp] theorem ite_keepRomAll (c : Prop) [Decidable c] (fs gs : List Act) :
    KeepRomAll (if c then fs else gs) ↔ if c then KeepRomAll fs else KeepRomAll gs := by split <;> rfl

@[simp] theorem actEvents_keepRom (a : Activity) : KeepRomAll (actEvents a) := by simp [actEvents]

@[simp] theorem cmdEvents_keepRom (c : Cmd) : KeepRomAll (cmdEvents c) := by simp [cmdEvents]

@[simp] theorem loadEvents_keepRom (k : Core) : KeepRomAll (loadEvents k) := by
  intro f h
  obtain ⟨g, -, e⟩ := List.mem_filterMap.1 h
  split at e <;> cases e
  exact execCodeLoad_keepsRom _ _

@[simp] theorem coreEvents_keepRom (k : Core) : KeepRomAll (coreEvents k) := by simp [coreEvents]

@[simp] theorem svcEvents_keepRom (r : SvcRun) : KeepRomAll (svcEvents r) := by
  unfold svcEvents
  split
  · simp
  · split <;> simp

theorem State.events_keepRom (s : State) : KeepRomAll s.events := by
  unfold State.events
  split <;> simp

theorem State.after_rom {f : Act} (h : ∀ s, KeepsRom s (f s)) (s : State) : (s.after f).svc.rom = s.svc.rom := by
  unfold State.after
  split
  next t e => exact h s t e
  next => rfl

theorem State.afterAll_rom {fs : List Act} (h : KeepRomAll fs) (s : State) : (s.afterAll fs).svc.rom = s.svc.rom := by
  induction fs generalizing s with
  | nil => rfl
  | cons f fs ih =>
    obtain ⟨first, others⟩ := (keepRomAll_cons f fs).1 h
    exact (ih others _).trans (State.after_rom first s)

@[simp] theorem State.dirActs_keepRom (s : State) : KeepRomAll s.dirActs := by simp [State.dirActs]

@[simp] theorem State.unitActs_keepRom (s : State) : KeepRomAll s.unitActs := by
  unfold State.unitActs
  split <;> simp

@[simp] theorem State.arrivalActs_keepRom (s : State) : KeepRomAll s.arrivalActs := by simp [State.arrivalActs]

@[simp] theorem State.roomActs_keepRom (s : State) : KeepRomAll s.roomActs := by simp [State.roomActs]

@[simp] theorem State.lateActs_keepRom (s : State) : KeepRomAll s.lateActs := by simp [State.lateActs]

@[simp] theorem State.matrixActs_keepRom (s : State) : KeepRomAll s.matrixActs := by simp [State.matrixActs]

@[simp] theorem State.evictionActs_keepRom (s : State) : KeepRomAll s.evictionActs := by simp [State.evictionActs]

@[simp] theorem actDue_keepRom (cycle : Nat) (a : Activity) : KeepRomAll (actDue cycle a) := by
  unfold actDue
  split <;> simp

@[simp] theorem State.refills_keepRom (s : State) : KeepRomAll s.refills := by simp [State.refills]

@[simp] theorem State.closeCycle_rom (s : State) : s.closeCycle.svc.rom = s.svc.rom := by
  simp [State.closeCycle, State.afterAll_rom]

@[simp] theorem State.tick_rom (s : State) : s.tick.svc.rom = s.svc.rom := by
  simp [State.tick, State.afterAll_rom]

theorem State.deviceTurn_keepsRom (s : State) : KeepsRom s s.deviceTurn := by
  unfold State.deviceTurn
  dsimp only
  split
  next f found => exact s.events_keepRom f (List.mem_of_getElem? found) _
  next => simp

/-! ## An agent's turn, and the step -/

theorem SafeFrom.of_rom {s s' : State} {o : Host.Outcome State Fault Refusal} (h : SafeFrom s' o) (e : s'.svc.rom = s.svc.rom) : SafeFrom s o :=
  fun safe => h (safe.of_rom e)

theorem State.issueOwn_safeFrom (s : State) : SafeFrom s s.issueOwn := by
  unfold State.issueOwn
  split
  · exact exec_safeFrom _ s
  · exact KeepsRom.safeFrom (by simp)
  · exact KeepsRom.safeFrom (by simp)

theorem State.issueMe_safeFrom (s : State) : SafeFrom s s.issueMe := by
  unfold State.issueMe
  split
  · exact s.issueOwn_safeFrom
  · split
    next t issued =>
      split
      · exact safeFrom_next (fun safe => (s.issueOwn_safeFrom safe t issued).of_rom (State.modAct_rom ..))
      · exact KeepsRom.safeFrom (by simp)
    next => exact s.issueOwn_safeFrom

theorem State.agentTurn_safeFrom (ag : Agent) (rest : List Agent) (s : State) : SafeFrom s (s.agentTurn ag rest) := by
  unfold State.agentTurn
  split
  · exact KeepsRom.safeFrom (by simp)
  next a _ =>
    have issues : SafeFrom s (s.take a).issueMe := (s.take a).issueMe_safeFrom.of_rom (State.take_rom ..)
    split
    next t issued =>
      refine safeFrom_next (fun safe => ?_)
      have kept : t.NoRollback := issues safe t issued
      split
      · exact kept
      · exact kept.of_rom (by simp)
    next => exact issues

theorem State.agendaTurn_safeFrom (i : Instr) (s : State) : SafeFrom s (State.agendaTurn i s) := by
  unfold State.agendaTurn
  split
  · exact exec_safeFrom i s
  · exact safeFrom_next id

theorem State.stoppedTurn_safeFrom (s : State) : SafeFrom s s.stoppedTurn := by
  unfold State.stoppedTurn
  split
  · exact execColdReset_safeFrom _ _ s
  · exact fun _ _ e => nomatch e

theorem step_safeFrom (s : State) : SafeFrom s (step s) := by
  unfold step
  split
  · exact s.stoppedTurn_safeFrom
  split
  next i rest _ => exact (State.agendaTurn_safeFrom i _).of_rom rfl
  split
  · split
    · exact State.agentTurn_safeFrom _ _ s
    · exact safeFrom_next id
  · exact s.deviceTurn_keepsRom.safeFrom

/-- Settles O58: only a cold reset, which checks the image against the fused version, and a raise of that version, which the running image
limits, change either; every other step leaves both as they are. -/
theorem noRollbackKept : Obligations.NoRollbackKept := by
  unfold Obligations.NoRollbackKept
  exact fun s t safe stepped => step_safeFrom s safe t stepped

end Sys2Proof.Machine
end

section
/-! SUPPORT. Every instruction and every step answers a next state until THERMTRIP# (R444), and O57. -/

namespace Sys2Proof.Machine

/-- An outcome is a next state. -/
def Answers (o : Host.Outcome State Fault Refusal) : Prop := ∃ t, o = .next t

@[simp] theorem answers_next (t : State) : Answers (.next t) := ⟨t, rfl⟩

/-- Every instruction and every step has an arm that ends in a next state; its branches stand inside that. -/
theorem exec_answers (i : Instr) (s : State) : Answers (exec i s) := by
  cases i <;> exact answers_next _

/-! ## The steps of units -/

/-- Steps of units, each of which answers a next state in every state. -/
def AnswerAll (fs : List Act) : Prop := ∀ f ∈ fs, ∀ s, Answers (f s)

@[simp] theorem answerAll_nil : AnswerAll [] := fun _ h => nomatch h
@[simp] theorem answerAll_cons (f : Act) (fs : List Act) : AnswerAll (f :: fs) ↔ (∀ s, Answers (f s)) ∧ AnswerAll fs := List.forall_mem_cons
@[simp] theorem answerAll_append (fs gs : List Act) : AnswerAll (fs ++ gs) ↔ AnswerAll fs ∧ AnswerAll gs := List.forall_mem_append
@[simp] theorem answerAll_map {α : Type} (g : α → Act) (l : List α) : AnswerAll (l.map g) ↔ ∀ x ∈ l, ∀ s, Answers (g x s) :=
  List.forall_mem_map
@[simp] theorem answerAll_flatMap {α : Type} (g : α → List Act) (l : List α) : AnswerAll (l.flatMap g) ↔ ∀ x ∈ l, AnswerAll (g x) :=
  List.forall_mem_flatMap
@[simp] theorem ite_answerAll (c : Prop) [Decidable c] (fs gs : List Act) :
    AnswerAll (if c then fs else gs) ↔ if c then AnswerAll fs else AnswerAll gs := by split <;> rfl

@[simp] theorem actEvents_answer (a : Activity) : AnswerAll (actEvents a) := by
  simp [actEvents, execDescriptorRead, execEviction, execRetirement, execSpindleProgramEnd]

@[simp] theorem cmdEvents_answer (c : Cmd) : AnswerAll (cmdEvents c) := by
  simp [cmdEvents, execCopyStart, execPageWalk, execProgramRequestQueued, execTflushDone, execCodeldDone, execCxlTimeout, execLinkDownTimeout,
    execPushLanded, execLineFill, execLandingUnit, execStorePerformed]

@[simp] theorem loadEvents_answer (k : Core) : AnswerAll (loadEvents k) := by
  intro f h
  obtain ⟨g, -, e⟩ := List.mem_filterMap.1 h
  split at e <;> cases e
  exact fun s => answers_next _

@[simp] theorem coreEvents_answer (k : Core) : AnswerAll (coreEvents k) := by
  simp [coreEvents, execMmaStart, execKstepEnd, execTilePortComplete, execVectorAccessDone, execJournalAck, execSpindleProgramStart,
    execSwitchEnd]

@[simp] theorem svcEvents_answer (r : SvcRun) : AnswerAll (svcEvents r) := by
  unfold svcEvents
  split
  · simp [execServiceCommandEnd]
  · split <;> simp [execRetireComputeCore, execRetireSpindle, execRepairDramRow, execSpareALane, execDieWarmReset, execSetRoute]

theorem State.events_answer (s : State) : AnswerAll s.events := by
  unfold State.events
  split <;> simp [execVictimChoice, execBucketMove, execKeyBucketMove, execXlinvAck, execSwitchReductionResult]

/-! ## The turns -/

theorem State.issueOwn_answers (s : State) : Answers s.issueOwn := by
  unfold State.issueOwn
  split
  · exact exec_answers _ s
  · exact answers_next _
  · exact answers_next _

theorem asyncTrap_answers (cause uid : Nat) (s : State) : Answers (asyncTrap cause uid s) := by
  unfold asyncTrap
  split
  · exact answers_next _
  · split <;> exact answers_next _

theorem State.issueMe_answers (s : State) : Answers s.issueMe := by
  unfold State.issueMe
  split
  · exact s.issueOwn_answers
  · split
    · split
      · exact answers_next _
      · exact asyncTrap_answers ..
    · exact s.issueOwn_answers

theorem State.agentTurn_answers (ag : Agent) (rest : List Agent) (s : State) : Answers (s.agentTurn ag rest) := by
  unfold State.agentTurn
  split
  · exact answers_next _
  · split
    · exact answers_next _
    · exact State.issueMe_answers _

theorem State.agendaTurn_answers (i : Instr) (s : State) : Answers (State.agendaTurn i s) := by
  unfold State.agendaTurn
  split
  · exact exec_answers i s
  · exact answers_next s

theorem State.deviceTurn_answers (s : State) : Answers s.deviceTurn := by
  unfold State.deviceTurn
  dsimp only
  split
  next f found => exact s.events_answer f (List.mem_of_getElem? found) _
  next => exact answers_next _

/-- R444. While the clocks run, each turn of the machine answers a next state. -/
theorem step_answers {s : State} (running : s.Running) : Answers (step s) := by
  unfold step
  rw [if_neg (by simp [show s.svc.tripped = false from running])]
  split
  · exact State.agendaTurn_answers ..
  · split
    · split
      · exact State.agentTurn_answers ..
      · exact answers_next _
    · exact s.deviceTurn_answers

/-! ## THERMTRIP# -/

theorem step_of_tripped {s : State} (tripped : s.svc.tripped = true) : step s = s.stoppedTurn := if_pos tripped

theorem State.stoppedTurn_of_no_coldReset {s : State} (none : ∀ p b, Instr.coldReset p b ∉ s.agenda) :
    s.stoppedTurn = .fault .clocksStopped := by
  unfold State.stoppedTurn
  split
  next p b found =>
    obtain ⟨i, listed, same⟩ := List.exists_of_findSome?_eq_some found
    split at same
    · exact absurd listed (none _ _)
    · cases same
  next => rfl

theorem State.stoppedTurn_of_coldReset {s : State} {p b : Image} {rest : List Instr} (next : s.agenda = .coldReset p b :: rest) :
    s.stoppedTurn = exec (.coldReset p b) s := by
  unfold State.stoppedTurn
  rw [next]
  rfl

/-- Settles O57: an arm of `exec` ends in a next state whatever it tests, and so does each turn of `step`; with the clocks stopped, `step` looks
for a cold reset alone. -/
theorem nothingElseStops : Obligations.NothingElseStops := by
  unfold Obligations.NothingElseStops
  refine ⟨exec_answers, fun _ => step_answers, fun s tripped none => ?_, fun s p b rest tripped next => ?_⟩
  · exact (step_of_tripped tripped).trans (State.stoppedTurn_of_no_coldReset none)
  · exact (step_of_tripped tripped).trans (State.stoppedTurn_of_coldReset next)

end Sys2Proof.Machine
end

section
/-! SUPPORT. Cold reset, keys, attestation, monitors and replays (R415, R428, R444-R447), and O52. -/

namespace Sys2Proof.Machine

/-! ## Cold reset (R445) -/

/-- What a cold reset keeps and what it gives its Reset value, whatever image runs. -/
theorem exec_coldReset (s : State) (p b : Image) : ∃ t, exec (.coldReset p b) s = .next t ∧ t.svc.boot = s.svc.bootWith p b ∧
    t.svc.tripped = false ∧ t.svc.fusedVersion = s.svc.fusedVersion ∧ t.svc.revoked = s.svc.revoked ∧ t.svc.keyHash = s.svc.keyHash ∧
    t.svc.sessions = [] ∧ t.cycle = 0 ∧ t.acts = [] ∧ t.vds = [] ∧ t.svc.keys = [] ∧ (∀ c ∈ t.mem.bytes, paKind c.1 ≠ .device) := by
  refine ⟨_, rfl, ?_⟩
  dsimp only
  have bytes : ∀ c ∈ s.mem.bytes.filter (fun c => paKind c.1 ≠ .device), paKind c.1 ≠ .device := fun c listed => by
    simpa using (List.mem_filter.1 listed).2
  cases s.svc.bootWith p b <;> exact ⟨rfl, rfl, rfl, rfl, rfl, rfl, rfl, rfl, rfl, rfl, bytes⟩

theorem Svc.bootWith_of_primary {v : Svc} {p : Image} (good : v.imageOk p = true) (b : Image) : v.bootWith p b = .running p := if_pos good

theorem Svc.bootWith_of_backup {v : Svc} {p b : Image} (bad : v.imageOk p = false) (good : v.imageOk b = true) : v.bootWith p b = .running b := by
  simp [Svc.bootWith, bad, good]

theorem Svc.bootWith_of_none {v : Svc} {p b : Image} (bad : v.imageOk p = false) (bad' : v.imageOk b = false) : v.bootWith p b = .failed := by
  simp [Svc.bootWith, bad, bad']

/-- The checks that an image has passed: its version, its key slot and the hashes of its keys, and both signatures. -/
theorem Svc.checks_of_imageOk {v : Svc} {i : Image} (good : v.imageOk i = true) : v.fusedVersion ≤ i.securityVersion ∧ i.keySlot ∉ v.revoked ∧
    i.reserved = 0 ∧ v.fusedKeys i.keySlot = (i.ecdsaKey, i.lmsKey) ∧ i.ecdsaVerifies = true ∧ i.lmsVerifies = true := by
  simp only [Svc.imageOk, Bool.and_eq_true, decide_eq_true_eq] at good
  obtain ⟨⟨⟨⟨⟨⟨⟨⟨-, -⟩, reserved⟩, version⟩, -⟩, slot⟩, keys⟩, ecdsa⟩, lms⟩ := good
  exact ⟨version, slot, reserved, keys, ecdsa, lms⟩

/-! ## Vendor requests in a secure session (R447) -/

theorem State.inSession_of_sessions {s : State} (booted : s.booted = true) (opened : s.svc.sessions ≠ []) : s.inSession = true := by
  simp [State.inSession, booted, opened]

theorem State.not_inSession {s : State} (closed : s.svc.sessions = []) : s.inSession = false := by
  simp [State.inSession, closed]

theorem State.booted_of_running {s : State} {i : Image} (running : s.svc.boot = .running i) : s.booted = true := by
  simp [State.booted, running]

theorem exec_raiseFusedSecurityVersion {s : State} {i : Image} (running : s.svc.boot = .running i) (opened : s.svc.sessions ≠ []) (n : Nat) :
    exec (.raiseFusedSecurityVersion n) s = .next (if i.securityVersion < n then s
      else { s with svc := { s.svc with fusedVersion := max s.svc.fusedVersion n } }) := by
  show execRaiseFusedSecurityVersion n s = _
  have session := State.inSession_of_sessions (State.booted_of_running running) opened
  simp [execRaiseFusedSecurityVersion, running, session, State.modSvc]

theorem exec_setKey {s : State} (session : s.inSession = true) {slot : Nat} (inRange : slot < 1024) (k1 k2 : BitVec 256) :
    exec (.setKey slot k1 k2) s = .next (if s.slotInUse slot = true then s else s.modSvc (fun v => { v with
      keys := v.keys.put slot ⟨k1, k2⟩, keyHist := if ⟨k1, k2⟩ ∈ v.keyHist then v.keyHist else v.keyHist ++ [⟨k1, k2⟩] })) := by
  show execSetKey slot k1 k2 s = _
  simp [execSetKey, session, keySlots, Nat.not_le.2 inRange]

theorem exec_eraseKey {s : State} (session : s.inSession = true) {slot : Nat} (inRange : slot < 1024) :
    exec (.eraseKey slot) s = .next (if s.slotInUse slot = true then s else s.modSvc (fun v => { v with keys := v.keys.del slot })) := by
  show execEraseKey slot s = _
  simp [execEraseKey, session, keySlots, Nat.not_le.2 inRange]

theorem exec_selectKey {s : State} (session : s.inSession = true) {slot vd : Nat} (slotInRange : slot < 1024) (vdInRange : vd < 64) :
    exec (.selectKey vd slot) s = .next (if (s.vd vd).en = true then s else s.modSvc (fun v => { v with keysel := v.keysel.put vd slot })) := by
  show execSelectKey vd slot s = _
  simp [execSelectKey, session, keySlots, Nat.not_le.2 slotInRange, Nat.not_le.2 vdInRange]

/-- Without a session none of the vendor requests has an effect. -/
theorem exec_vendorRequest_of_no_session {s : State} (closed : s.svc.sessions = []) (slot n vd : Nat) (k1 k2 : BitVec 256) :
    exec (.setKey slot k1 k2) s = .next s ∧ exec (.eraseKey slot) s = .next s ∧ exec (.selectKey vd slot) s = .next s ∧
      exec (.raiseFusedSecurityVersion n) s = .next s := by
  have session := State.not_inSession closed
  refine ⟨?_, ?_, ?_, ?_⟩
  · show execSetKey slot k1 k2 s = _
    simp [execSetKey, session]
  · show execEraseKey slot s = _
    simp [execEraseKey, session]
  · show execSelectKey vd slot s = _
    simp [execSelectKey, session]
  · show execRaiseFusedSecurityVersion n s = _
    cases boot : s.svc.boot <;> simp [execRaiseFusedSecurityVersion, boot, session]

theorem mem_append_absent {α : Type} [DecidableEq α] (x : α) (l : List α) : x ∈ (if x ∈ l then l else l ++ [x]) := by
  split
  next known => exact known
  next => simp

/-! ## Attestation (R446) -/

theorem exec_spdmRequest {s : State} (booted : s.booted = true) {request : Spdm} (inRange : spdmInRange request = true) :
    exec (.spdmRequest request) s = .next (s.modSvc (fun v => { v with
      answers := ((s.transcript request).1, (if (s.transcript request).2.1 then [Config.signature 0 (s.transcript request).1] else []) ++
        (if (s.transcript request).2.2 then [Config.signature 1 (s.transcript request).1] else [])) :: v.answers
      sessions := if opensSession request then v.answers.length :: v.sessions else v.sessions })) := by
  show execSpdmRequest request s = _
  simp [execSpdmRequest, booted, inRange]

/-! ## Monitors (R428, R444) -/

theorem exec_thermtrip {die : Nat} (inRange : die < 4) (s : State) : exec (.thermtrip die) s = .next s.trip :=
  congrArg Host.Outcome.next (if_neg (Nat.not_le.2 inRange))

/-- With every clock stopped the links are down and device memory is lost. -/
theorem State.trip_effect (s : State) : s.trip.svc.tripped = true ∧ s.trip.svc.linksUp = [] ∧ (∀ c ∈ s.trip.mem.bytes, paKind c.1 ≠ .device) ∧
    s.trip.svc.boot = s.svc.boot :=
  ⟨rfl, rfl, fun c listed => by simpa using (List.mem_filter.1 listed).2, rfl⟩

/-- TMAX, the low 16 bits of a reading, stands among the bits that the register keeps. -/
theorem tmax_of_kept (w : Word) : (keepBits w (bitsMask 47 0)).setWidth 16 = w.setWidth 16 := by
  simp only [keepBits, BitVec.setWidth_and]
  have low : (BitVec.ofNat 64 (bitsMask 47 0)).setWidth 16 = BitVec.allOnes 16 := by decide
  rw [low, BitVec.and_allOnes]

/-- The readings of a die in its registers. -/
def State.withReading (s : State) (die : Nat) (w : Word) (power : BitVec 32) (energy : Word) : State :=
  s.modSvc (fun v => { v with telem := v.telem.put die (keepBits w (bitsMask 47 0)), pwravg := power, energy := energy })

/-- A reading above THWARN is reported. -/
def State.warned (s : State) (die : Nat) (w : Word) : State :=
  if (w.setWidth 16).toInt > (s.svc.thwarn.setWidth 16).toInt then
    s.report 3 die 0xB none ((keepBits w (bitsMask 47 0)).toNat % 2 ^ 16) (s.svc.thwarn.toNat % 2 ^ 16)
  else s

theorem State.warned_of_not_above {s : State} {w : Word} (h : (w.setWidth 16).toInt ≤ (s.svc.thwarn.setWidth 16).toInt) (die : Nat) :
    s.warned die w = s := if_neg (Int.not_lt.2 h)

theorem exec_telemetryUpdate {s : State} {die : Nat} (booted : s.booted = true) (inRange : die < 4) (due : s.cycle % 1024 = 0)
    (w : Word) (power : BitVec 32) (energy : Word) : exec (.telemetryUpdate die w power energy) s =
      .next (if 1840 ≤ (w.setWidth 16).toInt then ((s.withReading die w power energy).warned die w).trip
        else (s.withReading die w power energy).warned die w) := by
  show execTelemetryUpdate die w power energy s = _
  simp only [execTelemetryUpdate, tmax_of_kept]
  rw [if_neg (by simp [booted, Nat.not_le.2 inRange, due])]
  rfl

/-! ## Replays (R415, R428) -/

theorem exec_flitReplay {s : State} {l : Nat} (up : l ∈ s.svc.linksUp) : exec (.flitReplay l) s = .next (s.report 8 l 9 none 0 0) :=
  congrArg Host.Outcome.next (if_pos up)

/-- Settles O52, clause by clause by the lemma about each request or event. -/
theorem resetsKeysAndMonitors : Obligations.ResetsKeysAndMonitors := by
  unfold Obligations.ResetsKeysAndMonitors
  refine ⟨exec_coldReset, fun v p b => ⟨fun good => Svc.bootWith_of_primary good b, Svc.bootWith_of_backup, Svc.bootWith_of_none,
    Svc.checks_of_imageOk⟩, fun s i n running opened => ?_, fun s slot n vd k1 k2 closed => exec_vendorRequest_of_no_session closed slot n vd k1 k2,
    fun s slot k1 k2 booted opened inRange => ?_, fun s nonce index booted => ?_, fun s die inRange => ?_,
    fun s die w energy power booted inRange due => ?_, fun s ag n => ⟨rfl, rfl, rfl⟩, fun s l up => exec_flitReplay up⟩
  · rw [exec_raiseFusedSecurityVersion running opened]
    exact ⟨fun allowed => by rw [if_neg (Nat.not_lt.2 allowed)], fun above => by rw [if_pos above]⟩
  · have session := State.inSession_of_sessions booted opened
    rw [exec_setKey session inRange, exec_eraseKey session inRange]
    refine ⟨fun free => ⟨_, congrArg Host.Outcome.next (if_neg (by simp [free])), rfl, mem_append_absent .., rfl⟩, fun free => by rw [if_neg (by simp [free])]; rfl,
      fun used => by simp [used], fun vd vdInRange disabled => ?_⟩
    rw [exec_selectKey session inRange vdInRange, if_neg (by simp [disabled])]
    rfl
  · refine ⟨(exec_spdmRequest booted rfl).trans rfl, fun low high t same => ?_⟩
    subst same
    exact (exec_spdmRequest booted (by simp [spdmInRange, low, high])).trans rfl
  · exact ⟨_, exec_thermtrip inRange s, s.trip_effect⟩
  · rw [exec_telemetryUpdate booted inRange due]
    refine ⟨fun belowWarning belowTrip => ?_, fun hot => ⟨_, by rw [if_pos hot], ?_⟩⟩
    · rw [if_neg (Int.not_le.2 belowTrip), State.warned_of_not_above (s := s.withReading die w power energy) belowWarning]
      rfl
    · obtain ⟨stopped, down, lost, -⟩ := State.trip_effect ((s.withReading die w power energy).warned die w)
      exact ⟨stopped, down, lost⟩

end Sys2Proof.Machine
end

section
/-! SUPPORT. Service commands, warm reset and invalidations (R420, R431-R436, R438, R441, R442), and O51. -/

namespace Sys2Proof.Machine

/-! ## Gateway starts (R420) -/

theorem State.writeGwctl_of_go {s : State} {n : Nat} {value : Word} (inRange : n < 16) (go : value.getLsbD 63 = true) : s.writeGwctl n value =
    if s.gwctlHeld (value.toNat / 2 ^ 56 % 64) (value.toNat % 2 ^ 56) = true then s.keepInbound (.reg (.gwctl n) value)
    else State.goGateway n (value.toNat / 2 ^ 56 % 64) (value.toNat % 2 ^ 56)
      { s with svc := { s.svc with gwctl := s.svc.gwctl.put n (keepBits value (bitsMask 61 0)) } } := by
  refine (if_neg (Nat.not_le.2 inRange)).trans ?_
  simp [go]

/-- A GO to GWCTL whose reads can be made starts the gateway activity, or is refused; one that reads a line that moves waits (R296). -/
theorem exec_gatewayStart {s : State} {n : Nat} {value : Word} (turn : s.HostTurn (.reg (.gwctl n) value)) (inRange : n < 16)
    (go : value.getLsbD 63 = true) : exec (.gatewayStart n value) s = .next (
      if s.counted.gwctlHeld (value.toNat / 2 ^ 56 % 64) (value.toNat % 2 ^ 56) = true then s.counted.keepInbound (.reg (.gwctl n) value)
      else State.goGateway n (value.toNat / 2 ^ 56 % 64) (value.toNat % 2 ^ 56)
        { s.counted with svc := { s.counted.svc with gwctl := s.svc.gwctl.put n (keepBits value (bitsMask 61 0)) } }) :=
  congrArg Host.Outcome.next ((State.posted_of_hostTurn _ turn).trans (State.writeGwctl_of_go inRange go))

/-! ## The running command (R431-R436) -/

theorem State.run_of_running {s : State} {op arg : Nat} (h : s.running op arg = true) : ∃ r, s.svc.run = some r := by
  unfold State.running at h
  split at h
  next r run => exact ⟨r, run⟩
  next => cases h

/-- A command that has done its work has its status. -/
theorem State.endCommand_run {s : State} {r : SvcRun} (run : s.svc.run = some r) (status : Nat) :
    (s.endCommand status).svc.run = some { r with status := status, done := true } := by
  simp [State.endCommand, State.modSvc, run]

theorem exec_retireComputeCore {s : State} {n : Nat} (running : s.running 1 n = true) : exec (.retireComputeCore n) s =
    .next (if (s.withdraw n).slotHolders n = [] then
        ((s.withdraw n).modCoreOf (coreAgent n) (fun (k : Core) => { k with retired := true })).endCommand 0
      else if (s.withdraw n).overdue then (s.withdraw n).killAll ((s.withdraw n).slotHolders n) else s.withdraw n) :=
  congrArg Host.Outcome.next (if_neg (by simp [running]))

theorem State.sendOn_of_no_request {s : State} {n : Nat} (h : (s.coreOf ⟨.spindle, n⟩).progq = []) : s.sendOn n = s := by
  simp [State.sendOn, h]

/-- A spindle without requests, programs and buckets is retired. -/
theorem exec_retireSpindle_empty {s : State} {n : Nat} (running : s.running 2 n = true) (requests : (s.coreOf ⟨.spindle, n⟩).progq = [])
    (programs : s.residents ⟨.spindle, n⟩ = []) (moves : s.cache.move = none) (buckets : s.bucketOf (fun b => b = n) = none) :
    exec (.retireSpindle n) s = .next (State.endCommand 0 { s with
      cache := { s.cache with lines := s.cache.lines.filter (fun (l : Line) => l.slice ≠ n) }
      svc := { s.svc with spindlesRetired := setInsert s.svc.spindlesRetired n } }) := by
  show execRetireSpindle n s = _
  simp only [execRetireSpindle, State.sendOn_of_no_request requests, buckets]
  rw [if_neg (by simp [running]), if_neg (by simp [programs]), if_neg (by simp [requests, moves])]
  rfl

theorem exec_spareALane {s : State} {iface lane : Nat} (inRange : iface < 256) (running : s.running 4 (iface + lane * 256) = true) :
    let k := (laneSpares iface lane).1
    let used := (s.svc.lanesSpared.find k).getD 0
    exec (.spareALane iface lane) s = .next (if (laneSpares iface lane).2 ≤ used then s.endCommand 2
      else State.endCommand 0 { s with svc := { s.svc with lanesSpared := s.svc.lanesSpared.put k (used + 1) } }) :=
  congrArg Host.Outcome.next (if_neg (by simp [running, Nat.not_le.2 inRange]))

/-- The route to a module changes when no request toward it is under way. -/
theorem exec_setRoute {s : State} {m l : Nat} (module : m < 512) (link : l < 16) (valid : Bool)
    (running : s.running 6 (m + l * 512 + (if valid then 8192 else 0)) = true) : exec (.setRoute m l valid) s =
    .next (if s.requestsTo m = true then s else State.endCommand 0 { s with svc := { s.svc with
      routes := if valid then s.svc.routes.put m l else s.svc.routes.del m } }) := by
  show execSetRoute m l valid s = _
  simp only [execSetRoute, Nat.reducePow, running]
  simp [Nat.not_le.2 module, Nat.not_le.2 link]
  rfl

/-! ## Repair of a row (R434) -/

/-- A row is repaired with a spare one, which is counted; bytes stay, and so does the poison where the repair is verified. -/
theorem exec_repairDramRow_spare {s : State} {ch bank row : Nat} (channel : ch < 512) (inBank : bank < 32)
    (running : s.running 3 (ch + bank * 2 ^ 9 + row * 2 ^ 14) = true)
    (spare : (s.svc.rowRepairs.find (ch * 32 + bank)).getD 0 < Config.rowSpares) :
    ∃ t, exec (.repairDramRow ch bank row) s = .next t ∧ t.mem.bytes = s.mem.bytes ∧
      (t.svc.rowRepairs.find (ch * 32 + bank)).getD 0 = (s.svc.rowRepairs.find (ch * 32 + bank)).getD 0 + 1 ∧
      (t.svc.run.map (fun (r : SvcRun) => r.status) = some 0 → t.mem.poison = s.mem.poison) := by
  obtain ⟨r, run⟩ := State.run_of_running running
  refine ⟨_, (congrArg Host.Outcome.next ((if_neg ?_).trans (if_neg (Nat.not_le.2 spare)))), ?_⟩
  · rw [running]
    simp [Nat.not_le.2 channel, Nat.not_le.2 inBank]
  · dsimp only
    cases (Config.freeValue s.choiceCtr).getLsbD 0 with
    | false => exact ⟨rfl, congrArg (fun (o : Option Nat) => o.getD 0) (AMap.find_put_same ..), fun _ => rfl⟩
    | true =>
      refine ⟨rfl, congrArg (fun (o : Option Nat) => o.getD 0) (AMap.find_put_same ..), fun verified => ?_⟩
      simp [State.endCommand, State.modSvc, run] at verified

theorem exec_repairDramRow_none {s : State} {ch bank row : Nat} (channel : ch < 512) (inBank : bank < 32)
    (running : s.running 3 (ch + bank * 2 ^ 9 + row * 2 ^ 14) = true)
    (used : Config.rowSpares ≤ (s.svc.rowRepairs.find (ch * 32 + bank)).getD 0) : exec (.repairDramRow ch bank row) s = .next (s.endCommand 2) := by
  refine congrArg Host.Outcome.next ((if_neg ?_).trans (if_pos used))
  rw [running]
  simp [Nat.not_le.2 channel, Nat.not_le.2 inBank]

/-! ## The end of a command (R432), and warm reset (R438) -/

theorem exec_serviceCommandEnd {s : State} {r : SvcRun} (run : s.svc.run = some r) (done : r.done = true) :
    let w := mergeBits s.svc.svccmd (BitVec.ofNat 64 (r.status * 2 ^ 56)) (bitsMask 61 56)
    exec .serviceCommandEnd s = .next (State.report 3 0 0xC none 0 w.toNat { s with svc := { s.svc with svccmd := w, run := none } }) := by
  show execServiceCommandEnd s = _
  simp [execServiceCommandEnd, run, done]
  rfl

theorem exec_dieWarmReset {s : State} {d : Nat} (running : s.running 5 d = true) : exec (.dieWarmReset d) s = .next (match s.svc.warm with
    | none => s.warmBegin d
    | some (_, 1) => s.warmDrain d
    | some (_, 2) => s.warmKeys d
    | some (_, 3) => s.warmSlices d
    | some _ => s.warmReset d) := by
  refine congrArg Host.Outcome.next ((if_neg (by simp [running])).trans ?_)
  rfl

theorem State.warmDrain_of_empty {s : State} {d : Nat} (acts : s.dieActs d = []) (busy : s.dieBusy d = false) :
    s.warmDrain d = { s with svc := { s.svc with warm := some (d, 2) } } := if_pos (by simp [acts, busy])

theorem State.warmKeys_of_moved {s : State} {d : Nat} (idle : s.dirs.move = none) (moved : ∀ b, b < 4096 → (s.keyEntry b).dir / 64 ≠ d) :
    s.warmKeys d = { s with svc := { s.svc with warm := some (d, 3) } } := by
  have none : (List.range 4096).find? (fun b => (s.keyEntry b).dir / 64 = d) = none := by
    simpa using moved
  simp only [State.warmKeys, idle, none]
  rfl

/-! ## Invalidations (R441, R442) -/

theorem exec_xlinvGo {s : State} {value : Word} (booted : s.booted = true) (idle : s.svc.xlrun = none) (go : value.getLsbD 63 = true)
    (size : xlinvLen value ≠ some 0) (aligned : xlinvAligned value s.svc.xlinv1 = true) : ∃ t, exec (.xlinvGo value) s = .next t ∧
      (∃ x, t.svc.xlrun = some x ∧ x.vd = value.toNat / 2 ^ 50 % 64 ∧ x.asid = value.toNat / 2 ^ 34 % 2 ^ 16 ∧ x.va = s.svc.xlinv1.toNat ∧
        ∀ y ∈ t.core.tlb, x.covers y.vd y.asid y.va y.size = false) ∧ t.mem = s.mem := by
  refine ⟨_, congrArg Host.Outcome.next ((if_pos booted).trans ((if_neg (by simp [go])).trans (if_neg (by simp [idle, size, aligned])))),
    ⟨_, rfl, rfl, rfl, rfl, fun y kept => ?_⟩, rfl⟩
  exact (Bool.not_eq_true' _).mp (List.mem_filter.1 kept).2

theorem exec_xlinvAck_done {s : State} {x : XlinvRun} (run : s.svc.xlrun = some x) (due : x.since + 2200 ≤ s.cycle + 1)
    (done : ∀ id ∈ x.cmds, s.cmd? id = none) :
    let t := s.flushLines (fun (l : Line) => l.key.vd = x.vd && l.inFrames (s.freedFrames x))
    exec .xlinvAck s = .next { t with
      svc := { t.svc with xlrun := none }
      cache := { t.cache with mapped := t.cache.mapped.filter (fun e => !x.covers e.vd e.asid e.va e.size) } } := by
  have ended : s.xlinvDone x = true := by simpa [State.xlinvDone, xlinvCycles, due] using done
  show execXlinvAck s = _
  simp only [execXlinvAck, run, ended]
  rfl

/-- Settles O51, clause by clause by the lemma about each step; a command that runs has a record, which its end marks. -/
theorem serviceCommands : Obligations.ServiceCommands := by
  unfold Obligations.ServiceCommands
  refine ⟨fun s n value turn inRange go => ?_,
    fun s n running => ?_, fun s n => exec_retireSpindle_empty, fun s iface lane inRange running => ?_, fun s m l module link => ?_,
    fun s ch bank row channel inBank running => ⟨exec_repairDramRow_none channel inBank running, exec_repairDramRow_spare channel inBank running⟩,
    fun s r => exec_serviceCommandEnd, fun s d running => ?_, fun s value => exec_xlinvGo, fun s x => exec_xlinvAck_done⟩
  · rw [exec_gatewayStart turn inRange go]
    exact ⟨fun free => by rw [if_neg (Bool.eq_false_iff.1 free)]; rfl, fun held => by rw [if_pos held]; rfl⟩
  · rw [exec_retireComputeCore running]
    exact ⟨fun empty => by rw [if_pos empty], fun left early => by rw [if_neg left, if_neg (by simp [early])],
      fun left late => by rw [if_neg left, if_pos late]⟩
  · rw [exec_spareALane inRange running]
    exact ⟨fun used => by rw [if_pos used], fun spare => by rw [if_neg (Nat.not_le.2 spare)]⟩
  · refine ⟨fun running busy => ?_, fun running idle => ?_, fun running idle => ?_⟩
    · rw [exec_setRoute module link true running, if_pos busy]
    · rw [exec_setRoute module link true running, if_neg (by simp [idle])]
      rfl
    · rw [exec_setRoute module link false running, if_neg (by simp [idle])]
      rfl
  · rw [exec_dieWarmReset running]
    refine ⟨fun warm => by rw [warm], fun warm acts busy => by rw [warm]; exact congrArg _ (State.warmDrain_of_empty acts busy),
      fun warm idle moved => by rw [warm]; exact congrArg _ (State.warmKeys_of_moved idle moved), fun warm => ?_⟩
    obtain ⟨r, run⟩ := State.run_of_running running
    rw [warm]
    refine ⟨_, rfl, rfl, rfl, rfl, ?_⟩
    simp [State.warmReset, State.endCommand, State.modSvc, run]

end Sys2Proof.Machine
end

section
/-! SUPPORT. Gateway instructions, host and peer accesses, and the switch (R411-R424, R436), and O53. -/

namespace Sys2Proof.Machine

/-! ## `baddq` (R423) -/

/-- A code of the span that PART names in a register (R423). -/
def addendCode (r : R) (v : Vec) (k : Nat) : Nat := (element (codeWidth r.xfmt) v (r.xpart * 64 + k)).toNat

/-- The values of a block of an addend. -/
def addendBlock (r : R) (v : Vec) (scales j : Nat) : List Val :=
  (List.range 8).map fun i => blockElem (floatFmt r.xfmt) (blockHasNan r.xfmt ((List.range 8).map fun i => addendCode r v (8 * j + i)))
    (addendCode r v (8 * j + i)) (scales / 256 ^ j % 256) (fBf16.decode (r.x.toNat / 2 ^ 16))

/-- A block of `baddq`: its scale and its codes. -/
def sumBlock (r : R) (m : Activity) (ds : List Nat) (j : Nat) : Nat × List Nat :=
  requantise (floatFmt r.xfmt) (blockTop r.xfmt) (RMode.of r.rm) ((ds.drop (8 * j)).take 8) (fBf16.decode (r.x.toNat / 2 ^ 16))
    (((addendBlock r (m.v r.a.toNat) (m.g r.c.toNat).toNat j).zip (addendBlock r (m.v r.b.toNat) (m.g r.e.toNat).toNat j)).map
      (fun (x, y) => Val.add false x y))

theorem sumBlock_length (r : R) (m : Activity) (ds : List Nat) (j : Nat) : (sumBlock r m ds j).2.length = 8 := by
  rw [sumBlock, requantise_length]
  simp [addendBlock]

/-- The vector that `baddq` writes. -/
def sumVec (r : R) (m : Activity) (ds : List Nat) : Vec :=
  setVecBytes (m.v r.d.toNat) (r.xpart * (8 * blockBytes r.xfmt)) ((List.range 8).flatMap fun j => packBlock r.xfmt (sumBlock r m ds j).2)

/-- The scales that `baddq` writes. -/
def sumScales (r : R) (m : Activity) (ds : List Nat) : Word :=
  BitVec.ofNat 64 (((List.range 8).map fun j => (sumBlock r m ds j).1).foldr (fun b acc => b % 256 + 256 * acc) 0)

theorem effBaddq_eq (r : R) (p : State) :
    let d := drawsOf (r.rm = 4) p.me.seed 64
    effBaddq r p = .done ((p.seeded d.1).withPend (newWrite .fixed (p.cycle + 4) (Instr.baddq r).srcs ⟨.v, r.d.toNat⟩ (sumVec r p.me d.2) ++
      newWrite .fixed (p.cycle + 4) (Instr.baddq r).srcs ⟨.g, r.e.toNat⟩ ((sumScales r p.me d.2).setWidth 1024))) := by
  unfold effBaddq
  simp only [State.draw_eq, State.resultV_eq, State.resultG_eq, State.withPend_withPend, unpackBlock_vecBytes, List.flatMap_map,
    List.foldr_map, List.map_map]
  rw [sumVec, sumScales, List.foldr_map]
  rfl

theorem element_sumVec (r : R) (m : Activity) (ds : List Nat) {k : Nat} (bound : k * codeWidth r.xfmt < 1024) :
    element (codeWidth r.xfmt) (sumVec r m ds) k =
      if r.xpart * 64 ≤ k ∧ k < r.xpart * 64 + 64 then
        BitVec.ofNat (codeWidth r.xfmt) ((sumBlock r m ds ((k - r.xpart * 64) / 8)).2.getD ((k - r.xpart * 64) % 8) 0)
      else element (codeWidth r.xfmt) (m.v r.d.toNat) k := by
  rw [sumVec, element_packedBlocks _ _ (sumBlock_length r m ds) _ bound]

theorem extractLsb'_sumScales (r : R) (m : Activity) (ds : List Nat) {j : Nat} (bound : j < 8) :
    (sumScales r m ds).extractLsb' (8 * j) 8 = BitVec.ofNat 8 (sumBlock r m ds j).1 := by
  rw [sumScales, extractLsb'_ofNat_of_le (by omega), pow_mul, ofNat_eq_of_mod_eq (foldr_digits_div_mod (b := 256) (by omega) _ j)]
  simp [bound]

/-- The scale of a block, a byte of the register of scales. -/
theorem scale_of_byte (g : Word) (j : Nat) : g.toNat / 256 ^ j % 256 = (g.extractLsb' (8 * j) 8).toNat := by
  rw [BitVec.extractLsb'_toNat, Nat.shiftRight_eq_div_pow, pow_mul]
  rfl

/-- A block by what R423 says of its terms and its draws. -/
theorem sumBlock_eq (r : R) (m : Activity) (seed : Word) {j : Nat} (bound : j < 8) :
    let band := fBf16.decode (r.x.toNat / 2 ^ 16)
    let nan (v : Vec) (j : Nat) : Bool := r.xfmt ≠ 7 && (List.range 8).any (fun i => ((floatFmt r.xfmt).decode (addendCode r v (8 * j + i))).isNan)
    let term (v : Vec) (g : Word) (j i : Nat) : Val :=
      blockElem (floatFmt r.xfmt) (nan v j) (addendCode r v (8 * j + i)) (g.extractLsb' (8 * j) 8).toNat band
    sumBlock r m (drawsOf (r.rm = 4) seed 64).2 j = requantise (floatFmt r.xfmt)
      (if r.xfmt = 5 then 448 else if r.xfmt = 6 then 57344 else 6) (RMode.of r.rm)
      ((List.range (if r.rm = 4 then 8 else 0)).map (fun i => (drawsOf (r.rm = 4) seed 64).2.getD (8 * j + i) 0)) band
      ((List.range 8).map (fun i => (term (m.v r.a.toNat) (m.g r.c.toNat) j i).add false (term (m.v r.b.toNat) (m.g r.e.toNat) j i))) := by
  simp only [sumBlock, addendBlock, blockTop_eq, drawsOf_block (r.rm = 4) seed (by omega : 8 * j + 8 ≤ 64), scale_of_byte, blockHasNan,
    List.any_map, List.zip_map', List.map_map]
  rfl

/-! ## `bqtake` (R424) -/

/-- What the activity in focus is when it holds the slots of a list. -/
def State.holding (p : State) (l : List Nat) : Activity := { p.me with prog := p.me.prog.map (fun (x : ProgCtx) => { x with slots := l }) }

theorem blockSlot_ne_zero (n : Nat) : blockSlot n ≠ 0 := by simp [blockSlot]

theorem blockSlot_inj {m n : Nat} (same : blockSlot m = blockSlot n) : m = n := by
  simp only [blockSlot] at same
  omega

section
variable {r : R} {p : State}

/-- With v = 0 no slot is given back. -/
theorem State.givenBack_of_zero : p.heldSlots.find? (fun n => blockSlot n = 0) = none := by
  simp [blockSlot_ne_zero]

theorem State.givenBack_of_not_held {v : Nat} (strange : ∀ n ∈ p.heldSlots, v ≠ 0x400000 + 128 * n) :
    p.heldSlots.find? (fun n => blockSlot n = v) = none := by
  exact List.find?_eq_none.2 fun n held found => strange n held (of_decide_eq_true found).symm

theorem State.givenBack_of_held {n : Nat} (held : n ∈ p.heldSlots) : p.heldSlots.find? (fun m => blockSlot m = blockSlot n) = some n := by
  cases found : p.heldSlots.find? (fun m => blockSlot m = blockSlot n) with
  | none => exact absurd (decide_eq_true rfl) (List.find?_eq_none.1 found n held)
  | some m =>
    have same := List.find?_some found
    rw [blockSlot_inj (of_decide_eq_true same)]

theorem effBqtake_nothing (v : (p.me.g r.a.toNat).toNat = 0) (empty : p.core.blockReady = []) :
    effBqtake r p = .done (({ p with me := p.holding p.heldSlots } : State).withPend
      (newWrite .engine (p.cycle + 2) (Instr.bqtake r).srcs ⟨.g, r.d.toNat⟩ ((0 : Word).setWidth 1024))) := by
  simp only [effBqtake, v, State.givenBack_of_zero, empty, State.resultAt, State.pendWrite_eq]
  rfl

theorem effBqtake_take (v : (p.me.g r.a.toNat).toNat = 0) {n : Nat} {rest : List Nat} (ready : p.core.blockReady = n :: rest) :
    effBqtake r p = .done (({ p with me := p.holding (p.heldSlots ++ [n]), core := { p.core with blockReady := rest } } : State).withPend
      (newWrite .engine (p.cycle + 2) (Instr.bqtake r).srcs ⟨.g, r.d.toNat⟩ ((BitVec.ofNat 64 (0x400000 + 128 * n)).setWidth 1024))) := by
  simp only [effBqtake, v, State.givenBack_of_zero, ready, State.resultAt, State.pendWrite_eq]
  simp only [blockSlot]
  rfl

theorem effBqtake_strange (v : (p.me.g r.a.toNat).toNat ≠ 0) (strange : ∀ n ∈ p.heldSlots, (p.me.g r.a.toNat).toNat ≠ 0x400000 + 128 * n) :
    effBqtake r p = .fault 7 := by
  simp [effBqtake, v, State.givenBack_of_not_held strange]

theorem effBqtake_free {n : Nat} (v : (p.me.g r.a.toNat).toNat = 0x400000 + 128 * n) (held : n ∈ p.heldSlots) (empty : p.core.blockReady = []) :
    effBqtake r p = .done (({ p with me := p.holding (p.heldSlots.filter (fun (m : Nat) => m ≠ n)) } : State).withPend
      (newWrite .engine (p.cycle + 2) (Instr.bqtake r).srcs ⟨.g, r.d.toNat⟩ ((0 : Word).setWidth 1024))) := by
  have slot : (p.me.g r.a.toNat).toNat = blockSlot n := v
  simp only [effBqtake, slot, State.givenBack_of_held held, empty, State.resultAt, State.pendWrite_eq, Option.isNone_some, Bool.and_false]
  rfl

end

/-! ## The host (R411, R413) -/

theorem inBar2_of {vd va n : Nat} (vdInRange : vd < 64) (inRange : va + n ≤ 2 ^ 44) : inBar2 vd va n = true := by
  simp only [inBar2, vdInRange, inRange, decide_true, Bool.and_true]

theorem exec_hostWrite_relaxed {s : State} {vd va : Nat} {data : List Byte} (booted : s.booted = true) (vdInRange : vd < 64)
    (inRange : va + data.length ≤ 2 ^ 44) : exec (.hostWrite vd va data true) s = .next (s.hostWrite vd va data true) :=
  congrArg Host.Outcome.next ((if_neg (by simp [booted, inBar2_of vdInRange inRange])).trans (if_pos rfl))

theorem exec_hostWrite_inTurn {s : State} {vd va : Nat} {data : List Byte} (turn : s.HostTurn (.hostWrite vd va data false)) (vdInRange : vd < 64)
    (inRange : va + data.length ≤ 2 ^ 44) : exec (.hostWrite vd va data false) s = .next (s.counted.hostWrite vd va data false) := by
  refine congrArg Host.Outcome.next ((if_neg ?_).trans ((if_neg Bool.false_ne_true).trans (State.posted_of_hostTurn _ turn)))
  simp [turn.1, inBar2_of vdInRange inRange]

section
variable {s t : State} {vd va : Nat} {data : List Byte} {relaxed : Bool}

theorem State.hostWrite_of_moving (moves : s.virtHeld vd (s.dasid vd) va data.length = true) :
    s.hostWrite vd va data relaxed = s.keepInbound (.hostWrite vd va data relaxed) := if_pos moves

theorem State.hostWrite_of_no_translation (still : s.virtHeld vd (s.dasid vd) va data.length = false)
    (none : s.dmaAddrs vd va data.length true = none) : s.hostWrite vd va data relaxed = s.report 9 0 0xA (some vd) va errXlate := by
  simp [State.hostWrite, still, none]

theorem State.hostWrite_of_written (still : s.virtHeld vd (s.dasid vd) va data.length = false) {pas : List Nat}
    (translated : s.dmaAddrs vd va data.length true = some pas) (written : s.writeVirt vd (s.dasid vd) va data = (t, 0)) :
    s.hostWrite vd va data relaxed = t := by
  simp [State.hostWrite, still, translated, written]

end

theorem exec_hostRead {s : State} {vd va n : Nat} (turn : s.HostTurn (.hostRead vd va n)) (vdInRange : vd < 64) (inRange : va + n ≤ 2 ^ 44)
    (still : s.virtHeld vd (s.dasid vd) va n = false) : exec (.hostRead vd va n) s = .next (
      let t := if (s.dmaAddrs vd va n false).isSome then s.keepVirt vd (s.dasid vd) va n else s
      { t with svc := { t.svc with hostAnswer := (allOk (s.readVirt vd (s.dasid vd) va n)).toOption } }) := by
  obtain ⟨booted, before⟩ := turn
  refine congrArg Host.Outcome.next ((if_neg ?_).trans ((State.receive_of_turn _ before).trans (if_neg ?_)))
  · simp [booted, inBar2_of vdInRange inRange]
  · simp [still]

/-! ## Peer modules (R416, R417, R421) -/

theorem exec_peerAccess {s : State} {link vd va : Nat} {data : List Byte} {write : Bool} (booted : s.booted = true) (up : link ∈ s.svc.linksUp)
    (before : ∀ j ∈ s.svc.inbound, (Inbound.peerAccess link vd va data write).follows j = false) :
    exec (.peerAccess link vd va data write) s = .next (s.peerAccess link vd va data write) :=
  congrArg Host.Outcome.next ((if_neg (by simp [booted, up])).trans (State.receive_of_turn _ before))

section
variable {s : State} {link vd va : Nat} {data : List Byte} {write : Bool}

theorem State.peerAccess_of_not_taken (untaken : s.takesPeer vd = false) : s.peerAccess link vd va data write = s.answer errRefused [] :=
  if_pos (by simp [untaken])

theorem State.peerAccess_of_queue_read (queue : 2 ^ 40 ≤ va) : s.peerAccess link vd va data false = s.answer errRefused [] :=
  if_pos (by simp only [peerQ, queue]; simp)

/-- An access to memory of an enabled VD. -/
theorem State.peerAccess_of_memory (taken : s.takesPeer vd = true) (memory : va < 2 ^ 40) : s.peerAccess link vd va data write =
    match s.dmaAddrs vd va data.length write with
    | none => s.answer errRefused []
    | some _ =>
      if s.virtHeld vd (s.dasid vd) va data.length then s.keepInbound (.peerAccess link vd va data write)
      else
        let s := s.chargeLink link vd data.length (!write)
        if write then
          let (t, e) := s.writeVirt vd (s.dasid vd) va data
          t.answer e []
        else match allOk (s.readVirt vd (s.dasid vd) va data.length) with
          | .ok bs => (s.keepVirt vd (s.dasid vd) va data.length).answer 0 bs
          | .error e => s.answer e [] := by
  have address : ¬ peerQ ≤ va := Nat.not_le.2 memory
  refine (if_neg (by simp [taken, address])).trans ((if_neg address).trans ?_)
  rfl

theorem State.peerAccess_of_no_translation (taken : s.takesPeer vd = true) (memory : va < 2 ^ 40)
    (none : s.dmaAddrs vd va data.length write = none) : s.peerAccess link vd va data write = s.answer errRefused [] := by
  rw [State.peerAccess_of_memory taken memory, none]

variable {pas : List Nat} (taken : s.takesPeer vd = true) (memory : va < 2 ^ 40) (still : s.virtHeld vd (s.dasid vd) va data.length = false)
include taken memory still

theorem State.peerAccess_read {bs : List Byte} (translated : s.dmaAddrs vd va data.length false = some pas) :
    let q := s.chargeLink link vd data.length true
    allOk (q.readVirt vd (q.dasid vd) va data.length) = .ok bs →
    s.peerAccess link vd va data false = (q.keepVirt vd (q.dasid vd) va data.length).answer 0 bs := by
  intro q read
  rw [State.peerAccess_of_memory taken memory, translated]
  exact (if_neg (Bool.eq_false_iff.1 still)).trans (by simp only [Bool.false_eq_true, if_false, Bool.not_false, q, read])

theorem State.peerAccess_write {t : State} {e : Nat} (translated : s.dmaAddrs vd va data.length true = some pas) :
    let q := s.chargeLink link vd data.length false
    q.writeVirt vd (q.dasid vd) va data = (t, e) → s.peerAccess link vd va data true = t.answer e [] := by
  intro q written
  rw [State.peerAccess_of_memory taken memory, translated]
  exact (if_neg (Bool.eq_false_iff.1 still)).trans (by simp only [if_true, Bool.not_true, q, written])

end

/-! ## Block records (R421) -/

theorem exec_blockRecord {s : State} {link vd : Nat} {data : List Byte} (booted : s.booted = true) (up : link ∈ s.svc.linksUp)
    (before : ∀ j ∈ s.svc.inbound, (Inbound.blockRecord link vd data).follows j = false) :
    exec (.blockRecord link vd data) s = .next (s.blockRecord link vd data) :=
  congrArg Host.Outcome.next ((if_neg (by simp [booted, up])).trans (State.receive_of_turn _ before))

theorem State.blockRecord_of_not_taken {s : State} {link vd : Nat} {data : List Byte} (untaken : s.takesPeer vd = false) :
    s.blockRecord link vd data = s.answer errRefused [] := if_pos (by simp [untaken])

/-- The slot of the block queue of a gateway core in which a record lands: the lowest that no record and no activity has. -/
def State.freeBlock (s : State) (gw : Agent) : Option Nat :=
  lowest (fun (j : Nat) => j ∉ (s.coreOf gw).blockReady && j ∉ (s.residents gw).flatMap (fun (a : Activity) =>
    (a.prog.map (fun (x : ProgCtx) => x.slots)).getD [])) 64

/-- A record that passes the checks lands in the free slot, or waits while there is none. -/
theorem State.blockRecord_of_good {s : State} {link vd : Nat} {data : List Byte} (whole : data.length = 128) (taken : s.takesPeer vd = true) :
    let n := ofBytes ((data.drop 0x4C).take 4) % 16
    let gw : Agent := ⟨.gateway, n⟩
    s.svc.gwavail.getLsbD n = true → (∃ a ∈ s.residents gw, a.job.vd = vd) →
    5 ≤ (data.getD 0x4A 0).toNat % 16 → (data.getD 0x4A 0).toNat % 16 ≤ 7 → (∀ b ∈ data.drop 0x52, b = 0) →
    s.blockRecord link vd data = match s.freeBlock gw with
      | none => s.keepInbound (.blockRecord link vd data)
      | some i => ((s.chargeLink link vd 128 false).modCoreOf gw (fun (k : Core) => { k with
          blockq := k.blockq.writeN (128 * i) data
          blockReady := k.blockReady ++ [i] })).answer 0 [] := by
  intro n gw available runs low high zero
  have resident : (s.residents gw).any (fun a => a.job.vd = vd) = true := by simpa using runs
  have rest : (data.drop 0x52).any (fun b => b ≠ 0) = false := by simpa using zero
  refine (if_neg ?_).trans ?_
  · rw [rest, resident, available, taken, whole]
    generalize (data.getD 0x4A 0).toNat % 16 = format at low high
    simp [low, high]
  · rw [whole]
    rfl

/-! ## Links, and the switch (R414, R419, R436) -/

/-- A round to which no address of this module belongs ends with its draws taken. -/
theorem exec_switchReductionResult {s : State} {r : SwRound} {g : SwGroup} (round : s.switch.rounds.find? (fun (x : SwRound) => x.id = r.id) = some r)
    (group : s.switch.groups.find r.group = some g) :
    (r.opened + g.deadline ≤ s.cycle → exec (.switchReductionResult r.id) s = .next (s.endRound r errRefused)) ∧
    (s.cycle < r.opened + g.deadline → s.roundTargets g r = [] → exec (.switchReductionResult r.id) s =
      .next (State.endRound r 0 { s with choiceCtr := s.choiceCtr + 32 * g.members.length })) := by
  have result : exec (.switchReductionResult r.id) s = execSwitchReductionResult r.id s := rfl
  simp only [result, execSwitchReductionResult, round, group]
  refine ⟨fun late => by rw [if_pos late], fun early targets => ?_⟩
  have noTarget : State.roundTargets { s with choiceCtr := s.choiceCtr + 32 * g.members.length } g r = [] := targets
  rw [if_neg (Nat.not_le.2 early), noTarget]
  rfl

/-! ## The statement -/

/-- Settles O53, clause by clause by the lemma about each instruction and each access. -/
theorem linksAndGateways : Obligations.LinksAndGateways := by
  unfold Obligations.LinksAndGateways
  refine ⟨fun r s ready => ?baddq, fun r s ready => ?bqtake, fun s vd va data booted vdInRange inRange => ?hostWrite,
    fun s vd va n turn vdInRange inRange still => ?hostRead, fun s link vd va data write booted up before => ?peerAccess,
    fun s link vd data booted up whole before => ?blockRecord, fun s n => ⟨rfl, rfl⟩, fun s r g => exec_switchReductionResult⟩
  case baddq =>
    have done := effBaddq_eq r (s.prepare (.baddq r))
    rw [State.prepare_cycle] at done
    refine ⟨_, _, issue_withPend ready done, fun k bound => ?_, fun j bound => ?_⟩
    · refine (element_sumVec r _ _ bound).trans (if_ctx_congr Iff.rfl (fun inside => ?_) fun _ => rfl)
      rw [sumBlock_eq r _ _ (by omega)]
      rfl
    · rw [extractLsb'_sumScales r _ _ bound, sumBlock_eq r _ _ bound]
      rfl
  case bqtake =>
    rw [← State.prepare_cycle (.bqtake r) s]
    refine ⟨fun v => ⟨fun empty => ?_, fun n rest next => ?_⟩, fun v strange => ?_, fun n v held empty => ?_⟩
    · exact issue_withPend ready (effBqtake_nothing v empty)
    · exact issue_withPend ready (effBqtake_take v next)
    · exact issue_fault ready (effBqtake_strange v strange)
    · exact issue_withPend ready (effBqtake_free (n := n) v held empty)
  case hostWrite =>
    refine ⟨fun moves => ?_, fun still => ⟨fun none => ?_, fun pas t translated written => ?_⟩, fun pas t turn still translated written => ?_⟩
    · rw [exec_hostWrite_relaxed booted vdInRange inRange, State.hostWrite_of_moving moves]
      rfl
    · rw [exec_hostWrite_relaxed booted vdInRange inRange, State.hostWrite_of_no_translation still none]
    · rw [exec_hostWrite_relaxed booted vdInRange inRange, State.hostWrite_of_written still translated written]
    · rw [exec_hostWrite_inTurn turn vdInRange inRange, State.hostWrite_of_written still translated written]
  case hostRead =>
    rw [exec_hostRead turn vdInRange inRange still]
    exact ⟨fun pas translated => by rw [translated]; rfl, fun none => by rw [none]; rfl⟩
  case peerAccess =>
    rw [exec_peerAccess booted up before]
    refine ⟨fun untaken => by rw [State.peerAccess_of_not_taken untaken]; rfl, fun queue read => ?_, fun taken memory => ⟨fun none => ?_,
      fun pas translated still => ⟨fun bs read => ?_, fun t e isWrite => ?_⟩⟩⟩
    · rw [read, State.peerAccess_of_queue_read queue]
      rfl
    · rw [State.peerAccess_of_no_translation taken memory none]
      rfl
    · subst read
      exact fun answered => congrArg _ (State.peerAccess_read taken memory still translated answered)
    · subst isWrite
      exact fun written => congrArg _ (State.peerAccess_write taken memory still translated written)
  case blockRecord =>
    rw [exec_blockRecord booted up before]
    refine ⟨fun untaken => by rw [State.blockRecord_of_not_taken untaken]; rfl, fun taken available runs low high zero => ?_⟩
    rw [State.blockRecord_of_good whole taken available runs low high zero]
    refine ⟨fun i free => ?_, fun full => ?_⟩
    · rw [State.freeBlock, free]
      rfl
    · rw [State.freeBlock, full]
      rfl

end Sys2Proof.Machine
end

section
/-! SUPPORT. jobpost and jobwait (R379-R381), and O44. -/

namespace Sys2Proof.Machine

/-! ## `jobpost` (R379) -/

/-- The effect of `jobpost` with the address of a card. -/
def effJobpost (r : R) (v : Nat) (p : State) : Eff :=
  if v % 64 ≠ 0 || v / 2 ^ 56 ≠ 0 then .fault 5
  else if p.me.speculative then
    if p.heldUsed p.me.agent + 64 > 16384 then p.awaitHeld 64
    else .done ((p.claimReg ⟨.g, r.d.toNat⟩).modMe (fun a => { a with helds := a.helds ++ [⟨none, some (r.d.toNat, v), 64, false⟩] }))
  else if p.writesOut then .hold p
  else .done ((p.pinRegion.claimReg ⟨.g, r.d.toNat⟩).send (.jobpost p.me.uid r.d.toNat v p.me.job.vd p.me.agent) (p.cycle + 14))

theorem exec_jobpost (r : R) (s : State) : exec (.jobpost r) s = issue (.jobpost r) s (fun p => effJobpost r (p.me.srcB r).toNat p) := rfl

section
variable {r : R} {v : Nat} {p : State}

theorem effJobpost_of_bad_address (bad : v % 64 ≠ 0 ∨ 2 ^ 56 ≤ v) : effJobpost r v p = .fault 5 := by
  refine if_pos ?_
  simp only [Bool.or_eq_true, decide_eq_true_eq]
  exact bad.imp_right (fun above => (Nat.div_pos above (by decide)).ne')

variable (aligned : v % 64 = 0) (inRange : v < 2 ^ 56)
include aligned inRange

theorem card_address_good : ¬ (decide (v % 64 ≠ 0) || decide (v / 2 ^ 56 ≠ 0)) = true := by
  simp only [aligned, Nat.div_eq_of_lt inRange, ne_eq, not_true, decide_false, Bool.or_false, Bool.false_eq_true, not_false_eq_true]

theorem effJobpost_held (speculative : p.me.speculative = true) (room : p.heldUsed p.me.agent + 64 ≤ 16384) :
    effJobpost r v p = .done { p with me := { p.me with
      claimed := p.me.claimed ++ claimOf r.d.toNat
      helds := p.me.helds ++ [(⟨none, some (r.d.toNat, v), 64, false⟩ : Held)] } } := by
  rw [effJobpost, if_neg (card_address_good aligned inRange), if_pos speculative, if_neg (Nat.not_lt.2 room), State.claimReg_g_eq]
  rfl

variable (committed : p.me.speculative = false)
include committed

theorem effJobpost_waits (out : p.writesOut = true) : effJobpost r v p = .hold p := by
  rw [effJobpost, if_neg (card_address_good aligned inRange), if_neg (Bool.eq_false_iff.1 committed), if_pos out]

theorem effJobpost_sends (written : p.writesOut = false) : effJobpost r v p = .done { p with
    msgs := p.msgs ++ [(⟨p.nextMsg, .jobpost p.me.uid r.d.toNat v p.me.job.vd p.me.agent, p.cycle + 14⟩ : Msg)]
    nextMsg := p.nextMsg + 1
    me := { p.me.pinned with claimed := p.me.claimed ++ claimOf r.d.toNat } } := by
  rw [effJobpost, if_neg (card_address_good aligned inRange), if_neg (Bool.eq_false_iff.1 committed), if_neg (Bool.eq_false_iff.1 written),
    State.pinRegion_of_committed committed, State.claimReg_g_eq]
  rfl

end

/-! ## `jobwait` (R381) -/

/-- The effect of `jobwait` on a job of the activity's VD. -/
def effJobwait (r : R) (id : Nat) (p : State) : Eff :=
  let vd := p.me.job.vd
  let now (s : State) (byte : Nat) : Eff := .done (s.resultAt .engine (s.cycle + 1) (Instr.srcs (.jobwait r)) r.d.toNat (waitWord id byte))
  if id = p.me.job.jid then now p 0x7F
  else if !p.held vd id && p.keepsArray vd && p.addrHeld vd [p.statusAddr vd id] then .hold p
  else if p.held vd id then .done ((p.flushPending.claimReg ⟨.g, r.d.toNat⟩).modMe (fun a => { a with block := .jobwait id r.d.toNat }))
  else now (if p.keepsArray vd then { p.keepAddrs vd [p.statusAddr vd id] with choiceCtr := p.choiceCtr + 1 } else p) (p.statusByte vd id)

theorem exec_jobwait (r : R) (s : State) :
    exec (.jobwait r) s = issue (.jobwait r) s (fun p => effJobwait r ((p.me.g r.a.toNat).toNat % 2 ^ 16) p) := rfl

theorem waitWord_eq {id byte : Nat} (idInRange : id < 0x10000) (byteInRange : byte < 256) :
    waitWord id byte = BitVec.ofNat 64 (id + byte * 0x10000) := by
  rw [waitWord, Nat.mod_eq_of_lt (b := 2 ^ 16) idInRange, Nat.mod_eq_of_lt (b := 2 ^ 8) byteInRange]
  rfl

/-- The word of a status byte on its way to the destination. -/
def jobAnswer (r : R) (due id byte : Nat) : List Pend :=
  newWrite .engine due (Instr.jobwait r).srcs ⟨.g, r.d.toNat⟩ ((BitVec.ofNat 64 (id + byte * 0x10000)).setWidth 1024)

section
variable {r : R} {id : Nat} {p : State} (inRange : id < 0x10000)
include inRange

theorem State.jobResult_eq {byte : Nat} (byteInRange : byte < 256) (q : State) :
    q.resultAt .engine (q.cycle + 1) (Instr.srcs (.jobwait r)) r.d.toNat (waitWord id byte) = q.withPend (jobAnswer r (q.cycle + 1) id byte) := by
  rw [State.resultAt, State.pendWrite_eq, waitWord_eq inRange byteInRange, jobAnswer]

theorem effJobwait_own (own : id = p.me.job.jid) : effJobwait r id p = .done (p.withPend (jobAnswer r (p.cycle + 1) id 0x7F)) := by
  rw [← State.jobResult_eq inRange (by decide)]
  exact if_pos own

variable (other : id ≠ p.me.job.jid)
include other

omit inRange in
theorem effJobwait_waits (held : p.held p.me.job.vd id = true) : effJobwait r id p = .done { p.flushPending with me := { p.flushPending.me with
    claimed := p.flushPending.me.claimed ++ claimOf r.d.toNat
    block := .jobwait id r.d.toNat } } := by
  refine (if_neg other).trans ((if_neg ?_).trans ((if_pos held).trans ?_))
  · simp [held]
  · rw [State.claimReg_g_eq]
    rfl

omit inRange in
theorem effJobwait_moving (gone : p.held p.me.job.vd id = false) (array : p.keepsArray p.me.job.vd = true)
    (moves : p.addrHeld p.me.job.vd [p.statusAddr p.me.job.vd id] = true) : effJobwait r id p = .hold p :=
  (if_neg other).trans (if_pos (by simp [gone, array, moves]))

variable (gone : p.held p.me.job.vd id = false)
  (still : p.keepsArray p.me.job.vd = true → p.addrHeld p.me.job.vd [p.statusAddr p.me.job.vd id] = false)
include gone

theorem effJobwait_no_array (array : p.keepsArray p.me.job.vd = false) :
    effJobwait r id p = .done (p.withPend (jobAnswer r (p.cycle + 1) id 0x7E)) := by
  rw [← State.jobResult_eq inRange (by decide)]
  refine (if_neg other).trans ((if_neg (by simp [array])).trans ((if_neg (Bool.eq_false_iff.1 gone)).trans ?_))
  simp only [array, State.statusByte, Bool.false_eq_true, if_false]

include still in
theorem effJobwait_status {b : Byte} (array : p.keepsArray p.me.job.vd = true)
    (byte : p.loadByte p.me.job.vd (addrLoc p.me.job.vd (p.statusAddr p.me.job.vd id)) = .ok b) :
    effJobwait r id p = .done (State.withPend (jobAnswer r (p.cycle + 1) id b.toNat)
      { p.keepAddrs p.me.job.vd [p.statusAddr p.me.job.vd id] with choiceCtr := p.choiceCtr + 1 }) := by
  refine (if_neg other).trans ((if_neg (by simp [still array])).trans ((if_neg (Bool.eq_false_iff.1 gone)).trans ?_))
  simp only [array, State.statusByte, byte, if_true]
  refine (congrArg Eff.done (State.jobResult_eq inRange b.isLt _)).trans ?_
  dsimp only
  rw [State.keepAddrs_cycle]

end

/-! ## The statement -/

/-- Settles O44: each instruction by the cases of its effect. -/
theorem jobInstructions : Obligations.JobInstructions := by
  unfold Obligations.JobInstructions
  refine ⟨fun r s ready => ?post, fun r s ready => ?wait⟩
  case post =>
    rw [exec_jobpost, ← State.prepare_cycle (.jobpost r) s]
    refine ⟨fun aligned inRange committed written => issue_issued_nil ready (effJobpost_sends aligned inRange committed written),
      fun aligned inRange speculative room => issue_issued_nil ready (effJobpost_held aligned inRange speculative room),
      fun bad => issue_fault ready (effJobpost_of_bad_address bad),
      fun aligned inRange committed out => issue_hold ready (effJobpost_waits aligned inRange committed out)⟩
  case wait =>
    rw [exec_jobwait, ← State.prepare_cycle (.jobwait r) s]
    have inRange : ((s.prepare (.jobwait r)).me.g r.a.toNat).toNat % 0x10000 < 0x10000 := Nat.mod_lt _ (by decide)
    refine ⟨fun own => issue_withPend ready (effJobwait_own inRange own),
      fun other held => issue_issued_nil ready (effJobwait_waits other held),
      fun other gone array moves => issue_hold ready (effJobwait_moving other gone array moves),
      fun other gone still => ⟨fun array => issue_withPend ready (effJobwait_no_array inRange other gone array),
        fun b array byte => issue_withPend ready (effJobwait_status inRange other gone still array byte)⟩⟩

end Sys2Proof.Machine
end

section
/-! SUPPORT. Forecasts: the instructions, and how activities stand (R354-R358, R366, R367). -/

namespace Sys2Proof.Machine

/-! ## `fcast` (R354-R358) -/

/-- Forecast descriptors of an `fcast`, from the local memory of its activity. -/
def State.forecast (p : State) (r : R) : FDesc := FDesc.parse (p.readLocal (p.me.g r.a.toNat).toNat 64)

section
variable {r : R} {p : State} (within : p.checkLocal false (p.me.g r.a.toNat).toNat 64 = none) (aligned : (p.me.g r.a.toNat).toNat % 64 = 0)
include within aligned

theorem effFcast_outside_region (outside : p.me.region.open_ = false ∨ p.me.region.pin = true) : effFcast r p = .fault 0xA := by
  rw [effFcast]
  dsimp only
  rw [checked_cons (ckLocal_of_pass within), checked_cons (ckFault_of_not (not_not.2 aligned) ..)]
  exact checked_of_stop (before := []) (fun _ h => nomatch h) (ckFault_of_bad (by rcases outside with out | out <;> simp [out]) ..)

variable (opened : p.me.region.open_ = true) (unpinned : p.me.region.pin = false)
  (free : p.me.rangeBusy p.nextCmd false (p.me.g r.a.toNat).toNat 64 = false)
include opened unpinned free

/-- What is left once the descriptor can be read. -/
theorem effFcast_of_descriptor : effFcast r p =
    checked [ckFault ((p.forecast r).fault (p.me.g r.a.toNat).toNat ≠ 0) ((p.forecast r).fault (p.me.g r.a.toNat).toNat) 0 0,
        ckLocal 0 true (p.forecast r).d (p.forecast r).n, ckLocal 0 false (p.forecast r).s (p.forecast r).n,
        ckLocal 0 false (p.forecast r).h1 (p.forecast r).n,
        (fun s => if (p.forecast r).mode = 0 then none else ckLocal 0 false (p.forecast r).h2 (p.forecast r).n s),
        ckLocal 0 true (p.forecast r).bar 16]
      (fun s => if (s.me.bar (p.forecast r).bar).ahead (p.forecast r).tok = 0 then castPending (.fcast r) r (p.forecast r) s
        else castComplete (.fcast r) r (p.forecast r) ((s.me.bar (p.forecast r).bar).ahead (p.forecast r).tok) (s.me.bar (p.forecast r).bar) s) p := by
  rw [effFcast]
  dsimp only
  rw [checked_cons (ckLocal_of_pass within), checked_cons (ckFault_of_not (not_not.2 aligned) ..),
    checked_cons (ckFault_of_good (by simp [opened, unpinned]) ..), checked_cons (if_neg (Bool.eq_false_iff.1 free)), checked_nil]
  rfl

theorem effFcast_bad_descriptor (bad : (p.forecast r).fault (p.me.g r.a.toNat).toNat ≠ 0) :
    effFcast r p = .fault ((p.forecast r).fault (p.me.g r.a.toNat).toNat) := by
  rw [effFcast_of_descriptor within aligned opened unpinned free]
  exact checked_of_stop (before := []) (fun _ h => nomatch h) (ckFault_of_bad (decide_eq_true bad) ..)

variable (good : (p.forecast r).fault (p.me.g r.a.toNat).toNat = 0) (dst : p.checkLocal true (p.forecast r).d (p.forecast r).n = none)
  (src : p.checkLocal false (p.forecast r).s (p.forecast r).n = none) (h1 : p.checkLocal false (p.forecast r).h1 (p.forecast r).n = none)
  (h2 : (p.forecast r).mode ≠ 0 → p.checkLocal false (p.forecast r).h2 (p.forecast r).n = none)
  (bar : p.checkLocal true (p.forecast r).bar 16 = none)
include good dst src h1 h2 bar

/-- Once every check has passed, the phase decides. -/
theorem effFcast_of_good : effFcast r p =
    if (p.me.bar (p.forecast r).bar).ahead (p.forecast r).tok = 0 then castPending (.fcast r) r (p.forecast r) p
    else castComplete (.fcast r) r (p.forecast r) ((p.me.bar (p.forecast r).bar).ahead (p.forecast r).tok) (p.me.bar (p.forecast r).bar) p := by
  have second : (if (p.forecast r).mode = 0 then none else ckLocal 0 false (p.forecast r).h2 (p.forecast r).n p) = none := by
    split
    · rfl
    next two => exact ckLocal_of_pass (h2 two)
  rw [effFcast_of_descriptor within aligned opened unpinned free, checked_cons (ckFault_of_not (not_not.2 good) ..),
    checked_cons (ckLocal_of_pass dst), checked_cons (ckLocal_of_pass src), checked_cons (ckLocal_of_pass h1), checked_cons second,
    checked_cons (ckLocal_of_pass bar), checked_nil]

end

section
variable {i : Instr} {r : R} {f : FDesc} {p : State}

/-- A complete phase: the tiles are copied (R355). -/
theorem castComplete_of_room {ahead : Nat} {b : Bar} (room : p.scoreUsed p.me.agent + 2 ≤ scoreSize p.me.agent.kind) :
    castComplete i r f ahead b p = .done (State.withPend
      (newWrite .engine (p.cycle + 2) i.srcs ⟨.g, r.d.toNat⟩
        ((BitVec.ofNat 64 ((if b.elast then 0x1000 else 0) + (if 2 ≤ ahead then 0x2000 else 0))).setWidth 1024))
      { p with
        nextCmd := p.nextCmd + 1
        core := { p.core with locq := p.core.locq ++
          [(⟨p.nextCmd, p.me.uid, .copy, f.s, 0, f.d, f.n, f.fmt, 0, 0, 0, 2 + (f.n + 127) / 128, none⟩ : LocCmd)] }
        me := { p.me with claims := p.me.claims ++ [(⟨p.nextCmd, f.s, f.n, false⟩ : Claim), ⟨p.nextCmd, f.d, f.n, true⟩] } }) := by
  rw [castComplete]
  dsimp only
  rw [if_neg (Nat.not_lt.2 room), State.resultAt, State.pendWrite_eq]
  rfl

theorem castPending_of_full (full : 4 ≤ p.me.tags.length ∨ 16 ≤ (p.coreTags p.me.agent).length) : castPending i r f p = .hold p := by
  rw [castPending]
  exact if_pos (by simpa using full)

/-- A pending phase: the next tag, and its prediction (R356-R358). -/
theorem castPending_of_room (tags : p.me.tags.length < 4) (coreTags : (p.coreTags p.me.agent).length < 16)
    (room : p.scoreUsed p.me.agent + (if f.mode = 0 then 4 else 5) ≤ scoreSize p.me.agent.kind) :
    let id := p.nextCmd
    let t := nextTag (p.coreTags p.me.agent) 17 p.core.tagCtr
    castPending i r f p = .done (State.withPend (newWrite .engine (p.cycle + 2) i.srcs ⟨.g, r.d.toNat⟩ ((BitVec.ofNat 64 t).setWidth 1024))
      { p with
        nextCmd := id + 2
        core := { p.core with
          locq := p.core.locq ++ [(⟨id, p.me.uid, .predict, f.h1, f.h2, f.d, f.n, f.fmt, f.mode, f.j, t, 2 + (f.n + 127) / 128, none⟩ : LocCmd)]
          tagCtr := t }
        me := { p.me with
          claims := p.me.claims ++ ([(⟨id, f.h1, f.n, false⟩ : Claim)] ++ (if f.mode = 0 then [] else [(⟨id, f.h2, f.n, false⟩ : Claim)]) ++
            [(⟨id, f.d, f.n, true⟩ : Claim), ⟨id + 1, f.d, f.n, false⟩, ⟨id + 1, f.s, f.n, false⟩])
          tags := p.me.tags ++ [(⟨t, f.d, f.s, f.rows, f.rby, f.fmt, BitVec.ofNat 32 f.abs, BitVec.ofNat 32 f.rel, f.rpl, f.bar, f.tok,
            id + 1, none, none⟩ : Tag)] } }) := by
  intro id t
  rw [castPending]
  dsimp only
  rw [if_neg (by simp [Nat.not_le.2 tags, Nat.not_le.2 coreTags]), if_neg (by split at room <;> simp_all), State.resultAt, State.pendWrite_eq]
  rfl

end

/-! ## `fwait` and `fstat` (R366, R367) -/

theorem State.resultAt_eq (kind : PendKind) (due : Nat) (keep : List Reg) (d : Nat) (v : Word) (p : State) :
    p.resultAt kind due keep d v = p.withPend (newWrite kind due keep ⟨.g, d⟩ (v.setWidth 1024)) := State.pendWrite_eq ..

/-- An instruction of R46 that waits for a result: its register is claimed, and the activity blocks. -/
theorem State.claim_block_eq (d : Nat) (b : Block) (p : State) : (p.claimReg ⟨.g, d⟩).modMe (fun a => { a with block := b }) =
    { p with me := { p.me with claimed := p.me.claimed ++ claimOf d, block := b } } := by
  rw [State.claimReg_g_eq]
  rfl

section
variable {r : R} {s : State}

theorem exec_fwait_not_outstanding (ready : Ready (.fwait r) s)
    (none : ∀ x ∈ (s.prepare (.fwait r)).me.tags, x.num ≠ ((s.prepare (.fwait r)).me.g r.a.toNat).toNat % 0x1000) :
    exec (.fwait r) s = .next ((s.prepare (.fwait r)).issued (.fwait r)
      (newWrite .engine (s.cycle + 1) (Instr.fwait r).srcs ⟨.g, r.d.toNat⟩ ((1 : Word).setWidth 1024))) := by
  have arm : exec (.fwait r) s = execFwait r s := rfl
  rw [arm, execFwait, ← State.prepare_cycle (.fwait r) s]
  refine issue_withPend ready ((if_neg ?_).trans (congrArg Eff.done (State.resultAt_eq ..)))
  simpa using none

theorem exec_fwait_waits (ready : Ready (.fwait r) s) :
    let p := s.prepare (.fwait r)
    let t := (p.me.g r.a.toNat).toNat % 0x1000
    (∃ x ∈ p.me.tags, x.num = t) →
    exec (.fwait r) s = .next ({ p.flushPending with me := { p.flushPending.me with
      claimed := p.flushPending.me.claimed ++ claimOf r.d.toNat
      block := .fwait t r.d.toNat } }.issued (.fwait r) []) := by
  intro p t outstanding
  have arm : exec (.fwait r) s = execFwait r s := rfl
  rw [arm, execFwait]
  refine issue_issued_nil ready ((if_pos ?_).trans (congrArg Eff.done (State.claim_block_eq ..)))
  simpa [p, t] using outstanding

/-- The number that `fstat` gives: the tags of the activity, flags, and the units of its held effects. -/
def fstatNumber (a : Activity) (t : Nat) : Nat :=
  a.tags.length + (if a.tags.any (fun x => x.num = t) then 8 else 0) + (if a.region.open_ && a.region.pin then 16 else 0) +
    (if a.taints ≠ [] then 32 else 0) + (a.heldBytes + 63) / 64 % 2 ^ 9 * 2 ^ 8

theorem exec_fstat (ready : Ready (.fstat r) s) : exec (.fstat r) s = .next ((s.prepare (.fstat r)).issued (.fstat r)
    (newWrite .engine (s.cycle + 2) (Instr.fstat r).srcs ⟨.g, r.d.toNat⟩ ((BitVec.ofNat 64 (fstatNumber (s.prepare (.fstat r)).me
      (((s.prepare (.fstat r)).me.g r.a.toNat).toNat % 0x1000))).setWidth 1024))) := by
  have arm : exec (.fstat r) s = execFstat r s := rfl
  rw [arm, execFstat]
  rw [← State.prepare_cycle (.fstat r) s]
  exact issue_withPend ready (congrArg Eff.done (State.resultAt_eq ..))

end

section
variable {n : Nat}

theorem getLsbD_ofNat_eq (k : Nat) (low : k < 64) : (BitVec.ofNat 64 n).getLsbD k = true ↔ n / 2 ^ k % 2 = 1 := by
  rw [BitVec.getLsbD_ofNat, decide_eq_true low, Bool.true_and, Nat.testBit_eq_decide_div_mod_eq, decide_eq_true_eq]

theorem toNat_extractLsb'_ofNat {a w : Nat} (fits : a + w ≤ 64) : ((BitVec.ofNat 64 n).extractLsb' a w).toNat = n / 2 ^ a % 2 ^ w := by
  rw [extractLsb'_ofNat_of_le fits, BitVec.toNat_ofNat]

end

theorem ite_eq_mul_toNat (b : Bool) (n : Nat) : (if b = true then n else 0) = n * b.toNat := by cases b <;> simp

/-- The digits of a number of fields of 3 bits, 1 bit three times and, from bit 8 on, 9 bits. -/
theorem fstat_digits {n h : Nat} (few : n < 8) (held : h < 512) (x y z : Bool) :
    let v := n + 8 * x.toNat + 16 * y.toNat + 32 * z.toNat + h * 256
    v / 2 ^ 0 % 2 ^ 3 = n ∧ v / 2 ^ 3 % 2 = x.toNat ∧ v / 2 ^ 4 % 2 = y.toNat ∧ v / 2 ^ 5 % 2 = z.toNat ∧ v / 2 ^ 8 % 2 ^ 9 = h ∧
      v / 2 ^ 6 % 2 ^ 2 = 0 ∧ v / 2 ^ 17 % 2 ^ 47 = 0 := by
  have bx := x.toNat_le
  have bY := y.toNat_le
  have bz := z.toNat_le
  intro v
  refine ⟨?_, ?_, ?_, ?_, ?_, ?_, ?_⟩ <;> omega

/-- The fields of the number, when the activity has fewer than 8 tags. -/
theorem fstatNumber_fields (a : Activity) (t : Nat) (few : a.tags.length < 8) :
    let v := BitVec.ofNat 64 (fstatNumber a t)
    (v.extractLsb' 0 3).toNat = a.tags.length ∧ (v.getLsbD 3 = true ↔ ∃ x ∈ a.tags, x.num = t) ∧
    (v.getLsbD 4 = true ↔ a.region.open_ = true ∧ a.region.pin = true) ∧ (v.getLsbD 5 = true ↔ a.taints ≠ []) ∧
    (v.extractLsb' 8 9).toNat = (a.heldBytes + 63) / 64 % 512 ∧ v.extractLsb' 6 2 = 0 ∧ v.extractLsb' 17 47 = 0 := by
  intro v
  have number : fstatNumber a t = a.tags.length + 8 * (a.tags.any (fun x => x.num = t)).toNat + 16 * (a.region.open_ && a.region.pin).toNat +
      32 * (decide (a.taints ≠ [])).toNat + (a.heldBytes + 63) / 64 % 512 * 256 := by
    simp only [← ite_eq_mul_toNat, decide_eq_true_eq]
    rfl
  obtain ⟨tags, outstanding, pinned, tainted, held, low, high⟩ := fstat_digits few (Nat.mod_lt _ (by decide) : (a.heldBytes + 63) / 64 % 512 < 512)
    (a.tags.any (fun x => x.num = t)) (a.region.open_ && a.region.pin) (decide (a.taints ≠ []))
  rw [← number] at tags outstanding pinned tainted held low high
  have zero {w : Nat} (x : BitVec w) (h : x.toNat = 0) : x = 0 := BitVec.eq_of_toNat_eq (by simpa using h)
  refine ⟨?_, ?_, ?_, ?_, ?_, zero _ ?_, zero _ ?_⟩
  · rw [toNat_extractLsb'_ofNat (by decide), tags]
  · rw [getLsbD_ofNat_eq 3 (by decide), outstanding, Bool.toNat_eq_one]; simp
  · rw [getLsbD_ofNat_eq 4 (by decide), pinned, Bool.toNat_eq_one, Bool.and_eq_true]
  · rw [getLsbD_ofNat_eq 5 (by decide), tainted, Bool.toNat_eq_one, decide_eq_true_eq]
  · rw [toNat_extractLsb'_ofNat (by decide), held]
  · rw [toNat_extractLsb'_ofNat (by decide), low]
  · rw [toNat_extractLsb'_ofNat (by decide), high]

/-! ## Activities as they stand: their handle, life and tags -/

/-- What of an activity finds it, keeps it, and says its tags. -/
def Activity.standing (a : Activity) : Nat × Life × List Tag := (a.uid, a.life, a.tags)

/-- A state in which the same activities stand in the same places, with the same tags. -/
structure SameStanding (s t : State) : Prop where
  me : t.me.standing = s.me.standing
  acts : t.acts.map Activity.standing = s.acts.map Activity.standing

theorem SameStanding.refl (s : State) : SameStanding s s := ⟨rfl, rfl⟩

theorem SameStanding.trans {s t u : State} (h : SameStanding s t) (k : SameStanding t u) : SameStanding s u :=
  ⟨k.me.trans h.me, k.acts.trans h.acts⟩

theorem Recorded.sameStanding {s t : State} (h : Recorded s t) : SameStanding s t := by
  rw [h.rest]
  exact ⟨rfl, rfl⟩

theorem Activity.SameButRegs.standing {a b : Activity} (h : a.SameButRegs b) : b.standing = a.standing := by rw [h]; rfl

theorem Moved.sameStanding {s t : State} (h : Moved s t) : SameStanding s t := by
  refine ⟨h.me.standing, ?_⟩
  have acts := h.acts
  generalize s.acts = l at acts
  generalize t.acts = m at acts
  induction acts with
  | nil => rfl
  | cons first _ ih => rw [List.map_cons, List.map_cons, ih, first.standing]

theorem SameStanding.modMe {s : State} {f : Activity → Activity} (h : (f s.me).standing = s.me.standing) : SameStanding s (s.modMe f) := ⟨h, rfl⟩

theorem SameStanding.modCore (s : State) (f : Core → Core) : SameStanding s (s.modCore f) := ⟨rfl, rfl⟩

theorem SameStanding.modAct {uid : Nat} {f : Activity → Activity} (s : State) (h : ∀ a : Activity, (f a).standing = a.standing) :
    SameStanding s (s.modAct uid f) := by
  unfold State.modAct
  split
  · exact ⟨h _, rfl⟩
  · refine ⟨rfl, ?_⟩
    rw [List.map_map]
    refine List.map_congr_left (fun a _ => ?_)
    simp only [Function.comp]
    split
    · exact h a
    · rfl

theorem SameStanding.foldl {α : Type} {f : State → α → State} (h : ∀ s x, SameStanding s (f s x)) (l : List α) (s : State) :
    SameStanding s (l.foldl f s) := by
  induction l generalizing s with
  | nil => exact .refl s
  | cons x l ih => exact (h s x).trans (ih _)

theorem SameStanding.deliver (d : Nat) (v : Word) (s : State) : SameStanding s (s.deliver d v) := by
  unfold State.deliver
  split
  · exact SameStanding.trans (.modMe rfl) (Moved.writeReg ..).sameStanding
  · exact .refl s

theorem SameStanding.drawIssue (a : Activity) (s : State) : SameStanding s (s.drawIssue a) := ⟨rfl, rfl⟩

theorem SameStanding.finishRend (s : State) : SameStanding s s.finishRend := by
  unfold State.finishRend
  split
  · exact .refl s
  · split
    · exact .modMe rfl
    · exact SameStanding.trans (.modMe rfl) (.drawIssue ..)

theorem SameStanding.commitSpec (s : State) : SameStanding s s.commitSpec :=
  ((Recorded.reportMe ..).sameStanding.trans (.modMe rfl)).trans (.finishRend _)

theorem SameStanding.focusCore (ag : Agent) (s : State) : SameStanding s (s.focusCore ag) := by
  unfold State.focusCore
  split
  · exact .refl s
  · exact ⟨rfl, rfl⟩

/-- An activity is found by its handle among all, the one in focus first. -/
theorem State.act?_eq (s : State) (uid : Nat) : s.act? uid = (s.me :: s.acts).find? (fun a => a.uid = uid) := by
  rw [List.find?_cons]
  unfold State.act?
  split
  next same => simp [same]
  next other => simp [other]

/-- An activity with a handle is found, and so stands. -/
def State.Stands (s : State) (x : Nat × Life × List Tag) : Prop := (s.act? x.1).map Activity.standing = some x

theorem SameStanding.act? {s t : State} (h : SameStanding s t) (uid : Nat) :
    (t.act? uid).map Activity.standing = (s.act? uid).map Activity.standing := by
  have byHandle (l : List Activity) : (l.find? (fun a => a.uid = uid)).map Activity.standing =
      (l.map Activity.standing).find? (fun x => x.1 = uid) := by
    rw [List.find?_map]
    rfl
  rw [State.act?_eq, State.act?_eq, byHandle, byHandle, List.map_cons, List.map_cons, h.me, h.acts]

theorem State.Stands.same {s t : State} {x : Nat × Life × List Tag} (h : s.Stands x) (same : SameStanding s t) : t.Stands x :=
  (same.act? x.1).trans h

theorem State.stands_me (s : State) : s.Stands s.me.standing := by
  show (s.act? s.me.uid).map Activity.standing = _
  rw [State.act?_me]
  rfl

/-- An activity that exists still stands when the focus moves. -/
theorem State.Stands.focus {s : State} {x : Nat × Life × List Tag} (h : s.Stands x) (exists_ : x.2.1 ≠ .absent) (v : Nat) : (s.focus v).Stands x := by
  unfold State.focus
  split
  · exact h.same (.focusCore ..)
  next elsewhere =>
    split
    · exact h
    next a found =>
      refine State.Stands.same (s := { s with me := a, acts := (if s.me.life = .absent then [] else [s.me]) ++ s.acts.filter (fun b => b.uid ≠ v) })
        ?_ (.focusCore ..)
      have handle : a.uid = v := by simpa using List.find?_some found
      unfold State.Stands at h ⊢
      rw [State.act?_eq] at h ⊢
      by_cases moved : v = x.1
      · subst moved
        rw [List.find?_cons_of_neg (by simpa using elsewhere), found] at h
        rw [List.find?_cons_of_pos (by simpa using handle)]
        exact h
      · have others : (s.acts.filter (fun b => b.uid ≠ v)).find? (fun b => b.uid = x.1) = s.acts.find? (fun b => b.uid = x.1) := by
          rw [List.find?_filter]
          congr 1
          funext b
          by_cases it : b.uid = x.1
          · simp [it, Ne.symm moved]
          · simp [it]
        rw [List.find?_cons_of_neg (by simpa [handle] using moved), List.find?_append, others]
        by_cases focused : s.me.uid = x.1
        · rw [List.find?_cons_of_pos (by simpa using focused)] at h
          have lives : s.me.life ≠ .absent := by
            rw [← Option.some.inj h] at exists_
            exact exists_
          rw [if_neg lives, List.find?_cons_of_pos (by simpa using focused)]
          exact h
        · rw [List.find?_cons_of_neg (by simpa using focused)] at h
          split
          · exact h
          · rw [List.find?_cons_of_neg (by simpa using focused)]
            exact h

end Sys2Proof.Machine
end

section
/-! SUPPORT. Verdicts (R363-R365), and O43. -/

namespace Sys2Proof.Machine

/-! ## A tag that passes (R363, R364) -/

theorem State.Stands.foldl {α : Type} {x : Nat × Life × List Tag} {f : State → α → State} (hf : ∀ s a, s.Stands x → (f s a).Stands x)
    (l : List α) {s : State} (h : s.Stands x) : (l.foldl f s).Stands x := by
  induction l generalizing s with
  | nil => exact h
  | cons a l ih => exact ih (hf s a h)

/-- The wait for a tag that has passed ends (R366). -/
theorem SameStanding.endWait (t : Tag) (s : State) : SameStanding s (match s.me.block with
    | .fwait num dst =>
      if num = t.num then
        (s.modMe (fun a => { a with block := .none, nextIssue := max a.nextIssue (s.cycle + 1) })).deliver dst 0
      else s
    | _ => s) := by
  split
  · split
    · exact SameStanding.trans (.modMe rfl) (.deliver ..)
    · exact .refl s
  · exact .refl s

theorem State.passTag_stands {s : State} (t : Tag) (exists_ : s.me.life ≠ .absent) :
    (s.passTag t).Stands (s.me.uid, s.me.life, s.me.tags.filter (fun x => x.num ≠ t.num)) := by
  have dropped := State.stands_me (s.modMe (fun a => { a.release t.cmd with tags := a.tags.filter (fun x => x.num ≠ t.num) }))
  unfold State.passTag
  dsimp only
  refine State.Stands.focus (State.Stands.foldl (fun s v h => ?_) _ (State.Stands.same ?_ (SameStanding.endWait t _))) exists_ _
  · have focused := h.focus exists_ v
    split
    · exact focused
    · exact focused.same (.commitSpec _)
  · have cleared := dropped.same (SameStanding.foldl (fun s (a : Activity) => SameStanding.modAct (uid := a.uid) s
      (f := fun a => { a with taints := a.taints.filter (· ≠ t.num) }) (fun _ => rfl))
      ((s.residents s.me.agent).filter (fun a => decide (t.num ∈ a.taints))) _)
    split
    · exact cleared.same ⟨rfl, rfl⟩
    · exact cleared

theorem State.act?_of_stands {s : State} {x : Nat × Life × List Tag} (h : s.Stands x) : ∃ b, s.act? x.1 = some b ∧ b.tags = x.2.2 := by
  obtain ⟨b, found, rfl⟩ := Option.map_eq_some_iff.1 h
  exact ⟨b, found, rfl⟩

/-! ## A squash (R365) -/

theorem SameStanding.ite {p : Prop} [Decidable p] {s t : State} (h : SameStanding s t) : SameStanding s (if p then t else s) := by
  split
  · exact h
  · exact .refl s

theorem SameStanding.commitWhere (p : Pend → Bool) (s : State) : SameStanding s (s.commitWhere p) :=
  SameStanding.trans (.modMe rfl) (.foldl (fun _ _ => (Moved.writeReg ..).sameStanding) _ _)

theorem SameStanding.dropCmd (c : Cmd) (s : State) : SameStanding s (s.dropCmd c) :=
  SameStanding.trans (.modCore ..) (.modAct _ (fun _ => rfl))

theorem Activity.standing_withLm (a : Activity) (m : LMem) : ({ a with lm := m } : Activity).standing = a.standing := rfl

theorem Activity.standing_setBar (a : Activity) (y : Nat) (b : Bar) : (a.setBar y b).standing = a.standing := Activity.standing_withLm a _

theorem Activity.standing_ite (p : Prop) [Decidable p] {a b : Activity} (h : b.standing = a.standing) : (if p then a else b).standing = a.standing := by
  split
  · rfl
  · exact h

theorem SameStanding.cancelLoad (c : Cmd) (s : State) : SameStanding s (s.cancelLoad c) := by
  have dropped : SameStanding s ((s.dropCmd c).modAct c.owner (fun a => if c.staged = [] then a else { a with lm := a.lm.land c.staged })) :=
    (SameStanding.dropCmd c s).trans (.modAct _ (fun a => Activity.standing_ite _ (Activity.standing_withLm a _)))
  unfold State.cancelLoad
  extract_lets t
  split
  · exact dropped
  · exact dropped.trans (.modAct _ (fun a => Activity.standing_ite _ (Activity.standing_setBar ..)))

theorem SameStanding.restoreSnapshot (s : State) : SameStanding s s.restoreSnapshot := by
  unfold State.restoreSnapshot
  extract_lets
  refine SameStanding.trans (.modMe rfl) (SameStanding.foldl (fun s (x, off, bound) => ?_) _ _)
  dsimp only
  split
  · exact (Moved.writeReg ..).sameStanding
  · exact .refl s

theorem SameStanding.staleResults (s : State) : SameStanding s s.staleResults := ⟨rfl, rfl⟩

theorem SameStanding.cancelLoads (mark : Nat) (s : State) : SameStanding s (s.cancelLoads mark) := .foldl (fun s c => .cancelLoad c s) _ _

theorem SameStanding.dropMats (mark : Nat) (s : State) : SameStanding s (s.dropMats mark) := ⟨rfl, rfl⟩

theorem SameStanding.endTest (v : Nat) (s : State) : SameStanding s (s.endTest v) := .ite (.modCore ..)

/-- A change of the activity in focus says what it is, whatever it was but for how it stands. -/
theorem SameStanding.modMe_both {s t : State} (h : SameStanding s t) {f g : Activity → Activity}
    (same : ∀ a b : Activity, b.standing = a.standing → (g b).standing = (f a).standing) : SameStanding (s.modMe f) (t.modMe g) :=
  ⟨same _ _ h.me, h.acts⟩

/-- A rewind leaves the activities as they stand, but the one in focus is live. -/
theorem SameStanding.rewind (s : State) : SameStanding (s.modMe (fun a => { a with life := .live })) s.rewind := by
  have before : SameStanding s (((((s.commitWhere (fun _ => true)).staleResults).cancelLoads
      ((s.commitWhere (fun _ => true)).staleResults).me.region.cmdMark).dropMats
        ((s.commitWhere (fun _ => true)).staleResults).me.region.cmdMark).restoreSnapshot) :=
    ((((SameStanding.commitWhere ..).trans (.staleResults _)).trans (.cancelLoads ..)).trans (.dropMats ..)).trans (.restoreSnapshot _)
  unfold State.rewind
  refine SameStanding.modMe_both before (fun a b h => ?_)
  obtain ⟨uid, -, tags⟩ : b.uid = a.uid ∧ b.life = a.life ∧ b.tags = a.tags := by simpa [Activity.standing] using h
  simp [Activity.standing, uid, tags]

/-- A squash leaves the activities as they stand, but the one in focus is live and has no tag. -/
theorem SameStanding.squashMe (v : Nat) (s : State) : SameStanding (s.modMe (fun a => { a with life := .live, tags := [] })) (s.squashMe v) := by
  have reported : SameStanding s ((s.endTest v).reportMe 5 0 1) := (SameStanding.endTest v s).trans (Recorded.reportMe ..).sameStanding
  have live := (reported.modMe_both (f := fun a => { a with life := .live }) (g := fun a => { a with life := .live }) (fun a b h => by
    obtain ⟨uid, -, tags⟩ : b.uid = a.uid ∧ b.life = a.life ∧ b.tags = a.tags := by simpa [Activity.standing] using h
    simp [Activity.standing, uid, tags])).trans (.rewind _)
  unfold State.squashMe
  refine SameStanding.modMe_both (s := s.modMe (fun a => { a with life := .live })) (f := fun a => { a with tags := [] }) (live.trans (.modCore ..))
    (fun a b h => ?_)
  obtain ⟨uid, life, -⟩ : b.uid = a.uid ∧ b.life = a.life ∧ b.tags = a.tags := by simpa [Activity.standing] using h
  simp [Activity.standing, Activity.unspeculate, uid, life]

/-- An activity with a handle exists. -/
def State.Exists (s : State) (uid : Nat) : Prop := ∃ life tags, life ≠ .absent ∧ s.Stands (uid, life, tags)

theorem State.Exists.focus {s : State} {uid : Nat} (h : s.Exists uid) (v : Nat) : (s.focus v).Exists uid := by
  obtain ⟨life, tags, exists_, stands⟩ := h
  exact ⟨life, tags, exists_, stands.focus exists_ v⟩

theorem State.Exists.same {s t : State} {uid : Nat} (h : s.Exists uid) (same : SameStanding s t) : t.Exists uid := by
  obtain ⟨life, tags, exists_, stands⟩ := h
  exact ⟨life, tags, exists_, stands.same same⟩

theorem State.Exists.modMe {s : State} {uid : Nat} (h : s.Exists uid) {f : Activity → Activity} (handle : (f s.me).uid = s.me.uid)
    (lives : s.me.life ≠ .absent → (f s.me).life ≠ .absent) : (s.modMe f).Exists uid := by
  obtain ⟨life, tags, exists_, stands⟩ := h
  by_cases focused : s.me.uid = uid
  · subst focused
    have same : s.me.standing = (s.me.uid, life, tags) := Option.some.inj ((s.stands_me).symm.trans stands)
    have known : s.me.life = life := congrArg (fun x => x.2.1) same
    refine ⟨(f s.me).life, (f s.me).tags, lives (known ▸ exists_), ?_⟩
    rw [← handle]
    exact (s.modMe f).stands_me
  · refine ⟨life, tags, exists_, ?_⟩
    have elsewhere : ¬ (f s.me).uid = uid := by rwa [handle]
    have same : (s.modMe f).act? uid = s.act? uid := (if_neg elsewhere).trans (if_neg focused).symm
    exact (congrArg (Option.map Activity.standing) same).trans stands

theorem State.Exists.squashMe {s : State} {uid : Nat} (h : s.Exists uid) (v : Nat) : (s.squashMe v).Exists uid :=
  (h.modMe rfl (fun _ => by simp)).same (.squashMe v s)

theorem State.Exists.squashTainted {uid : Nat} (ag : Agent) (v fuel : Nat) (nums : List Nat) {s : State} (h : s.Exists uid) :
    (s.squashTainted ag v fuel nums).Exists uid := by
  induction fuel generalizing nums s with
  | zero => exact h
  | succ fuel ih =>
    unfold State.squashTainted
    split
    · exact h
    · exact ih _ ((h.focus _).squashMe v)

/-- The focus finds an activity that exists. -/
theorem State.Exists.focus_uid {s : State} {uid : Nat} (h : s.Exists uid) : (s.focus uid).me.uid = uid := by
  obtain ⟨life, tags, -, stands⟩ := h
  unfold State.focus
  split
  next same => exact (congrArg Prod.fst (SameStanding.focusCore s.me.agent s).me).trans same
  next elsewhere =>
    split
    next nowhere =>
      have missing : s.act? uid = none := (if_neg elsewhere).trans nowhere
      have found : (s.act? uid).map Activity.standing = some (uid, life, tags) := stands
      rw [missing] at found
      cases found
    next a found =>
      have handle : a.uid = uid := by simpa using List.find?_some found
      exact (congrArg Prod.fst (SameStanding.focusCore a.agent { s with
        me := a, acts := (if s.me.life = .absent then [] else [s.me]) ++ s.acts.filter (fun b => b.uid ≠ uid) }).me).trans handle

theorem State.exists_me {s : State} (exists_ : s.me.life ≠ .absent) : s.Exists s.me.uid := ⟨_, _, exists_, s.stands_me⟩

theorem State.Exists.dropTags {s : State} {uid : Nat} (h : s.Exists uid) (v : Nat) : (s.dropTags v).Exists uid :=
  (((h.same (.endTest v s)).modMe rfl id).squashTainted ..).focus _

/-- A tag that fails leaves its activity without tags. -/
theorem State.failTag_effect {s : State} (elast : Bool) (v : Nat) (exists_ : s.me.life ≠ .absent) :
    ∃ b, (s.failTag elast v).act? s.me.uid = some b ∧ b.tags = [] ∧ b.taints = [] := by
  have reported : SameStanding s (if elast then s.reportMe 6 0 0 else s) := .ite (Recorded.reportMe ..).sameStanding
  have handle : (if elast then s.reportMe 6 0 0 else s).me.uid = s.me.uid := congrArg Prod.fst reported.me
  have known : (if elast then s.reportMe 6 0 0 else s).me.life = s.me.life := congrArg (fun x => x.2.1) reported.me
  unfold State.failTag
  dsimp only
  generalize (if elast then s.reportMe 6 0 0 else s) = t at handle known
  have focused : ((t.dropTags v).squashMe v).me.uid = s.me.uid := by
    have found : (t.dropTags v).me.uid = t.me.uid := by
      have lives : t.me.life ≠ .absent := by rwa [known]
      have squashed := (((State.exists_me lives).same (.endTest v t)).modMe (f := Activity.unspeculate) rfl id).squashTainted t.me.agent v 32
        (t.me.tags.map (fun t => t.num))
      exact squashed.focus_uid
    exact ((congrArg Prod.fst (SameStanding.squashMe v (t.dropTags v)).me).trans found).trans handle
  exact ⟨_, if_pos focused, rfl, rfl⟩

/-! ## The verdict (R363) -/

theorem State.focusCore_core (ag : Agent) (s : State) : (s.focusCore ag).core = s.coreOf ag := by
  unfold State.focusCore
  split
  next same => exact (if_pos same).symm
  next => rfl

theorem State.focusCore_me (ag : Agent) (s : State) : (s.focusCore ag).me = s.me := by
  unfold State.focusCore
  split <;> rfl

/-- The focus on an activity that is found: it is the activity in focus, with the core on which it stands. -/
theorem State.focus_of_found {s : State} {uid : Nat} {a : Activity} (found : s.act? uid = some a) :
    (s.focus uid).me = a ∧ (s.focus uid).core = s.coreOf a.agent := by
  unfold State.act? at found
  unfold State.focus
  split at found
  next same =>
    obtain rfl := Option.some.inj found
    rw [if_pos same]
    exact ⟨State.focusCore_me .., State.focusCore_core ..⟩
  next other =>
    rw [if_neg other, found]
    exact ⟨State.focusCore_me .., State.focusCore_core ..⟩

/-- The comparator decides a tag whose prediction is written, once the beats of its tiles have passed and no tag comes before it. -/
theorem exec_verdict {s : State} {uid p w : Nat} {e : Bool} {a : Activity} {t : Tag} (found : s.act? uid = some a)
    (tag : a.tags.find? (fun x => x.num = t.num) = some t) (completed : t.completed = some (p, e)) (written : t.written = some w)
    (first : s.servedBefore a.agent p t.cmd = false)
    (passed : max (p + 1) (max (w + 1) (s.focus uid).core.cmpFree) + (t.rows * t.rby + 127) / 128 ≤ s.cycle + 1) :
    let q : State := { s.focus uid with
      cycle := s.cycle + 1
      core := { (s.focus uid).core with cmpFree := s.cycle + 2 } }
    exec (.verdict uid t.num) s = .next { (if (!e && q.tagPasses t) = true then q.passTag t else q.failTag e (s.cycle + 1)) with cycle := s.cycle } := by
  intro q
  have arm : exec (.verdict uid t.num) s = execVerdict uid t.num s := rfl
  have start : t.testStart (s.coreOf a.agent).cmpFree = some (max (p + 1) (max (w + 1) (s.focus uid).core.cmpFree)) := by
    rw [Tag.testStart, completed, written, (State.focus_of_found found).2]
  rw [arm, execVerdict, found]
  dsimp only
  rw [tag]
  dsimp only
  rw [start, completed]
  exact congrArg Host.Outcome.next (if_neg (by
    simp only [first, beats128, Bool.false_or]
    exact mt of_decide_eq_true (Nat.not_lt.2 passed)))

/-! ## The statement -/

theorem exec_heldBufferSpace {s : State} {need : Nat} (waits : s.me.block = .held need)
    (room : s.heldUsed s.me.agent + need ≤ 16384 ∨ s.me.speculative = false) : exec (.heldBufferSpace s.me.uid) s = .next { s with me := { s.me with
      block := .none
      nextIssue := max s.me.nextIssue (s.cycle + 1) } } := by
  have arm : exec (.heldBufferSpace s.me.uid) s = execHeldBufferSpace s.me.uid s := rfl
  rw [arm, execHeldBufferSpace, State.act?_me]
  dsimp only
  rw [waits]
  exact congrArg Host.Outcome.next ((if_pos (by simpa using room)).trans (if_pos rfl))

theorem elemPasses_of_finite {f x y : Nat} {abs rel v w : Val} (hv : elemVal f x = v) (hw : elemVal f y = w) (vNumber : v.isNan = false)
    (wNumber : w.isNan = false) (vFinite : v.isFinite = true) (wFinite : w.isFinite = true) :
    elemPasses f abs rel x y = (v.eq w || !((abs.add false (rel.mul v.abs)).lt (v.add false w.neg).abs)) := by
  subst hv hw
  simp only [elemPasses, vNumber, wNumber, vFinite, wFinite]
  cases (elemVal f x).eq (elemVal f y) <;> simp

/-- Settles O43: each instruction by the cases of its effect, the verdict by how the activities stand after it. -/
theorem forecasts : Obligations.Forecasts := by
  unfold Obligations.Forecasts
  refine ⟨⟨fun r s ready => ?cast, fun r s ready => ?fault, fun r s ready => ⟨exec_fwait_not_outstanding ready, exec_fwait_waits ready⟩,
    fun r s ready => ⟨_, exec_fstat ready, fstatNumber_fields _ _⟩⟩, ?verdict, fun f abs rel x y v w => elemPasses_of_finite,
    fun s need => exec_heldBufferSpace⟩
  case cast =>
    have arm : exec (.fcast r) s = issue (.fcast r) s (effFcast r) := rfl
    rw [arm, ← State.prepare_cycle (.fcast r) s]
    intro p y f b id n within aligned opened unpinned free good dst src h1 h2 bar
    have effect : effFcast r p = if b.ahead f.tok = 0 then castPending (.fcast r) r f p else castComplete (.fcast r) r f (b.ahead f.tok) b p :=
      effFcast_of_good within aligned opened unpinned free good dst src h1 h2 bar
    refine ⟨fun complete room => ?_, fun pending tags coreTags room => ?_, fun pending full => ?_⟩
    · exact issue_withPend ready (effect.trans ((if_neg complete).trans (castComplete_of_room room)))
    · exact issue_withPend ready (effect.trans ((if_pos pending).trans (castPending_of_room tags coreTags room)))
    · exact issue_hold ready (effect.trans ((if_pos pending).trans (castPending_of_full full)))
  case fault =>
    have arm : exec (.fcast r) s = issue (.fcast r) s (effFcast r) := rfl
    rw [arm]
    exact fun within aligned => ⟨fun outside => issue_fault ready (effFcast_outside_region within aligned outside),
      fun opened unpinned free bad => issue_fault ready (effFcast_bad_descriptor within aligned opened unpinned free bad)⟩
  case verdict =>
    intro s uid p w e a t found tag completed written f q handle exists_ first passed
    have me : q.me = a := (State.focus_of_found found).1
    have lives : q.me.life ≠ .absent := by rwa [me]
    have uid_eq : q.me.uid = uid := by rw [me, handle]
    rw [exec_verdict found tag completed written first passed]
    refine ⟨fun noError passes => ⟨?_, ?_⟩, fun bad => ⟨?_, ?_⟩⟩
    · rw [if_pos (by rw [noError]; exact passes)]
    · obtain ⟨b, stands, tags⟩ := State.act?_of_stands (State.passTag_stands t lives)
      rw [uid_eq] at stands
      refine ⟨b, stands, fun x => ?_⟩
      rw [tags, me]
      simp
    · rw [if_neg]
      rcases bad with error | fails
      · simp [error]
      · simpa using fun _ => fails
    · have effect := State.failTag_effect e (s.cycle + 1) lives
      rwa [uid_eq] at effect

end Sys2Proof.Machine
end

section
/-! SUPPORT. A rank whose source lies in a window without a partner, and O42. -/

namespace Sys2Proof.Machine

/-- A two-rank collective that reads 32 bytes at the first address of the partner's window. -/
def windowRank : CollRank := ⟨50, 51, 5, ⟨2, 5, 0, false, 0, 32, 0⟩, 0, 0x400000, 0xC00, 0, 0, none, none, false, none, false⟩

/-- An activity with that collective, at home on compute core 0 and in no meeting. -/
def windowReader : Activity :=
  { Activity.absent with
    uid := 1
    life := .live
    coll := some windowRank }

/-- The complete group of the collective; the other rank is on the same core. -/
def windowGroup : Group :=
  ⟨1, 0, 0, 5, windowRank.op, [⟨0, 1, coreAgent 0, 0, 1, none, false, 0, []⟩, ⟨1, 2, coreAgent 0, 0, 1, none, false, 0, []⟩], none, false, some 0⟩

/-- GO has reached the rank. -/
def goAtWindow : State :=
  { State.reset with
    cycle := 1000
    me := windowReader
    dirs := { State.reset.dirs with groups := [windowGroup] } }

/-- A window without a partner behind it reads as no bytes at all. -/
theorem goAtWindow_reads_nothing : (goAtWindow.focus 1).readLocal 0x400000 32 = [] := by decide +kernel

/-- Refutes O42, by its clause on the luggage of a rank that GO has reached, which speaks of every source, and not only of one that `coll` takes: an
activity in no meeting whose source lies in the window of a partner reads no bytes there, while its luggage has all 32. (No run is shown to
reach this state: `coll` checks its source, and refuses a party.) -/
theorem not_collectives : ¬ Obligations.Collectives := by
  unfold Obligations.Collectives
  rintro ⟨-, -, -, -, -, go, -⟩
  obtain ⟨sends, -⟩ := go goAtWindow 1 0 windowReader windowGroup _ windowRank rfl rfl rfl rfl rfl
  obtain ⟨lug, ids, -, -, bytes, -⟩ := sends rfl (by decide +kernel) (by decide +kernel) (by decide +kernel) (by decide +kernel)
  have luggage : (lug.bytes.readN 0 32).length = 0 := congrArg List.length (bytes.trans goAtWindow_reads_nothing)
  rw [Memory.readN_length] at luggage
  cases luggage

end Sys2Proof.Machine
end
